-- ==== Sys2Proof/Word.lean ====
section
/-! DEFINITION. The word types of the TV58: 64-bit registers and addresses, bytes, etch words, vector registers, masks (R141, R336). -/

namespace Sys2Proof

/-- A 64-bit register or address (R98, R141). -/
abbrev Word := BitVec 64

/-- One byte of memory. -/
abbrev Byte := BitVec 8

/-- A vector register, 2,048 bits (R142). -/
abbrev VReg := BitVec 2048

/-- A mask register, 128 bits (R142). -/
abbrev MReg := BitVec 128

end Sys2Proof
end

