-- ==== Sys2Proof/Machine/Codes.lean ====
section
/-! DEFINITION. The code sets an instruction word's fields draw from: register kinds (R139, R289), type codes and widths (R75, R201),
rounding codes (R76), scopes (R118), and the operand limits the engine chapters set (R216, R218, R265, R288). -/

namespace Sys2Proof

/-- The kinds of register field of R139 and R289; `none` marks a field that names no register. -/
inductive Kind where
  | none | s | v | sv | p | m | o | w | q | x
deriving DecidableEq, Repr

/-- R139: the codes a field of each kind accepts. -/
def Kind.ok : Kind → Nat → Bool
  | .none, _ => true
  | .s, c => decide (c < 32)
  | .v, c => decide (32 ≤ c ∧ c < 64)
  | .sv, c => decide (c < 64)
  | .p, c => decide (c < 8)
  | .m, c => decide (c < 8)
  | .o, c => decide (c < 16)
  | .w, c => decide (c < 16)
  | .q, c => decide (c < 64)
  | .x, c => decide (c < 64)

/-- R201: the element width of a type code. Codes 14 and 15 are reserved (R75) and have none. -/
def elemWidth : Nat → Nat
  | 0 | 7 => 4
  | 1 | 2 | 8 | 9 | 13 => 8
  | 3 | 4 | 10 | 11 => 16
  | 5 | 6 | 12 => 32
  | _ => 0

/-- R201: the elements of a v register under a type code. -/
def elems (ty : Nat) : Nat :=
  if elemWidth ty = 0 then 0 else 2048 / elemWidth ty

/-- R75: the signed integer types i4, i8, i16, i32. -/
def isSignedTy (ty : Nat) : Bool := ty == 0 || ty == 1 || ty == 3 || ty == 5

/-- R75: the integer types. -/
def isIntTy (ty : Nat) : Bool := decide (ty ≤ 6)

def tyAll : List Nat := [0, 1, 2, 3, 4, 5, 6, 7, 8, 9, 10, 11, 12, 13]
def tyInt : List Nat := [0, 1, 2, 3, 4, 5, 6]
def tySigned : List Nat := [0, 1, 3, 5]
def tyUnsigned : List Nat := [2, 4, 6]
def tyWideInt : List Nat := [3, 4, 5, 6]
def tyFloat : List Nat := [10, 11, 12]
def tyHalf : List Nat := [10, 11]
def tyF32 : List Nat := [12]
def tyWord : List Nat := [5, 6, 12]
def tyWordInt : List Nat := [5, 6]
/-- R218, R222: every type but the 4-bit ones. -/
def tyByteUp : List Nat := [1, 2, 3, 4, 5, 6, 8, 9, 10, 11, 12, 13]
/-- R288: the matrix operand types. -/
def tyMat : List Nat := [0, 1, 2, 7, 8, 9, 10, 11]
/-- R288: the types of `mzero`. -/
def tyAcc : List Nat := [5, 12]
def tyZero : List Nat := [0]

def rnd05 : List Nat := [0, 1, 2, 3, 4, 5]
def rnd04 : List Nat := [0, 1, 2, 3, 4]
def rnd0 : List Nat := [0]

/-- R118, row by row. -/
def scMem : List Nat := [0, 1, 2, 3, 4, 5, 7, 10, 11]
def scOv : List Nat := [0, 1, 2, 3, 4, 5, 6, 7, 10, 11]
def scX : List Nat := [0, 1, 2, 3, 4, 5, 7, 8, 10, 11]
def scXov : List Nat := [0, 1, 2, 3, 4, 5, 6, 7, 8, 10, 11]
def scEd : List Nat := [0, 1, 2, 3, 4, 5, 7, 9, 10, 11]
def scFence : List Nat := [0, 1, 2, 3, 4, 5, 6, 7, 8, 9, 10, 11]
def scZero : List Nat := [0]

/-- R265: the types `ovld` and `xovld` accept for an operation. -/
def ovldTypes (o : Nat) : List Nat := if o ≤ 2 then [5, 6, 10, 11, 12] else [5, 6]

/-- R265: the largest size field for a type. -/
def ovldMaxCnt (ty : Nat) : Nat := if ty = 10 ∨ ty = 11 then 31 else 63

def ovldOk (ty o cnt : Nat) : Bool :=
  decide (o ≤ 5) && (ovldTypes o).contains ty && decide (cnt ≤ ovldMaxCnt ty)

/-- R220: the rounding codes of `vfscan`. -/
def fscanRounds (o : Nat) : List Nat := if o = 0 then rnd04 else rnd0

/-- R213: 0 `vcvt`, 1 `vpack`, 2 `vunpack`: TYPE is acceptable on its own. -/
def cvtTdOk : Nat → Nat → Bool
  | 0, td => decide (td ≤ 13)
  | 1, td => decide (td ≤ 12) && elemWidth td != 32
  | _, td => decide (td ≤ 12) && elemWidth td != 4

/-- R213: the pair of destination and source types is acceptable. -/
def cvtPairOk : Nat → Nat → Nat → Bool
  | 0, td, ts => decide (ts ≤ 13) && (td != 13 || ts == 12 || ts == 13) && (ts != 13 || td == 12 || td == 13)
  | 1, td, ts => decide (ts ≤ 12) && elemWidth ts == 2 * elemWidth td
  | _, td, ts => decide (ts ≤ 12) && elemWidth td == 2 * elemWidth ts

/-- R213: the rounding codes of a conversion. -/
def cvtRounds (td ts : Nat) : List Nat := if isIntTy td && isIntTy ts then rnd0 else rnd05

/-- R217: the kinds of `mmov`'s D and A under its selector. -/
def mmovKinds (d a sel : Nat) : Bool :=
  match sel with
  | 0 => Kind.m.ok d && Kind.m.ok a
  | 1 => Kind.m.ok d && Kind.v.ok a
  | 2 => Kind.v.ok d && Kind.m.ok a
  | _ => false

/-- R218: the index of `vbcast`: 0 for an s source, below n for a v source. -/
def vbcastIndexOk (a ty i : Nat) : Bool :=
  if a < 32 then i == 0 else decide (i < elems ty)

/-- R288: the rows of a shape code. -/
def shapeRows (mc : Nat) : Nat := 16 * 2 ^ mc

/-- R288: the columns of a shape code; 1,024 is written as 0. -/
def shapeCols (nc : Nat) : Nat := if nc = 0 then 1024 else 16 * nc

/-- R288: MC, rows and columns lie in the accumulator. -/
def shapeOk (x mc nc row : Nat) : Bool :=
  decide (mc ≠ 3) && decide (16 * row + shapeRows mc ≤ 64) && decide (16 * x + shapeCols nc ≤ 1024)

/-- R278: slots of an A operand of m rows. -/
def aSlots (m : Nat) : Nat := (m + 31) / 32

/-- R278: slots of a B operand of n columns. -/
def bSlots (n : Nat) : Nat := (n + 31) / 32

def mmaOk (x a b mc nc row : Nat) : Bool :=
  shapeOk x mc nc row && decide (a + aSlots (shapeRows mc) ≤ 64) && decide (b + bSlots (shapeCols nc) ≤ 64)

def mmagOk (x a b nc : Nat) : Bool :=
  decide (16 * x + shapeCols nc ≤ 1024) && decide (a + 2 ≤ 64) && decide (b + bSlots (shapeCols nc) ≤ 64)

/-- R294: slots of each side of `mtr`. -/
def mtrSlots (ty : Nat) : Nat := if elemWidth ty = 0 then 0 else 16 / elemWidth ty

def mtrOk (d a ty : Nat) : Bool :=
  decide (d + mtrSlots ty ≤ 64) && decide (a + mtrSlots ty ≤ 64) &&
    (decide (d + mtrSlots ty ≤ a) || decide (a + mtrSlots ty ≤ d))

end Sys2Proof
end

