-- ==== Sys2Proof/Syntax.lean ====
section
/-! DEFINITION. The instructions and events of the TV58: one constructor per row of spec/opcode_table.json.
Operands of an instruction word are the values of its fields (R137), as natural numbers; Sys2Proof.WellFormed bounds them.
A constructor of the last part is an event of the machine that no word encodes; the agenda of the state names it. -/

namespace Sys2Proof

/-- The rows of the opcode table (R143 for the words). Register operands are the 6-bit codes of R139. -/
inductive Instr where
  /-- R143: MAJ 0x01, FN 0, `nop`. -/
  | nop
  /-- R168: MAJ 0x02, FN 0, `add sd, sa, sb`. -/
  | add (d a b : Nat)
  /-- R168: MAJ 0x02, FN 1, `sub sd, sa, sb`. -/
  | sub (d a b : Nat)
  /-- R168: MAJ 0x02, FN 2, `mul sd, sa, sb`. -/
  | mul (d a b : Nat)
  /-- R168: MAJ 0x02, FN 3, `mulh sd, sa, sb`. -/
  | mulh (d a b : Nat)
  /-- R168: MAJ 0x02, FN 4, `mulhn sd, sa, sb`. -/
  | mulhn (d a b : Nat)
  /-- R168: MAJ 0x02, FN 5, `div sd, sa, sb`. -/
  | div (d a b : Nat)
  /-- R168: MAJ 0x02, FN 6, `divn sd, sa, sb`. -/
  | divn (d a b : Nat)
  /-- R168: MAJ 0x02, FN 7, `rem sd, sa, sb`. -/
  | rem (d a b : Nat)
  /-- R168: MAJ 0x02, FN 8, `remn sd, sa, sb`. -/
  | remn (d a b : Nat)
  /-- R168: MAJ 0x02, FN 9, `madd sd, sa, sb, sc`. -/
  | madd (d a b c : Nat)
  /-- R168: MAJ 0x02, FN 10, `msub sd, sa, sb, sc`. -/
  | msub (d a b c : Nat)
  /-- R168: MAJ 0x02, FN 11, `min sd, sa, sb`. -/
  | min (d a b : Nat)
  /-- R168: MAJ 0x02, FN 12, `max sd, sa, sb`. -/
  | max (d a b : Nat)
  /-- R168: MAJ 0x02, FN 13, `minn sd, sa, sb`. -/
  | minn (d a b : Nat)
  /-- R168: MAJ 0x02, FN 14, `maxn sd, sa, sb`. -/
  | maxn (d a b : Nat)
  /-- R168: MAJ 0x02, FN 15, `abs sd, sa`. -/
  | abs (d a : Nat)
  /-- R169: MAJ 0x03, FN 0, `and sd, sa, sb`. -/
  | and (d a b : Nat)
  /-- R169: MAJ 0x03, FN 1, `or sd, sa, sb`. -/
  | or (d a b : Nat)
  /-- R169: MAJ 0x03, FN 2, `xor sd, sa, sb`. -/
  | xor (d a b : Nat)
  /-- R169: MAJ 0x03, FN 3, `andn sd, sa, sb`. -/
  | andn (d a b : Nat)
  /-- R169: MAJ 0x03, FN 4, `orn sd, sa, sb`. -/
  | orn (d a b : Nat)
  /-- R169: MAJ 0x03, FN 5, `xnor sd, sa, sb`. -/
  | xnor (d a b : Nat)
  /-- R169: MAJ 0x03, FN 6, `sll sd, sa, sb`. -/
  | sll (d a b : Nat)
  /-- R169: MAJ 0x03, FN 7, `srl sd, sa, sb`. -/
  | srl (d a b : Nat)
  /-- R169: MAJ 0x03, FN 8, `sra sd, sa, sb`. -/
  | sra (d a b : Nat)
  /-- R169: MAJ 0x03, FN 9, `rol sd, sa, sb`. -/
  | rol (d a b : Nat)
  /-- R169: MAJ 0x03, FN 10, `ror sd, sa, sb`. -/
  | ror (d a b : Nat)
  /-- R169: MAJ 0x03, FN 11, `sel sd, sa, sb, sc`. -/
  | sel (d a b c : Nat)
  /-- R170: MAJ 0x04, FN 0, `clz sd, sa`. -/
  | clz (d a : Nat)
  /-- R170: MAJ 0x04, FN 1, `ctz sd, sa`. -/
  | ctz (d a : Nat)
  /-- R170: MAJ 0x04, FN 2, `popc sd, sa`. -/
  | popc (d a : Nat)
  /-- R170: MAJ 0x04, FN 3, `bswap sd, sa`. -/
  | bswap (d a : Nat)
  /-- R170: MAJ 0x04, FN 4, `bext sd, sa, sb`. -/
  | bext (d a b : Nat)
  /-- R170: MAJ 0x04, FN 5, `bdep sd, sa, sb`. -/
  | bdep (d a b : Nat)
  /-- R171: MAJ 0x04, FN 6, `bfx sd, sa, pos, len`. -/
  | bfx (d a pos len : Nat)
  /-- R171: MAJ 0x04, FN 7, `bfxn sd, sa, pos, len`. -/
  | bfxn (d a pos len : Nat)
  /-- R171: MAJ 0x04, FN 8, `bfi sd, sa, pos, len`. -/
  | bfi (d a pos len : Nat)
  /-- R172: MAJ 0x05, FN 0, `lea sd, sa, sb, sh, off`. -/
  | lea (d a b off sh : Nat)
  /-- R172: MAJ 0x05, FN 1, `tla sd, sa, sb, off`. -/
  | tla (d a b off : Nat)
  /-- R172: MAJ 0x05, FN 2, `gla sd, sa, sb, off`. -/
  | gla (d a b off : Nat)
  /-- R173: MAJ 0x10, FN 0, `addi`. -/
  | addi (d a imm : Nat)
  /-- R173: MAJ 0x10, FN 1, `muli`. -/
  | muli (d a imm : Nat)
  /-- R173: MAJ 0x10, FN 2, `andi`. -/
  | andi (d a imm : Nat)
  /-- R173: MAJ 0x10, FN 3, `ori`. -/
  | ori (d a imm : Nat)
  /-- R173: MAJ 0x10, FN 4, `xori`. -/
  | xori (d a imm : Nat)
  /-- R173: MAJ 0x10, FN 5, `slli`. -/
  | slli (d a imm : Nat)
  /-- R173: MAJ 0x10, FN 6, `srli`. -/
  | srli (d a imm : Nat)
  /-- R173: MAJ 0x10, FN 7, `srai`. -/
  | srai (d a imm : Nat)
  /-- R173: MAJ 0x10, FN 8, `li`. -/
  | li (d imm : Nat)
  /-- R173: MAJ 0x10, FN 9, `lih`. -/
  | lih (d a imm : Nat)
  /-- R174: MAJ 0x18, FN 0, `ceq pd, sa, sb`. -/
  | ceq (d a b : Nat)
  /-- R174: MAJ 0x18, FN 1, `cne pd, sa, sb`. -/
  | cne (d a b : Nat)
  /-- R174: MAJ 0x18, FN 2, `clt pd, sa, sb`. -/
  | clt (d a b : Nat)
  /-- R174: MAJ 0x18, FN 3, `cle pd, sa, sb`. -/
  | cle (d a b : Nat)
  /-- R174: MAJ 0x18, FN 4, `cltn pd, sa, sb`. -/
  | cltn (d a b : Nat)
  /-- R174: MAJ 0x18, FN 5, `clen pd, sa, sb`. -/
  | clen (d a b : Nat)
  /-- R174: MAJ 0x19, FN 0, `ceqi pd, sa, imm`. -/
  | ceqi (d a imm : Nat)
  /-- R174: MAJ 0x19, FN 1, `cnei pd, sa, imm`. -/
  | cnei (d a imm : Nat)
  /-- R174: MAJ 0x19, FN 2, `clti pd, sa, imm`. -/
  | clti (d a imm : Nat)
  /-- R174: MAJ 0x19, FN 3, `clei pd, sa, imm`. -/
  | clei (d a imm : Nat)
  /-- R174: MAJ 0x19, FN 4, `cltni pd, sa, imm`. -/
  | cltni (d a imm : Nat)
  /-- R174: MAJ 0x19, FN 5, `cleni pd, sa, imm`. -/
  | cleni (d a imm : Nat)
  /-- R175: MAJ 0x1A, FN 0, `pand pd, pa, pb`. -/
  | pand (d a b : Nat)
  /-- R175: MAJ 0x1A, FN 1, `por pd, pa, pb`. -/
  | por (d a b : Nat)
  /-- R175: MAJ 0x1A, FN 2, `pxor pd, pa, pb`. -/
  | pxor (d a b : Nat)
  /-- R175: MAJ 0x1A, FN 3, `pandn pd, pa, pb`. -/
  | pandn (d a b : Nat)
  /-- R175: MAJ 0x1A, FN 4, `pmov pd, pa`. -/
  | pmov (d a : Nat)
  /-- R175: MAJ 0x1A, FN 5, `pset pd, v`. -/
  | pset (d imm : Nat)
  /-- R176: MAJ 0x20, FN 0, `br label`. -/
  | br (imm : Nat)
  /-- R176: MAJ 0x20, FN 1, `brl sd, label`. -/
  | brl (d imm : Nat)
  /-- R176: MAJ 0x20, FN 2, `jr sa, n`. -/
  | jr (a imm : Nat)
  /-- R176: MAJ 0x20, FN 3, `jrl sd, sa, n`. -/
  | jrl (d a imm : Nat)
  /-- R178: MAJ 0x28, FN 0, `ldb sd, [sa+imm]`. -/
  | ldb (d a ow om sc imm : Nat)
  /-- R178: MAJ 0x28, FN 1, `ldbn sd, [sa+imm]`. -/
  | ldbn (d a ow om sc imm : Nat)
  /-- R178: MAJ 0x28, FN 2, `ldh sd, [sa+imm]`. -/
  | ldh (d a ow om sc imm : Nat)
  /-- R178: MAJ 0x28, FN 3, `ldhn sd, [sa+imm]`. -/
  | ldhn (d a ow om sc imm : Nat)
  /-- R178: MAJ 0x28, FN 4, `ldw sd, [sa+imm]`. -/
  | ldw (d a ow om sc imm : Nat)
  /-- R178: MAJ 0x28, FN 5, `ldwn sd, [sa+imm]`. -/
  | ldwn (d a ow om sc imm : Nat)
  /-- R178: MAJ 0x28, FN 6, `ldd sd, [sa+imm]`. -/
  | ldd (d a ow om sc imm : Nat)
  /-- R178: MAJ 0x29, FN 0, `stb sd, [sa+imm]`. -/
  | stb (d a ow om sc imm : Nat)
  /-- R178: MAJ 0x29, FN 1, `sth sd, [sa+imm]`. -/
  | sth (d a ow om sc imm : Nat)
  /-- R178: MAJ 0x29, FN 2, `stw sd, [sa+imm]`. -/
  | stw (d a ow om sc imm : Nat)
  /-- R178: MAJ 0x29, FN 3, `std sd, [sa+imm]`. -/
  | std (d a ow om sc imm : Nat)
  /-- R181: MAJ 0x30, FN 0, `aadd sd, [sa+imm], sb`. -/
  | aadd (d a b ow om sc imm : Nat)
  /-- R181: MAJ 0x30, FN 1, `aand sd, [sa+imm], sb`. -/
  | aand (d a b ow om sc imm : Nat)
  /-- R181: MAJ 0x30, FN 2, `aor sd, [sa+imm], sb`. -/
  | aor (d a b ow om sc imm : Nat)
  /-- R181: MAJ 0x30, FN 3, `axor sd, [sa+imm], sb`. -/
  | axor (d a b ow om sc imm : Nat)
  /-- R181: MAJ 0x30, FN 4, `amin sd, [sa+imm], sb`. -/
  | amin (d a b ow om sc imm : Nat)
  /-- R181: MAJ 0x30, FN 5, `amax sd, [sa+imm], sb`. -/
  | amax (d a b ow om sc imm : Nat)
  /-- R181: MAJ 0x30, FN 6, `aminn sd, [sa+imm], sb`. -/
  | aminn (d a b ow om sc imm : Nat)
  /-- R181: MAJ 0x30, FN 7, `amaxn sd, [sa+imm], sb`. -/
  | amaxn (d a b ow om sc imm : Nat)
  /-- R181: MAJ 0x30, FN 8, `aswap sd, [sa+imm], sb`. -/
  | aswap (d a b ow om sc imm : Nat)
  /-- R181: MAJ 0x30, FN 9, `acas sd, [sa+imm], sb`. -/
  | acas (d a b ow om sc imm : Nat)
  /-- R125: MAJ 0x34, FN 0, `fence.acq`. -/
  | fenceAcq (a sc : Nat)
  /-- R125: MAJ 0x34, FN 1, `fence.rel`. -/
  | fenceRel (a sc : Nat)
  /-- R125: MAJ 0x34, FN 2, `fence.full`. -/
  | fenceFull (a sc : Nat)
  /-- R125: MAJ 0x34, FN 3, `ojoin od, oa, ob`. -/
  | ojoin (d a b : Nat)
  /-- R125: MAJ 0x34, FN 4, `owait ok`. -/
  | owait (ow sc : Nat)
  /-- R125: MAJ 0x34, FN 5, `oclr ok`. -/
  | oclr (om : Nat)
  /-- R184: MAJ 0x38, FN 0, `trap sa, sb, n`. -/
  | trap (a b imm : Nat)
  /-- R197: MAJ 0x38, FN 1, `tret`. -/
  | tret
  /-- R184: MAJ 0x38, FN 2, `sysr sd, name`. -/
  | sysr (d imm : Nat)
  /-- R184: MAJ 0x38, FN 3, `sysw name, sa`. -/
  | sysw (a imm : Nat)
  /-- R185: MAJ 0x38, FN 4, `sleepc sa, imm`. -/
  | sleepc (a imm : Nat)
  /-- R185: MAJ 0x38, FN 5, `waittick sa, imm`. -/
  | waittick (a imm : Nat)
  /-- R184: MAJ 0x38, FN 6, `brk n`. -/
  | brk (imm : Nat)
  /-- R148: `rpt n, sd, sa, sb, sc`; `n1` is n − 1. -/
  | rpt (n1 sd sa sb sc : Nat)
  /-- R207: MAJ 0x40, FN 0, `vadd`. -/
  | vadd (d a b ty m : Nat)
  /-- R207: MAJ 0x40, FN 1, `vsub`. -/
  | vsub (d a b ty m : Nat)
  /-- R207: MAJ 0x40, FN 2, `vmul`. -/
  | vmul (d a b ty m : Nat)
  /-- R207: MAJ 0x40, FN 3, `vmulh`. -/
  | vmulh (d a b ty m : Nat)
  /-- R207: MAJ 0x40, FN 4, `vmin`. -/
  | vmin (d a b ty m : Nat)
  /-- R207: MAJ 0x40, FN 5, `vmax`. -/
  | vmax (d a b ty m : Nat)
  /-- R207: MAJ 0x40, FN 6, `vminn`. -/
  | vminn (d a b ty m : Nat)
  /-- R207: MAJ 0x40, FN 7, `vmaxn`. -/
  | vmaxn (d a b ty m : Nat)
  /-- R207: MAJ 0x40, FN 8, `vabs`. -/
  | vabs (d a ty m : Nat)
  /-- R207: MAJ 0x40, FN 9, `vneg`. -/
  | vneg (d a ty m : Nat)
  /-- R207: MAJ 0x40, FN 10, `vadds`. -/
  | vadds (d a b ty m : Nat)
  /-- R207: MAJ 0x40, FN 11, `vsubs`. -/
  | vsubs (d a b ty m : Nat)
  /-- R208: MAJ 0x41, FN 0, `vand`. -/
  | vand (d a b m : Nat)
  /-- R208: MAJ 0x41, FN 1, `vor`. -/
  | vor (d a b m : Nat)
  /-- R208: MAJ 0x41, FN 2, `vxor`. -/
  | vxor (d a b m : Nat)
  /-- R208: MAJ 0x41, FN 3, `vandn`. -/
  | vandn (d a b m : Nat)
  /-- R209: MAJ 0x41, FN 4, `vlop4`. -/
  | vlop4 (d a b c thi m tlo : Nat)
  /-- R208: MAJ 0x41, FN 5, `vshl`. -/
  | vshl (d a b ty m : Nat)
  /-- R208: MAJ 0x41, FN 6, `vshr`. -/
  | vshr (d a b ty m : Nat)
  /-- R208: MAJ 0x41, FN 7, `vsra`. -/
  | vsra (d a b ty m : Nat)
  /-- R210: MAJ 0x42, FN 0, `vfadd`. -/
  | vfadd (d a b ty m rnd : Nat)
  /-- R210: MAJ 0x42, FN 1, `vfsub`. -/
  | vfsub (d a b ty m rnd : Nat)
  /-- R210: MAJ 0x42, FN 2, `vfmul`. -/
  | vfmul (d a b ty m rnd : Nat)
  /-- R210: MAJ 0x42, FN 3, `vffma`. -/
  | vffma (d a b c ty m rnd : Nat)
  /-- R210: MAJ 0x42, FN 4, `vffms`. -/
  | vffms (d a b c ty m rnd : Nat)
  /-- R210: MAJ 0x42, FN 5, `vffnma`. -/
  | vffnma (d a b c ty m rnd : Nat)
  /-- R210: MAJ 0x42, FN 6, `vfmin`. -/
  | vfmin (d a b ty m rnd : Nat)
  /-- R210: MAJ 0x42, FN 7, `vfmax`. -/
  | vfmax (d a b ty m rnd : Nat)
  /-- R210: MAJ 0x42, FN 8, `vfabs`. -/
  | vfabs (d a ty m rnd : Nat)
  /-- R210: MAJ 0x42, FN 9, `vfneg`. -/
  | vfneg (d a ty m rnd : Nat)
  /-- R211: MAJ 0x42, FN 10, `vdot2`. -/
  | vdot2 (d a b ty m rnd : Nat)
  /-- R212: MAJ 0x43, FN 0, `vfdiv`. -/
  | vfdiv (d a b ty m rnd : Nat)
  /-- R212: MAJ 0x43, FN 1, `vfsqrt`. -/
  | vfsqrt (d a ty m rnd : Nat)
  /-- R212: MAJ 0x43, FN 2, `vfrcp`. -/
  | vfrcp (d a ty m rnd : Nat)
  /-- R212: MAJ 0x43, FN 3, `vfrsqrt`. -/
  | vfrsqrt (d a ty m rnd : Nat)
  /-- R212: MAJ 0x43, FN 4, `vfexp2`. -/
  | vfexp2 (d a ty m rnd : Nat)
  /-- R212: MAJ 0x43, FN 5, `vflog2`. -/
  | vflog2 (d a ty m rnd : Nat)
  /-- R212: MAJ 0x43, FN 6, `vfclass`. -/
  | vfclass (d a ty m rnd : Nat)
  /-- R213: MAJ 0x44, FN 0, `vcvt`. -/
  | vcvt (d a ty m rnd ts : Nat)
  /-- R213: MAJ 0x44, FN 1, `vpack`. -/
  | vpack (d a b ty m rnd ts : Nat)
  /-- R213: MAJ 0x44, FN 2, `vunpack`. -/
  | vunpack (d a ty m rnd ts h : Nat)
  /-- R215: MAJ 0x44, FN 3, `vscale`. -/
  | vscale (d a b ty m rnd : Nat)
  /-- R216: MAJ 0x45, FN 0, `vcmp`. -/
  | vcmp (d a b ty m rnd rel : Nat)
  /-- R216: MAJ 0x45, FN 1, `vfcmp`. -/
  | vfcmp (d a b ty m rnd rel : Nat)
  /-- R217: MAJ 0x46, FN 0, `mand`. -/
  | mand (d a b : Nat)
  /-- R217: MAJ 0x46, FN 1, `mor`. -/
  | mor (d a b : Nat)
  /-- R217: MAJ 0x46, FN 2, `mxor`. -/
  | mxor (d a b : Nat)
  /-- R217: MAJ 0x46, FN 3, `mnot`. -/
  | mnot (d a : Nat)
  /-- R217: MAJ 0x46, FN 4, `mpop`. -/
  | mpop (d a : Nat)
  /-- R217: MAJ 0x46, FN 5, `mfirst`. -/
  | mfirst (d a : Nat)
  /-- R217: MAJ 0x46, FN 6, `mmov`. -/
  | mmov (d a sl : Nat)
  /-- R218: MAJ 0x47, FN 0, `vperm`. -/
  | vperm (d a b ty m : Nat)
  /-- R218: MAJ 0x47, FN 1, `vbcast`. -/
  | vbcast (d a ty m i : Nat)
  /-- R218: MAJ 0x47, FN 2, `vext`. -/
  | vext (d a b ty i : Nat)
  /-- R218: MAJ 0x47, FN 3, `vins`. -/
  | vins (d a b ty m i : Nat)
  /-- R218: MAJ 0x47, FN 4, `vslide`. -/
  | vslide (d a b ty m i : Nat)
  /-- R218: MAJ 0x47, FN 5, `vsel`. -/
  | vsel (d a b ty m : Nat)
  /-- R218: MAJ 0x47, FN 6, `vmov`. -/
  | vmov (d a ty m : Nat)
  /-- R218: MAJ 0x47, FN 7, `vcompress`. -/
  | vcompress (d a ty m : Nat)
  /-- R219: MAJ 0x48, FN 0, `vredsum`. -/
  | vredsum (d a ty m rnd : Nat)
  /-- R219: MAJ 0x48, FN 1, `vredmax`. -/
  | vredmax (d a ty m rnd : Nat)
  /-- R219: MAJ 0x48, FN 2, `vredmin`. -/
  | vredmin (d a ty m rnd : Nat)
  /-- R219: MAJ 0x48, FN 3, `vfredsum`. -/
  | vfredsum (d a ty m rnd : Nat)
  /-- R219: MAJ 0x48, FN 4, `vfredmax`. -/
  | vfredmax (d a ty m rnd : Nat)
  /-- R219: MAJ 0x48, FN 5, `vfredmin`. -/
  | vfredmin (d a ty m rnd : Nat)
  /-- R220: MAJ 0x48, FN 6, `vscan`. -/
  | vscan (d a ty m rnd o : Nat)
  /-- R220: MAJ 0x48, FN 7, `vfscan`. -/
  | vfscan (d a ty m rnd o : Nat)
  /-- R222: MAJ 0x49, FN 0, `vld`. -/
  | vld (d a ow om sc ty m imm : Nat)
  /-- R222: MAJ 0x49, FN 1, `vst`. -/
  | vst (d a ow om sc ty m imm : Nat)
  /-- R222: MAJ 0x49, FN 2, `vlds`. -/
  | vlds (d a b ow om sc ty m imm : Nat)
  /-- R222: MAJ 0x49, FN 3, `vsts`. -/
  | vsts (d a b ow om sc ty m imm : Nat)
  /-- R222: MAJ 0x49, FN 4, `vldx`. -/
  | vldx (d a b ow om sc ty m imm : Nat)
  /-- R222: MAJ 0x49, FN 5, `vstx`. -/
  | vstx (d a b ow om sc ty m imm : Nat)
  /-- R222: MAJ 0x49, FN 6, `vldb`. -/
  | vldb (d a ow om sc ty m imm : Nat)
  /-- R223: MAJ 0x4A, FN 0, `vaadd`. -/
  | vaadd (d a b ow om sc ty m imm : Nat)
  /-- R223: MAJ 0x4A, FN 1, `vaor`. -/
  | vaor (d a b ow om sc ty m imm : Nat)
  /-- R238: MAJ 0x70, FN 0, `wld`. -/
  | wld (d a b ow om sc port sz imm : Nat)
  /-- R238: MAJ 0x70, FN 1, `wlds`. -/
  | wlds (d a b ow om sc port sz imm : Nat)
  /-- R239: MAJ 0x70, FN 2, `wst`. -/
  | wst (d a b ow om sc port sz imm : Nat)
  /-- R240: MAJ 0x70, FN 3, `wsend`. -/
  | wsend (a ow om sc port : Nat)
  /-- R241: MAJ 0x70, FN 4, `wavail`. -/
  | wavail (d port : Nat)
  /-- R241: MAJ 0x70, FN 5, `wfree`. -/
  | wfree (d port : Nat)
  /-- R242: MAJ 0x70, FN 6, `wwait`. -/
  | wwait (a b port : Nat)
  /-- R242: MAJ 0x70, FN 7, `wwaito`. -/
  | wwaito (b port : Nat)
  /-- R244: MAJ 0x70, FN 8, `weos`. -/
  | weos (a : Nat)
  /-- R243: MAJ 0x70, FN 9, `wmode`. -/
  | wmode (d port : Nat)
  /-- R246: MAJ 0x70, FN 10, `fend`. -/
  | fend
  /-- R245: MAJ 0x70, FN 11, `fabort`. -/
  | fabort (a : Nat)
  /-- R241: MAJ 0x70, FN 12, `wovf`. -/
  | wovf (d port : Nat)
  /-- R259: MAJ 0x80, FN 0, `rld sd, [sa+imm], n`. -/
  | rld (d a ow om sc sz sx imm : Nat)
  /-- R259: MAJ 0x80, FN 1, `rst sd, [sa+imm], n`. -/
  | rst (d a ow om sc sz imm : Nat)
  /-- R259: MAJ 0x80, FN 2, `ramo.op sd, [sa+imm], sb, n`. -/
  | ramo (d a b ow om sc sz sx o imm : Nat)
  /-- R266: MAJ 0x81, FN 0, `ovld.op.type vd, [sa], n`. -/
  | ovld (d a ow om sc ty o cnt : Nat)
  /-- R268: MAJ 0x81, FN 1, `ovst vd, [sa], n`. -/
  | ovst (d a ow om sc ty o cnt : Nat)
  /-- R269: MAJ 0x81, FN 2, `grpstat sd, [sa], sel`. -/
  | grpstat (d a ow om sc ty o cnt : Nat)
  /-- R273: MAJ 0x82, FN 0, `barr sd, [sa], sb`. -/
  | barr (d a b ow om sc : Nat)
  /-- R273: MAJ 0x82, FN 1, `barx [sa], sb`. -/
  | barx (a b ow om sc : Nat)
  /-- R273: MAJ 0x82, FN 2, `barw sd, [sa], sb`. -/
  | barw (d a b ow om sc : Nat)
  /-- R290: MAJ 0x90, FN 0, `mclaim`. -/
  | mclaim (d ow om sc keep n1 : Nat)
  /-- R290: MAJ 0x90, FN 1, `mrel`. -/
  | mrel (d ow om sc n1 : Nat)
  /-- R291: MAJ 0x90, FN 2, `mld`. -/
  | mld (d a b ow om sc rcnt : Nat)
  /-- R291: MAJ 0x90, FN 2, `mldScl`. -/
  | mldScl (d a ow om sc rcnt : Nat)
  /-- R292: MAJ 0x90, FN 3, `mldw`. -/
  | mldw (d a b ow om sc port rcnt : Nat)
  /-- R293: MAJ 0x90, FN 4, `mgath`. -/
  | mgath (d a b ow om sc ty rcnt : Nat)
  /-- R294: MAJ 0x90, FN 5, `mtr`. -/
  | mtr (d a ow om sc ty : Nat)
  /-- R296: MAJ 0x90, FN 6, `mzero`. -/
  | mzero (d ow om sc mc nc ty row : Nat)
  /-- R295: MAJ 0x90, FN 7, `mma`. -/
  | mma (d a b ow om sc mc nc ty row st1 fin : Nat)
  /-- R297: MAJ 0x90, FN 8, `mmag`. -/
  | mmag (d a b ow om sc ldr nc ty st1 fin : Nat)
  /-- R299: MAJ 0x90, FN 9, `mdrain`. -/
  | mdrain (d a ow om sc mc nc row keep : Nat)
  /-- R301: MAJ 0x90, FN 10, `mwait`. -/
  | mwait
  /-- R302: MAJ 0x90, FN 11, `mstat`. -/
  | mstat (d sl : Nat)
  /-- R318: MAJ 0xA0, FN 0, `sbind`. -/
  | sbind (a ow om sc ctx : Nat)
  /-- R320: MAJ 0xA0, FN 1, `scopy`. -/
  | scopy (a b ow om sc ctx : Nat)
  /-- R324: MAJ 0xA0, FN 2, `sfetch`. -/
  | sfetch (d a b ow om sc ctx : Nat)
  /-- R320: MAJ 0xA0, FN 3, `sput`. -/
  | sput (a b ow om sc ctx : Nat)
  /-- R323: MAJ 0xA0, FN 4, `cwait`. -/
  | cwait (d a b ow om sc : Nat)
  /-- R327: MAJ 0xA0, FN 5, `sresume`. -/
  | sresume (ctx : Nat)
  /-- R330: MAJ 0xA0, FN 6, `sstat`. -/
  | sstat (d ctx sl : Nat)
  /-- R363: MAJ 0xB0, FN 0, `etch`. -/
  | etch (d a b ow om : Nat)
  /-- R364: MAJ 0xB0, FN 1, `pull`. -/
  | pull (d a b ow om : Nat)
  /-- R365: MAJ 0xB0, FN 2, `drain`. -/
  | drain (d a b ow om : Nat)
  /-- R365: MAJ 0xB0, FN 2, `drainFlush`. -/
  | drainFlush (d a b ow om : Nat)
  /-- R366: MAJ 0xB0, FN 3, `qstat`. -/
  | qstat (d a ow om sl : Nat)
  /-- R356: MAJ 0xB0, FN 4, `palloc`. -/
  | palloc (d a ow om : Nat)
  /-- R357: MAJ 0xB0, FN 5, `pmove`. -/
  | pmove (d a b ow om : Nat)
  /-- R358: MAJ 0xB0, FN 6, `pfree`. -/
  | pfree (d a ow om : Nat)
  /-- R393: MAJ 0xB8, FN 0, `xld`. -/
  | xld (d a b ow om sc sz sx : Nat)
  /-- R393: MAJ 0xB8, FN 1, `xst`. -/
  | xst (d a b ow om sc sz : Nat)
  /-- R393: MAJ 0xB8, FN 2, `xamo`. -/
  | xamo (d a b ow om sc sz sx o e : Nat)
  /-- R396: MAJ 0xB8, FN 3, `edst`. -/
  | edst (d a b ow om sc e cnt : Nat)
  /-- R398: MAJ 0xB8, FN 4, `edwait`. -/
  | edwait (d a b ow om sc : Nat)
  /-- R403: MAJ 0xB8, FN 5, `xovld`. -/
  | xovld (d a b ow om sc ty o cnt : Nat)
  /-- R404: MAJ 0xB8, FN 6, `rkreg`. -/
  | rkreg (d a ow om sc : Nat)
  /-- R404: MAJ 0xB8, FN 7, `rkrev`. -/
  | rkrev (d a ow om sc : Nat)
  /-- R394: MAJ 0xB8, FN 8, `xfence`. -/
  | xfence (a ow om sc : Nat)
  /-- R423: MAJ 0xC0, FN 0, `qpop`. -/
  | qpop (d a b ow om : Nat)
  /-- R429: MAJ 0xC0, FN 1, `qdone`. -/
  | qdone (d a b ow om : Nat)
  /-- R425: MAJ 0xC0, FN 2, `launch`. -/
  | launch (d a b ow om : Nat)
  /-- R430: MAJ 0xC0, FN 3, `cancel`. -/
  | cancel (d a ow om : Nat)
  /-- R431: MAJ 0xC0, FN 4, `preempt`. -/
  | preempt (d a ow om : Nat)
  /-- R431: MAJ 0xC0, FN 4, `preemptResume`. -/
  | preemptResume (d a ow om : Nat)
  /-- R434: MAJ 0xC0, FN 5, `ctxsave`. -/
  | ctxsave (d a b ow om : Nat)
  /-- R435: MAJ 0xC0, FN 6, `ctxrest`. -/
  | ctxrest (d a ow om : Nat)
  /-- R438: MAJ 0xC0, FN 7, `fwload`. -/
  | fwload (d a b ow om slot : Nat)
  /-- R438: MAJ 0xC0, FN 8, `fwverify`. -/
  | fwverify (d ow om slot : Nat)
  /-- R438: MAJ 0xC0, FN 9, `fwmeasure`. -/
  | fwmeasure (d ow om slot : Nat)
  /-- R440: MAJ 0xC0, FN 10, `fwswitch`. -/
  | fwswitch (d a ow om slot : Nat)
  /-- R440: MAJ 0xC0, FN 11, `hbeat`. -/
  | hbeat (d a ow om : Nat)
  /-- R47 (event): the scheduler of tile t starts the firing that R45 or R46 chooses. -/
  | firingStart (t : Nat)
  /-- R40 (event): tile t's firing is past FMAX and traps. -/
  | firingLimit (t : Nat)
  /-- R57 (event): firmware decides the fault of tile t at levels 2 to 4. -/
  | containmentDecision (t : Nat)
  /-- R196 (event): control core n takes its lowest enabled pending interrupt. -/
  | interruptEntry (n : Nat)
  /-- R108 (event): the walker serves agent g at address va, for a write when wr is 1. -/
  | pageWalk (g va wr : Nat)
  /-- R234 (event): the oldest flit of descriptor k leaves its buffer. -/
  | flitInject (k : Nat)
  /-- R233 (event): the oldest flit in flight from descriptor k, a DATA flit, arrives. -/
  | dataFlit (k : Nat)
  /-- R233 (event): a POINTER flit from descriptor k arrives. -/
  | pointerFlit (k : Nat)
  /-- R233 (event): a MARKER flit from descriptor k arrives. -/
  | markerFlit (k : Nat)
  /-- R233 (event): a RETURN flit from descriptor k arrives. -/
  | returnFlit (k : Nat)
  /-- R62 (event): actor a forwards the markers at its inputs. -/
  | markerForward (a : Nat)
  /-- R63 (event): a faulted marker takes effect on actor a. -/
  | faultedMarkerEffect (a : Nat)
  /-- R64 (event): region r has drained. -/
  | regionDrained (r : Nat)
  /-- R259 (event): remote request i of tile t is applied at its bank. -/
  | remoteAccessApply (t i : Nat)
  /-- R260 (event): the response to request i returns to tile t. -/
  | remoteResponse (t i : Nat)
  /-- R263 (event): overprint operation i of tile t samples the ABS bits. -/
  | overprintSample (t i : Nat)
  /-- R266 (event): operation i of tile t reads or writes member j. -/
  | overprintMemberAccess (t i j : Nat)
  /-- R266 (event): operation i of tile t completes. -/
  | overprintComplete (t i : Nat)
  /-- R273 (event): barr or barx i of tile t is applied to its record. -/
  | barrierUpdate (t i : Nat)
  /-- R273 (event): barw i of tile t returns. -/
  | barwRelease (t i : Nat)
  /-- R273 (event): a refused barw i of tile t is sent again. -/
  | barwResend (t i : Nat)
  /-- R286 (event): matrix command i of tile t starts. -/
  | matrixCmdStart (t i : Nat)
  /-- R286 (event): matrix command i of tile t completes. -/
  | matrixCmdComplete (t i : Nat)
  /-- R297 (event): the sixteen mmag commands of plate pl start together. -/
  | mmagGangStart (pl : Nat)
  /-- R317 (event): source context c fires. -/
  | streamSourceFiring (c : Nat)
  /-- R317 (event): sink context c fires. -/
  | streamSinkFiring (c : Nat)
  /-- R320 (event): context c accepts its oldest waiting command. -/
  | streamCmdAccept (c : Nat)
  /-- R321 (event): context c performs its oldest accepted command. -/
  | streamCmdPerform (c : Nat)
  /-- R242 (event): the limit of the bounded wait of core g has passed. -/
  | waitLimit (g : Nat)
  /-- R189 (event): the firing core of tile t halts for pre-emption. -/
  | firingHalt (t : Nat)
  /-- R410 (event): tile t's outstanding hub operations are closed. -/
  | hubCloseTimeout (t : Nat)
  /-- R350 (event): the proof plane of region r becomes active. -/
  | pullSwap (r : Nat)
  /-- R358 (event): plate pl finishes zeroing. -/
  | scrubComplete (pl : Nat)
  /-- R376 (event): the lanes of link n lock. -/
  | laneLock (n : Nat)
  /-- R371 (event): a lane of link n fails. -/
  | laneFailure (n : Nat)
  /-- R376 (event): link n sends a TRAIN record. -/
  | trainSend (n : Nat)
  /-- R376 (event): link n was not UP within 100 ms. -/
  | trainingTimeout (n : Nat)
  /-- R376 (event): a TRAIN record arrives on link n. -/
  | train (n peer nv pl sq : Nat)
  /-- R376 (event): a CREDIT_INIT record arrives on link n. -/
  | creditInit (n : Nat)
  /-- R372 (event): a REPLAY record from flit sq arrives on link n. -/
  | replay (n sq : Nat)
  /-- R373 (event): a flit arrives on link n; ok is 0 when a codeword cannot be corrected, 1 for a good flit, 2 when its CRC fails; corr 1
  when a codeword was corrected; disc of its messages are discarded. -/
  | flitReceive (n kind sq ack cr ok corr disc : Nat)
  /-- R372 (event): no flit for 1,000 ns on link n. -/
  | linkSilenceTimeout (n : Nat)
  /-- R382 (event): an OPEN message of node src arrives. -/
  | openMsg (src ep : Nat)
  /-- R382 (event): an ACCEPT message of node src arrives. -/
  | acceptMsg (src ep : Nat)
  /-- R388 (event): an LD request for len bytes arrives. -/
  | ld (src ep sq key off len : Nat)
  /-- R388 (event): an ST request arrives. -/
  | st (src ep sq key off sz val : Nat)
  /-- R384 (event): an AMO request arrives. -/
  | amo (src ep sq key off sz o val cmp : Nat)
  /-- R396 (event): an EDST request arrives at the home. -/
  | edstMessage (src ep sq g len off val : Nat)
  /-- R397 (event): an edition message arrives at a member. -/
  | edApply (src ep sq g len ge ed off val : Nat)
  /-- R393 (event): a DATA response arrives. -/
  | dataMsg (src ep sq val : Nat)
  /-- R383 (event): an ACK response arrives. -/
  | ackMsg (src ep sq : Nat)
  /-- R388 (event): an ERR response arrives. -/
  | errMsg (src ep sq code rsn pte : Nat)
  /-- R384 (event): a STALE response arrives. -/
  | staleMsg (src ep sq : Nat)
  /-- R396 (event): an EDNUM response arrives. -/
  | edNum (src ep sq ed : Nat)
  /-- R382 (event): RTO has passed on the connection to node nd. -/
  | retransmitTimeout (nd : Nat)
  /-- R382 (event): CTO has passed on the connection to node nd. -/
  | connectionTimeout (nd : Nat)
  /-- R384 (event): a reply-cache entry is 1,000,000 ns old. -/
  | replyCacheExpiry (src ep sq : Nat)
  /-- R397 (event): the gap clock of group g has run GAPT. -/
  | editionGapTimeout (g : Nat)
  /-- R405 (event): an Announce message arrives on link n: its domain, the grandmaster's priority1, its clock quality (class in bits 31:24,
  accuracy in 23:16, variance in 15:0), priority2 and identity, and its path: the PTP timescale flag in bit 0, the steps removed in bits 16:1,
  the sender's port identity above. -/
  | announce (n dom p1 quality p2 id path : Nat)
  /-- R405 (event): a Sync message arrives on link n. -/
  | syncMsg (n dom sq : Nat)
  /-- R407 (event): a Follow_Up message with the master time t1 arrives. -/
  | followUp (n dom sq t1 : Nat)
  /-- R405 (event): a Delay_Req message arrives. -/
  | delayReq (n dom sq : Nat)
  /-- R405 (event): a Delay_Resp message with the master time t4 arrives. -/
  | delayResp (n dom sq t4 : Nat)
  /-- R405 (event): the interval of message kind (0 Sync, 1 Announce, 2 Delay_Req) expires on link n. -/
  | ptpInterval (n kind : Nat)
  /-- R407 (event): no master for the announce receipt timeout. -/
  | announceReceiptTimeout
  /-- R421 (event): the host writes v to the kick register of queue q. -/
  | kick (q v : Nat)
  /-- R420 (event): the host writes v to CTL of queue q. -/
  | queueCtlWrite (q v : Nat)
  /-- R413 (event): the host reads or writes len bytes of HBM. -/
  | hdmAccess (wr addr len val : Nat)
  /-- R439 (event): SPDM request. -/
  | getVersion
  /-- R439 (event): SPDM request. -/
  | getCapabilities
  /-- R439 (event): SPDM request offering SHA-384 (hash) and RSASSA-PSS 3072 (asym). -/
  | negotiateAlgorithms (hash asym : Nat)
  /-- R439 (event): SPDM request. -/
  | getDigests
  /-- R439 (event): SPDM request. -/
  | getCertificate (slot off len : Nat)
  /-- R439 (event): SPDM request. -/
  | challenge (nonce : Nat)
  /-- R439 (event): SPDM request for block blk (0 the count, 255 all). -/
  | getMeasurements (blk sig nonce : Nat)
  /-- R439 (event): SPDM request. -/
  | keyExchange (sid nonce : Nat)
  /-- R439 (event): SPDM request. -/
  | finish (mac : Nat)
  /-- R439 (event): SPDM request. -/
  | endSession
  /-- R439 (event): SPDM request naming response resp. -/
  | vendorDefinedRequest (resp : Nat)
  /-- R114 (event): TINV of die written with KIND 0. -/
  | tinvPage (die r va : Nat)
  /-- R114 (event): TINV of die written with KIND 1. -/
  | tinvRegion (die r : Nat)
  /-- R114 (event): TINV of die written with KIND 2. -/
  | tinvAll (die : Nat)
  /-- R114 (event): the invalidation on die finishes. -/
  | tinvComplete (die : Nat)
  /-- R418 (event): core n writes v to CCROOTS (root 0) or CCROOTM (root 1). -/
  | ccrootWrite (n root v : Nat)
  /-- R419 (event): core n writes RESET of CCRESET x. -/
  | ccresetReset (n x : Nat)
  /-- R419 (event): a control core writes the doorbell bits of CCRESET x. -/
  | dbellWrite (x v : Nat)
  /-- R353 (event): core n writes FENCE of plate pl. -/
  | plateFenceWrite (n pl v : Nat)
  /-- R353 (event): a control core writes 1 to PFAULT of plate pl. -/
  | pfaultClear (pl : Nat)
  /-- R353 (event): the device finds a permanent fault in plate pl. -/
  | permanentFault (pl : Nat)
  /-- R379 (event): core n writes DIS of link lk. -/
  | linkDisWrite (n lk v : Nat)
  /-- R381 (event): core n writes the route mask of node nd. -/
  | routeMaskWrite (n nd v : Nat)
  /-- R400 (event): core n writes 8 bytes at offset off of edition entry g. -/
  | editionEntryWrite (n g off v : Nat)
  /-- R417 (event): a control core reads GTSTAT. -/
  | gtstatRead
  /-- R417 (event): a control core reads an edition report. -/
  | editionReportRead
  /-- R417 (event): the CXL error log is read. -/
  | cxlErrorLogRead
  /-- R417 (event): an IDE or CXL link error v is logged. -/
  | cxlLinkError (v : Nat)
  /-- R193 (event): a home reports an error of a completed store of core n. -/
  | storeErrorReport (n addr code : Nat)
  /-- R4 (event): core n writes v to the 8-byte register at system-space address addr; n is 8 for the host, which writes BAR0 at offset addr. -/
  | registerWrite (n addr v : Nat)
  /-- R460 (event): every 100 us, with the sampled power and temperature. -/
  | throttleTick (pwr temp : Nat)
  /-- R460 (event): the hottest sensor reads temp. -/
  | thermalShutdown (temp : Nat)
  /-- R461 (event): power is cycled. -/
  | powerCycle
  /-- R461 (event): PERST# is asserted. -/
  | fundamentalReset
  /-- R461 (event): the host resets the eight control cores. -/
  | secondaryBusReset
  /-- R462 (event): the boot path runs; hbmOk is 0 when a stack fails training, copyOk 0 when the copy meets an uncorrectable error. -/
  | boot (hbmOk copyOk : Nat)
  /-- R440 (event): the deadline of fwswitch passes. -/
  | fwRollback
  /-- R185 (event): CYCLE or GTIME has reached the target of the wait of core g. -/
  | waitTargetReached (g : Nat)
  /-- R413 (event): an IDE key management request sets a CXL IDE key. -/
  | ideKeyManagement (stream kind key : Nat)
deriving DecidableEq, Repr

end Sys2Proof
end

