-- ==== Sys2Proof/WellFormed.lean ====
section
/-! DEFINITION. Well-formedness of an instruction: every operand within its field, every register code within its kind (R139),
every type, rounding and scope code accepted (R75, R76, R118), and every limit of the instruction's chapter.
For an event: every operand within the range of the thing it names. -/

namespace Sys2Proof

/-- A field of `w` bits holds `x`. -/
def fits (w x : Nat) : Bool := decide (x < 2 ^ w)

/-- The operand conditions of each row of the opcode table. -/
def Instr.wf : Instr → Bool
  | .nop => true
  | .add d a b => Kind.s.ok d && Kind.s.ok a && Kind.s.ok b
  | .sub d a b => Kind.s.ok d && Kind.s.ok a && Kind.s.ok b
  | .mul d a b => Kind.s.ok d && Kind.s.ok a && Kind.s.ok b
  | .mulh d a b => Kind.s.ok d && Kind.s.ok a && Kind.s.ok b
  | .mulhn d a b => Kind.s.ok d && Kind.s.ok a && Kind.s.ok b
  | .div d a b => Kind.s.ok d && Kind.s.ok a && Kind.s.ok b
  | .divn d a b => Kind.s.ok d && Kind.s.ok a && Kind.s.ok b
  | .rem d a b => Kind.s.ok d && Kind.s.ok a && Kind.s.ok b
  | .remn d a b => Kind.s.ok d && Kind.s.ok a && Kind.s.ok b
  | .madd d a b c => Kind.s.ok d && Kind.s.ok a && Kind.s.ok b && Kind.s.ok c
  | .msub d a b c => Kind.s.ok d && Kind.s.ok a && Kind.s.ok b && Kind.s.ok c
  | .min d a b => Kind.s.ok d && Kind.s.ok a && Kind.s.ok b
  | .max d a b => Kind.s.ok d && Kind.s.ok a && Kind.s.ok b
  | .minn d a b => Kind.s.ok d && Kind.s.ok a && Kind.s.ok b
  | .maxn d a b => Kind.s.ok d && Kind.s.ok a && Kind.s.ok b
  | .abs d a => Kind.s.ok d && Kind.s.ok a
  | .and d a b => Kind.s.ok d && Kind.s.ok a && Kind.s.ok b
  | .or d a b => Kind.s.ok d && Kind.s.ok a && Kind.s.ok b
  | .xor d a b => Kind.s.ok d && Kind.s.ok a && Kind.s.ok b
  | .andn d a b => Kind.s.ok d && Kind.s.ok a && Kind.s.ok b
  | .orn d a b => Kind.s.ok d && Kind.s.ok a && Kind.s.ok b
  | .xnor d a b => Kind.s.ok d && Kind.s.ok a && Kind.s.ok b
  | .sll d a b => Kind.s.ok d && Kind.s.ok a && Kind.s.ok b
  | .srl d a b => Kind.s.ok d && Kind.s.ok a && Kind.s.ok b
  | .sra d a b => Kind.s.ok d && Kind.s.ok a && Kind.s.ok b
  | .rol d a b => Kind.s.ok d && Kind.s.ok a && Kind.s.ok b
  | .ror d a b => Kind.s.ok d && Kind.s.ok a && Kind.s.ok b
  | .sel d a b c => Kind.s.ok d && Kind.s.ok a && Kind.s.ok b && Kind.s.ok c
  | .clz d a => Kind.s.ok d && Kind.s.ok a
  | .ctz d a => Kind.s.ok d && Kind.s.ok a
  | .popc d a => Kind.s.ok d && Kind.s.ok a
  | .bswap d a => Kind.s.ok d && Kind.s.ok a
  | .bext d a b => Kind.s.ok d && Kind.s.ok a && Kind.s.ok b
  | .bdep d a b => Kind.s.ok d && Kind.s.ok a && Kind.s.ok b
  | .bfx d a pos len => Kind.s.ok d && Kind.s.ok a && fits 6 pos && fits 7 len && decide (1 ≤ len ∧ len ≤ 64 ∧ pos + len ≤ 64)
  | .bfxn d a pos len => Kind.s.ok d && Kind.s.ok a && fits 6 pos && fits 7 len && decide (1 ≤ len ∧ len ≤ 64 ∧ pos + len ≤ 64)
  | .bfi d a pos len => Kind.s.ok d && Kind.s.ok a && fits 6 pos && fits 7 len && decide (1 ≤ len ∧ len ≤ 64 ∧ pos + len ≤ 64)
  | .lea d a b off sh => Kind.s.ok d && Kind.s.ok a && Kind.s.ok b && fits 19 off && fits 3 sh
  | .tla d a b off => Kind.s.ok d && Kind.s.ok a && Kind.s.ok b && fits 22 off
  | .gla d a b off => Kind.s.ok d && Kind.s.ok a && Kind.s.ok b && fits 22 off
  | .addi d a imm => Kind.s.ok d && Kind.s.ok a && fits 34 imm
  | .muli d a imm => Kind.s.ok d && Kind.s.ok a && fits 34 imm
  | .andi d a imm => Kind.s.ok d && Kind.s.ok a && fits 34 imm
  | .ori d a imm => Kind.s.ok d && Kind.s.ok a && fits 34 imm
  | .xori d a imm => Kind.s.ok d && Kind.s.ok a && fits 34 imm
  | .slli d a imm => Kind.s.ok d && Kind.s.ok a && fits 34 imm && decide (imm ≤ 63)
  | .srli d a imm => Kind.s.ok d && Kind.s.ok a && fits 34 imm && decide (imm ≤ 63)
  | .srai d a imm => Kind.s.ok d && Kind.s.ok a && fits 34 imm && decide (imm ≤ 63)
  | .li d imm => Kind.s.ok d && fits 34 imm
  | .lih d a imm => Kind.s.ok d && Kind.s.ok a && fits 34 imm && decide (imm ≤ 1073741823)
  | .ceq d a b => Kind.p.ok d && Kind.s.ok a && Kind.s.ok b
  | .cne d a b => Kind.p.ok d && Kind.s.ok a && Kind.s.ok b
  | .clt d a b => Kind.p.ok d && Kind.s.ok a && Kind.s.ok b
  | .cle d a b => Kind.p.ok d && Kind.s.ok a && Kind.s.ok b
  | .cltn d a b => Kind.p.ok d && Kind.s.ok a && Kind.s.ok b
  | .clen d a b => Kind.p.ok d && Kind.s.ok a && Kind.s.ok b
  | .ceqi d a imm => Kind.p.ok d && Kind.s.ok a && fits 34 imm
  | .cnei d a imm => Kind.p.ok d && Kind.s.ok a && fits 34 imm
  | .clti d a imm => Kind.p.ok d && Kind.s.ok a && fits 34 imm
  | .clei d a imm => Kind.p.ok d && Kind.s.ok a && fits 34 imm
  | .cltni d a imm => Kind.p.ok d && Kind.s.ok a && fits 34 imm
  | .cleni d a imm => Kind.p.ok d && Kind.s.ok a && fits 34 imm
  | .pand d a b => Kind.p.ok d && Kind.p.ok a && Kind.p.ok b
  | .por d a b => Kind.p.ok d && Kind.p.ok a && Kind.p.ok b
  | .pxor d a b => Kind.p.ok d && Kind.p.ok a && Kind.p.ok b
  | .pandn d a b => Kind.p.ok d && Kind.p.ok a && Kind.p.ok b
  | .pmov d a => Kind.p.ok d && Kind.p.ok a
  | .pset d imm => Kind.p.ok d && fits 22 imm && decide (imm ≤ 1)
  | .br imm => fits 34 imm
  | .brl d imm => Kind.s.ok d && fits 34 imm
  | .jr a imm => Kind.s.ok a && fits 34 imm
  | .jrl d a imm => Kind.s.ok d && Kind.s.ok a && fits 34 imm
  | .ldb d a ow om sc imm => Kind.s.ok d && Kind.s.ok a && fits 4 ow && fits 4 om && fits 4 sc && fits 16 imm && scMem.contains sc
  | .ldbn d a ow om sc imm => Kind.s.ok d && Kind.s.ok a && fits 4 ow && fits 4 om && fits 4 sc && fits 16 imm && scMem.contains sc
  | .ldh d a ow om sc imm => Kind.s.ok d && Kind.s.ok a && fits 4 ow && fits 4 om && fits 4 sc && fits 16 imm && scMem.contains sc
  | .ldhn d a ow om sc imm => Kind.s.ok d && Kind.s.ok a && fits 4 ow && fits 4 om && fits 4 sc && fits 16 imm && scMem.contains sc
  | .ldw d a ow om sc imm => Kind.s.ok d && Kind.s.ok a && fits 4 ow && fits 4 om && fits 4 sc && fits 16 imm && scMem.contains sc
  | .ldwn d a ow om sc imm => Kind.s.ok d && Kind.s.ok a && fits 4 ow && fits 4 om && fits 4 sc && fits 16 imm && scMem.contains sc
  | .ldd d a ow om sc imm => Kind.s.ok d && Kind.s.ok a && fits 4 ow && fits 4 om && fits 4 sc && fits 16 imm && scMem.contains sc
  | .stb d a ow om sc imm => Kind.s.ok d && Kind.s.ok a && fits 4 ow && fits 4 om && fits 4 sc && fits 16 imm && scMem.contains sc
  | .sth d a ow om sc imm => Kind.s.ok d && Kind.s.ok a && fits 4 ow && fits 4 om && fits 4 sc && fits 16 imm && scMem.contains sc
  | .stw d a ow om sc imm => Kind.s.ok d && Kind.s.ok a && fits 4 ow && fits 4 om && fits 4 sc && fits 16 imm && scMem.contains sc
  | .std d a ow om sc imm => Kind.s.ok d && Kind.s.ok a && fits 4 ow && fits 4 om && fits 4 sc && fits 16 imm && scMem.contains sc
  | .aadd d a b ow om sc imm => Kind.s.ok d && Kind.s.ok a && Kind.s.ok b && fits 4 ow && fits 4 om && fits 4 sc && fits 16 imm && scMem.contains sc
  | .aand d a b ow om sc imm => Kind.s.ok d && Kind.s.ok a && Kind.s.ok b && fits 4 ow && fits 4 om && fits 4 sc && fits 16 imm && scMem.contains sc
  | .aor d a b ow om sc imm => Kind.s.ok d && Kind.s.ok a && Kind.s.ok b && fits 4 ow && fits 4 om && fits 4 sc && fits 16 imm && scMem.contains sc
  | .axor d a b ow om sc imm => Kind.s.ok d && Kind.s.ok a && Kind.s.ok b && fits 4 ow && fits 4 om && fits 4 sc && fits 16 imm && scMem.contains sc
  | .amin d a b ow om sc imm => Kind.s.ok d && Kind.s.ok a && Kind.s.ok b && fits 4 ow && fits 4 om && fits 4 sc && fits 16 imm && scMem.contains sc
  | .amax d a b ow om sc imm => Kind.s.ok d && Kind.s.ok a && Kind.s.ok b && fits 4 ow && fits 4 om && fits 4 sc && fits 16 imm && scMem.contains sc
  | .aminn d a b ow om sc imm => Kind.s.ok d && Kind.s.ok a && Kind.s.ok b && fits 4 ow && fits 4 om && fits 4 sc && fits 16 imm && scMem.contains sc
  | .amaxn d a b ow om sc imm => Kind.s.ok d && Kind.s.ok a && Kind.s.ok b && fits 4 ow && fits 4 om && fits 4 sc && fits 16 imm && scMem.contains sc
  | .aswap d a b ow om sc imm => Kind.s.ok d && Kind.s.ok a && Kind.s.ok b && fits 4 ow && fits 4 om && fits 4 sc && fits 16 imm && scMem.contains sc
  | .acas d a b ow om sc imm => Kind.s.ok d && Kind.s.ok a && Kind.s.ok b && fits 4 ow && fits 4 om && fits 4 sc && fits 16 imm && scMem.contains sc
  | .fenceAcq a sc => Kind.s.ok a && fits 4 sc && scFence.contains sc && (a == 0 || sc == 6 || sc == 8 || sc == 9)
  | .fenceRel a sc => Kind.s.ok a && fits 4 sc && scFence.contains sc && (a == 0 || sc == 6 || sc == 8 || sc == 9)
  | .fenceFull a sc => Kind.s.ok a && fits 4 sc && scFence.contains sc && (a == 0 || sc == 6 || sc == 8 || sc == 9)
  | .ojoin d a b => Kind.o.ok d && Kind.o.ok a && Kind.o.ok b && d != 0
  | .owait ow sc => fits 4 ow && fits 4 sc && scMem.contains sc && ow != 0
  | .oclr om => fits 4 om && om != 0
  | .trap a b imm => Kind.s.ok a && Kind.s.ok b && fits 22 imm && decide (1 ≤ imm ∧ imm ≤ 31)
  | .tret => true
  | .sysr d imm => Kind.s.ok d && fits 22 imm && decide (imm ≤ 30)
  | .sysw a imm => Kind.s.ok a && fits 22 imm && decide (imm ≤ 30)
  | .sleepc a imm => Kind.s.ok a && fits 22 imm
  | .waittick a imm => Kind.s.ok a && fits 22 imm
  | .brk imm => fits 22 imm
  | .vadd d a b ty m => Kind.v.ok d && Kind.v.ok a && Kind.sv.ok b && fits 4 ty && fits 3 m && tyInt.contains ty
  | .vsub d a b ty m => Kind.v.ok d && Kind.v.ok a && Kind.sv.ok b && fits 4 ty && fits 3 m && tyInt.contains ty
  | .vmul d a b ty m => Kind.v.ok d && Kind.v.ok a && Kind.sv.ok b && fits 4 ty && fits 3 m && tyInt.contains ty
  | .vmulh d a b ty m => Kind.v.ok d && Kind.v.ok a && Kind.sv.ok b && fits 4 ty && fits 3 m && tyInt.contains ty
  | .vmin d a b ty m => Kind.v.ok d && Kind.v.ok a && Kind.sv.ok b && fits 4 ty && fits 3 m && tySigned.contains ty
  | .vmax d a b ty m => Kind.v.ok d && Kind.v.ok a && Kind.sv.ok b && fits 4 ty && fits 3 m && tySigned.contains ty
  | .vminn d a b ty m => Kind.v.ok d && Kind.v.ok a && Kind.sv.ok b && fits 4 ty && fits 3 m && tyUnsigned.contains ty
  | .vmaxn d a b ty m => Kind.v.ok d && Kind.v.ok a && Kind.sv.ok b && fits 4 ty && fits 3 m && tyUnsigned.contains ty
  | .vabs d a ty m => Kind.v.ok d && Kind.v.ok a && fits 4 ty && fits 3 m && tySigned.contains ty
  | .vneg d a ty m => Kind.v.ok d && Kind.v.ok a && fits 4 ty && fits 3 m && tyInt.contains ty
  | .vadds d a b ty m => Kind.v.ok d && Kind.v.ok a && Kind.sv.ok b && fits 4 ty && fits 3 m && tyInt.contains ty
  | .vsubs d a b ty m => Kind.v.ok d && Kind.v.ok a && Kind.sv.ok b && fits 4 ty && fits 3 m && tyInt.contains ty
  | .vand d a b m => Kind.v.ok d && Kind.v.ok a && Kind.sv.ok b && fits 3 m
  | .vor d a b m => Kind.v.ok d && Kind.v.ok a && Kind.sv.ok b && fits 3 m
  | .vxor d a b m => Kind.v.ok d && Kind.v.ok a && Kind.sv.ok b && fits 3 m
  | .vandn d a b m => Kind.v.ok d && Kind.v.ok a && Kind.sv.ok b && fits 3 m
  | .vlop4 d a b c thi m tlo => Kind.v.ok d && Kind.v.ok a && Kind.v.ok b && Kind.v.ok c && fits 4 thi && fits 3 m && fits 12 tlo
  | .vshl d a b ty m => Kind.v.ok d && Kind.v.ok a && Kind.sv.ok b && fits 4 ty && fits 3 m && tyInt.contains ty
  | .vshr d a b ty m => Kind.v.ok d && Kind.v.ok a && Kind.sv.ok b && fits 4 ty && fits 3 m && tyInt.contains ty
  | .vsra d a b ty m => Kind.v.ok d && Kind.v.ok a && Kind.sv.ok b && fits 4 ty && fits 3 m && tyInt.contains ty
  | .vfadd d a b ty m rnd => Kind.v.ok d && Kind.v.ok a && Kind.sv.ok b && fits 4 ty && fits 3 m && fits 3 rnd && tyFloat.contains ty && rnd05.contains rnd
  | .vfsub d a b ty m rnd => Kind.v.ok d && Kind.v.ok a && Kind.sv.ok b && fits 4 ty && fits 3 m && fits 3 rnd && tyFloat.contains ty && rnd05.contains rnd
  | .vfmul d a b ty m rnd => Kind.v.ok d && Kind.v.ok a && Kind.sv.ok b && fits 4 ty && fits 3 m && fits 3 rnd && tyFloat.contains ty && rnd05.contains rnd
  | .vffma d a b c ty m rnd => Kind.v.ok d && Kind.v.ok a && Kind.sv.ok b && Kind.v.ok c && fits 4 ty && fits 3 m && fits 3 rnd && tyFloat.contains ty && rnd05.contains rnd
  | .vffms d a b c ty m rnd => Kind.v.ok d && Kind.v.ok a && Kind.sv.ok b && Kind.v.ok c && fits 4 ty && fits 3 m && fits 3 rnd && tyFloat.contains ty && rnd05.contains rnd
  | .vffnma d a b c ty m rnd => Kind.v.ok d && Kind.v.ok a && Kind.sv.ok b && Kind.v.ok c && fits 4 ty && fits 3 m && fits 3 rnd && tyFloat.contains ty && rnd05.contains rnd
  | .vfmin d a b ty m rnd => Kind.v.ok d && Kind.v.ok a && Kind.sv.ok b && fits 4 ty && fits 3 m && fits 3 rnd && tyFloat.contains ty && rnd0.contains rnd
  | .vfmax d a b ty m rnd => Kind.v.ok d && Kind.v.ok a && Kind.sv.ok b && fits 4 ty && fits 3 m && fits 3 rnd && tyFloat.contains ty && rnd0.contains rnd
  | .vfabs d a ty m rnd => Kind.v.ok d && Kind.v.ok a && fits 4 ty && fits 3 m && fits 3 rnd && tyFloat.contains ty && rnd0.contains rnd
  | .vfneg d a ty m rnd => Kind.v.ok d && Kind.v.ok a && fits 4 ty && fits 3 m && fits 3 rnd && tyFloat.contains ty && rnd0.contains rnd
  | .vdot2 d a b ty m rnd => Kind.v.ok d && Kind.v.ok a && Kind.sv.ok b && fits 4 ty && fits 3 m && fits 3 rnd && tyHalf.contains ty && rnd05.contains rnd
  | .vfdiv d a b ty m rnd => Kind.v.ok d && Kind.v.ok a && Kind.sv.ok b && fits 4 ty && fits 3 m && fits 3 rnd && tyF32.contains ty && rnd05.contains rnd
  | .vfsqrt d a ty m rnd => Kind.v.ok d && Kind.v.ok a && fits 4 ty && fits 3 m && fits 3 rnd && tyF32.contains ty && rnd05.contains rnd
  | .vfrcp d a ty m rnd => Kind.v.ok d && Kind.v.ok a && fits 4 ty && fits 3 m && fits 3 rnd && tyF32.contains ty && rnd05.contains rnd
  | .vfrsqrt d a ty m rnd => Kind.v.ok d && Kind.v.ok a && fits 4 ty && fits 3 m && fits 3 rnd && tyF32.contains ty && rnd05.contains rnd
  | .vfexp2 d a ty m rnd => Kind.v.ok d && Kind.v.ok a && fits 4 ty && fits 3 m && fits 3 rnd && tyF32.contains ty && rnd05.contains rnd
  | .vflog2 d a ty m rnd => Kind.v.ok d && Kind.v.ok a && fits 4 ty && fits 3 m && fits 3 rnd && tyF32.contains ty && rnd05.contains rnd
  | .vfclass d a ty m rnd => Kind.v.ok d && Kind.v.ok a && fits 4 ty && fits 3 m && fits 3 rnd && tyFloat.contains ty && rnd0.contains rnd
  | .vcvt d a ty m rnd ts => Kind.v.ok d && Kind.v.ok a && fits 4 ty && fits 3 m && fits 3 rnd && fits 4 ts && cvtTdOk 0 ty && cvtPairOk 0 ty ts && (cvtRounds ty ts).contains rnd
  | .vpack d a b ty m rnd ts => Kind.v.ok d && Kind.v.ok a && Kind.v.ok b && fits 4 ty && fits 3 m && fits 3 rnd && fits 4 ts && cvtTdOk 1 ty && cvtPairOk 1 ty ts && (cvtRounds ty ts).contains rnd
  | .vunpack d a ty m rnd ts h => Kind.v.ok d && Kind.v.ok a && fits 4 ty && fits 3 m && fits 3 rnd && fits 4 ts && fits 1 h && cvtTdOk 2 ty && cvtPairOk 2 ty ts && (cvtRounds ty ts).contains rnd
  | .vscale d a b ty m rnd => Kind.v.ok d && Kind.v.ok a && Kind.sv.ok b && fits 4 ty && fits 3 m && fits 3 rnd && tyFloat.contains ty && rnd05.contains rnd
  | .vcmp d a b ty m rnd rel => Kind.m.ok d && Kind.v.ok a && Kind.sv.ok b && fits 4 ty && fits 3 m && fits 3 rnd && fits 3 rel && tyWideInt.contains ty && rnd0.contains rnd && decide (rel ≤ 5)
  | .vfcmp d a b ty m rnd rel => Kind.m.ok d && Kind.v.ok a && Kind.sv.ok b && fits 4 ty && fits 3 m && fits 3 rnd && fits 3 rel && tyFloat.contains ty && rnd0.contains rnd && decide (rel ≤ 5)
  | .mand d a b => Kind.m.ok d && Kind.m.ok a && Kind.m.ok b
  | .mor d a b => Kind.m.ok d && Kind.m.ok a && Kind.m.ok b
  | .mxor d a b => Kind.m.ok d && Kind.m.ok a && Kind.m.ok b
  | .mnot d a => Kind.m.ok d && Kind.m.ok a
  | .mpop d a => Kind.s.ok d && Kind.m.ok a
  | .mfirst d a => Kind.s.ok d && Kind.m.ok a
  | .mmov d a sl => fits 6 d && fits 6 a && fits 2 sl && mmovKinds d a sl
  | .vperm d a b ty m => Kind.v.ok d && Kind.v.ok a && Kind.sv.ok b && fits 4 ty && fits 3 m && tyByteUp.contains ty
  | .vbcast d a ty m i => Kind.v.ok d && Kind.sv.ok a && fits 4 ty && fits 3 m && fits 12 i && tyAll.contains ty && vbcastIndexOk a ty i
  | .vext d a b ty i => Kind.s.ok d && Kind.v.ok a && Kind.s.ok b && fits 4 ty && fits 12 i && tyAll.contains ty
  | .vins d a b ty m i => Kind.v.ok d && Kind.s.ok a && Kind.s.ok b && fits 4 ty && fits 3 m && fits 12 i && tyAll.contains ty
  | .vslide d a b ty m i => Kind.v.ok d && Kind.v.ok a && Kind.v.ok b && fits 4 ty && fits 3 m && fits 12 i && tyAll.contains ty && decide (i ≤ elems ty)
  | .vsel d a b ty m => Kind.v.ok d && Kind.v.ok a && Kind.sv.ok b && fits 4 ty && fits 3 m && tyAll.contains ty
  | .vmov d a ty m => Kind.v.ok d && Kind.v.ok a && fits 4 ty && fits 3 m && tyAll.contains ty
  | .vcompress d a ty m => Kind.v.ok d && Kind.v.ok a && fits 4 ty && fits 3 m && tyAll.contains ty
  | .vredsum d a ty m rnd => Kind.s.ok d && Kind.v.ok a && fits 4 ty && fits 3 m && fits 3 rnd && tyInt.contains ty && rnd0.contains rnd
  | .vredmax d a ty m rnd => Kind.s.ok d && Kind.v.ok a && fits 4 ty && fits 3 m && fits 3 rnd && tyInt.contains ty && rnd0.contains rnd
  | .vredmin d a ty m rnd => Kind.s.ok d && Kind.v.ok a && fits 4 ty && fits 3 m && fits 3 rnd && tyInt.contains ty && rnd0.contains rnd
  | .vfredsum d a ty m rnd => Kind.s.ok d && Kind.v.ok a && fits 4 ty && fits 3 m && fits 3 rnd && tyFloat.contains ty && rnd04.contains rnd
  | .vfredmax d a ty m rnd => Kind.s.ok d && Kind.v.ok a && fits 4 ty && fits 3 m && fits 3 rnd && tyFloat.contains ty && rnd0.contains rnd
  | .vfredmin d a ty m rnd => Kind.s.ok d && Kind.v.ok a && fits 4 ty && fits 3 m && fits 3 rnd && tyFloat.contains ty && rnd0.contains rnd
  | .vscan d a ty m rnd o => Kind.v.ok d && Kind.v.ok a && fits 4 ty && fits 3 m && fits 3 rnd && fits 2 o && tyInt.contains ty && rnd0.contains rnd && decide (o ≤ 2)
  | .vfscan d a ty m rnd o => Kind.v.ok d && Kind.v.ok a && fits 4 ty && fits 3 m && fits 3 rnd && fits 2 o && tyF32.contains ty && (fscanRounds o).contains rnd && decide (o ≤ 2)
  | .vld d a ow om sc ty m imm => Kind.v.ok d && Kind.s.ok a && fits 4 ow && fits 4 om && fits 4 sc && fits 4 ty && fits 3 m && fits 9 imm && tyAll.contains ty && scMem.contains sc
  | .vst d a ow om sc ty m imm => Kind.v.ok d && Kind.s.ok a && fits 4 ow && fits 4 om && fits 4 sc && fits 4 ty && fits 3 m && fits 9 imm && tyAll.contains ty && scMem.contains sc
  | .vlds d a b ow om sc ty m imm => Kind.v.ok d && Kind.s.ok a && Kind.s.ok b && fits 4 ow && fits 4 om && fits 4 sc && fits 4 ty && fits 3 m && fits 9 imm && tyByteUp.contains ty && scMem.contains sc
  | .vsts d a b ow om sc ty m imm => Kind.v.ok d && Kind.s.ok a && Kind.s.ok b && fits 4 ow && fits 4 om && fits 4 sc && fits 4 ty && fits 3 m && fits 9 imm && tyByteUp.contains ty && scMem.contains sc
  | .vldx d a b ow om sc ty m imm => Kind.v.ok d && Kind.s.ok a && Kind.v.ok b && fits 4 ow && fits 4 om && fits 4 sc && fits 4 ty && fits 3 m && fits 9 imm && tyWord.contains ty && scMem.contains sc
  | .vstx d a b ow om sc ty m imm => Kind.v.ok d && Kind.s.ok a && Kind.v.ok b && fits 4 ow && fits 4 om && fits 4 sc && fits 4 ty && fits 3 m && fits 9 imm && tyWord.contains ty && scMem.contains sc
  | .vldb d a ow om sc ty m imm => Kind.v.ok d && Kind.s.ok a && fits 4 ow && fits 4 om && fits 4 sc && fits 4 ty && fits 3 m && fits 9 imm && tyByteUp.contains ty && scMem.contains sc
  | .vaadd d a b ow om sc ty m imm => Kind.v.ok d && Kind.s.ok a && Kind.v.ok b && fits 4 ow && fits 4 om && fits 4 sc && fits 4 ty && fits 3 m && fits 9 imm && tyWord.contains ty && scMem.contains sc
  | .vaor d a b ow om sc ty m imm => Kind.v.ok d && Kind.s.ok a && Kind.v.ok b && fits 4 ow && fits 4 om && fits 4 sc && fits 4 ty && fits 3 m && fits 9 imm && tyWordInt.contains ty && scMem.contains sc
  | .wld d a b ow om sc port sz imm => Kind.v.ok d && Kind.s.ok a && Kind.s.ok b && fits 4 ow && fits 4 om && fits 4 sc && fits 4 port && fits 2 sz && fits 10 imm && scMem.contains sc && decide (port ≤ 7 ∧ sz ≤ 2)
  | .wlds d a b ow om sc port sz imm => Kind.s.ok d && Kind.s.ok a && Kind.s.ok b && fits 4 ow && fits 4 om && fits 4 sc && fits 4 port && fits 2 sz && fits 10 imm && scMem.contains sc && decide (port ≤ 7)
  | .wst d a b ow om sc port sz imm => Kind.sv.ok d && Kind.s.ok a && Kind.s.ok b && fits 4 ow && fits 4 om && fits 4 sc && fits 4 port && fits 2 sz && fits 10 imm && scMem.contains sc && decide (8 ≤ port ∧ (d < 32 ∨ sz ≤ 2))
  | .wsend a ow om sc port => Kind.s.ok a && fits 4 ow && fits 4 om && fits 4 sc && fits 4 port && scMem.contains sc && decide (8 ≤ port)
  | .wavail d port => Kind.s.ok d && fits 4 port && decide (port ≤ 7)
  | .wfree d port => Kind.s.ok d && fits 4 port && decide (8 ≤ port)
  | .wwait a b port => Kind.s.ok a && Kind.s.ok b && fits 4 port && decide (port ≤ 7)
  | .wwaito b port => Kind.s.ok b && fits 4 port && decide (8 ≤ port)
  | .weos a => Kind.s.ok a
  | .wmode d port => Kind.s.ok d && fits 4 port && decide (port ≤ 7)
  | .fend => true
  | .fabort a => Kind.s.ok a
  | .wovf d port => Kind.s.ok d && fits 4 port
  | .rld d a ow om sc sz sx imm => Kind.s.ok d && Kind.s.ok a && fits 4 ow && fits 4 om && fits 4 sc && fits 2 sz && fits 1 sx && fits 9 imm && scMem.contains sc && decide (sx = 0 ∨ sz ≠ 3)
  | .rst d a ow om sc sz imm => Kind.s.ok d && Kind.s.ok a && fits 4 ow && fits 4 om && fits 4 sc && fits 2 sz && fits 9 imm && scMem.contains sc
  | .ramo d a b ow om sc sz sx o imm => Kind.s.ok d && Kind.s.ok a && Kind.s.ok b && fits 4 ow && fits 4 om && fits 4 sc && fits 2 sz && fits 1 sx && fits 4 o && fits 9 imm && scMem.contains sc && decide (2 ≤ sz ∧ (sx = 0 ∨ sz ≠ 3) ∧ o ≤ 9)
  | .ovld d a ow om sc ty o cnt => Kind.v.ok d && Kind.s.ok a && fits 4 ow && fits 4 om && fits 4 sc && fits 4 ty && fits 3 o && fits 6 cnt && scOv.contains sc && ovldOk ty o cnt
  | .ovst d a ow om sc ty o cnt => Kind.sv.ok d && Kind.s.ok a && fits 4 ow && fits 4 om && fits 4 sc && fits 4 ty && fits 3 o && fits 6 cnt && tyZero.contains ty && scOv.contains sc && decide (ty = 0 ∧ o = 0 ∧ (32 ≤ d ∨ cnt ≤ 1))
  | .grpstat d a ow om sc ty o cnt => Kind.s.ok d && Kind.s.ok a && fits 4 ow && fits 4 om && fits 4 sc && fits 4 ty && fits 3 o && fits 6 cnt && tyZero.contains ty && scOv.contains sc && decide (ty = 0 ∧ o = 0 ∧ cnt ≤ 32)
  | .barr d a b ow om sc => Kind.s.ok d && Kind.s.ok a && Kind.s.ok b && fits 4 ow && fits 4 om && fits 4 sc && scMem.contains sc
  | .barx a b ow om sc => Kind.s.ok a && Kind.s.ok b && fits 4 ow && fits 4 om && fits 4 sc && scMem.contains sc
  | .barw d a b ow om sc => Kind.s.ok d && Kind.s.ok a && Kind.s.ok b && fits 4 ow && fits 4 om && fits 4 sc && scMem.contains sc
  | .mclaim d ow om sc keep n1 => Kind.q.ok d && fits 4 ow && fits 4 om && fits 4 sc && fits 1 keep && fits 6 n1 && scMem.contains sc && decide (d + n1 < 64)
  | .mrel d ow om sc n1 => Kind.q.ok d && fits 4 ow && fits 4 om && fits 4 sc && fits 6 n1 && scMem.contains sc && decide (d + n1 < 64)
  | .mld d a b ow om sc rcnt => Kind.q.ok d && Kind.s.ok a && Kind.s.ok b && fits 4 ow && fits 4 om && fits 4 sc && fits 5 rcnt && scMem.contains sc
  | .mldScl d a ow om sc rcnt => Kind.q.ok d && Kind.s.ok a && fits 4 ow && fits 4 om && fits 4 sc && fits 5 rcnt && scMem.contains sc
  | .mldw d a b ow om sc port rcnt => Kind.q.ok d && Kind.s.ok a && Kind.s.ok b && fits 4 ow && fits 4 om && fits 4 sc && fits 4 port && fits 5 rcnt && scMem.contains sc && decide (port ≤ 7)
  | .mgath d a b ow om sc ty rcnt => Kind.q.ok d && Kind.s.ok a && Kind.s.ok b && fits 4 ow && fits 4 om && fits 4 sc && fits 4 ty && fits 5 rcnt && tyMat.contains ty && scMem.contains sc
  | .mtr d a ow om sc ty => Kind.q.ok d && Kind.q.ok a && fits 4 ow && fits 4 om && fits 4 sc && fits 4 ty && tyMat.contains ty && scMem.contains sc && mtrOk d a ty
  | .mzero d ow om sc mc nc ty row => Kind.x.ok d && fits 4 ow && fits 4 om && fits 4 sc && fits 2 mc && fits 6 nc && fits 4 ty && fits 2 row && tyAcc.contains ty && scMem.contains sc && shapeOk d mc nc row
  | .mma d a b ow om sc mc nc ty row st1 fin => Kind.x.ok d && Kind.q.ok a && Kind.q.ok b && fits 4 ow && fits 4 om && fits 4 sc && fits 2 mc && fits 6 nc && fits 4 ty && fits 2 row && fits 1 st1 && fits 1 fin && tyMat.contains ty && scMem.contains sc && mmaOk d a b mc nc row
  | .mmag d a b ow om sc ldr nc ty st1 fin => Kind.x.ok d && Kind.q.ok a && Kind.q.ok b && fits 4 ow && fits 4 om && fits 4 sc && fits 4 ldr && fits 6 nc && fits 4 ty && fits 1 st1 && fits 1 fin && tyMat.contains ty && scMem.contains sc && mmagOk d a b nc
  | .mdrain d a ow om sc mc nc row keep => Kind.x.ok d && Kind.s.ok a && fits 4 ow && fits 4 om && fits 4 sc && fits 2 mc && fits 6 nc && fits 2 row && fits 1 keep && scMem.contains sc && shapeOk d mc nc row
  | .mwait => true
  | .mstat d sl => Kind.s.ok d && fits 4 sl && decide (sl ≤ 11)
  | .sbind a ow om sc ctx => Kind.s.ok a && fits 4 ow && fits 4 om && fits 4 sc && fits 8 ctx && scMem.contains sc
  | .scopy a b ow om sc ctx => Kind.s.ok a && Kind.s.ok b && fits 4 ow && fits 4 om && fits 4 sc && fits 8 ctx && scMem.contains sc
  | .sfetch d a b ow om sc ctx => Kind.s.ok d && Kind.s.ok a && Kind.s.ok b && fits 4 ow && fits 4 om && fits 4 sc && fits 8 ctx && scMem.contains sc
  | .sput a b ow om sc ctx => Kind.s.ok a && Kind.s.ok b && fits 4 ow && fits 4 om && fits 4 sc && fits 8 ctx && scMem.contains sc
  | .cwait d a b ow om sc => Kind.s.ok d && Kind.s.ok a && Kind.s.ok b && fits 4 ow && fits 4 om && fits 4 sc && scMem.contains sc
  | .sresume ctx => fits 8 ctx
  | .sstat d ctx sl => Kind.s.ok d && fits 8 ctx && fits 8 sl && decide (sl ≤ 3)
  | .etch d a b ow om => Kind.s.ok d && Kind.s.ok a && Kind.s.ok b && fits 4 ow && fits 4 om
  | .pull d a b ow om => Kind.s.ok d && Kind.s.ok a && Kind.s.ok b && fits 4 ow && fits 4 om
  | .drain d a b ow om => Kind.s.ok d && Kind.s.ok a && Kind.s.ok b && fits 4 ow && fits 4 om
  | .drainFlush d a b ow om => Kind.s.ok d && Kind.s.ok a && Kind.s.ok b && fits 4 ow && fits 4 om
  | .qstat d a ow om sl => Kind.s.ok d && Kind.s.ok a && fits 4 ow && fits 4 om && fits 6 sl && decide (sl ≤ 34)
  | .palloc d a ow om => Kind.s.ok d && Kind.s.ok a && fits 4 ow && fits 4 om
  | .pmove d a b ow om => Kind.s.ok d && Kind.s.ok a && Kind.s.ok b && fits 4 ow && fits 4 om
  | .pfree d a ow om => Kind.s.ok d && Kind.s.ok a && fits 4 ow && fits 4 om
  | .xld d a b ow om sc sz sx => Kind.s.ok d && Kind.s.ok a && Kind.s.ok b && fits 4 ow && fits 4 om && fits 4 sc && fits 2 sz && fits 1 sx && scX.contains sc && decide (sx = 0 ∨ sz ≠ 3)
  | .xst d a b ow om sc sz => Kind.s.ok d && Kind.s.ok a && Kind.s.ok b && fits 4 ow && fits 4 om && fits 4 sc && fits 2 sz && scX.contains sc
  | .xamo d a b ow om sc sz sx o e => Kind.s.ok d && Kind.s.ok a && Kind.s.ok b && fits 4 ow && fits 4 om && fits 4 sc && fits 2 sz && fits 1 sx && fits 4 o && Kind.s.ok e && scX.contains sc && decide (2 ≤ sz ∧ (sx = 0 ∨ sz ≠ 3) ∧ o ≤ 9)
  | .edst d a b ow om sc e cnt => Kind.sv.ok d && Kind.s.ok a && Kind.s.ok b && fits 4 ow && fits 4 om && fits 4 sc && Kind.s.ok e && fits 6 cnt && scEd.contains sc && decide (32 ≤ d ∨ cnt ≤ 1)
  | .edwait d a b ow om sc => Kind.s.ok d && Kind.s.ok a && Kind.s.ok b && fits 4 ow && fits 4 om && fits 4 sc && scEd.contains sc
  | .xovld d a b ow om sc ty o cnt => Kind.v.ok d && Kind.s.ok a && Kind.s.ok b && fits 4 ow && fits 4 om && fits 4 sc && fits 4 ty && fits 3 o && fits 6 cnt && scXov.contains sc && ovldOk ty o cnt
  | .rkreg d a ow om sc => Kind.s.ok d && Kind.s.ok a && fits 4 ow && fits 4 om && fits 4 sc && scZero.contains sc
  | .rkrev d a ow om sc => Kind.s.ok d && Kind.s.ok a && fits 4 ow && fits 4 om && fits 4 sc && scZero.contains sc
  | .xfence a ow om sc => Kind.s.ok a && fits 4 ow && fits 4 om && fits 4 sc && scX.contains sc && (a == 0 || sc == 8)
  | .qpop d a b ow om => Kind.s.ok d && Kind.s.ok a && Kind.s.ok b && fits 4 ow && fits 4 om
  | .qdone d a b ow om => Kind.s.ok d && Kind.s.ok a && Kind.s.ok b && fits 4 ow && fits 4 om
  | .launch d a b ow om => Kind.s.ok d && Kind.s.ok a && Kind.s.ok b && fits 4 ow && fits 4 om
  | .cancel d a ow om => Kind.s.ok d && Kind.s.ok a && fits 4 ow && fits 4 om
  | .preempt d a ow om => Kind.s.ok d && Kind.s.ok a && fits 4 ow && fits 4 om
  | .preemptResume d a ow om => Kind.s.ok d && Kind.s.ok a && fits 4 ow && fits 4 om
  | .ctxsave d a b ow om => Kind.s.ok d && Kind.s.ok a && Kind.s.ok b && fits 4 ow && fits 4 om
  | .ctxrest d a ow om => Kind.s.ok d && Kind.s.ok a && fits 4 ow && fits 4 om
  | .fwload d a b ow om slot => Kind.s.ok d && Kind.s.ok a && Kind.s.ok b && fits 4 ow && fits 4 om && fits 1 slot
  | .fwverify d ow om slot => Kind.s.ok d && fits 4 ow && fits 4 om && fits 1 slot
  | .fwmeasure d ow om slot => Kind.s.ok d && fits 4 ow && fits 4 om && fits 1 slot
  | .fwswitch d a ow om slot => Kind.s.ok d && Kind.s.ok a && fits 4 ow && fits 4 om && fits 1 slot
  | .hbeat d a ow om => Kind.s.ok d && Kind.s.ok a && fits 4 ow && fits 4 om
  | .rpt n1 sd sa sb sc => fits 6 n1 && fits 2 sd && fits 2 sa && fits 2 sb && fits 2 sc
  | .firingStart t => decide (t < 2048)
  | .firingLimit t => decide (t < 2048)
  | .containmentDecision t => decide (t < 2048)
  | .interruptEntry n => decide (n < 8)
  | .pageWalk g va wr => decide (g < 32768) && decide (va < 18446744073709551616) && decide (wr < 2)
  | .flitInject k => decide (k < 589824)
  | .dataFlit k => decide (k < 589824)
  | .pointerFlit k => decide (k < 589824)
  | .markerFlit k => decide (k < 589824)
  | .returnFlit k => decide (k < 589824)
  | .markerForward a => decide (a < 18432)
  | .faultedMarkerEffect a => decide (a < 18432)
  | .regionDrained r => decide (r < 128)
  | .remoteAccessApply t _ => decide (t < 2048)
  | .remoteResponse t _ => decide (t < 2048)
  | .overprintSample t _ => decide (t < 2048)
  | .overprintMemberAccess t _ j => decide (t < 2048) && decide (j < 2048)
  | .overprintComplete t _ => decide (t < 2048)
  | .barrierUpdate t _ => decide (t < 2048)
  | .barwRelease t _ => decide (t < 2048)
  | .barwResend t _ => decide (t < 2048)
  | .matrixCmdStart t _ => decide (t < 2048)
  | .matrixCmdComplete t _ => decide (t < 2048)
  | .mmagGangStart pl => decide (pl < 128)
  | .streamSourceFiring c => decide (c < 2304)
  | .streamSinkFiring c => decide (c < 2304)
  | .streamCmdAccept c => decide (c < 2304)
  | .streamCmdPerform c => decide (c < 2304)
  | .waitLimit g => decide (g < 2056)
  | .firingHalt t => decide (t < 2048)
  | .hubCloseTimeout t => decide (t < 2048)
  | .pullSwap r => decide (r < 128)
  | .scrubComplete pl => decide (pl < 128)
  | .laneLock n => decide (n < 24)
  | .laneFailure n => decide (n < 24)
  | .trainSend n => decide (n < 24)
  | .trainingTimeout n => decide (n < 24)
  | .train n peer nv pl sq => decide (n < 24) && decide (peer < 1024) && decide (nv < 2) && decide (pl < 256) && decide (sq < 4096)
  | .creditInit n => decide (n < 24)
  | .replay n sq => decide (n < 24) && decide (sq < 4096)
  | .flitReceive n kind sq ack cr ok corr disc => decide (n < 24) && decide (kind < 16) && decide (sq < 4096) && decide (ack < 4096) && decide (cr < 16) && decide (ok < 3) && decide (corr < 2) && decide (disc < 64)
  | .linkSilenceTimeout n => decide (n < 24)
  | .openMsg src ep => decide (src < 1024) && decide (ep < 65536)
  | .acceptMsg src ep => decide (src < 1024) && decide (ep < 65536)
  | .ld src ep sq key off len => decide (src < 1024) && decide (ep < 65536) && decide (sq < 4294967296) && decide (key < 4294967296) && decide (off < 18446744073709551616) && decide (len < 257)
  | .st src ep sq key off sz val => decide (src < 1024) && decide (ep < 65536) && decide (sq < 4294967296) && decide (key < 4294967296) && decide (off < 18446744073709551616) && decide (sz < 4) && decide (val < 18446744073709551616)
  | .amo src ep sq key off sz o val cmp => decide (src < 1024) && decide (ep < 65536) && decide (sq < 4294967296) && decide (key < 4294967296) && decide (off < 18446744073709551616) && decide (sz < 4) && decide (o < 10) && decide (val < 18446744073709551616) && decide (cmp < 18446744073709551616)
  | .edstMessage src ep sq g len off _ => decide (src < 1024) && decide (ep < 65536) && decide (sq < 4294967296) && decide (g < 65536) && decide (len < 257) && decide (off < 18446744073709551616)
  | .edApply src ep sq g len ge ed off _ => decide (src < 1024) && decide (ep < 65536) && decide (sq < 4294967296) && decide (g < 65536) && decide (len < 257) && decide (ge < 65536) && decide (ed < 18446744073709551616) && decide (off < 18446744073709551616)
  | .dataMsg src ep sq _ => decide (src < 1024) && decide (ep < 65536) && decide (sq < 4294967296)
  | .ackMsg src ep sq => decide (src < 1024) && decide (ep < 65536) && decide (sq < 4294967296)
  | .errMsg src ep sq code rsn pte => decide (src < 1024) && decide (ep < 65536) && decide (sq < 4294967296) && decide (code < 256) && decide (rsn < 256) && decide (pte < 18446744073709551616)
  | .staleMsg src ep sq => decide (src < 1024) && decide (ep < 65536) && decide (sq < 4294967296)
  | .edNum src ep sq ed => decide (src < 1024) && decide (ep < 65536) && decide (sq < 4294967296) && decide (ed < 18446744073709551616)
  | .retransmitTimeout nd => decide (nd < 1024)
  | .connectionTimeout nd => decide (nd < 1024)
  | .replyCacheExpiry src ep sq => decide (src < 1024) && decide (ep < 65536) && decide (sq < 4294967296)
  | .editionGapTimeout g => decide (g < 4096)
  | .announce n dom p1 quality p2 id path => decide (n < 24) && decide (dom < 256) && decide (p1 < 256) && decide (quality < 4294967296) && decide (p2 < 256) && decide (id < 18446744073709551616) && decide (path < 158456325028528675187087900672)
  | .syncMsg n dom sq => decide (n < 24) && decide (dom < 256) && decide (sq < 65536)
  | .followUp n dom sq t1 => decide (n < 24) && decide (dom < 256) && decide (sq < 65536) && decide (t1 < 18446744073709551616)
  | .delayReq n dom sq => decide (n < 24) && decide (dom < 256) && decide (sq < 65536)
  | .delayResp n dom sq t4 => decide (n < 24) && decide (dom < 256) && decide (sq < 65536) && decide (t4 < 18446744073709551616)
  | .ptpInterval n kind => decide (n < 24) && decide (kind < 3)
  | .announceReceiptTimeout => true
  | .kick q v => decide (q < 256) && decide (v < 4294967296)
  | .queueCtlWrite q v => decide (q < 256) && decide (v < 18446744073709551616)
  | .hdmAccess wr addr len _ => decide (wr < 2) && decide (addr < 549755813888) && decide (len < 65)
  | .getVersion => true
  | .getCapabilities => true
  | .negotiateAlgorithms hash asym => decide (hash < 2) && decide (asym < 2)
  | .getDigests => true
  | .getCertificate slot off len => decide (slot < 8) && decide (off < 65536) && decide (len < 65536)
  | .challenge _ => true
  | .getMeasurements blk sig _ => decide (blk < 256) && decide (sig < 2)
  | .keyExchange sid _ => decide (sid < 65536)
  | .finish _ => true
  | .endSession => true
  | .vendorDefinedRequest _ => true
  | .tinvPage die r va => decide (die < 2) && decide (r < 128) && decide (va < 18446744073709551616)
  | .tinvRegion die r => decide (die < 2) && decide (r < 128)
  | .tinvAll die => decide (die < 2)
  | .tinvComplete die => decide (die < 2)
  | .ccrootWrite n root v => decide (n < 8) && decide (root < 2) && decide (v < 18446744073709551616)
  | .ccresetReset n x => decide (n < 8) && decide (x < 8)
  | .dbellWrite x v => decide (x < 8) && decide (v < 4)
  | .plateFenceWrite n pl v => decide (n < 8) && decide (pl < 128) && decide (v < 2)
  | .pfaultClear pl => decide (pl < 128)
  | .permanentFault pl => decide (pl < 128)
  | .linkDisWrite n lk v => decide (n < 8) && decide (lk < 24) && decide (v < 2)
  | .routeMaskWrite n nd v => decide (n < 8) && decide (nd < 1024) && decide (v < 18446744073709551616)
  | .editionEntryWrite n g off v => decide (n < 8) && decide (g < 4096) && decide (off < 256) && decide (v < 18446744073709551616)
  | .gtstatRead => true
  | .editionReportRead => true
  | .cxlErrorLogRead => true
  | .cxlLinkError v => decide (v < 18446744073709551616)
  | .storeErrorReport n addr code => decide (n < 8) && decide (addr < 18446744073709551616) && decide (code < 256)
  | .registerWrite n addr v => decide (n < 9) && decide (addr < 18446744073709551616) && decide (v < 18446744073709551616)
  | .throttleTick pwr temp => decide (pwr < 4096) && decide (temp < 256)
  | .thermalShutdown temp => decide (temp < 256)
  | .powerCycle => true
  | .fundamentalReset => true
  | .secondaryBusReset => true
  | .boot hbmOk copyOk => decide (hbmOk < 2) && decide (copyOk < 2)
  | .fwRollback => true
  | .waitTargetReached g => decide (g < 2056)
  | .ideKeyManagement stream kind _ => decide (stream < 256) && decide (kind < 8)

end Sys2Proof
end

