-- ==== Sys2Proof/Decode.lean ====
section
/-! DEFINITION. The decoder and encoder of instruction words: the opcode map of R143 with each chapter's field table, the checks of
R146 in order with the reasons and bits of R147, the repeat checks of R150, and the words of an instruction. -/

namespace Sys2Proof

/-- Bits [lo+w−1:lo] of a word (R6). -/
def bits (x lo w : Nat) : Nat := x / 2 ^ lo % 2 ^ w

/-- `sx` of R6: a value of `w` bits as an integer. -/
def signed (w x : Nat) : Int := if x % 2 ^ w < 2 ^ (w - 1) then (x % 2 ^ w : Nat) else (x % 2 ^ w : Nat) - (2 ^ w : Nat)

/-- `sx` of R6 into a 64-bit register. -/
def sxWord (w x : Nat) : Word := BitVec.ofInt 64 (signed w x)

/-- A field of an instruction that the instruction uses: its low bit, width and register kind (R138, R139). -/
structure Field where
  lo : Nat
  width : Nat
  kind : Kind
deriving DecidableEq, Repr

/-- The cores that execute an instruction (R143): F and C, F only, C only, C at level M only. -/
inductive Cores where
  | both | firing | control | levelM
deriving DecidableEq, Repr

/-- The limits a chapter sets on operands, checked in check 8 of R146. -/
inductive Limit where
  | none | bitField | immMax (n : Nat) | immMax22 (n : Nat) | odNonzero | owNonzero | omNonzero | trapCode | rel | mmov | vbcast
  | vslide | scanOp | portIn | portIn0 | portInVec | portOut | portZero | portOutSt | sxSize | amoSize | ovld | ovst | grpstat | slotRange
  | mtr | shape | mma | mmag | mstatSel | sstatSel | qstatSel | edst
deriving DecidableEq, Repr

/-- How the TYPE field is checked (check 9): not at all, against a list at a bit, as a conversion (R213), or as `ovld` (R265). -/
inductive TypeCheck where
  | none | at (lo : Nat) (ok : List Nat) | cvt (fn : Nat) | ovld
deriving DecidableEq, Repr

/-- How the ROUND field is checked (check 10). -/
inductive RoundCheck where
  | none | list (ok : List Nat) | cvt | fscan
deriving DecidableEq, Repr

/-- One row of the opcode map: codes, used fields, and what its checks accept. A row whose form is told by a bit gives the bit in
`form` and its value in `formVal` (`mld.scl`, `drain.flush`, `preempt.resume`). -/
structure OpSpec where
  maj : Nat
  fn : Nat
  fields : List Field := []
  types : TypeCheck := .none
  rounds : RoundCheck := .none
  scopes : Option (List Nat) := Option.none
  limit : Limit := .none
  rep : Bool := true
  cores : Cores := .both
  form : Option Nat := Option.none
  formVal : Nat := 0
deriving DecidableEq, Repr

/-- The value of register field D, A, B, C (R137). -/
def vD (w : Nat) : Nat := bits w 40 6
def vA (w : Nat) : Nat := bits w 34 6
def vB (w : Nat) : Nat := bits w 28 6
def vC (w : Nat) : Nat := bits w 22 6

/-- R143, MAJ 0x01. -/
def ops01 : List OpSpec :=
  [
    { maj := 0x01, fn := 0 } ]

/-- R143, MAJ 0x02. -/
def ops02 : List OpSpec :=
  [
    { maj := 0x02, fn := 0, fields := [⟨40, 6, .s⟩, ⟨34, 6, .s⟩, ⟨28, 6, .s⟩] },
    { maj := 0x02, fn := 1, fields := [⟨40, 6, .s⟩, ⟨34, 6, .s⟩, ⟨28, 6, .s⟩] },
    { maj := 0x02, fn := 2, fields := [⟨40, 6, .s⟩, ⟨34, 6, .s⟩, ⟨28, 6, .s⟩] },
    { maj := 0x02, fn := 3, fields := [⟨40, 6, .s⟩, ⟨34, 6, .s⟩, ⟨28, 6, .s⟩] },
    { maj := 0x02, fn := 4, fields := [⟨40, 6, .s⟩, ⟨34, 6, .s⟩, ⟨28, 6, .s⟩] },
    { maj := 0x02, fn := 5, fields := [⟨40, 6, .s⟩, ⟨34, 6, .s⟩, ⟨28, 6, .s⟩] },
    { maj := 0x02, fn := 6, fields := [⟨40, 6, .s⟩, ⟨34, 6, .s⟩, ⟨28, 6, .s⟩] },
    { maj := 0x02, fn := 7, fields := [⟨40, 6, .s⟩, ⟨34, 6, .s⟩, ⟨28, 6, .s⟩] },
    { maj := 0x02, fn := 8, fields := [⟨40, 6, .s⟩, ⟨34, 6, .s⟩, ⟨28, 6, .s⟩] },
    { maj := 0x02, fn := 9, fields := [⟨40, 6, .s⟩, ⟨34, 6, .s⟩, ⟨28, 6, .s⟩, ⟨22, 6, .s⟩] },
    { maj := 0x02, fn := 10, fields := [⟨40, 6, .s⟩, ⟨34, 6, .s⟩, ⟨28, 6, .s⟩, ⟨22, 6, .s⟩] },
    { maj := 0x02, fn := 11, fields := [⟨40, 6, .s⟩, ⟨34, 6, .s⟩, ⟨28, 6, .s⟩] },
    { maj := 0x02, fn := 12, fields := [⟨40, 6, .s⟩, ⟨34, 6, .s⟩, ⟨28, 6, .s⟩] },
    { maj := 0x02, fn := 13, fields := [⟨40, 6, .s⟩, ⟨34, 6, .s⟩, ⟨28, 6, .s⟩] },
    { maj := 0x02, fn := 14, fields := [⟨40, 6, .s⟩, ⟨34, 6, .s⟩, ⟨28, 6, .s⟩] },
    { maj := 0x02, fn := 15, fields := [⟨40, 6, .s⟩, ⟨34, 6, .s⟩] } ]

/-- R143, MAJ 0x03. -/
def ops03 : List OpSpec :=
  [
    { maj := 0x03, fn := 0, fields := [⟨40, 6, .s⟩, ⟨34, 6, .s⟩, ⟨28, 6, .s⟩] },
    { maj := 0x03, fn := 1, fields := [⟨40, 6, .s⟩, ⟨34, 6, .s⟩, ⟨28, 6, .s⟩] },
    { maj := 0x03, fn := 2, fields := [⟨40, 6, .s⟩, ⟨34, 6, .s⟩, ⟨28, 6, .s⟩] },
    { maj := 0x03, fn := 3, fields := [⟨40, 6, .s⟩, ⟨34, 6, .s⟩, ⟨28, 6, .s⟩] },
    { maj := 0x03, fn := 4, fields := [⟨40, 6, .s⟩, ⟨34, 6, .s⟩, ⟨28, 6, .s⟩] },
    { maj := 0x03, fn := 5, fields := [⟨40, 6, .s⟩, ⟨34, 6, .s⟩, ⟨28, 6, .s⟩] },
    { maj := 0x03, fn := 6, fields := [⟨40, 6, .s⟩, ⟨34, 6, .s⟩, ⟨28, 6, .s⟩] },
    { maj := 0x03, fn := 7, fields := [⟨40, 6, .s⟩, ⟨34, 6, .s⟩, ⟨28, 6, .s⟩] },
    { maj := 0x03, fn := 8, fields := [⟨40, 6, .s⟩, ⟨34, 6, .s⟩, ⟨28, 6, .s⟩] },
    { maj := 0x03, fn := 9, fields := [⟨40, 6, .s⟩, ⟨34, 6, .s⟩, ⟨28, 6, .s⟩] },
    { maj := 0x03, fn := 10, fields := [⟨40, 6, .s⟩, ⟨34, 6, .s⟩, ⟨28, 6, .s⟩] },
    { maj := 0x03, fn := 11, fields := [⟨40, 6, .s⟩, ⟨34, 6, .s⟩, ⟨28, 6, .s⟩, ⟨22, 6, .s⟩] } ]

/-- R143, MAJ 0x04. -/
def ops04 : List OpSpec :=
  [
    { maj := 0x04, fn := 0, fields := [⟨40, 6, .s⟩, ⟨34, 6, .s⟩] },
    { maj := 0x04, fn := 1, fields := [⟨40, 6, .s⟩, ⟨34, 6, .s⟩] },
    { maj := 0x04, fn := 2, fields := [⟨40, 6, .s⟩, ⟨34, 6, .s⟩] },
    { maj := 0x04, fn := 3, fields := [⟨40, 6, .s⟩, ⟨34, 6, .s⟩] },
    { maj := 0x04, fn := 4, fields := [⟨40, 6, .s⟩, ⟨34, 6, .s⟩, ⟨28, 6, .s⟩] },
    { maj := 0x04, fn := 5, fields := [⟨40, 6, .s⟩, ⟨34, 6, .s⟩, ⟨28, 6, .s⟩] },
    { maj := 0x04, fn := 6, fields := [⟨40, 6, .s⟩, ⟨34, 6, .s⟩, ⟨0, 6, .none⟩, ⟨6, 7, .none⟩], limit := .bitField },
    { maj := 0x04, fn := 7, fields := [⟨40, 6, .s⟩, ⟨34, 6, .s⟩, ⟨0, 6, .none⟩, ⟨6, 7, .none⟩], limit := .bitField },
    { maj := 0x04, fn := 8, fields := [⟨40, 6, .s⟩, ⟨34, 6, .s⟩, ⟨0, 6, .none⟩, ⟨6, 7, .none⟩], limit := .bitField } ]

/-- R143, MAJ 0x05. -/
def ops05 : List OpSpec :=
  [
    { maj := 0x05, fn := 0, fields := [⟨40, 6, .s⟩, ⟨34, 6, .s⟩, ⟨28, 6, .s⟩, ⟨0, 19, .none⟩, ⟨19, 3, .none⟩] },
    { maj := 0x05, fn := 1, fields := [⟨40, 6, .s⟩, ⟨34, 6, .s⟩, ⟨28, 6, .s⟩, ⟨0, 22, .none⟩] },
    { maj := 0x05, fn := 2, fields := [⟨40, 6, .s⟩, ⟨34, 6, .s⟩, ⟨28, 6, .s⟩, ⟨0, 22, .none⟩] } ]

/-- R143, MAJ 0x10. -/
def ops10 : List OpSpec :=
  [
    { maj := 0x10, fn := 0, fields := [⟨40, 6, .s⟩, ⟨34, 6, .s⟩, ⟨0, 34, .none⟩] },
    { maj := 0x10, fn := 1, fields := [⟨40, 6, .s⟩, ⟨34, 6, .s⟩, ⟨0, 34, .none⟩] },
    { maj := 0x10, fn := 2, fields := [⟨40, 6, .s⟩, ⟨34, 6, .s⟩, ⟨0, 34, .none⟩] },
    { maj := 0x10, fn := 3, fields := [⟨40, 6, .s⟩, ⟨34, 6, .s⟩, ⟨0, 34, .none⟩] },
    { maj := 0x10, fn := 4, fields := [⟨40, 6, .s⟩, ⟨34, 6, .s⟩, ⟨0, 34, .none⟩] },
    { maj := 0x10, fn := 5, fields := [⟨40, 6, .s⟩, ⟨34, 6, .s⟩, ⟨0, 34, .none⟩], limit := .immMax 63 },
    { maj := 0x10, fn := 6, fields := [⟨40, 6, .s⟩, ⟨34, 6, .s⟩, ⟨0, 34, .none⟩], limit := .immMax 63 },
    { maj := 0x10, fn := 7, fields := [⟨40, 6, .s⟩, ⟨34, 6, .s⟩, ⟨0, 34, .none⟩], limit := .immMax 63 },
    { maj := 0x10, fn := 8, fields := [⟨40, 6, .s⟩, ⟨0, 34, .none⟩] },
    { maj := 0x10, fn := 9, fields := [⟨40, 6, .s⟩, ⟨34, 6, .s⟩, ⟨0, 34, .none⟩], limit := .immMax 1073741823 } ]

/-- R143, MAJ 0x18. -/
def ops18 : List OpSpec :=
  [
    { maj := 0x18, fn := 0, fields := [⟨40, 6, .p⟩, ⟨34, 6, .s⟩, ⟨28, 6, .s⟩] },
    { maj := 0x18, fn := 1, fields := [⟨40, 6, .p⟩, ⟨34, 6, .s⟩, ⟨28, 6, .s⟩] },
    { maj := 0x18, fn := 2, fields := [⟨40, 6, .p⟩, ⟨34, 6, .s⟩, ⟨28, 6, .s⟩] },
    { maj := 0x18, fn := 3, fields := [⟨40, 6, .p⟩, ⟨34, 6, .s⟩, ⟨28, 6, .s⟩] },
    { maj := 0x18, fn := 4, fields := [⟨40, 6, .p⟩, ⟨34, 6, .s⟩, ⟨28, 6, .s⟩] },
    { maj := 0x18, fn := 5, fields := [⟨40, 6, .p⟩, ⟨34, 6, .s⟩, ⟨28, 6, .s⟩] } ]

/-- R143, MAJ 0x19. -/
def ops19 : List OpSpec :=
  [
    { maj := 0x19, fn := 0, fields := [⟨40, 6, .p⟩, ⟨34, 6, .s⟩, ⟨0, 34, .none⟩] },
    { maj := 0x19, fn := 1, fields := [⟨40, 6, .p⟩, ⟨34, 6, .s⟩, ⟨0, 34, .none⟩] },
    { maj := 0x19, fn := 2, fields := [⟨40, 6, .p⟩, ⟨34, 6, .s⟩, ⟨0, 34, .none⟩] },
    { maj := 0x19, fn := 3, fields := [⟨40, 6, .p⟩, ⟨34, 6, .s⟩, ⟨0, 34, .none⟩] },
    { maj := 0x19, fn := 4, fields := [⟨40, 6, .p⟩, ⟨34, 6, .s⟩, ⟨0, 34, .none⟩] },
    { maj := 0x19, fn := 5, fields := [⟨40, 6, .p⟩, ⟨34, 6, .s⟩, ⟨0, 34, .none⟩] } ]

/-- R143, MAJ 0x1A. -/
def ops1A : List OpSpec :=
  [
    { maj := 0x1A, fn := 0, fields := [⟨40, 6, .p⟩, ⟨34, 6, .p⟩, ⟨28, 6, .p⟩] },
    { maj := 0x1A, fn := 1, fields := [⟨40, 6, .p⟩, ⟨34, 6, .p⟩, ⟨28, 6, .p⟩] },
    { maj := 0x1A, fn := 2, fields := [⟨40, 6, .p⟩, ⟨34, 6, .p⟩, ⟨28, 6, .p⟩] },
    { maj := 0x1A, fn := 3, fields := [⟨40, 6, .p⟩, ⟨34, 6, .p⟩, ⟨28, 6, .p⟩] },
    { maj := 0x1A, fn := 4, fields := [⟨40, 6, .p⟩, ⟨34, 6, .p⟩] },
    { maj := 0x1A, fn := 5, fields := [⟨40, 6, .p⟩, ⟨0, 22, .none⟩], limit := .immMax22 1 } ]

/-- R143, MAJ 0x20. -/
def ops20 : List OpSpec :=
  [
    { maj := 0x20, fn := 0, fields := [⟨0, 34, .none⟩], rep := false },
    { maj := 0x20, fn := 1, fields := [⟨40, 6, .s⟩, ⟨0, 34, .none⟩], rep := false },
    { maj := 0x20, fn := 2, fields := [⟨34, 6, .s⟩, ⟨0, 34, .none⟩], rep := false },
    { maj := 0x20, fn := 3, fields := [⟨40, 6, .s⟩, ⟨34, 6, .s⟩, ⟨0, 34, .none⟩], rep := false } ]

/-- R143, MAJ 0x28. -/
def ops28 : List OpSpec :=
  [
    { maj := 0x28, fn := 0, fields := [⟨40, 6, .s⟩, ⟨34, 6, .s⟩, ⟨24, 4, .none⟩, ⟨20, 4, .none⟩, ⟨16, 4, .none⟩, ⟨0, 16, .none⟩], scopes := some scMem },
    { maj := 0x28, fn := 1, fields := [⟨40, 6, .s⟩, ⟨34, 6, .s⟩, ⟨24, 4, .none⟩, ⟨20, 4, .none⟩, ⟨16, 4, .none⟩, ⟨0, 16, .none⟩], scopes := some scMem },
    { maj := 0x28, fn := 2, fields := [⟨40, 6, .s⟩, ⟨34, 6, .s⟩, ⟨24, 4, .none⟩, ⟨20, 4, .none⟩, ⟨16, 4, .none⟩, ⟨0, 16, .none⟩], scopes := some scMem },
    { maj := 0x28, fn := 3, fields := [⟨40, 6, .s⟩, ⟨34, 6, .s⟩, ⟨24, 4, .none⟩, ⟨20, 4, .none⟩, ⟨16, 4, .none⟩, ⟨0, 16, .none⟩], scopes := some scMem },
    { maj := 0x28, fn := 4, fields := [⟨40, 6, .s⟩, ⟨34, 6, .s⟩, ⟨24, 4, .none⟩, ⟨20, 4, .none⟩, ⟨16, 4, .none⟩, ⟨0, 16, .none⟩], scopes := some scMem },
    { maj := 0x28, fn := 5, fields := [⟨40, 6, .s⟩, ⟨34, 6, .s⟩, ⟨24, 4, .none⟩, ⟨20, 4, .none⟩, ⟨16, 4, .none⟩, ⟨0, 16, .none⟩], scopes := some scMem },
    { maj := 0x28, fn := 6, fields := [⟨40, 6, .s⟩, ⟨34, 6, .s⟩, ⟨24, 4, .none⟩, ⟨20, 4, .none⟩, ⟨16, 4, .none⟩, ⟨0, 16, .none⟩], scopes := some scMem } ]

/-- R143, MAJ 0x29. -/
def ops29 : List OpSpec :=
  [
    { maj := 0x29, fn := 0, fields := [⟨40, 6, .s⟩, ⟨34, 6, .s⟩, ⟨24, 4, .none⟩, ⟨20, 4, .none⟩, ⟨16, 4, .none⟩, ⟨0, 16, .none⟩], scopes := some scMem },
    { maj := 0x29, fn := 1, fields := [⟨40, 6, .s⟩, ⟨34, 6, .s⟩, ⟨24, 4, .none⟩, ⟨20, 4, .none⟩, ⟨16, 4, .none⟩, ⟨0, 16, .none⟩], scopes := some scMem },
    { maj := 0x29, fn := 2, fields := [⟨40, 6, .s⟩, ⟨34, 6, .s⟩, ⟨24, 4, .none⟩, ⟨20, 4, .none⟩, ⟨16, 4, .none⟩, ⟨0, 16, .none⟩], scopes := some scMem },
    { maj := 0x29, fn := 3, fields := [⟨40, 6, .s⟩, ⟨34, 6, .s⟩, ⟨24, 4, .none⟩, ⟨20, 4, .none⟩, ⟨16, 4, .none⟩, ⟨0, 16, .none⟩], scopes := some scMem } ]

/-- R143, MAJ 0x30. -/
def ops30 : List OpSpec :=
  [
    { maj := 0x30, fn := 0, fields := [⟨40, 6, .s⟩, ⟨34, 6, .s⟩, ⟨28, 6, .s⟩, ⟨24, 4, .none⟩, ⟨20, 4, .none⟩, ⟨16, 4, .none⟩, ⟨0, 16, .none⟩], scopes := some scMem },
    { maj := 0x30, fn := 1, fields := [⟨40, 6, .s⟩, ⟨34, 6, .s⟩, ⟨28, 6, .s⟩, ⟨24, 4, .none⟩, ⟨20, 4, .none⟩, ⟨16, 4, .none⟩, ⟨0, 16, .none⟩], scopes := some scMem },
    { maj := 0x30, fn := 2, fields := [⟨40, 6, .s⟩, ⟨34, 6, .s⟩, ⟨28, 6, .s⟩, ⟨24, 4, .none⟩, ⟨20, 4, .none⟩, ⟨16, 4, .none⟩, ⟨0, 16, .none⟩], scopes := some scMem },
    { maj := 0x30, fn := 3, fields := [⟨40, 6, .s⟩, ⟨34, 6, .s⟩, ⟨28, 6, .s⟩, ⟨24, 4, .none⟩, ⟨20, 4, .none⟩, ⟨16, 4, .none⟩, ⟨0, 16, .none⟩], scopes := some scMem },
    { maj := 0x30, fn := 4, fields := [⟨40, 6, .s⟩, ⟨34, 6, .s⟩, ⟨28, 6, .s⟩, ⟨24, 4, .none⟩, ⟨20, 4, .none⟩, ⟨16, 4, .none⟩, ⟨0, 16, .none⟩], scopes := some scMem },
    { maj := 0x30, fn := 5, fields := [⟨40, 6, .s⟩, ⟨34, 6, .s⟩, ⟨28, 6, .s⟩, ⟨24, 4, .none⟩, ⟨20, 4, .none⟩, ⟨16, 4, .none⟩, ⟨0, 16, .none⟩], scopes := some scMem },
    { maj := 0x30, fn := 6, fields := [⟨40, 6, .s⟩, ⟨34, 6, .s⟩, ⟨28, 6, .s⟩, ⟨24, 4, .none⟩, ⟨20, 4, .none⟩, ⟨16, 4, .none⟩, ⟨0, 16, .none⟩], scopes := some scMem },
    { maj := 0x30, fn := 7, fields := [⟨40, 6, .s⟩, ⟨34, 6, .s⟩, ⟨28, 6, .s⟩, ⟨24, 4, .none⟩, ⟨20, 4, .none⟩, ⟨16, 4, .none⟩, ⟨0, 16, .none⟩], scopes := some scMem },
    { maj := 0x30, fn := 8, fields := [⟨40, 6, .s⟩, ⟨34, 6, .s⟩, ⟨28, 6, .s⟩, ⟨24, 4, .none⟩, ⟨20, 4, .none⟩, ⟨16, 4, .none⟩, ⟨0, 16, .none⟩], scopes := some scMem },
    { maj := 0x30, fn := 9, fields := [⟨40, 6, .s⟩, ⟨34, 6, .s⟩, ⟨28, 6, .s⟩, ⟨24, 4, .none⟩, ⟨20, 4, .none⟩, ⟨16, 4, .none⟩, ⟨0, 16, .none⟩], scopes := some scMem } ]

/-- R143, MAJ 0x34. -/
def ops34 : List OpSpec :=
  [
    { maj := 0x34, fn := 0, fields := [⟨34, 6, .s⟩, ⟨16, 4, .none⟩], scopes := some scFence, rep := false },
    { maj := 0x34, fn := 1, fields := [⟨34, 6, .s⟩, ⟨16, 4, .none⟩], scopes := some scFence, rep := false },
    { maj := 0x34, fn := 2, fields := [⟨34, 6, .s⟩, ⟨16, 4, .none⟩], scopes := some scFence, rep := false },
    { maj := 0x34, fn := 3, fields := [⟨40, 6, .o⟩, ⟨34, 6, .o⟩, ⟨28, 6, .o⟩], limit := .odNonzero, rep := false },
    { maj := 0x34, fn := 4, fields := [⟨24, 4, .none⟩, ⟨16, 4, .none⟩], scopes := some scMem, limit := .owNonzero, rep := false },
    { maj := 0x34, fn := 5, fields := [⟨20, 4, .none⟩], limit := .omNonzero, rep := false } ]

/-- R143, MAJ 0x38. -/
def ops38 : List OpSpec :=
  [
    { maj := 0x38, fn := 0, fields := [⟨34, 6, .s⟩, ⟨28, 6, .s⟩, ⟨0, 22, .none⟩], limit := .trapCode, rep := false },
    { maj := 0x38, fn := 1, rep := false, cores := .control },
    { maj := 0x38, fn := 2, fields := [⟨40, 6, .s⟩, ⟨0, 22, .none⟩], limit := .immMax22 30, rep := false },
    { maj := 0x38, fn := 3, fields := [⟨34, 6, .s⟩, ⟨0, 22, .none⟩], limit := .immMax22 30, rep := false },
    { maj := 0x38, fn := 4, fields := [⟨34, 6, .s⟩, ⟨0, 22, .none⟩], rep := false },
    { maj := 0x38, fn := 5, fields := [⟨34, 6, .s⟩, ⟨0, 22, .none⟩], rep := false },
    { maj := 0x38, fn := 6, fields := [⟨0, 22, .none⟩], rep := false } ]

/-- R143, MAJ 0x40. -/
def ops40 : List OpSpec :=
  [
    { maj := 0x40, fn := 0, fields := [⟨40, 6, .v⟩, ⟨34, 6, .v⟩, ⟨28, 6, .sv⟩, ⟨18, 4, .none⟩, ⟨15, 3, .none⟩], types := .at 18 tyInt, cores := .firing },
    { maj := 0x40, fn := 1, fields := [⟨40, 6, .v⟩, ⟨34, 6, .v⟩, ⟨28, 6, .sv⟩, ⟨18, 4, .none⟩, ⟨15, 3, .none⟩], types := .at 18 tyInt, cores := .firing },
    { maj := 0x40, fn := 2, fields := [⟨40, 6, .v⟩, ⟨34, 6, .v⟩, ⟨28, 6, .sv⟩, ⟨18, 4, .none⟩, ⟨15, 3, .none⟩], types := .at 18 tyInt, cores := .firing },
    { maj := 0x40, fn := 3, fields := [⟨40, 6, .v⟩, ⟨34, 6, .v⟩, ⟨28, 6, .sv⟩, ⟨18, 4, .none⟩, ⟨15, 3, .none⟩], types := .at 18 tyInt, cores := .firing },
    { maj := 0x40, fn := 4, fields := [⟨40, 6, .v⟩, ⟨34, 6, .v⟩, ⟨28, 6, .sv⟩, ⟨18, 4, .none⟩, ⟨15, 3, .none⟩], types := .at 18 tySigned, cores := .firing },
    { maj := 0x40, fn := 5, fields := [⟨40, 6, .v⟩, ⟨34, 6, .v⟩, ⟨28, 6, .sv⟩, ⟨18, 4, .none⟩, ⟨15, 3, .none⟩], types := .at 18 tySigned, cores := .firing },
    { maj := 0x40, fn := 6, fields := [⟨40, 6, .v⟩, ⟨34, 6, .v⟩, ⟨28, 6, .sv⟩, ⟨18, 4, .none⟩, ⟨15, 3, .none⟩], types := .at 18 tyUnsigned, cores := .firing },
    { maj := 0x40, fn := 7, fields := [⟨40, 6, .v⟩, ⟨34, 6, .v⟩, ⟨28, 6, .sv⟩, ⟨18, 4, .none⟩, ⟨15, 3, .none⟩], types := .at 18 tyUnsigned, cores := .firing },
    { maj := 0x40, fn := 8, fields := [⟨40, 6, .v⟩, ⟨34, 6, .v⟩, ⟨18, 4, .none⟩, ⟨15, 3, .none⟩], types := .at 18 tySigned, cores := .firing },
    { maj := 0x40, fn := 9, fields := [⟨40, 6, .v⟩, ⟨34, 6, .v⟩, ⟨18, 4, .none⟩, ⟨15, 3, .none⟩], types := .at 18 tyInt, cores := .firing },
    { maj := 0x40, fn := 10, fields := [⟨40, 6, .v⟩, ⟨34, 6, .v⟩, ⟨28, 6, .sv⟩, ⟨18, 4, .none⟩, ⟨15, 3, .none⟩], types := .at 18 tyInt, cores := .firing },
    { maj := 0x40, fn := 11, fields := [⟨40, 6, .v⟩, ⟨34, 6, .v⟩, ⟨28, 6, .sv⟩, ⟨18, 4, .none⟩, ⟨15, 3, .none⟩], types := .at 18 tyInt, cores := .firing } ]

/-- R143, MAJ 0x41. -/
def ops41 : List OpSpec :=
  [
    { maj := 0x41, fn := 0, fields := [⟨40, 6, .v⟩, ⟨34, 6, .v⟩, ⟨28, 6, .sv⟩, ⟨15, 3, .none⟩], cores := .firing },
    { maj := 0x41, fn := 1, fields := [⟨40, 6, .v⟩, ⟨34, 6, .v⟩, ⟨28, 6, .sv⟩, ⟨15, 3, .none⟩], cores := .firing },
    { maj := 0x41, fn := 2, fields := [⟨40, 6, .v⟩, ⟨34, 6, .v⟩, ⟨28, 6, .sv⟩, ⟨15, 3, .none⟩], cores := .firing },
    { maj := 0x41, fn := 3, fields := [⟨40, 6, .v⟩, ⟨34, 6, .v⟩, ⟨28, 6, .sv⟩, ⟨15, 3, .none⟩], cores := .firing },
    { maj := 0x41, fn := 4, fields := [⟨40, 6, .v⟩, ⟨34, 6, .v⟩, ⟨28, 6, .v⟩, ⟨22, 6, .v⟩, ⟨18, 4, .none⟩, ⟨15, 3, .none⟩, ⟨0, 12, .none⟩], cores := .firing },
    { maj := 0x41, fn := 5, fields := [⟨40, 6, .v⟩, ⟨34, 6, .v⟩, ⟨28, 6, .sv⟩, ⟨18, 4, .none⟩, ⟨15, 3, .none⟩], types := .at 18 tyInt, cores := .firing },
    { maj := 0x41, fn := 6, fields := [⟨40, 6, .v⟩, ⟨34, 6, .v⟩, ⟨28, 6, .sv⟩, ⟨18, 4, .none⟩, ⟨15, 3, .none⟩], types := .at 18 tyInt, cores := .firing },
    { maj := 0x41, fn := 7, fields := [⟨40, 6, .v⟩, ⟨34, 6, .v⟩, ⟨28, 6, .sv⟩, ⟨18, 4, .none⟩, ⟨15, 3, .none⟩], types := .at 18 tyInt, cores := .firing } ]

/-- R143, MAJ 0x42. -/
def ops42 : List OpSpec :=
  [
    { maj := 0x42, fn := 0, fields := [⟨40, 6, .v⟩, ⟨34, 6, .v⟩, ⟨28, 6, .sv⟩, ⟨18, 4, .none⟩, ⟨15, 3, .none⟩, ⟨12, 3, .none⟩], types := .at 18 tyFloat, rounds := .list rnd05, cores := .firing },
    { maj := 0x42, fn := 1, fields := [⟨40, 6, .v⟩, ⟨34, 6, .v⟩, ⟨28, 6, .sv⟩, ⟨18, 4, .none⟩, ⟨15, 3, .none⟩, ⟨12, 3, .none⟩], types := .at 18 tyFloat, rounds := .list rnd05, cores := .firing },
    { maj := 0x42, fn := 2, fields := [⟨40, 6, .v⟩, ⟨34, 6, .v⟩, ⟨28, 6, .sv⟩, ⟨18, 4, .none⟩, ⟨15, 3, .none⟩, ⟨12, 3, .none⟩], types := .at 18 tyFloat, rounds := .list rnd05, cores := .firing },
    { maj := 0x42, fn := 3, fields := [⟨40, 6, .v⟩, ⟨34, 6, .v⟩, ⟨28, 6, .sv⟩, ⟨22, 6, .v⟩, ⟨18, 4, .none⟩, ⟨15, 3, .none⟩, ⟨12, 3, .none⟩], types := .at 18 tyFloat, rounds := .list rnd05, cores := .firing },
    { maj := 0x42, fn := 4, fields := [⟨40, 6, .v⟩, ⟨34, 6, .v⟩, ⟨28, 6, .sv⟩, ⟨22, 6, .v⟩, ⟨18, 4, .none⟩, ⟨15, 3, .none⟩, ⟨12, 3, .none⟩], types := .at 18 tyFloat, rounds := .list rnd05, cores := .firing },
    { maj := 0x42, fn := 5, fields := [⟨40, 6, .v⟩, ⟨34, 6, .v⟩, ⟨28, 6, .sv⟩, ⟨22, 6, .v⟩, ⟨18, 4, .none⟩, ⟨15, 3, .none⟩, ⟨12, 3, .none⟩], types := .at 18 tyFloat, rounds := .list rnd05, cores := .firing },
    { maj := 0x42, fn := 6, fields := [⟨40, 6, .v⟩, ⟨34, 6, .v⟩, ⟨28, 6, .sv⟩, ⟨18, 4, .none⟩, ⟨15, 3, .none⟩, ⟨12, 3, .none⟩], types := .at 18 tyFloat, rounds := .list rnd0, cores := .firing },
    { maj := 0x42, fn := 7, fields := [⟨40, 6, .v⟩, ⟨34, 6, .v⟩, ⟨28, 6, .sv⟩, ⟨18, 4, .none⟩, ⟨15, 3, .none⟩, ⟨12, 3, .none⟩], types := .at 18 tyFloat, rounds := .list rnd0, cores := .firing },
    { maj := 0x42, fn := 8, fields := [⟨40, 6, .v⟩, ⟨34, 6, .v⟩, ⟨18, 4, .none⟩, ⟨15, 3, .none⟩, ⟨12, 3, .none⟩], types := .at 18 tyFloat, rounds := .list rnd0, cores := .firing },
    { maj := 0x42, fn := 9, fields := [⟨40, 6, .v⟩, ⟨34, 6, .v⟩, ⟨18, 4, .none⟩, ⟨15, 3, .none⟩, ⟨12, 3, .none⟩], types := .at 18 tyFloat, rounds := .list rnd0, cores := .firing },
    { maj := 0x42, fn := 10, fields := [⟨40, 6, .v⟩, ⟨34, 6, .v⟩, ⟨28, 6, .sv⟩, ⟨18, 4, .none⟩, ⟨15, 3, .none⟩, ⟨12, 3, .none⟩], types := .at 18 tyHalf, rounds := .list rnd05, cores := .firing } ]

/-- R143, MAJ 0x43. -/
def ops43 : List OpSpec :=
  [
    { maj := 0x43, fn := 0, fields := [⟨40, 6, .v⟩, ⟨34, 6, .v⟩, ⟨28, 6, .sv⟩, ⟨18, 4, .none⟩, ⟨15, 3, .none⟩, ⟨12, 3, .none⟩], types := .at 18 tyF32, rounds := .list rnd05, cores := .firing },
    { maj := 0x43, fn := 1, fields := [⟨40, 6, .v⟩, ⟨34, 6, .v⟩, ⟨18, 4, .none⟩, ⟨15, 3, .none⟩, ⟨12, 3, .none⟩], types := .at 18 tyF32, rounds := .list rnd05, cores := .firing },
    { maj := 0x43, fn := 2, fields := [⟨40, 6, .v⟩, ⟨34, 6, .v⟩, ⟨18, 4, .none⟩, ⟨15, 3, .none⟩, ⟨12, 3, .none⟩], types := .at 18 tyF32, rounds := .list rnd05, cores := .firing },
    { maj := 0x43, fn := 3, fields := [⟨40, 6, .v⟩, ⟨34, 6, .v⟩, ⟨18, 4, .none⟩, ⟨15, 3, .none⟩, ⟨12, 3, .none⟩], types := .at 18 tyF32, rounds := .list rnd05, cores := .firing },
    { maj := 0x43, fn := 4, fields := [⟨40, 6, .v⟩, ⟨34, 6, .v⟩, ⟨18, 4, .none⟩, ⟨15, 3, .none⟩, ⟨12, 3, .none⟩], types := .at 18 tyF32, rounds := .list rnd05, cores := .firing },
    { maj := 0x43, fn := 5, fields := [⟨40, 6, .v⟩, ⟨34, 6, .v⟩, ⟨18, 4, .none⟩, ⟨15, 3, .none⟩, ⟨12, 3, .none⟩], types := .at 18 tyF32, rounds := .list rnd05, cores := .firing },
    { maj := 0x43, fn := 6, fields := [⟨40, 6, .v⟩, ⟨34, 6, .v⟩, ⟨18, 4, .none⟩, ⟨15, 3, .none⟩, ⟨12, 3, .none⟩], types := .at 18 tyFloat, rounds := .list rnd0, cores := .firing } ]

/-- R143, MAJ 0x44. -/
def ops44 : List OpSpec :=
  [
    { maj := 0x44, fn := 0, fields := [⟨40, 6, .v⟩, ⟨34, 6, .v⟩, ⟨18, 4, .none⟩, ⟨15, 3, .none⟩, ⟨12, 3, .none⟩, ⟨0, 4, .none⟩], types := .cvt 0, rounds := .cvt, cores := .firing },
    { maj := 0x44, fn := 1, fields := [⟨40, 6, .v⟩, ⟨34, 6, .v⟩, ⟨28, 6, .v⟩, ⟨18, 4, .none⟩, ⟨15, 3, .none⟩, ⟨12, 3, .none⟩, ⟨0, 4, .none⟩], types := .cvt 1, rounds := .cvt, cores := .firing },
    { maj := 0x44, fn := 2, fields := [⟨40, 6, .v⟩, ⟨34, 6, .v⟩, ⟨18, 4, .none⟩, ⟨15, 3, .none⟩, ⟨12, 3, .none⟩, ⟨0, 4, .none⟩, ⟨4, 1, .none⟩], types := .cvt 2, rounds := .cvt, cores := .firing },
    { maj := 0x44, fn := 3, fields := [⟨40, 6, .v⟩, ⟨34, 6, .v⟩, ⟨28, 6, .sv⟩, ⟨18, 4, .none⟩, ⟨15, 3, .none⟩, ⟨12, 3, .none⟩], types := .at 18 tyFloat, rounds := .list rnd05, cores := .firing } ]

/-- R143, MAJ 0x45. -/
def ops45 : List OpSpec :=
  [
    { maj := 0x45, fn := 0, fields := [⟨40, 6, .m⟩, ⟨34, 6, .v⟩, ⟨28, 6, .sv⟩, ⟨18, 4, .none⟩, ⟨15, 3, .none⟩, ⟨12, 3, .none⟩, ⟨0, 3, .none⟩], types := .at 18 tyWideInt, rounds := .list rnd0, limit := .rel, cores := .firing },
    { maj := 0x45, fn := 1, fields := [⟨40, 6, .m⟩, ⟨34, 6, .v⟩, ⟨28, 6, .sv⟩, ⟨18, 4, .none⟩, ⟨15, 3, .none⟩, ⟨12, 3, .none⟩, ⟨0, 3, .none⟩], types := .at 18 tyFloat, rounds := .list rnd0, limit := .rel, cores := .firing } ]

/-- R143, MAJ 0x46. -/
def ops46 : List OpSpec :=
  [
    { maj := 0x46, fn := 0, fields := [⟨40, 6, .m⟩, ⟨34, 6, .m⟩, ⟨28, 6, .m⟩], cores := .firing },
    { maj := 0x46, fn := 1, fields := [⟨40, 6, .m⟩, ⟨34, 6, .m⟩, ⟨28, 6, .m⟩], cores := .firing },
    { maj := 0x46, fn := 2, fields := [⟨40, 6, .m⟩, ⟨34, 6, .m⟩, ⟨28, 6, .m⟩], cores := .firing },
    { maj := 0x46, fn := 3, fields := [⟨40, 6, .m⟩, ⟨34, 6, .m⟩], cores := .firing },
    { maj := 0x46, fn := 4, fields := [⟨40, 6, .s⟩, ⟨34, 6, .m⟩], cores := .firing },
    { maj := 0x46, fn := 5, fields := [⟨40, 6, .s⟩, ⟨34, 6, .m⟩], cores := .firing },
    { maj := 0x46, fn := 6, fields := [⟨40, 6, .none⟩, ⟨34, 6, .none⟩, ⟨0, 2, .none⟩], limit := .mmov, cores := .firing } ]

/-- R143, MAJ 0x47. -/
def ops47 : List OpSpec :=
  [
    { maj := 0x47, fn := 0, fields := [⟨40, 6, .v⟩, ⟨34, 6, .v⟩, ⟨28, 6, .sv⟩, ⟨18, 4, .none⟩, ⟨15, 3, .none⟩], types := .at 18 tyByteUp, cores := .firing },
    { maj := 0x47, fn := 1, fields := [⟨40, 6, .v⟩, ⟨34, 6, .sv⟩, ⟨18, 4, .none⟩, ⟨15, 3, .none⟩, ⟨0, 12, .none⟩], types := .at 18 tyAll, limit := .vbcast, cores := .firing },
    { maj := 0x47, fn := 2, fields := [⟨40, 6, .s⟩, ⟨34, 6, .v⟩, ⟨28, 6, .s⟩, ⟨18, 4, .none⟩, ⟨0, 12, .none⟩], types := .at 18 tyAll, cores := .firing },
    { maj := 0x47, fn := 3, fields := [⟨40, 6, .v⟩, ⟨34, 6, .s⟩, ⟨28, 6, .s⟩, ⟨18, 4, .none⟩, ⟨15, 3, .none⟩, ⟨0, 12, .none⟩], types := .at 18 tyAll, cores := .firing },
    { maj := 0x47, fn := 4, fields := [⟨40, 6, .v⟩, ⟨34, 6, .v⟩, ⟨28, 6, .v⟩, ⟨18, 4, .none⟩, ⟨15, 3, .none⟩, ⟨0, 12, .none⟩], types := .at 18 tyAll, limit := .vslide, cores := .firing },
    { maj := 0x47, fn := 5, fields := [⟨40, 6, .v⟩, ⟨34, 6, .v⟩, ⟨28, 6, .sv⟩, ⟨18, 4, .none⟩, ⟨15, 3, .none⟩], types := .at 18 tyAll, cores := .firing },
    { maj := 0x47, fn := 6, fields := [⟨40, 6, .v⟩, ⟨34, 6, .v⟩, ⟨18, 4, .none⟩, ⟨15, 3, .none⟩], types := .at 18 tyAll, cores := .firing },
    { maj := 0x47, fn := 7, fields := [⟨40, 6, .v⟩, ⟨34, 6, .v⟩, ⟨18, 4, .none⟩, ⟨15, 3, .none⟩], types := .at 18 tyAll, cores := .firing } ]

/-- R143, MAJ 0x48. -/
def ops48 : List OpSpec :=
  [
    { maj := 0x48, fn := 0, fields := [⟨40, 6, .s⟩, ⟨34, 6, .v⟩, ⟨18, 4, .none⟩, ⟨15, 3, .none⟩, ⟨12, 3, .none⟩], types := .at 18 tyInt, rounds := .list rnd0, cores := .firing },
    { maj := 0x48, fn := 1, fields := [⟨40, 6, .s⟩, ⟨34, 6, .v⟩, ⟨18, 4, .none⟩, ⟨15, 3, .none⟩, ⟨12, 3, .none⟩], types := .at 18 tyInt, rounds := .list rnd0, cores := .firing },
    { maj := 0x48, fn := 2, fields := [⟨40, 6, .s⟩, ⟨34, 6, .v⟩, ⟨18, 4, .none⟩, ⟨15, 3, .none⟩, ⟨12, 3, .none⟩], types := .at 18 tyInt, rounds := .list rnd0, cores := .firing },
    { maj := 0x48, fn := 3, fields := [⟨40, 6, .s⟩, ⟨34, 6, .v⟩, ⟨18, 4, .none⟩, ⟨15, 3, .none⟩, ⟨12, 3, .none⟩], types := .at 18 tyFloat, rounds := .list rnd04, cores := .firing },
    { maj := 0x48, fn := 4, fields := [⟨40, 6, .s⟩, ⟨34, 6, .v⟩, ⟨18, 4, .none⟩, ⟨15, 3, .none⟩, ⟨12, 3, .none⟩], types := .at 18 tyFloat, rounds := .list rnd0, cores := .firing },
    { maj := 0x48, fn := 5, fields := [⟨40, 6, .s⟩, ⟨34, 6, .v⟩, ⟨18, 4, .none⟩, ⟨15, 3, .none⟩, ⟨12, 3, .none⟩], types := .at 18 tyFloat, rounds := .list rnd0, cores := .firing },
    { maj := 0x48, fn := 6, fields := [⟨40, 6, .v⟩, ⟨34, 6, .v⟩, ⟨18, 4, .none⟩, ⟨15, 3, .none⟩, ⟨12, 3, .none⟩, ⟨0, 2, .none⟩], types := .at 18 tyInt, rounds := .list rnd0, limit := .scanOp, cores := .firing },
    { maj := 0x48, fn := 7, fields := [⟨40, 6, .v⟩, ⟨34, 6, .v⟩, ⟨18, 4, .none⟩, ⟨15, 3, .none⟩, ⟨12, 3, .none⟩, ⟨0, 2, .none⟩], types := .at 18 tyF32, rounds := .fscan, limit := .scanOp, cores := .firing } ]

/-- R143, MAJ 0x49. -/
def ops49 : List OpSpec :=
  [
    { maj := 0x49, fn := 0, fields := [⟨40, 6, .v⟩, ⟨34, 6, .s⟩, ⟨24, 4, .none⟩, ⟨20, 4, .none⟩, ⟨16, 4, .none⟩, ⟨12, 4, .none⟩, ⟨9, 3, .none⟩, ⟨0, 9, .none⟩], types := .at 12 tyAll, scopes := some scMem, cores := .firing },
    { maj := 0x49, fn := 1, fields := [⟨40, 6, .v⟩, ⟨34, 6, .s⟩, ⟨24, 4, .none⟩, ⟨20, 4, .none⟩, ⟨16, 4, .none⟩, ⟨12, 4, .none⟩, ⟨9, 3, .none⟩, ⟨0, 9, .none⟩], types := .at 12 tyAll, scopes := some scMem, cores := .firing },
    { maj := 0x49, fn := 2, fields := [⟨40, 6, .v⟩, ⟨34, 6, .s⟩, ⟨28, 6, .s⟩, ⟨24, 4, .none⟩, ⟨20, 4, .none⟩, ⟨16, 4, .none⟩, ⟨12, 4, .none⟩, ⟨9, 3, .none⟩, ⟨0, 9, .none⟩], types := .at 12 tyByteUp, scopes := some scMem, cores := .firing },
    { maj := 0x49, fn := 3, fields := [⟨40, 6, .v⟩, ⟨34, 6, .s⟩, ⟨28, 6, .s⟩, ⟨24, 4, .none⟩, ⟨20, 4, .none⟩, ⟨16, 4, .none⟩, ⟨12, 4, .none⟩, ⟨9, 3, .none⟩, ⟨0, 9, .none⟩], types := .at 12 tyByteUp, scopes := some scMem, cores := .firing },
    { maj := 0x49, fn := 4, fields := [⟨40, 6, .v⟩, ⟨34, 6, .s⟩, ⟨28, 6, .v⟩, ⟨24, 4, .none⟩, ⟨20, 4, .none⟩, ⟨16, 4, .none⟩, ⟨12, 4, .none⟩, ⟨9, 3, .none⟩, ⟨0, 9, .none⟩], types := .at 12 tyWord, scopes := some scMem, cores := .firing },
    { maj := 0x49, fn := 5, fields := [⟨40, 6, .v⟩, ⟨34, 6, .s⟩, ⟨28, 6, .v⟩, ⟨24, 4, .none⟩, ⟨20, 4, .none⟩, ⟨16, 4, .none⟩, ⟨12, 4, .none⟩, ⟨9, 3, .none⟩, ⟨0, 9, .none⟩], types := .at 12 tyWord, scopes := some scMem, cores := .firing },
    { maj := 0x49, fn := 6, fields := [⟨40, 6, .v⟩, ⟨34, 6, .s⟩, ⟨24, 4, .none⟩, ⟨20, 4, .none⟩, ⟨16, 4, .none⟩, ⟨12, 4, .none⟩, ⟨9, 3, .none⟩, ⟨0, 9, .none⟩], types := .at 12 tyByteUp, scopes := some scMem, cores := .firing } ]

/-- R143, MAJ 0x4A. -/
def ops4A : List OpSpec :=
  [
    { maj := 0x4A, fn := 0, fields := [⟨40, 6, .v⟩, ⟨34, 6, .s⟩, ⟨28, 6, .v⟩, ⟨24, 4, .none⟩, ⟨20, 4, .none⟩, ⟨16, 4, .none⟩, ⟨12, 4, .none⟩, ⟨9, 3, .none⟩, ⟨0, 9, .none⟩], types := .at 12 tyWord, scopes := some scMem, cores := .firing },
    { maj := 0x4A, fn := 1, fields := [⟨40, 6, .v⟩, ⟨34, 6, .s⟩, ⟨28, 6, .v⟩, ⟨24, 4, .none⟩, ⟨20, 4, .none⟩, ⟨16, 4, .none⟩, ⟨12, 4, .none⟩, ⟨9, 3, .none⟩, ⟨0, 9, .none⟩], types := .at 12 tyWordInt, scopes := some scMem, cores := .firing } ]

/-- R143, MAJ 0x70. -/
def ops70 : List OpSpec :=
  [
    { maj := 0x70, fn := 0, fields := [⟨40, 6, .v⟩, ⟨34, 6, .s⟩, ⟨28, 6, .s⟩, ⟨24, 4, .none⟩, ⟨20, 4, .none⟩, ⟨16, 4, .none⟩, ⟨12, 4, .none⟩, ⟨10, 2, .none⟩, ⟨0, 10, .none⟩], scopes := some scMem, limit := .portInVec, cores := .firing },
    { maj := 0x70, fn := 1, fields := [⟨40, 6, .s⟩, ⟨34, 6, .s⟩, ⟨28, 6, .s⟩, ⟨24, 4, .none⟩, ⟨20, 4, .none⟩, ⟨16, 4, .none⟩, ⟨12, 4, .none⟩, ⟨10, 2, .none⟩, ⟨0, 10, .none⟩], scopes := some scMem, limit := .portIn, cores := .firing },
    { maj := 0x70, fn := 2, fields := [⟨40, 6, .sv⟩, ⟨34, 6, .s⟩, ⟨28, 6, .s⟩, ⟨24, 4, .none⟩, ⟨20, 4, .none⟩, ⟨16, 4, .none⟩, ⟨12, 4, .none⟩, ⟨10, 2, .none⟩, ⟨0, 10, .none⟩], scopes := some scMem, limit := .portOutSt, cores := .firing },
    { maj := 0x70, fn := 3, fields := [⟨34, 6, .s⟩, ⟨24, 4, .none⟩, ⟨20, 4, .none⟩, ⟨16, 4, .none⟩, ⟨12, 4, .none⟩], scopes := some scMem, limit := .portOut, rep := false, cores := .firing },
    { maj := 0x70, fn := 4, fields := [⟨40, 6, .s⟩, ⟨12, 4, .none⟩], limit := .portIn, rep := false, cores := .firing },
    { maj := 0x70, fn := 5, fields := [⟨40, 6, .s⟩, ⟨12, 4, .none⟩], limit := .portOut, rep := false, cores := .firing },
    { maj := 0x70, fn := 6, fields := [⟨34, 6, .s⟩, ⟨28, 6, .s⟩, ⟨12, 4, .none⟩], limit := .portIn, rep := false, cores := .firing },
    { maj := 0x70, fn := 7, fields := [⟨28, 6, .s⟩, ⟨12, 4, .none⟩], limit := .portOut, rep := false, cores := .firing },
    { maj := 0x70, fn := 8, fields := [⟨34, 6, .s⟩, ⟨12, 4, .none⟩], limit := .portZero, rep := false, cores := .firing },
    { maj := 0x70, fn := 9, fields := [⟨40, 6, .s⟩, ⟨12, 4, .none⟩], limit := .portIn, rep := false, cores := .firing },
    { maj := 0x70, fn := 10, fields := [⟨12, 4, .none⟩], limit := .portZero, rep := false, cores := .firing },
    { maj := 0x70, fn := 11, fields := [⟨34, 6, .s⟩, ⟨12, 4, .none⟩], limit := .portZero, rep := false, cores := .firing },
    { maj := 0x70, fn := 12, fields := [⟨40, 6, .s⟩, ⟨12, 4, .none⟩], rep := false, cores := .firing } ]

/-- R143, MAJ 0x80. -/
def ops80 : List OpSpec :=
  [
    { maj := 0x80, fn := 0, fields := [⟨40, 6, .s⟩, ⟨34, 6, .s⟩, ⟨24, 4, .none⟩, ⟨20, 4, .none⟩, ⟨16, 4, .none⟩, ⟨14, 2, .none⟩, ⟨13, 1, .none⟩, ⟨0, 9, .none⟩], scopes := some scMem, limit := .sxSize, cores := .firing },
    { maj := 0x80, fn := 1, fields := [⟨40, 6, .s⟩, ⟨34, 6, .s⟩, ⟨24, 4, .none⟩, ⟨20, 4, .none⟩, ⟨16, 4, .none⟩, ⟨14, 2, .none⟩, ⟨0, 9, .none⟩], scopes := some scMem, cores := .firing },
    { maj := 0x80, fn := 2, fields := [⟨40, 6, .s⟩, ⟨34, 6, .s⟩, ⟨28, 6, .s⟩, ⟨24, 4, .none⟩, ⟨20, 4, .none⟩, ⟨16, 4, .none⟩, ⟨14, 2, .none⟩, ⟨13, 1, .none⟩, ⟨9, 4, .none⟩, ⟨0, 9, .none⟩], scopes := some scMem, limit := .amoSize, cores := .firing } ]

/-- R143, MAJ 0x81. -/
def ops81 : List OpSpec :=
  [
    { maj := 0x81, fn := 0, fields := [⟨40, 6, .v⟩, ⟨34, 6, .s⟩, ⟨24, 4, .none⟩, ⟨20, 4, .none⟩, ⟨16, 4, .none⟩, ⟨12, 4, .none⟩, ⟨9, 3, .none⟩, ⟨3, 6, .none⟩], types := .ovld, scopes := some scOv, limit := .ovld, rep := false, cores := .firing },
    { maj := 0x81, fn := 1, fields := [⟨40, 6, .sv⟩, ⟨34, 6, .s⟩, ⟨24, 4, .none⟩, ⟨20, 4, .none⟩, ⟨16, 4, .none⟩, ⟨12, 4, .none⟩, ⟨9, 3, .none⟩, ⟨3, 6, .none⟩], types := .at 12 tyZero, scopes := some scOv, limit := .ovst, rep := false, cores := .firing },
    { maj := 0x81, fn := 2, fields := [⟨40, 6, .s⟩, ⟨34, 6, .s⟩, ⟨24, 4, .none⟩, ⟨20, 4, .none⟩, ⟨16, 4, .none⟩, ⟨12, 4, .none⟩, ⟨9, 3, .none⟩, ⟨3, 6, .none⟩], types := .at 12 tyZero, scopes := some scOv, limit := .grpstat, rep := false, cores := .firing } ]

/-- R143, MAJ 0x82. -/
def ops82 : List OpSpec :=
  [
    { maj := 0x82, fn := 0, fields := [⟨40, 6, .s⟩, ⟨34, 6, .s⟩, ⟨28, 6, .s⟩, ⟨24, 4, .none⟩, ⟨20, 4, .none⟩, ⟨16, 4, .none⟩], scopes := some scMem, rep := false, cores := .firing },
    { maj := 0x82, fn := 1, fields := [⟨34, 6, .s⟩, ⟨28, 6, .s⟩, ⟨24, 4, .none⟩, ⟨20, 4, .none⟩, ⟨16, 4, .none⟩], scopes := some scMem, rep := false, cores := .firing },
    { maj := 0x82, fn := 2, fields := [⟨40, 6, .s⟩, ⟨34, 6, .s⟩, ⟨28, 6, .s⟩, ⟨24, 4, .none⟩, ⟨20, 4, .none⟩, ⟨16, 4, .none⟩], scopes := some scMem, rep := false, cores := .firing } ]

/-- R143, MAJ 0x90. -/
def ops90 : List OpSpec :=
  [
    { maj := 0x90, fn := 0, fields := [⟨40, 6, .q⟩, ⟨24, 4, .none⟩, ⟨20, 4, .none⟩, ⟨16, 4, .none⟩, ⟨6, 1, .none⟩, ⟨0, 6, .none⟩], scopes := some scMem, limit := .slotRange, rep := false, cores := .firing },
    { maj := 0x90, fn := 1, fields := [⟨40, 6, .q⟩, ⟨24, 4, .none⟩, ⟨20, 4, .none⟩, ⟨16, 4, .none⟩, ⟨0, 6, .none⟩], scopes := some scMem, limit := .slotRange, rep := false, cores := .firing },
    { maj := 0x90, fn := 2, fields := [⟨40, 6, .q⟩, ⟨34, 6, .s⟩, ⟨28, 6, .s⟩, ⟨24, 4, .none⟩, ⟨20, 4, .none⟩, ⟨16, 4, .none⟩, ⟨11, 5, .none⟩], scopes := some scMem, cores := .firing, form := some 10 },
    { maj := 0x90, fn := 2, fields := [⟨40, 6, .q⟩, ⟨34, 6, .s⟩, ⟨24, 4, .none⟩, ⟨20, 4, .none⟩, ⟨16, 4, .none⟩, ⟨11, 5, .none⟩], scopes := some scMem, cores := .firing, form := some 10, formVal := 1 },
    { maj := 0x90, fn := 3, fields := [⟨40, 6, .q⟩, ⟨34, 6, .s⟩, ⟨28, 6, .s⟩, ⟨24, 4, .none⟩, ⟨20, 4, .none⟩, ⟨16, 4, .none⟩, ⟨12, 4, .none⟩, ⟨7, 5, .none⟩], scopes := some scMem, limit := .portIn0, cores := .firing },
    { maj := 0x90, fn := 4, fields := [⟨40, 6, .q⟩, ⟨34, 6, .s⟩, ⟨28, 6, .s⟩, ⟨24, 4, .none⟩, ⟨20, 4, .none⟩, ⟨16, 4, .none⟩, ⟨12, 4, .none⟩, ⟨7, 5, .none⟩], types := .at 12 tyMat, scopes := some scMem, cores := .firing },
    { maj := 0x90, fn := 5, fields := [⟨40, 6, .q⟩, ⟨34, 6, .q⟩, ⟨24, 4, .none⟩, ⟨20, 4, .none⟩, ⟨16, 4, .none⟩, ⟨12, 4, .none⟩], types := .at 12 tyMat, scopes := some scMem, limit := .mtr, cores := .firing },
    { maj := 0x90, fn := 6, fields := [⟨40, 6, .x⟩, ⟨24, 4, .none⟩, ⟨20, 4, .none⟩, ⟨16, 4, .none⟩, ⟨14, 2, .none⟩, ⟨8, 6, .none⟩, ⟨4, 4, .none⟩, ⟨2, 2, .none⟩], types := .at 4 tyAcc, scopes := some scMem, limit := .shape, cores := .firing },
    { maj := 0x90, fn := 7, fields := [⟨40, 6, .x⟩, ⟨34, 6, .q⟩, ⟨28, 6, .q⟩, ⟨24, 4, .none⟩, ⟨20, 4, .none⟩, ⟨16, 4, .none⟩, ⟨14, 2, .none⟩, ⟨8, 6, .none⟩, ⟨4, 4, .none⟩, ⟨2, 2, .none⟩, ⟨1, 1, .none⟩, ⟨0, 1, .none⟩], types := .at 4 tyMat, scopes := some scMem, limit := .mma, cores := .firing },
    { maj := 0x90, fn := 8, fields := [⟨40, 6, .x⟩, ⟨34, 6, .q⟩, ⟨28, 6, .q⟩, ⟨24, 4, .none⟩, ⟨20, 4, .none⟩, ⟨16, 4, .none⟩, ⟨12, 4, .none⟩, ⟨6, 6, .none⟩, ⟨2, 4, .none⟩, ⟨1, 1, .none⟩, ⟨0, 1, .none⟩], types := .at 2 tyMat, scopes := some scMem, limit := .mmag, rep := false, cores := .firing },
    { maj := 0x90, fn := 9, fields := [⟨40, 6, .x⟩, ⟨34, 6, .s⟩, ⟨24, 4, .none⟩, ⟨20, 4, .none⟩, ⟨16, 4, .none⟩, ⟨14, 2, .none⟩, ⟨8, 6, .none⟩, ⟨2, 2, .none⟩, ⟨1, 1, .none⟩], scopes := some scMem, limit := .shape, cores := .firing },
    { maj := 0x90, fn := 10, rep := false, cores := .firing },
    { maj := 0x90, fn := 11, fields := [⟨40, 6, .s⟩, ⟨0, 4, .none⟩], limit := .mstatSel, rep := false, cores := .firing } ]

/-- R143, MAJ 0xA0. -/
def opsA0 : List OpSpec :=
  [
    { maj := 0xA0, fn := 0, fields := [⟨34, 6, .s⟩, ⟨24, 4, .none⟩, ⟨20, 4, .none⟩, ⟨16, 4, .none⟩, ⟨8, 8, .none⟩], scopes := some scMem, rep := false },
    { maj := 0xA0, fn := 1, fields := [⟨34, 6, .s⟩, ⟨28, 6, .s⟩, ⟨24, 4, .none⟩, ⟨20, 4, .none⟩, ⟨16, 4, .none⟩, ⟨8, 8, .none⟩], scopes := some scMem, rep := false },
    { maj := 0xA0, fn := 2, fields := [⟨40, 6, .s⟩, ⟨34, 6, .s⟩, ⟨28, 6, .s⟩, ⟨24, 4, .none⟩, ⟨20, 4, .none⟩, ⟨16, 4, .none⟩, ⟨8, 8, .none⟩], scopes := some scMem, rep := false, cores := .firing },
    { maj := 0xA0, fn := 3, fields := [⟨34, 6, .s⟩, ⟨28, 6, .s⟩, ⟨24, 4, .none⟩, ⟨20, 4, .none⟩, ⟨16, 4, .none⟩, ⟨8, 8, .none⟩], scopes := some scMem, rep := false },
    { maj := 0xA0, fn := 4, fields := [⟨40, 6, .s⟩, ⟨34, 6, .s⟩, ⟨28, 6, .s⟩, ⟨24, 4, .none⟩, ⟨20, 4, .none⟩, ⟨16, 4, .none⟩], scopes := some scMem, rep := false },
    { maj := 0xA0, fn := 5, fields := [⟨8, 8, .none⟩], rep := false },
    { maj := 0xA0, fn := 6, fields := [⟨40, 6, .s⟩, ⟨8, 8, .none⟩, ⟨0, 8, .none⟩], limit := .sstatSel, rep := false } ]

/-- R143, MAJ 0xB0. -/
def opsB0 : List OpSpec :=
  [
    { maj := 0xB0, fn := 0, fields := [⟨40, 6, .s⟩, ⟨34, 6, .s⟩, ⟨28, 6, .s⟩, ⟨24, 4, .none⟩, ⟨20, 4, .none⟩], rep := false, cores := .control },
    { maj := 0xB0, fn := 1, fields := [⟨40, 6, .s⟩, ⟨34, 6, .s⟩, ⟨28, 6, .s⟩, ⟨24, 4, .none⟩, ⟨20, 4, .none⟩], rep := false, cores := .control },
    { maj := 0xB0, fn := 2, fields := [⟨40, 6, .s⟩, ⟨34, 6, .s⟩, ⟨28, 6, .s⟩, ⟨24, 4, .none⟩, ⟨20, 4, .none⟩], rep := false, cores := .control, form := some 0 },
    { maj := 0xB0, fn := 2, fields := [⟨40, 6, .s⟩, ⟨34, 6, .s⟩, ⟨28, 6, .s⟩, ⟨24, 4, .none⟩, ⟨20, 4, .none⟩], rep := false, cores := .control, form := some 0, formVal := 1 },
    { maj := 0xB0, fn := 3, fields := [⟨40, 6, .s⟩, ⟨34, 6, .s⟩, ⟨24, 4, .none⟩, ⟨20, 4, .none⟩, ⟨0, 6, .none⟩], limit := .qstatSel, rep := false, cores := .control },
    { maj := 0xB0, fn := 4, fields := [⟨40, 6, .s⟩, ⟨34, 6, .s⟩, ⟨24, 4, .none⟩, ⟨20, 4, .none⟩], rep := false, cores := .control },
    { maj := 0xB0, fn := 5, fields := [⟨40, 6, .s⟩, ⟨34, 6, .s⟩, ⟨28, 6, .s⟩, ⟨24, 4, .none⟩, ⟨20, 4, .none⟩], rep := false, cores := .control },
    { maj := 0xB0, fn := 6, fields := [⟨40, 6, .s⟩, ⟨34, 6, .s⟩, ⟨24, 4, .none⟩, ⟨20, 4, .none⟩], rep := false, cores := .control } ]

/-- R143, MAJ 0xB8. -/
def opsB8 : List OpSpec :=
  [
    { maj := 0xB8, fn := 0, fields := [⟨40, 6, .s⟩, ⟨34, 6, .s⟩, ⟨28, 6, .s⟩, ⟨24, 4, .none⟩, ⟨20, 4, .none⟩, ⟨16, 4, .none⟩, ⟨14, 2, .none⟩, ⟨13, 1, .none⟩], scopes := some scX, limit := .sxSize, rep := false },
    { maj := 0xB8, fn := 1, fields := [⟨40, 6, .s⟩, ⟨34, 6, .s⟩, ⟨28, 6, .s⟩, ⟨24, 4, .none⟩, ⟨20, 4, .none⟩, ⟨16, 4, .none⟩, ⟨14, 2, .none⟩], scopes := some scX, rep := false },
    { maj := 0xB8, fn := 2, fields := [⟨40, 6, .s⟩, ⟨34, 6, .s⟩, ⟨28, 6, .s⟩, ⟨24, 4, .none⟩, ⟨20, 4, .none⟩, ⟨16, 4, .none⟩, ⟨14, 2, .none⟩, ⟨13, 1, .none⟩, ⟨9, 4, .none⟩, ⟨3, 6, .s⟩], scopes := some scX, limit := .amoSize, rep := false },
    { maj := 0xB8, fn := 3, fields := [⟨40, 6, .sv⟩, ⟨34, 6, .s⟩, ⟨28, 6, .s⟩, ⟨24, 4, .none⟩, ⟨20, 4, .none⟩, ⟨16, 4, .none⟩, ⟨10, 6, .s⟩, ⟨3, 6, .none⟩], scopes := some scEd, limit := .edst, rep := false },
    { maj := 0xB8, fn := 4, fields := [⟨40, 6, .s⟩, ⟨34, 6, .s⟩, ⟨28, 6, .s⟩, ⟨24, 4, .none⟩, ⟨20, 4, .none⟩, ⟨16, 4, .none⟩], scopes := some scEd, rep := false },
    { maj := 0xB8, fn := 5, fields := [⟨40, 6, .v⟩, ⟨34, 6, .s⟩, ⟨28, 6, .s⟩, ⟨24, 4, .none⟩, ⟨20, 4, .none⟩, ⟨16, 4, .none⟩, ⟨12, 4, .none⟩, ⟨9, 3, .none⟩, ⟨3, 6, .none⟩], types := .ovld, scopes := some scXov, limit := .ovld, rep := false, cores := .firing },
    { maj := 0xB8, fn := 6, fields := [⟨40, 6, .s⟩, ⟨34, 6, .s⟩, ⟨24, 4, .none⟩, ⟨20, 4, .none⟩, ⟨16, 4, .none⟩], scopes := some scZero, rep := false, cores := .control },
    { maj := 0xB8, fn := 7, fields := [⟨40, 6, .s⟩, ⟨34, 6, .s⟩, ⟨24, 4, .none⟩, ⟨20, 4, .none⟩, ⟨16, 4, .none⟩], scopes := some scZero, rep := false, cores := .control },
    { maj := 0xB8, fn := 8, fields := [⟨34, 6, .s⟩, ⟨24, 4, .none⟩, ⟨20, 4, .none⟩, ⟨16, 4, .none⟩], scopes := some scX, rep := false } ]

/-- R143, MAJ 0xC0. -/
def opsC0 : List OpSpec :=
  [
    { maj := 0xC0, fn := 0, fields := [⟨40, 6, .s⟩, ⟨34, 6, .s⟩, ⟨28, 6, .s⟩, ⟨24, 4, .none⟩, ⟨20, 4, .none⟩], rep := false, cores := .control },
    { maj := 0xC0, fn := 1, fields := [⟨40, 6, .s⟩, ⟨34, 6, .s⟩, ⟨28, 6, .s⟩, ⟨24, 4, .none⟩, ⟨20, 4, .none⟩], rep := false, cores := .control },
    { maj := 0xC0, fn := 2, fields := [⟨40, 6, .s⟩, ⟨34, 6, .s⟩, ⟨28, 6, .s⟩, ⟨24, 4, .none⟩, ⟨20, 4, .none⟩], rep := false, cores := .control },
    { maj := 0xC0, fn := 3, fields := [⟨40, 6, .s⟩, ⟨34, 6, .s⟩, ⟨24, 4, .none⟩, ⟨20, 4, .none⟩], rep := false, cores := .control },
    { maj := 0xC0, fn := 4, fields := [⟨40, 6, .s⟩, ⟨34, 6, .s⟩, ⟨24, 4, .none⟩, ⟨20, 4, .none⟩], rep := false, cores := .control, form := some 0 },
    { maj := 0xC0, fn := 4, fields := [⟨40, 6, .s⟩, ⟨34, 6, .s⟩, ⟨24, 4, .none⟩, ⟨20, 4, .none⟩], rep := false, cores := .control, form := some 0, formVal := 1 },
    { maj := 0xC0, fn := 5, fields := [⟨40, 6, .s⟩, ⟨34, 6, .s⟩, ⟨28, 6, .s⟩, ⟨24, 4, .none⟩, ⟨20, 4, .none⟩], rep := false, cores := .control },
    { maj := 0xC0, fn := 6, fields := [⟨40, 6, .s⟩, ⟨34, 6, .s⟩, ⟨24, 4, .none⟩, ⟨20, 4, .none⟩], rep := false, cores := .control },
    { maj := 0xC0, fn := 7, fields := [⟨40, 6, .s⟩, ⟨34, 6, .s⟩, ⟨28, 6, .s⟩, ⟨24, 4, .none⟩, ⟨20, 4, .none⟩, ⟨0, 1, .none⟩], rep := false, cores := .levelM },
    { maj := 0xC0, fn := 8, fields := [⟨40, 6, .s⟩, ⟨24, 4, .none⟩, ⟨20, 4, .none⟩, ⟨0, 1, .none⟩], rep := false, cores := .levelM },
    { maj := 0xC0, fn := 9, fields := [⟨40, 6, .s⟩, ⟨24, 4, .none⟩, ⟨20, 4, .none⟩, ⟨0, 1, .none⟩], rep := false, cores := .levelM },
    { maj := 0xC0, fn := 10, fields := [⟨40, 6, .s⟩, ⟨34, 6, .s⟩, ⟨24, 4, .none⟩, ⟨20, 4, .none⟩, ⟨0, 1, .none⟩], rep := false, cores := .levelM },
    { maj := 0xC0, fn := 11, fields := [⟨40, 6, .s⟩, ⟨34, 6, .s⟩, ⟨24, 4, .none⟩, ⟨20, 4, .none⟩], rep := false, cores := .control } ]

/-- The opcode map of R143 by major opcode; a reserved one has no row. -/
def opsOf (maj : Nat) : List OpSpec :=
  match maj with
  | 0x01 => ops01
  | 0x02 => ops02
  | 0x03 => ops03
  | 0x04 => ops04
  | 0x05 => ops05
  | 0x10 => ops10
  | 0x18 => ops18
  | 0x19 => ops19
  | 0x1A => ops1A
  | 0x20 => ops20
  | 0x28 => ops28
  | 0x29 => ops29
  | 0x30 => ops30
  | 0x34 => ops34
  | 0x38 => ops38
  | 0x40 => ops40
  | 0x41 => ops41
  | 0x42 => ops42
  | 0x43 => ops43
  | 0x44 => ops44
  | 0x45 => ops45
  | 0x46 => ops46
  | 0x47 => ops47
  | 0x48 => ops48
  | 0x49 => ops49
  | 0x4A => ops4A
  | 0x70 => ops70
  | 0x80 => ops80
  | 0x81 => ops81
  | 0x82 => ops82
  | 0x90 => ops90
  | 0xA0 => opsA0
  | 0xB0 => opsB0
  | 0xB8 => opsB8
  | 0xC0 => opsC0
  | _ => []

/-- The instruction of a word of MAJ 0x01 by its FN. -/
def build01 (fn _w : Nat) : Option Instr :=
  match fn with
  | 0 => some (.nop)
  | _ => none

/-- The instruction of a word of MAJ 0x02 by its FN. -/
def build02 (fn w : Nat) : Option Instr :=
  match fn with
  | 0 => some (.add (vD w) (vA w) (vB w))
  | 1 => some (.sub (vD w) (vA w) (vB w))
  | 2 => some (.mul (vD w) (vA w) (vB w))
  | 3 => some (.mulh (vD w) (vA w) (vB w))
  | 4 => some (.mulhn (vD w) (vA w) (vB w))
  | 5 => some (.div (vD w) (vA w) (vB w))
  | 6 => some (.divn (vD w) (vA w) (vB w))
  | 7 => some (.rem (vD w) (vA w) (vB w))
  | 8 => some (.remn (vD w) (vA w) (vB w))
  | 9 => some (.madd (vD w) (vA w) (vB w) (vC w))
  | 10 => some (.msub (vD w) (vA w) (vB w) (vC w))
  | 11 => some (.min (vD w) (vA w) (vB w))
  | 12 => some (.max (vD w) (vA w) (vB w))
  | 13 => some (.minn (vD w) (vA w) (vB w))
  | 14 => some (.maxn (vD w) (vA w) (vB w))
  | 15 => some (.abs (vD w) (vA w))
  | _ => none

/-- The instruction of a word of MAJ 0x03 by its FN. -/
def build03 (fn w : Nat) : Option Instr :=
  match fn with
  | 0 => some (.and (vD w) (vA w) (vB w))
  | 1 => some (.or (vD w) (vA w) (vB w))
  | 2 => some (.xor (vD w) (vA w) (vB w))
  | 3 => some (.andn (vD w) (vA w) (vB w))
  | 4 => some (.orn (vD w) (vA w) (vB w))
  | 5 => some (.xnor (vD w) (vA w) (vB w))
  | 6 => some (.sll (vD w) (vA w) (vB w))
  | 7 => some (.srl (vD w) (vA w) (vB w))
  | 8 => some (.sra (vD w) (vA w) (vB w))
  | 9 => some (.rol (vD w) (vA w) (vB w))
  | 10 => some (.ror (vD w) (vA w) (vB w))
  | 11 => some (.sel (vD w) (vA w) (vB w) (vC w))
  | _ => none

/-- The instruction of a word of MAJ 0x04 by its FN. -/
def build04 (fn w : Nat) : Option Instr :=
  match fn with
  | 0 => some (.clz (vD w) (vA w))
  | 1 => some (.ctz (vD w) (vA w))
  | 2 => some (.popc (vD w) (vA w))
  | 3 => some (.bswap (vD w) (vA w))
  | 4 => some (.bext (vD w) (vA w) (vB w))
  | 5 => some (.bdep (vD w) (vA w) (vB w))
  | 6 => some (.bfx (vD w) (vA w) (bits w 0 6) (bits w 6 7))
  | 7 => some (.bfxn (vD w) (vA w) (bits w 0 6) (bits w 6 7))
  | 8 => some (.bfi (vD w) (vA w) (bits w 0 6) (bits w 6 7))
  | _ => none

/-- The instruction of a word of MAJ 0x05 by its FN. -/
def build05 (fn w : Nat) : Option Instr :=
  match fn with
  | 0 => some (.lea (vD w) (vA w) (vB w) (bits w 0 19) (bits w 19 3))
  | 1 => some (.tla (vD w) (vA w) (vB w) (bits w 0 22))
  | 2 => some (.gla (vD w) (vA w) (vB w) (bits w 0 22))
  | _ => none

/-- The instruction of a word of MAJ 0x10 by its FN. -/
def build10 (fn w : Nat) : Option Instr :=
  match fn with
  | 0 => some (.addi (vD w) (vA w) (bits w 0 34))
  | 1 => some (.muli (vD w) (vA w) (bits w 0 34))
  | 2 => some (.andi (vD w) (vA w) (bits w 0 34))
  | 3 => some (.ori (vD w) (vA w) (bits w 0 34))
  | 4 => some (.xori (vD w) (vA w) (bits w 0 34))
  | 5 => some (.slli (vD w) (vA w) (bits w 0 34))
  | 6 => some (.srli (vD w) (vA w) (bits w 0 34))
  | 7 => some (.srai (vD w) (vA w) (bits w 0 34))
  | 8 => some (.li (vD w) (bits w 0 34))
  | 9 => some (.lih (vD w) (vA w) (bits w 0 34))
  | _ => none

/-- The instruction of a word of MAJ 0x18 by its FN. -/
def build18 (fn w : Nat) : Option Instr :=
  match fn with
  | 0 => some (.ceq (vD w) (vA w) (vB w))
  | 1 => some (.cne (vD w) (vA w) (vB w))
  | 2 => some (.clt (vD w) (vA w) (vB w))
  | 3 => some (.cle (vD w) (vA w) (vB w))
  | 4 => some (.cltn (vD w) (vA w) (vB w))
  | 5 => some (.clen (vD w) (vA w) (vB w))
  | _ => none

/-- The instruction of a word of MAJ 0x19 by its FN. -/
def build19 (fn w : Nat) : Option Instr :=
  match fn with
  | 0 => some (.ceqi (vD w) (vA w) (bits w 0 34))
  | 1 => some (.cnei (vD w) (vA w) (bits w 0 34))
  | 2 => some (.clti (vD w) (vA w) (bits w 0 34))
  | 3 => some (.clei (vD w) (vA w) (bits w 0 34))
  | 4 => some (.cltni (vD w) (vA w) (bits w 0 34))
  | 5 => some (.cleni (vD w) (vA w) (bits w 0 34))
  | _ => none

/-- The instruction of a word of MAJ 0x1A by its FN. -/
def build1A (fn w : Nat) : Option Instr :=
  match fn with
  | 0 => some (.pand (vD w) (vA w) (vB w))
  | 1 => some (.por (vD w) (vA w) (vB w))
  | 2 => some (.pxor (vD w) (vA w) (vB w))
  | 3 => some (.pandn (vD w) (vA w) (vB w))
  | 4 => some (.pmov (vD w) (vA w))
  | 5 => some (.pset (vD w) (bits w 0 22))
  | _ => none

/-- The instruction of a word of MAJ 0x20 by its FN. -/
def build20 (fn w : Nat) : Option Instr :=
  match fn with
  | 0 => some (.br (bits w 0 34))
  | 1 => some (.brl (vD w) (bits w 0 34))
  | 2 => some (.jr (vA w) (bits w 0 34))
  | 3 => some (.jrl (vD w) (vA w) (bits w 0 34))
  | _ => none

/-- The instruction of a word of MAJ 0x28 by its FN. -/
def build28 (fn w : Nat) : Option Instr :=
  match fn with
  | 0 => some (.ldb (vD w) (vA w) (bits w 24 4) (bits w 20 4) (bits w 16 4) (bits w 0 16))
  | 1 => some (.ldbn (vD w) (vA w) (bits w 24 4) (bits w 20 4) (bits w 16 4) (bits w 0 16))
  | 2 => some (.ldh (vD w) (vA w) (bits w 24 4) (bits w 20 4) (bits w 16 4) (bits w 0 16))
  | 3 => some (.ldhn (vD w) (vA w) (bits w 24 4) (bits w 20 4) (bits w 16 4) (bits w 0 16))
  | 4 => some (.ldw (vD w) (vA w) (bits w 24 4) (bits w 20 4) (bits w 16 4) (bits w 0 16))
  | 5 => some (.ldwn (vD w) (vA w) (bits w 24 4) (bits w 20 4) (bits w 16 4) (bits w 0 16))
  | 6 => some (.ldd (vD w) (vA w) (bits w 24 4) (bits w 20 4) (bits w 16 4) (bits w 0 16))
  | _ => none

/-- The instruction of a word of MAJ 0x29 by its FN. -/
def build29 (fn w : Nat) : Option Instr :=
  match fn with
  | 0 => some (.stb (vD w) (vA w) (bits w 24 4) (bits w 20 4) (bits w 16 4) (bits w 0 16))
  | 1 => some (.sth (vD w) (vA w) (bits w 24 4) (bits w 20 4) (bits w 16 4) (bits w 0 16))
  | 2 => some (.stw (vD w) (vA w) (bits w 24 4) (bits w 20 4) (bits w 16 4) (bits w 0 16))
  | 3 => some (.std (vD w) (vA w) (bits w 24 4) (bits w 20 4) (bits w 16 4) (bits w 0 16))
  | _ => none

/-- The instruction of a word of MAJ 0x30 by its FN. -/
def build30 (fn w : Nat) : Option Instr :=
  match fn with
  | 0 => some (.aadd (vD w) (vA w) (vB w) (bits w 24 4) (bits w 20 4) (bits w 16 4) (bits w 0 16))
  | 1 => some (.aand (vD w) (vA w) (vB w) (bits w 24 4) (bits w 20 4) (bits w 16 4) (bits w 0 16))
  | 2 => some (.aor (vD w) (vA w) (vB w) (bits w 24 4) (bits w 20 4) (bits w 16 4) (bits w 0 16))
  | 3 => some (.axor (vD w) (vA w) (vB w) (bits w 24 4) (bits w 20 4) (bits w 16 4) (bits w 0 16))
  | 4 => some (.amin (vD w) (vA w) (vB w) (bits w 24 4) (bits w 20 4) (bits w 16 4) (bits w 0 16))
  | 5 => some (.amax (vD w) (vA w) (vB w) (bits w 24 4) (bits w 20 4) (bits w 16 4) (bits w 0 16))
  | 6 => some (.aminn (vD w) (vA w) (vB w) (bits w 24 4) (bits w 20 4) (bits w 16 4) (bits w 0 16))
  | 7 => some (.amaxn (vD w) (vA w) (vB w) (bits w 24 4) (bits w 20 4) (bits w 16 4) (bits w 0 16))
  | 8 => some (.aswap (vD w) (vA w) (vB w) (bits w 24 4) (bits w 20 4) (bits w 16 4) (bits w 0 16))
  | 9 => some (.acas (vD w) (vA w) (vB w) (bits w 24 4) (bits w 20 4) (bits w 16 4) (bits w 0 16))
  | _ => none

/-- The instruction of a word of MAJ 0x34 by its FN. -/
def build34 (fn w : Nat) : Option Instr :=
  match fn with
  | 0 => some (.fenceAcq (vA w) (bits w 16 4))
  | 1 => some (.fenceRel (vA w) (bits w 16 4))
  | 2 => some (.fenceFull (vA w) (bits w 16 4))
  | 3 => some (.ojoin (vD w) (vA w) (vB w))
  | 4 => some (.owait (bits w 24 4) (bits w 16 4))
  | 5 => some (.oclr (bits w 20 4))
  | _ => none

/-- The instruction of a word of MAJ 0x38 by its FN. -/
def build38 (fn w : Nat) : Option Instr :=
  match fn with
  | 0 => some (.trap (vA w) (vB w) (bits w 0 22))
  | 1 => some (.tret)
  | 2 => some (.sysr (vD w) (bits w 0 22))
  | 3 => some (.sysw (vA w) (bits w 0 22))
  | 4 => some (.sleepc (vA w) (bits w 0 22))
  | 5 => some (.waittick (vA w) (bits w 0 22))
  | 6 => some (.brk (bits w 0 22))
  | _ => none

/-- The instruction of a word of MAJ 0x40 by its FN. -/
def build40 (fn w : Nat) : Option Instr :=
  match fn with
  | 0 => some (.vadd (vD w) (vA w) (vB w) (bits w 18 4) (bits w 15 3))
  | 1 => some (.vsub (vD w) (vA w) (vB w) (bits w 18 4) (bits w 15 3))
  | 2 => some (.vmul (vD w) (vA w) (vB w) (bits w 18 4) (bits w 15 3))
  | 3 => some (.vmulh (vD w) (vA w) (vB w) (bits w 18 4) (bits w 15 3))
  | 4 => some (.vmin (vD w) (vA w) (vB w) (bits w 18 4) (bits w 15 3))
  | 5 => some (.vmax (vD w) (vA w) (vB w) (bits w 18 4) (bits w 15 3))
  | 6 => some (.vminn (vD w) (vA w) (vB w) (bits w 18 4) (bits w 15 3))
  | 7 => some (.vmaxn (vD w) (vA w) (vB w) (bits w 18 4) (bits w 15 3))
  | 8 => some (.vabs (vD w) (vA w) (bits w 18 4) (bits w 15 3))
  | 9 => some (.vneg (vD w) (vA w) (bits w 18 4) (bits w 15 3))
  | 10 => some (.vadds (vD w) (vA w) (vB w) (bits w 18 4) (bits w 15 3))
  | 11 => some (.vsubs (vD w) (vA w) (vB w) (bits w 18 4) (bits w 15 3))
  | _ => none

/-- The instruction of a word of MAJ 0x41 by its FN. -/
def build41 (fn w : Nat) : Option Instr :=
  match fn with
  | 0 => some (.vand (vD w) (vA w) (vB w) (bits w 15 3))
  | 1 => some (.vor (vD w) (vA w) (vB w) (bits w 15 3))
  | 2 => some (.vxor (vD w) (vA w) (vB w) (bits w 15 3))
  | 3 => some (.vandn (vD w) (vA w) (vB w) (bits w 15 3))
  | 4 => some (.vlop4 (vD w) (vA w) (vB w) (vC w) (bits w 18 4) (bits w 15 3) (bits w 0 12))
  | 5 => some (.vshl (vD w) (vA w) (vB w) (bits w 18 4) (bits w 15 3))
  | 6 => some (.vshr (vD w) (vA w) (vB w) (bits w 18 4) (bits w 15 3))
  | 7 => some (.vsra (vD w) (vA w) (vB w) (bits w 18 4) (bits w 15 3))
  | _ => none

/-- The instruction of a word of MAJ 0x42 by its FN. -/
def build42 (fn w : Nat) : Option Instr :=
  match fn with
  | 0 => some (.vfadd (vD w) (vA w) (vB w) (bits w 18 4) (bits w 15 3) (bits w 12 3))
  | 1 => some (.vfsub (vD w) (vA w) (vB w) (bits w 18 4) (bits w 15 3) (bits w 12 3))
  | 2 => some (.vfmul (vD w) (vA w) (vB w) (bits w 18 4) (bits w 15 3) (bits w 12 3))
  | 3 => some (.vffma (vD w) (vA w) (vB w) (vC w) (bits w 18 4) (bits w 15 3) (bits w 12 3))
  | 4 => some (.vffms (vD w) (vA w) (vB w) (vC w) (bits w 18 4) (bits w 15 3) (bits w 12 3))
  | 5 => some (.vffnma (vD w) (vA w) (vB w) (vC w) (bits w 18 4) (bits w 15 3) (bits w 12 3))
  | 6 => some (.vfmin (vD w) (vA w) (vB w) (bits w 18 4) (bits w 15 3) (bits w 12 3))
  | 7 => some (.vfmax (vD w) (vA w) (vB w) (bits w 18 4) (bits w 15 3) (bits w 12 3))
  | 8 => some (.vfabs (vD w) (vA w) (bits w 18 4) (bits w 15 3) (bits w 12 3))
  | 9 => some (.vfneg (vD w) (vA w) (bits w 18 4) (bits w 15 3) (bits w 12 3))
  | 10 => some (.vdot2 (vD w) (vA w) (vB w) (bits w 18 4) (bits w 15 3) (bits w 12 3))
  | _ => none

/-- The instruction of a word of MAJ 0x43 by its FN. -/
def build43 (fn w : Nat) : Option Instr :=
  match fn with
  | 0 => some (.vfdiv (vD w) (vA w) (vB w) (bits w 18 4) (bits w 15 3) (bits w 12 3))
  | 1 => some (.vfsqrt (vD w) (vA w) (bits w 18 4) (bits w 15 3) (bits w 12 3))
  | 2 => some (.vfrcp (vD w) (vA w) (bits w 18 4) (bits w 15 3) (bits w 12 3))
  | 3 => some (.vfrsqrt (vD w) (vA w) (bits w 18 4) (bits w 15 3) (bits w 12 3))
  | 4 => some (.vfexp2 (vD w) (vA w) (bits w 18 4) (bits w 15 3) (bits w 12 3))
  | 5 => some (.vflog2 (vD w) (vA w) (bits w 18 4) (bits w 15 3) (bits w 12 3))
  | 6 => some (.vfclass (vD w) (vA w) (bits w 18 4) (bits w 15 3) (bits w 12 3))
  | _ => none

/-- The instruction of a word of MAJ 0x44 by its FN. -/
def build44 (fn w : Nat) : Option Instr :=
  match fn with
  | 0 => some (.vcvt (vD w) (vA w) (bits w 18 4) (bits w 15 3) (bits w 12 3) (bits w 0 4))
  | 1 => some (.vpack (vD w) (vA w) (vB w) (bits w 18 4) (bits w 15 3) (bits w 12 3) (bits w 0 4))
  | 2 => some (.vunpack (vD w) (vA w) (bits w 18 4) (bits w 15 3) (bits w 12 3) (bits w 0 4) (bits w 4 1))
  | 3 => some (.vscale (vD w) (vA w) (vB w) (bits w 18 4) (bits w 15 3) (bits w 12 3))
  | _ => none

/-- The instruction of a word of MAJ 0x45 by its FN. -/
def build45 (fn w : Nat) : Option Instr :=
  match fn with
  | 0 => some (.vcmp (vD w) (vA w) (vB w) (bits w 18 4) (bits w 15 3) (bits w 12 3) (bits w 0 3))
  | 1 => some (.vfcmp (vD w) (vA w) (vB w) (bits w 18 4) (bits w 15 3) (bits w 12 3) (bits w 0 3))
  | _ => none

/-- The instruction of a word of MAJ 0x46 by its FN. -/
def build46 (fn w : Nat) : Option Instr :=
  match fn with
  | 0 => some (.mand (vD w) (vA w) (vB w))
  | 1 => some (.mor (vD w) (vA w) (vB w))
  | 2 => some (.mxor (vD w) (vA w) (vB w))
  | 3 => some (.mnot (vD w) (vA w))
  | 4 => some (.mpop (vD w) (vA w))
  | 5 => some (.mfirst (vD w) (vA w))
  | 6 => some (.mmov (vD w) (vA w) (bits w 0 2))
  | _ => none

/-- The instruction of a word of MAJ 0x47 by its FN. -/
def build47 (fn w : Nat) : Option Instr :=
  match fn with
  | 0 => some (.vperm (vD w) (vA w) (vB w) (bits w 18 4) (bits w 15 3))
  | 1 => some (.vbcast (vD w) (vA w) (bits w 18 4) (bits w 15 3) (bits w 0 12))
  | 2 => some (.vext (vD w) (vA w) (vB w) (bits w 18 4) (bits w 0 12))
  | 3 => some (.vins (vD w) (vA w) (vB w) (bits w 18 4) (bits w 15 3) (bits w 0 12))
  | 4 => some (.vslide (vD w) (vA w) (vB w) (bits w 18 4) (bits w 15 3) (bits w 0 12))
  | 5 => some (.vsel (vD w) (vA w) (vB w) (bits w 18 4) (bits w 15 3))
  | 6 => some (.vmov (vD w) (vA w) (bits w 18 4) (bits w 15 3))
  | 7 => some (.vcompress (vD w) (vA w) (bits w 18 4) (bits w 15 3))
  | _ => none

/-- The instruction of a word of MAJ 0x48 by its FN. -/
def build48 (fn w : Nat) : Option Instr :=
  match fn with
  | 0 => some (.vredsum (vD w) (vA w) (bits w 18 4) (bits w 15 3) (bits w 12 3))
  | 1 => some (.vredmax (vD w) (vA w) (bits w 18 4) (bits w 15 3) (bits w 12 3))
  | 2 => some (.vredmin (vD w) (vA w) (bits w 18 4) (bits w 15 3) (bits w 12 3))
  | 3 => some (.vfredsum (vD w) (vA w) (bits w 18 4) (bits w 15 3) (bits w 12 3))
  | 4 => some (.vfredmax (vD w) (vA w) (bits w 18 4) (bits w 15 3) (bits w 12 3))
  | 5 => some (.vfredmin (vD w) (vA w) (bits w 18 4) (bits w 15 3) (bits w 12 3))
  | 6 => some (.vscan (vD w) (vA w) (bits w 18 4) (bits w 15 3) (bits w 12 3) (bits w 0 2))
  | 7 => some (.vfscan (vD w) (vA w) (bits w 18 4) (bits w 15 3) (bits w 12 3) (bits w 0 2))
  | _ => none

/-- The instruction of a word of MAJ 0x49 by its FN. -/
def build49 (fn w : Nat) : Option Instr :=
  match fn with
  | 0 => some (.vld (vD w) (vA w) (bits w 24 4) (bits w 20 4) (bits w 16 4) (bits w 12 4) (bits w 9 3) (bits w 0 9))
  | 1 => some (.vst (vD w) (vA w) (bits w 24 4) (bits w 20 4) (bits w 16 4) (bits w 12 4) (bits w 9 3) (bits w 0 9))
  | 2 => some (.vlds (vD w) (vA w) (vB w) (bits w 24 4) (bits w 20 4) (bits w 16 4) (bits w 12 4) (bits w 9 3) (bits w 0 9))
  | 3 => some (.vsts (vD w) (vA w) (vB w) (bits w 24 4) (bits w 20 4) (bits w 16 4) (bits w 12 4) (bits w 9 3) (bits w 0 9))
  | 4 => some (.vldx (vD w) (vA w) (vB w) (bits w 24 4) (bits w 20 4) (bits w 16 4) (bits w 12 4) (bits w 9 3) (bits w 0 9))
  | 5 => some (.vstx (vD w) (vA w) (vB w) (bits w 24 4) (bits w 20 4) (bits w 16 4) (bits w 12 4) (bits w 9 3) (bits w 0 9))
  | 6 => some (.vldb (vD w) (vA w) (bits w 24 4) (bits w 20 4) (bits w 16 4) (bits w 12 4) (bits w 9 3) (bits w 0 9))
  | _ => none

/-- The instruction of a word of MAJ 0x4A by its FN. -/
def build4A (fn w : Nat) : Option Instr :=
  match fn with
  | 0 => some (.vaadd (vD w) (vA w) (vB w) (bits w 24 4) (bits w 20 4) (bits w 16 4) (bits w 12 4) (bits w 9 3) (bits w 0 9))
  | 1 => some (.vaor (vD w) (vA w) (vB w) (bits w 24 4) (bits w 20 4) (bits w 16 4) (bits w 12 4) (bits w 9 3) (bits w 0 9))
  | _ => none

/-- The instruction of a word of MAJ 0x70 by its FN. -/
def build70 (fn w : Nat) : Option Instr :=
  match fn with
  | 0 => some (.wld (vD w) (vA w) (vB w) (bits w 24 4) (bits w 20 4) (bits w 16 4) (bits w 12 4) (bits w 10 2) (bits w 0 10))
  | 1 => some (.wlds (vD w) (vA w) (vB w) (bits w 24 4) (bits w 20 4) (bits w 16 4) (bits w 12 4) (bits w 10 2) (bits w 0 10))
  | 2 => some (.wst (vD w) (vA w) (vB w) (bits w 24 4) (bits w 20 4) (bits w 16 4) (bits w 12 4) (bits w 10 2) (bits w 0 10))
  | 3 => some (.wsend (vA w) (bits w 24 4) (bits w 20 4) (bits w 16 4) (bits w 12 4))
  | 4 => some (.wavail (vD w) (bits w 12 4))
  | 5 => some (.wfree (vD w) (bits w 12 4))
  | 6 => some (.wwait (vA w) (vB w) (bits w 12 4))
  | 7 => some (.wwaito (vB w) (bits w 12 4))
  | 8 => some (.weos (vA w))
  | 9 => some (.wmode (vD w) (bits w 12 4))
  | 10 => some (.fend)
  | 11 => some (.fabort (vA w))
  | 12 => some (.wovf (vD w) (bits w 12 4))
  | _ => none

/-- The instruction of a word of MAJ 0x80 by its FN. -/
def build80 (fn w : Nat) : Option Instr :=
  match fn with
  | 0 => some (.rld (vD w) (vA w) (bits w 24 4) (bits w 20 4) (bits w 16 4) (bits w 14 2) (bits w 13 1) (bits w 0 9))
  | 1 => some (.rst (vD w) (vA w) (bits w 24 4) (bits w 20 4) (bits w 16 4) (bits w 14 2) (bits w 0 9))
  | 2 => some (.ramo (vD w) (vA w) (vB w) (bits w 24 4) (bits w 20 4) (bits w 16 4) (bits w 14 2) (bits w 13 1) (bits w 9 4) (bits w 0 9))
  | _ => none

/-- The instruction of a word of MAJ 0x81 by its FN. -/
def build81 (fn w : Nat) : Option Instr :=
  match fn with
  | 0 => some (.ovld (vD w) (vA w) (bits w 24 4) (bits w 20 4) (bits w 16 4) (bits w 12 4) (bits w 9 3) (bits w 3 6))
  | 1 => some (.ovst (vD w) (vA w) (bits w 24 4) (bits w 20 4) (bits w 16 4) (bits w 12 4) (bits w 9 3) (bits w 3 6))
  | 2 => some (.grpstat (vD w) (vA w) (bits w 24 4) (bits w 20 4) (bits w 16 4) (bits w 12 4) (bits w 9 3) (bits w 3 6))
  | _ => none

/-- The instruction of a word of MAJ 0x82 by its FN. -/
def build82 (fn w : Nat) : Option Instr :=
  match fn with
  | 0 => some (.barr (vD w) (vA w) (vB w) (bits w 24 4) (bits w 20 4) (bits w 16 4))
  | 1 => some (.barx (vA w) (vB w) (bits w 24 4) (bits w 20 4) (bits w 16 4))
  | 2 => some (.barw (vD w) (vA w) (vB w) (bits w 24 4) (bits w 20 4) (bits w 16 4))
  | _ => none

/-- The instruction of a word of MAJ 0x90 by its FN. -/
def build90 (fn w : Nat) : Option Instr :=
  match fn with
  | 0 => some (.mclaim (vD w) (bits w 24 4) (bits w 20 4) (bits w 16 4) (bits w 6 1) (bits w 0 6))
  | 1 => some (.mrel (vD w) (bits w 24 4) (bits w 20 4) (bits w 16 4) (bits w 0 6))
  | 2 => if bits w 10 1 = 1 then some (.mldScl (vD w) (vA w) (bits w 24 4) (bits w 20 4) (bits w 16 4) (bits w 11 5)) else some (.mld (vD w) (vA w) (vB w) (bits w 24 4) (bits w 20 4) (bits w 16 4) (bits w 11 5))
  | 3 => some (.mldw (vD w) (vA w) (vB w) (bits w 24 4) (bits w 20 4) (bits w 16 4) (bits w 12 4) (bits w 7 5))
  | 4 => some (.mgath (vD w) (vA w) (vB w) (bits w 24 4) (bits w 20 4) (bits w 16 4) (bits w 12 4) (bits w 7 5))
  | 5 => some (.mtr (vD w) (vA w) (bits w 24 4) (bits w 20 4) (bits w 16 4) (bits w 12 4))
  | 6 => some (.mzero (vD w) (bits w 24 4) (bits w 20 4) (bits w 16 4) (bits w 14 2) (bits w 8 6) (bits w 4 4) (bits w 2 2))
  | 7 => some (.mma (vD w) (vA w) (vB w) (bits w 24 4) (bits w 20 4) (bits w 16 4) (bits w 14 2) (bits w 8 6) (bits w 4 4) (bits w 2 2) (bits w 1 1) (bits w 0 1))
  | 8 => some (.mmag (vD w) (vA w) (vB w) (bits w 24 4) (bits w 20 4) (bits w 16 4) (bits w 12 4) (bits w 6 6) (bits w 2 4) (bits w 1 1) (bits w 0 1))
  | 9 => some (.mdrain (vD w) (vA w) (bits w 24 4) (bits w 20 4) (bits w 16 4) (bits w 14 2) (bits w 8 6) (bits w 2 2) (bits w 1 1))
  | 10 => some (.mwait)
  | 11 => some (.mstat (vD w) (bits w 0 4))
  | _ => none

/-- The instruction of a word of MAJ 0xA0 by its FN. -/
def buildA0 (fn w : Nat) : Option Instr :=
  match fn with
  | 0 => some (.sbind (vA w) (bits w 24 4) (bits w 20 4) (bits w 16 4) (bits w 8 8))
  | 1 => some (.scopy (vA w) (vB w) (bits w 24 4) (bits w 20 4) (bits w 16 4) (bits w 8 8))
  | 2 => some (.sfetch (vD w) (vA w) (vB w) (bits w 24 4) (bits w 20 4) (bits w 16 4) (bits w 8 8))
  | 3 => some (.sput (vA w) (vB w) (bits w 24 4) (bits w 20 4) (bits w 16 4) (bits w 8 8))
  | 4 => some (.cwait (vD w) (vA w) (vB w) (bits w 24 4) (bits w 20 4) (bits w 16 4))
  | 5 => some (.sresume (bits w 8 8))
  | 6 => some (.sstat (vD w) (bits w 8 8) (bits w 0 8))
  | _ => none

/-- The instruction of a word of MAJ 0xB0 by its FN. -/
def buildB0 (fn w : Nat) : Option Instr :=
  match fn with
  | 0 => some (.etch (vD w) (vA w) (vB w) (bits w 24 4) (bits w 20 4))
  | 1 => some (.pull (vD w) (vA w) (vB w) (bits w 24 4) (bits w 20 4))
  | 2 => if bits w 0 1 = 1 then some (.drainFlush (vD w) (vA w) (vB w) (bits w 24 4) (bits w 20 4)) else some (.drain (vD w) (vA w) (vB w) (bits w 24 4) (bits w 20 4))
  | 3 => some (.qstat (vD w) (vA w) (bits w 24 4) (bits w 20 4) (bits w 0 6))
  | 4 => some (.palloc (vD w) (vA w) (bits w 24 4) (bits w 20 4))
  | 5 => some (.pmove (vD w) (vA w) (vB w) (bits w 24 4) (bits w 20 4))
  | 6 => some (.pfree (vD w) (vA w) (bits w 24 4) (bits w 20 4))
  | _ => none

/-- The instruction of a word of MAJ 0xB8 by its FN. -/
def buildB8 (fn w : Nat) : Option Instr :=
  match fn with
  | 0 => some (.xld (vD w) (vA w) (vB w) (bits w 24 4) (bits w 20 4) (bits w 16 4) (bits w 14 2) (bits w 13 1))
  | 1 => some (.xst (vD w) (vA w) (vB w) (bits w 24 4) (bits w 20 4) (bits w 16 4) (bits w 14 2))
  | 2 => some (.xamo (vD w) (vA w) (vB w) (bits w 24 4) (bits w 20 4) (bits w 16 4) (bits w 14 2) (bits w 13 1) (bits w 9 4) (bits w 3 6))
  | 3 => some (.edst (vD w) (vA w) (vB w) (bits w 24 4) (bits w 20 4) (bits w 16 4) (bits w 10 6) (bits w 3 6))
  | 4 => some (.edwait (vD w) (vA w) (vB w) (bits w 24 4) (bits w 20 4) (bits w 16 4))
  | 5 => some (.xovld (vD w) (vA w) (vB w) (bits w 24 4) (bits w 20 4) (bits w 16 4) (bits w 12 4) (bits w 9 3) (bits w 3 6))
  | 6 => some (.rkreg (vD w) (vA w) (bits w 24 4) (bits w 20 4) (bits w 16 4))
  | 7 => some (.rkrev (vD w) (vA w) (bits w 24 4) (bits w 20 4) (bits w 16 4))
  | 8 => some (.xfence (vA w) (bits w 24 4) (bits w 20 4) (bits w 16 4))
  | _ => none

/-- The instruction of a word of MAJ 0xC0 by its FN. -/
noncomputable def buildC0 (fn w : Nat) : Option Instr :=
  match fn with
  | 0 => some (.qpop (vD w) (vA w) (vB w) (bits w 24 4) (bits w 20 4))
  | 1 => some (.qdone (vD w) (vA w) (vB w) (bits w 24 4) (bits w 20 4))
  | 2 => some (.launch (vD w) (vA w) (vB w) (bits w 24 4) (bits w 20 4))
  | 3 => some (.cancel (vD w) (vA w) (bits w 24 4) (bits w 20 4))
  | 4 => if bits w 0 1 = 1 then some (.preemptResume (vD w) (vA w) (bits w 24 4) (bits w 20 4)) else some (.preempt (vD w) (vA w) (bits w 24 4) (bits w 20 4))
  | 5 => some (.ctxsave (vD w) (vA w) (vB w) (bits w 24 4) (bits w 20 4))
  | 6 => some (.ctxrest (vD w) (vA w) (bits w 24 4) (bits w 20 4))
  | 7 => some (.fwload (vD w) (vA w) (vB w) (bits w 24 4) (bits w 20 4) (bits w 0 1))
  | 8 => some (.fwverify (vD w) (bits w 24 4) (bits w 20 4) (bits w 0 1))
  | 9 => some (.fwmeasure (vD w) (bits w 24 4) (bits w 20 4) (bits w 0 1))
  | 10 => some (.fwswitch (vD w) (vA w) (bits w 24 4) (bits w 20 4) (bits w 0 1))
  | 11 => some (.hbeat (vD w) (vA w) (bits w 24 4) (bits w 20 4))
  | _ => none

/-- The instruction a word names, its fields read (R137). Not compiled: Lean's runtime gives no object to a constructor past the 245th. -/
noncomputable def buildInstr (w : Nat) : Option Instr :=
  match bits w 56 8 with
  | 0x01 => build01 (bits w 46 6) w
  | 0x02 => build02 (bits w 46 6) w
  | 0x03 => build03 (bits w 46 6) w
  | 0x04 => build04 (bits w 46 6) w
  | 0x05 => build05 (bits w 46 6) w
  | 0x10 => build10 (bits w 46 6) w
  | 0x18 => build18 (bits w 46 6) w
  | 0x19 => build19 (bits w 46 6) w
  | 0x1A => build1A (bits w 46 6) w
  | 0x20 => build20 (bits w 46 6) w
  | 0x28 => build28 (bits w 46 6) w
  | 0x29 => build29 (bits w 46 6) w
  | 0x30 => build30 (bits w 46 6) w
  | 0x34 => build34 (bits w 46 6) w
  | 0x38 => build38 (bits w 46 6) w
  | 0x40 => build40 (bits w 46 6) w
  | 0x41 => build41 (bits w 46 6) w
  | 0x42 => build42 (bits w 46 6) w
  | 0x43 => build43 (bits w 46 6) w
  | 0x44 => build44 (bits w 46 6) w
  | 0x45 => build45 (bits w 46 6) w
  | 0x46 => build46 (bits w 46 6) w
  | 0x47 => build47 (bits w 46 6) w
  | 0x48 => build48 (bits w 46 6) w
  | 0x49 => build49 (bits w 46 6) w
  | 0x4A => build4A (bits w 46 6) w
  | 0x70 => build70 (bits w 46 6) w
  | 0x80 => build80 (bits w 46 6) w
  | 0x81 => build81 (bits w 46 6) w
  | 0x82 => build82 (bits w 46 6) w
  | 0x90 => build90 (bits w 46 6) w
  | 0xA0 => buildA0 (bits w 46 6) w
  | 0xB0 => buildB0 (bits w 46 6) w
  | 0xB8 => buildB8 (bits w 46 6) w
  | 0xC0 => buildC0 (bits w 46 6) w
  | _ => none

/-- The row of the opcode map for a word. -/
def findOp (w : Nat) : Option OpSpec :=
  (opsOf (bits w 56 8)).find? (fun r => r.fn == bits w 46 6 && (match r.form with | Option.none => true | some b => bits w b 1 == r.formVal))

/-- MAJ of the repeat prefix (R148). -/
def majRpt : Nat := 0xE0

/-- The mask of the bits a list of fields covers. -/
def fieldMask : List Field → Nat
  | [] => 0
  | f :: fs => Nat.lor ((2 ^ f.width - 1) * 2 ^ f.lo) (fieldMask fs)

/-- R138 with R124 and R390: the bits below FN that the instruction uses. Field A of the fences and of `xfence` is used only under the
scopes that name an object. -/
def OpSpec.usedMask (r : OpSpec) (w : Nat) : Nat :=
  let m := Nat.lor (fieldMask r.fields) (match r.form with | Option.none => 0 | some b => 2 ^ b)
  let sc := bits w 16 4
  let noA := (r.maj == 0x34 && decide (r.fn ≤ 2) && !(sc == 6 || sc == 8 || sc == 9)) || (r.maj == 0xB8 && r.fn == 8 && sc != 8)
  if noA then m - Nat.land m (63 * 2 ^ 34) else m

/-- The lowest one bit among bits 0 to n − 1 of x. -/
def lowBit (x : Nat) : Nat → Option Nat
  | 0 => none
  | n + 1 => match lowBit x n with
    | some b => some b
    | none => if x.testBit n then some n else none

/-- Check 7 of R146: the lowest bit below FN set in no used field. -/
def OpSpec.strayBit (r : OpSpec) (w : Nat) : Option Nat :=
  lowBit (Nat.land (bits w 0 46) (2 ^ 46 - 1 - r.usedMask w)) 46

/-- Check 8, kinds (R139): the low bit of the first field outside its kind, in the order D, A, B, C (DESIGN CHOICE, assumption 106: R147 says
"the offending field" and gives no order of several). -/
def badKind (w : Nat) : List Field → Option Nat
  | [] => none
  | f :: fs => if f.kind.ok (bits w f.lo f.width) then badKind w fs else some f.lo

/-- Check 8, limits, in the chapters' order: whether the limit fails, the bit TRAPINFO3 names, and the register fields it reads. -/
def Limit.checks (l : Limit) (w : Nat) : List (Bool × Nat × List Nat) :=
  let imm34 := bits w 0 34
  let imm22 := bits w 0 22
  let imm12 := bits w 0 12
  let port := bits w 12 4
  let sz11 := bits w 10 2
  let mc := bits w 14 2
  let nc := bits w 8 6
  let row := bits w 2 2
  let tyV := bits w 18 4
  match l with
  | .none => []
  | .bitField => [(bits w 6 7 == 0 || decide (64 < bits w 6 7), 6, []), (decide (64 < bits w 0 6 + bits w 6 7), 0, [])]
  | .immMax n => [(decide (n < imm34), 0, [])]
  | .immMax22 n => [(decide (n < imm22), 0, [])]
  | .odNonzero => [(vD w == 0, 40, [])]
  | .owNonzero => [(bits w 24 4 == 0, 24, [])]
  | .omNonzero => [(bits w 20 4 == 0, 20, [])]
  | .trapCode => [(imm22 == 0 || decide (31 < imm22), 0, [])]
  | .rel => [(decide (5 < bits w 0 3), 0, [])]
  | .mmov => match bits w 0 2 with
    | 0 => [(!Kind.m.ok (vD w), 40, [40]), (!Kind.m.ok (vA w), 34, [34])]
    | 1 => [(!Kind.m.ok (vD w), 40, [40]), (!Kind.v.ok (vA w), 34, [34])]
    | 2 => [(!Kind.v.ok (vD w), 40, [40]), (!Kind.m.ok (vA w), 34, [34])]
    | _ => [(true, 0, [])]
  | .vbcast => [((decide (tyV ≤ 13) || decide (vA w < 32)) && !vbcastIndexOk (vA w) tyV imm12, 0, [34])]
  | .vslide => [(decide (tyV ≤ 13) && decide (elems tyV < imm12), 0, [])]
  | .scanOp => [(bits w 0 2 == 3, 0, [])]
  | .portIn => [(decide (7 < port), 12, [])]
  | .portIn0 => [(decide (7 < port), 0, [])]
  | .portInVec => [(decide (7 < port) || sz11 == 3, 12, [])]
  | .portOut => [(decide (port < 8), 12, [])]
  | .portZero => [(port != 0, 12, [])]
  | .portOutSt => [(decide (port < 8) || (decide (32 ≤ vD w) && sz11 == 3), 12, [40])]
  | .sxSize => [(bits w 13 1 == 1 && mc == 3, 0, [])]
  | .amoSize => [((bits w 13 1 == 1 && mc == 3) || decide (mc < 2) || decide (9 < bits w 9 4), 0, [])]
  | .ovld => [(decide (5 < bits w 9 3) || decide (ovldMaxCnt port < bits w 3 6), 0, [])]
  | .ovst => [(bits w 9 3 != 0 || (decide (vD w < 32) && decide (1 < bits w 3 6)), 0, [])]
  | .grpstat => [(bits w 9 3 != 0 || decide (32 < bits w 3 6), 0, [])]
  | .slotRange => [(decide (64 ≤ vD w + bits w 0 6), 0, [40])]
  | .mtr => let c := mtrSlots port
    [(decide (64 < vD w + c) || decide (64 < vA w + c), 0, [40, 34]),
     (c != 0 && !(decide (vD w + c ≤ vA w) || decide (vA w + c ≤ vD w)), 0, [40, 34])]
  | .shape => [(mc == 3, 0, []), (decide (64 < 16 * row + shapeRows mc), 0, []), (decide (1024 < 16 * vD w + shapeCols nc), 0, [40])]
  | .mma => [(mc == 3, 0, []), (decide (64 < 16 * row + shapeRows mc), 0, []), (decide (1024 < 16 * vD w + shapeCols nc), 0, [40]),
     (decide (64 < vA w + aSlots (shapeRows mc)), 0, [34]), (decide (64 < vB w + bSlots (shapeCols nc)), 0, [28])]
  | .mmag => [(decide (1024 < 16 * vD w + shapeCols (bits w 6 6)), 0, [40]), (decide (64 < vA w + 2), 0, [34]),
     (decide (64 < vB w + bSlots (shapeCols (bits w 6 6))), 0, [28])]
  | .mstatSel => [(decide (11 < bits w 0 4), 0, [])]
  | .sstatSel => [(decide (3 < bits w 0 8), 0, [])]
  | .qstatSel => [(decide (34 < bits w 0 6), 0, [])]
  | .edst => [(decide (vD w < 32) && decide (1 < bits w 3 6), 3, [40])]

/-- Check 9 of R146. -/
def TypeCheck.bad (t : TypeCheck) (w : Nat) : Option Nat :=
  match t with
  | .none => Option.none
  | .at lo ok => if ok.contains (bits w lo 4) then Option.none else some lo
  | .cvt fn => if cvtTdOk fn (bits w 18 4) then (if cvtPairOk fn (bits w 18 4) (bits w 0 4) then Option.none else some 0) else some 18
  | .ovld => if (ovldTypes (bits w 9 3)).contains (bits w 12 4) then Option.none else some 12

/-- Check 10 of R146, rounding. -/
def RoundCheck.bad (t : RoundCheck) (w : Nat) : Bool :=
  match t with
  | .none => false
  | .list ok => !ok.contains (bits w 12 3)
  | .cvt => !(cvtRounds (bits w 18 4) (bits w 0 4)).contains (bits w 12 3)
  | .fscan => !(fscanRounds (bits w 0 2)).contains (bits w 12 3)

/-- The kind of core a check is made for (R145). -/
inductive CoreKind where
  | firing | control
deriving DecidableEq, Repr

/-- The first failing limit of check 8. -/
def OpSpec.badLimit (r : OpSpec) (w : Nat) : Option Nat :=
  ((r.limit.checks w).find? (fun c => c.1)).map (fun c => c.2.1)

/-- Checks 7 to 10 of R146 on a word that has a row: reason and bit of R147. -/
def OpSpec.fault (r : OpSpec) (w : Nat) : Option (Nat × Nat) :=
  match r.strayBit w with
  | some b => some (4, b)
  | none => match badKind w r.fields with
    | some b => some (6, b)
    | none => match r.badLimit w with
      | some b => some (6, b)
      | none => match r.types.bad w with
        | some b => some (7, b)
        | none => if r.rounds.bad w then some (8, 12) else
          match r.scopes with
          | some ok => if ok.contains (bits w 16 4) then none else some (9, 16)
          | none => none

/-- Checks 2, 3 and 4 of R146: the word names no instruction. -/
def opcodeFault (w : Nat) : Option (Nat × Nat) :=
  let maj := bits w 56 8
  if maj = 0 then some (1, 0)
  else if 0xD0 ≤ maj ∧ maj ≤ 0xDF then some (12, 0)
  else if maj = majRpt then none
  else if (opsOf maj).isEmpty then some (2, 0)
  else if (findOp w).isNone then some (3, 0)
  else none

/-- Check 5 of R146: the core has no engine for the instruction (R145). -/
def kindFault (k : CoreKind) (w : Nat) : Option (Nat × Nat) :=
  match k, findOp w with
  | .control, some r => if r.cores = .firing then some (13, 0) else none
  | _, _ => none

/-- Checks 6 and 7 of R146 on an `rpt` word. -/
def prefixFault (w : Nat) : Option (Nat × Nat) :=
  if bits w 52 4 ≠ 0 then some (5, 0)
  else (lowBit (bits w 0 38) 38).map (fun b => (4, b))

/-- Checks 2 to 10 of R146 for a core kind: the reason and bit of the first that fails. -/
def wordFault (k : CoreKind) (w : Nat) : Option (Nat × Nat) :=
  match opcodeFault w with
  | some f => some f
  | none => match kindFault k w with
    | some f => some f
    | none => if bits w 56 8 = majRpt then prefixFault w else
      match findOp w with
      | some r => r.fault w
      | none => some (3, 0)

/-- Check 13 of R146 (R145): TRAPINFO1 of PRIV. -/
def privFault (k : CoreKind) (levelM : Bool) (w : Nat) : Option Nat :=
  match findOp w with
  | some r => match k, r.cores with
    | .firing, .control => some 1
    | .firing, .levelM => some 1
    | .control, .levelM => if levelM then none else some 2
    | _, _ => none
  | none => none

/-- The repeat prefix as an instruction (R148). -/
noncomputable def rptOf (w : Nat) : Instr := .rpt (bits w 46 6) (bits w 44 2) (bits w 42 2) (bits w 40 2) (bits w 38 2)

/-- The decoder, whatever the core: the instruction of a word that passes checks 2 to 4 and 6 to 10. -/
noncomputable def decode (w : Nat) : Option Instr :=
  if (opcodeFault w).isSome then none
  else if bits w 56 8 = majRpt then (if (prefixFault w).isSome then none else some (rptOf w))
  else match findOp w with
    | some r => if (r.fault w).isSome then none else buildInstr w
    | none => none

/-- The guard of a word (R136): sense and predicate. -/
structure Guard where
  neg : Bool
  pred : Nat
deriving DecidableEq, Repr

def guardOf (w : Nat) : Guard := ⟨bits w 55 1 == 1, bits w 52 3⟩

/-- R149: the word of repeat j, its register fields stepped by the prefix. -/
def stepWord (pw iw j : Nat) : Nat :=
  let f (lo st : Nat) : Nat := (bits iw lo 6 + j * bits pw st 2) % 64 * 2 ^ lo
  bits iw 46 18 * 2 ^ 46 + f 40 44 + f 34 42 + f 28 40 +
    (if bits pw 38 2 = 0 then bits iw 22 6 * 2 ^ 22 else f 22 38) + bits iw 0 22

/-- The step field of the prefix for the register field at a low bit (R148). -/
def stepBit (lo : Nat) : Nat := if lo = 40 then 44 else if lo = 34 then 42 else if lo = 28 then 40 else 38

/-- R150: the register field at `lo` leaves its kind in repeat j (an S/V field stays in the half that repeat 0 names). -/
def stepLeaves (pw iw j : Nat) (f : Field) : Bool :=
  let v0 := bits iw f.lo f.width
  let v := v0 + j * bits pw (stepBit f.lo) 2
  match f.kind with
  | .none => false
  | .sv => decide (64 ≤ v) || decide (v0 < 32 ∧ 32 ≤ v)
  | k => !k.ok v

/-- R150, R147: the register fields an instruction uses, `mmov`'s two included. -/
def OpSpec.regFields (r : OpSpec) : List Nat :=
  if r.limit = .mmov then [40, 34] else
    (r.fields.filter (fun f => f.kind ≠ .none ∧ (f.lo = 40 ∨ f.lo = 34 ∨ f.lo = 28 ∨ f.lo = 22) ∧ f.width = 6)).map Field.lo

/-- The first failure of repeat j: the step field TRAPINFO3 names. -/
def repeatFails (r : OpSpec) (pw iw j : Nat) : Option Nat :=
  match ([40, 34, 28, 22] : List Nat).find? (fun lo => r.fields.any (fun f => f.lo == lo && f.width == 6 && stepLeaves pw iw j f)) with
  | some lo => some (stepBit lo)
  | none =>
    match (r.limit.checks (stepWord pw iw j)).find? (fun c => c.1) with
    | some c => match ([40, 34, 28, 22] : List Nat).find? (fun lo => c.2.2.contains lo && bits pw (stepBit lo) 2 != 0) with
      | some lo => some (stepBit lo)
      | none => some 44
    | none => none

/-- The least failing repeat from j on. -/
def firstRepeatFail (r : OpSpec) (pw iw : Nat) : Nat → Nat → Option Nat
  | 0, _ => none
  | k + 1, j => match repeatFails r pw iw j with
    | some b => some b
    | none => firstRepeatFail r pw iw k (j + 1)

/-- Check 12 of R146 (R150): the bit of reason 10. -/
def stepFault (pw iw : Nat) : Option Nat :=
  match findOp iw with
  | none => none
  | some r =>
    match ([40, 34, 28, 22] : List Nat).find? (fun lo => bits pw (stepBit lo) 2 != 0 && !r.regFields.contains lo) with
    | some lo => some (stepBit lo)
    | none => firstRepeatFail r pw iw (bits pw 46 6 + 1) 0

/-- Check 11 of R146: the word may be repeated (R143); an `rpt` may not. -/
def mayRepeat (w : Nat) : Bool :=
  match findOp w with
  | some r => r.rep
  | none => false

/-- The instruction a word stands for when nbits of it are given, numbered from bit 0 of the first byte; the rest of the word is zero. -/
noncomputable def decodeTableWord (_nbits w : Nat) : Option Instr := decode (w % 2 ^ 64)

/-- The sum of the fields, each at its low bit. -/
def packFields : List (Nat × Nat) → Nat
  | [] => 0
  | (v, lo) :: fs => v * 2 ^ lo + packFields fs

/-- A word of MAJ, FN and fields, its guard zero (R137). -/
def pack (maj fn : Nat) (fs : List (Nat × Nat)) : Nat := maj * 2 ^ 56 + fn * 2 ^ 46 + packFields fs

/-- The word of an instruction without its guard, from the field tables of its chapter; an event has none. -/
def Instr.word : Instr → Option Nat
  | .nop => some (pack 0x01 0 [])
  | .add d a b => some (pack 0x02 0 [(d, 40), (a, 34), (b, 28)])
  | .sub d a b => some (pack 0x02 1 [(d, 40), (a, 34), (b, 28)])
  | .mul d a b => some (pack 0x02 2 [(d, 40), (a, 34), (b, 28)])
  | .mulh d a b => some (pack 0x02 3 [(d, 40), (a, 34), (b, 28)])
  | .mulhn d a b => some (pack 0x02 4 [(d, 40), (a, 34), (b, 28)])
  | .div d a b => some (pack 0x02 5 [(d, 40), (a, 34), (b, 28)])
  | .divn d a b => some (pack 0x02 6 [(d, 40), (a, 34), (b, 28)])
  | .rem d a b => some (pack 0x02 7 [(d, 40), (a, 34), (b, 28)])
  | .remn d a b => some (pack 0x02 8 [(d, 40), (a, 34), (b, 28)])
  | .madd d a b c => some (pack 0x02 9 [(d, 40), (a, 34), (b, 28), (c, 22)])
  | .msub d a b c => some (pack 0x02 10 [(d, 40), (a, 34), (b, 28), (c, 22)])
  | .min d a b => some (pack 0x02 11 [(d, 40), (a, 34), (b, 28)])
  | .max d a b => some (pack 0x02 12 [(d, 40), (a, 34), (b, 28)])
  | .minn d a b => some (pack 0x02 13 [(d, 40), (a, 34), (b, 28)])
  | .maxn d a b => some (pack 0x02 14 [(d, 40), (a, 34), (b, 28)])
  | .abs d a => some (pack 0x02 15 [(d, 40), (a, 34)])
  | .and d a b => some (pack 0x03 0 [(d, 40), (a, 34), (b, 28)])
  | .or d a b => some (pack 0x03 1 [(d, 40), (a, 34), (b, 28)])
  | .xor d a b => some (pack 0x03 2 [(d, 40), (a, 34), (b, 28)])
  | .andn d a b => some (pack 0x03 3 [(d, 40), (a, 34), (b, 28)])
  | .orn d a b => some (pack 0x03 4 [(d, 40), (a, 34), (b, 28)])
  | .xnor d a b => some (pack 0x03 5 [(d, 40), (a, 34), (b, 28)])
  | .sll d a b => some (pack 0x03 6 [(d, 40), (a, 34), (b, 28)])
  | .srl d a b => some (pack 0x03 7 [(d, 40), (a, 34), (b, 28)])
  | .sra d a b => some (pack 0x03 8 [(d, 40), (a, 34), (b, 28)])
  | .rol d a b => some (pack 0x03 9 [(d, 40), (a, 34), (b, 28)])
  | .ror d a b => some (pack 0x03 10 [(d, 40), (a, 34), (b, 28)])
  | .sel d a b c => some (pack 0x03 11 [(d, 40), (a, 34), (b, 28), (c, 22)])
  | .clz d a => some (pack 0x04 0 [(d, 40), (a, 34)])
  | .ctz d a => some (pack 0x04 1 [(d, 40), (a, 34)])
  | .popc d a => some (pack 0x04 2 [(d, 40), (a, 34)])
  | .bswap d a => some (pack 0x04 3 [(d, 40), (a, 34)])
  | .bext d a b => some (pack 0x04 4 [(d, 40), (a, 34), (b, 28)])
  | .bdep d a b => some (pack 0x04 5 [(d, 40), (a, 34), (b, 28)])
  | .bfx d a pos len => some (pack 0x04 6 [(d, 40), (a, 34), (pos, 0), (len, 6)])
  | .bfxn d a pos len => some (pack 0x04 7 [(d, 40), (a, 34), (pos, 0), (len, 6)])
  | .bfi d a pos len => some (pack 0x04 8 [(d, 40), (a, 34), (pos, 0), (len, 6)])
  | .lea d a b off sh => some (pack 0x05 0 [(d, 40), (a, 34), (b, 28), (off, 0), (sh, 19)])
  | .tla d a b off => some (pack 0x05 1 [(d, 40), (a, 34), (b, 28), (off, 0)])
  | .gla d a b off => some (pack 0x05 2 [(d, 40), (a, 34), (b, 28), (off, 0)])
  | .addi d a imm => some (pack 0x10 0 [(d, 40), (a, 34), (imm, 0)])
  | .muli d a imm => some (pack 0x10 1 [(d, 40), (a, 34), (imm, 0)])
  | .andi d a imm => some (pack 0x10 2 [(d, 40), (a, 34), (imm, 0)])
  | .ori d a imm => some (pack 0x10 3 [(d, 40), (a, 34), (imm, 0)])
  | .xori d a imm => some (pack 0x10 4 [(d, 40), (a, 34), (imm, 0)])
  | .slli d a imm => some (pack 0x10 5 [(d, 40), (a, 34), (imm, 0)])
  | .srli d a imm => some (pack 0x10 6 [(d, 40), (a, 34), (imm, 0)])
  | .srai d a imm => some (pack 0x10 7 [(d, 40), (a, 34), (imm, 0)])
  | .li d imm => some (pack 0x10 8 [(d, 40), (imm, 0)])
  | .lih d a imm => some (pack 0x10 9 [(d, 40), (a, 34), (imm, 0)])
  | .ceq d a b => some (pack 0x18 0 [(d, 40), (a, 34), (b, 28)])
  | .cne d a b => some (pack 0x18 1 [(d, 40), (a, 34), (b, 28)])
  | .clt d a b => some (pack 0x18 2 [(d, 40), (a, 34), (b, 28)])
  | .cle d a b => some (pack 0x18 3 [(d, 40), (a, 34), (b, 28)])
  | .cltn d a b => some (pack 0x18 4 [(d, 40), (a, 34), (b, 28)])
  | .clen d a b => some (pack 0x18 5 [(d, 40), (a, 34), (b, 28)])
  | .ceqi d a imm => some (pack 0x19 0 [(d, 40), (a, 34), (imm, 0)])
  | .cnei d a imm => some (pack 0x19 1 [(d, 40), (a, 34), (imm, 0)])
  | .clti d a imm => some (pack 0x19 2 [(d, 40), (a, 34), (imm, 0)])
  | .clei d a imm => some (pack 0x19 3 [(d, 40), (a, 34), (imm, 0)])
  | .cltni d a imm => some (pack 0x19 4 [(d, 40), (a, 34), (imm, 0)])
  | .cleni d a imm => some (pack 0x19 5 [(d, 40), (a, 34), (imm, 0)])
  | .pand d a b => some (pack 0x1A 0 [(d, 40), (a, 34), (b, 28)])
  | .por d a b => some (pack 0x1A 1 [(d, 40), (a, 34), (b, 28)])
  | .pxor d a b => some (pack 0x1A 2 [(d, 40), (a, 34), (b, 28)])
  | .pandn d a b => some (pack 0x1A 3 [(d, 40), (a, 34), (b, 28)])
  | .pmov d a => some (pack 0x1A 4 [(d, 40), (a, 34)])
  | .pset d imm => some (pack 0x1A 5 [(d, 40), (imm, 0)])
  | .br imm => some (pack 0x20 0 [(imm, 0)])
  | .brl d imm => some (pack 0x20 1 [(d, 40), (imm, 0)])
  | .jr a imm => some (pack 0x20 2 [(a, 34), (imm, 0)])
  | .jrl d a imm => some (pack 0x20 3 [(d, 40), (a, 34), (imm, 0)])
  | .ldb d a ow om sc imm => some (pack 0x28 0 [(d, 40), (a, 34), (ow, 24), (om, 20), (sc, 16), (imm, 0)])
  | .ldbn d a ow om sc imm => some (pack 0x28 1 [(d, 40), (a, 34), (ow, 24), (om, 20), (sc, 16), (imm, 0)])
  | .ldh d a ow om sc imm => some (pack 0x28 2 [(d, 40), (a, 34), (ow, 24), (om, 20), (sc, 16), (imm, 0)])
  | .ldhn d a ow om sc imm => some (pack 0x28 3 [(d, 40), (a, 34), (ow, 24), (om, 20), (sc, 16), (imm, 0)])
  | .ldw d a ow om sc imm => some (pack 0x28 4 [(d, 40), (a, 34), (ow, 24), (om, 20), (sc, 16), (imm, 0)])
  | .ldwn d a ow om sc imm => some (pack 0x28 5 [(d, 40), (a, 34), (ow, 24), (om, 20), (sc, 16), (imm, 0)])
  | .ldd d a ow om sc imm => some (pack 0x28 6 [(d, 40), (a, 34), (ow, 24), (om, 20), (sc, 16), (imm, 0)])
  | .stb d a ow om sc imm => some (pack 0x29 0 [(d, 40), (a, 34), (ow, 24), (om, 20), (sc, 16), (imm, 0)])
  | .sth d a ow om sc imm => some (pack 0x29 1 [(d, 40), (a, 34), (ow, 24), (om, 20), (sc, 16), (imm, 0)])
  | .stw d a ow om sc imm => some (pack 0x29 2 [(d, 40), (a, 34), (ow, 24), (om, 20), (sc, 16), (imm, 0)])
  | .std d a ow om sc imm => some (pack 0x29 3 [(d, 40), (a, 34), (ow, 24), (om, 20), (sc, 16), (imm, 0)])
  | .aadd d a b ow om sc imm => some (pack 0x30 0 [(d, 40), (a, 34), (b, 28), (ow, 24), (om, 20), (sc, 16), (imm, 0)])
  | .aand d a b ow om sc imm => some (pack 0x30 1 [(d, 40), (a, 34), (b, 28), (ow, 24), (om, 20), (sc, 16), (imm, 0)])
  | .aor d a b ow om sc imm => some (pack 0x30 2 [(d, 40), (a, 34), (b, 28), (ow, 24), (om, 20), (sc, 16), (imm, 0)])
  | .axor d a b ow om sc imm => some (pack 0x30 3 [(d, 40), (a, 34), (b, 28), (ow, 24), (om, 20), (sc, 16), (imm, 0)])
  | .amin d a b ow om sc imm => some (pack 0x30 4 [(d, 40), (a, 34), (b, 28), (ow, 24), (om, 20), (sc, 16), (imm, 0)])
  | .amax d a b ow om sc imm => some (pack 0x30 5 [(d, 40), (a, 34), (b, 28), (ow, 24), (om, 20), (sc, 16), (imm, 0)])
  | .aminn d a b ow om sc imm => some (pack 0x30 6 [(d, 40), (a, 34), (b, 28), (ow, 24), (om, 20), (sc, 16), (imm, 0)])
  | .amaxn d a b ow om sc imm => some (pack 0x30 7 [(d, 40), (a, 34), (b, 28), (ow, 24), (om, 20), (sc, 16), (imm, 0)])
  | .aswap d a b ow om sc imm => some (pack 0x30 8 [(d, 40), (a, 34), (b, 28), (ow, 24), (om, 20), (sc, 16), (imm, 0)])
  | .acas d a b ow om sc imm => some (pack 0x30 9 [(d, 40), (a, 34), (b, 28), (ow, 24), (om, 20), (sc, 16), (imm, 0)])
  | .fenceAcq a sc => some (pack 0x34 0 [(a, 34), (sc, 16)])
  | .fenceRel a sc => some (pack 0x34 1 [(a, 34), (sc, 16)])
  | .fenceFull a sc => some (pack 0x34 2 [(a, 34), (sc, 16)])
  | .ojoin d a b => some (pack 0x34 3 [(d, 40), (a, 34), (b, 28)])
  | .owait ow sc => some (pack 0x34 4 [(ow, 24), (sc, 16)])
  | .oclr om => some (pack 0x34 5 [(om, 20)])
  | .trap a b imm => some (pack 0x38 0 [(a, 34), (b, 28), (imm, 0)])
  | .tret => some (pack 0x38 1 [])
  | .sysr d imm => some (pack 0x38 2 [(d, 40), (imm, 0)])
  | .sysw a imm => some (pack 0x38 3 [(a, 34), (imm, 0)])
  | .sleepc a imm => some (pack 0x38 4 [(a, 34), (imm, 0)])
  | .waittick a imm => some (pack 0x38 5 [(a, 34), (imm, 0)])
  | .brk imm => some (pack 0x38 6 [(imm, 0)])
  | .vadd d a b ty m => some (pack 0x40 0 [(d, 40), (a, 34), (b, 28), (ty, 18), (m, 15)])
  | .vsub d a b ty m => some (pack 0x40 1 [(d, 40), (a, 34), (b, 28), (ty, 18), (m, 15)])
  | .vmul d a b ty m => some (pack 0x40 2 [(d, 40), (a, 34), (b, 28), (ty, 18), (m, 15)])
  | .vmulh d a b ty m => some (pack 0x40 3 [(d, 40), (a, 34), (b, 28), (ty, 18), (m, 15)])
  | .vmin d a b ty m => some (pack 0x40 4 [(d, 40), (a, 34), (b, 28), (ty, 18), (m, 15)])
  | .vmax d a b ty m => some (pack 0x40 5 [(d, 40), (a, 34), (b, 28), (ty, 18), (m, 15)])
  | .vminn d a b ty m => some (pack 0x40 6 [(d, 40), (a, 34), (b, 28), (ty, 18), (m, 15)])
  | .vmaxn d a b ty m => some (pack 0x40 7 [(d, 40), (a, 34), (b, 28), (ty, 18), (m, 15)])
  | .vabs d a ty m => some (pack 0x40 8 [(d, 40), (a, 34), (ty, 18), (m, 15)])
  | .vneg d a ty m => some (pack 0x40 9 [(d, 40), (a, 34), (ty, 18), (m, 15)])
  | .vadds d a b ty m => some (pack 0x40 10 [(d, 40), (a, 34), (b, 28), (ty, 18), (m, 15)])
  | .vsubs d a b ty m => some (pack 0x40 11 [(d, 40), (a, 34), (b, 28), (ty, 18), (m, 15)])
  | .vand d a b m => some (pack 0x41 0 [(d, 40), (a, 34), (b, 28), (m, 15)])
  | .vor d a b m => some (pack 0x41 1 [(d, 40), (a, 34), (b, 28), (m, 15)])
  | .vxor d a b m => some (pack 0x41 2 [(d, 40), (a, 34), (b, 28), (m, 15)])
  | .vandn d a b m => some (pack 0x41 3 [(d, 40), (a, 34), (b, 28), (m, 15)])
  | .vlop4 d a b c thi m tlo => some (pack 0x41 4 [(d, 40), (a, 34), (b, 28), (c, 22), (thi, 18), (m, 15), (tlo, 0)])
  | .vshl d a b ty m => some (pack 0x41 5 [(d, 40), (a, 34), (b, 28), (ty, 18), (m, 15)])
  | .vshr d a b ty m => some (pack 0x41 6 [(d, 40), (a, 34), (b, 28), (ty, 18), (m, 15)])
  | .vsra d a b ty m => some (pack 0x41 7 [(d, 40), (a, 34), (b, 28), (ty, 18), (m, 15)])
  | .vfadd d a b ty m rnd => some (pack 0x42 0 [(d, 40), (a, 34), (b, 28), (ty, 18), (m, 15), (rnd, 12)])
  | .vfsub d a b ty m rnd => some (pack 0x42 1 [(d, 40), (a, 34), (b, 28), (ty, 18), (m, 15), (rnd, 12)])
  | .vfmul d a b ty m rnd => some (pack 0x42 2 [(d, 40), (a, 34), (b, 28), (ty, 18), (m, 15), (rnd, 12)])
  | .vffma d a b c ty m rnd => some (pack 0x42 3 [(d, 40), (a, 34), (b, 28), (c, 22), (ty, 18), (m, 15), (rnd, 12)])
  | .vffms d a b c ty m rnd => some (pack 0x42 4 [(d, 40), (a, 34), (b, 28), (c, 22), (ty, 18), (m, 15), (rnd, 12)])
  | .vffnma d a b c ty m rnd => some (pack 0x42 5 [(d, 40), (a, 34), (b, 28), (c, 22), (ty, 18), (m, 15), (rnd, 12)])
  | .vfmin d a b ty m rnd => some (pack 0x42 6 [(d, 40), (a, 34), (b, 28), (ty, 18), (m, 15), (rnd, 12)])
  | .vfmax d a b ty m rnd => some (pack 0x42 7 [(d, 40), (a, 34), (b, 28), (ty, 18), (m, 15), (rnd, 12)])
  | .vfabs d a ty m rnd => some (pack 0x42 8 [(d, 40), (a, 34), (ty, 18), (m, 15), (rnd, 12)])
  | .vfneg d a ty m rnd => some (pack 0x42 9 [(d, 40), (a, 34), (ty, 18), (m, 15), (rnd, 12)])
  | .vdot2 d a b ty m rnd => some (pack 0x42 10 [(d, 40), (a, 34), (b, 28), (ty, 18), (m, 15), (rnd, 12)])
  | .vfdiv d a b ty m rnd => some (pack 0x43 0 [(d, 40), (a, 34), (b, 28), (ty, 18), (m, 15), (rnd, 12)])
  | .vfsqrt d a ty m rnd => some (pack 0x43 1 [(d, 40), (a, 34), (ty, 18), (m, 15), (rnd, 12)])
  | .vfrcp d a ty m rnd => some (pack 0x43 2 [(d, 40), (a, 34), (ty, 18), (m, 15), (rnd, 12)])
  | .vfrsqrt d a ty m rnd => some (pack 0x43 3 [(d, 40), (a, 34), (ty, 18), (m, 15), (rnd, 12)])
  | .vfexp2 d a ty m rnd => some (pack 0x43 4 [(d, 40), (a, 34), (ty, 18), (m, 15), (rnd, 12)])
  | .vflog2 d a ty m rnd => some (pack 0x43 5 [(d, 40), (a, 34), (ty, 18), (m, 15), (rnd, 12)])
  | .vfclass d a ty m rnd => some (pack 0x43 6 [(d, 40), (a, 34), (ty, 18), (m, 15), (rnd, 12)])
  | .vcvt d a ty m rnd ts => some (pack 0x44 0 [(d, 40), (a, 34), (ty, 18), (m, 15), (rnd, 12), (ts, 0)])
  | .vpack d a b ty m rnd ts => some (pack 0x44 1 [(d, 40), (a, 34), (b, 28), (ty, 18), (m, 15), (rnd, 12), (ts, 0)])
  | .vunpack d a ty m rnd ts h => some (pack 0x44 2 [(d, 40), (a, 34), (ty, 18), (m, 15), (rnd, 12), (ts, 0), (h, 4)])
  | .vscale d a b ty m rnd => some (pack 0x44 3 [(d, 40), (a, 34), (b, 28), (ty, 18), (m, 15), (rnd, 12)])
  | .vcmp d a b ty m rnd rel => some (pack 0x45 0 [(d, 40), (a, 34), (b, 28), (ty, 18), (m, 15), (rnd, 12), (rel, 0)])
  | .vfcmp d a b ty m rnd rel => some (pack 0x45 1 [(d, 40), (a, 34), (b, 28), (ty, 18), (m, 15), (rnd, 12), (rel, 0)])
  | .mand d a b => some (pack 0x46 0 [(d, 40), (a, 34), (b, 28)])
  | .mor d a b => some (pack 0x46 1 [(d, 40), (a, 34), (b, 28)])
  | .mxor d a b => some (pack 0x46 2 [(d, 40), (a, 34), (b, 28)])
  | .mnot d a => some (pack 0x46 3 [(d, 40), (a, 34)])
  | .mpop d a => some (pack 0x46 4 [(d, 40), (a, 34)])
  | .mfirst d a => some (pack 0x46 5 [(d, 40), (a, 34)])
  | .mmov d a sl => some (pack 0x46 6 [(d, 40), (a, 34), (sl, 0)])
  | .vperm d a b ty m => some (pack 0x47 0 [(d, 40), (a, 34), (b, 28), (ty, 18), (m, 15)])
  | .vbcast d a ty m i => some (pack 0x47 1 [(d, 40), (a, 34), (ty, 18), (m, 15), (i, 0)])
  | .vext d a b ty i => some (pack 0x47 2 [(d, 40), (a, 34), (b, 28), (ty, 18), (i, 0)])
  | .vins d a b ty m i => some (pack 0x47 3 [(d, 40), (a, 34), (b, 28), (ty, 18), (m, 15), (i, 0)])
  | .vslide d a b ty m i => some (pack 0x47 4 [(d, 40), (a, 34), (b, 28), (ty, 18), (m, 15), (i, 0)])
  | .vsel d a b ty m => some (pack 0x47 5 [(d, 40), (a, 34), (b, 28), (ty, 18), (m, 15)])
  | .vmov d a ty m => some (pack 0x47 6 [(d, 40), (a, 34), (ty, 18), (m, 15)])
  | .vcompress d a ty m => some (pack 0x47 7 [(d, 40), (a, 34), (ty, 18), (m, 15)])
  | .vredsum d a ty m rnd => some (pack 0x48 0 [(d, 40), (a, 34), (ty, 18), (m, 15), (rnd, 12)])
  | .vredmax d a ty m rnd => some (pack 0x48 1 [(d, 40), (a, 34), (ty, 18), (m, 15), (rnd, 12)])
  | .vredmin d a ty m rnd => some (pack 0x48 2 [(d, 40), (a, 34), (ty, 18), (m, 15), (rnd, 12)])
  | .vfredsum d a ty m rnd => some (pack 0x48 3 [(d, 40), (a, 34), (ty, 18), (m, 15), (rnd, 12)])
  | .vfredmax d a ty m rnd => some (pack 0x48 4 [(d, 40), (a, 34), (ty, 18), (m, 15), (rnd, 12)])
  | .vfredmin d a ty m rnd => some (pack 0x48 5 [(d, 40), (a, 34), (ty, 18), (m, 15), (rnd, 12)])
  | .vscan d a ty m rnd o => some (pack 0x48 6 [(d, 40), (a, 34), (ty, 18), (m, 15), (rnd, 12), (o, 0)])
  | .vfscan d a ty m rnd o => some (pack 0x48 7 [(d, 40), (a, 34), (ty, 18), (m, 15), (rnd, 12), (o, 0)])
  | .vld d a ow om sc ty m imm => some (pack 0x49 0 [(d, 40), (a, 34), (ow, 24), (om, 20), (sc, 16), (ty, 12), (m, 9), (imm, 0)])
  | .vst d a ow om sc ty m imm => some (pack 0x49 1 [(d, 40), (a, 34), (ow, 24), (om, 20), (sc, 16), (ty, 12), (m, 9), (imm, 0)])
  | .vlds d a b ow om sc ty m imm => some (pack 0x49 2 [(d, 40), (a, 34), (b, 28), (ow, 24), (om, 20), (sc, 16), (ty, 12), (m, 9), (imm, 0)])
  | .vsts d a b ow om sc ty m imm => some (pack 0x49 3 [(d, 40), (a, 34), (b, 28), (ow, 24), (om, 20), (sc, 16), (ty, 12), (m, 9), (imm, 0)])
  | .vldx d a b ow om sc ty m imm => some (pack 0x49 4 [(d, 40), (a, 34), (b, 28), (ow, 24), (om, 20), (sc, 16), (ty, 12), (m, 9), (imm, 0)])
  | .vstx d a b ow om sc ty m imm => some (pack 0x49 5 [(d, 40), (a, 34), (b, 28), (ow, 24), (om, 20), (sc, 16), (ty, 12), (m, 9), (imm, 0)])
  | .vldb d a ow om sc ty m imm => some (pack 0x49 6 [(d, 40), (a, 34), (ow, 24), (om, 20), (sc, 16), (ty, 12), (m, 9), (imm, 0)])
  | .vaadd d a b ow om sc ty m imm => some (pack 0x4A 0 [(d, 40), (a, 34), (b, 28), (ow, 24), (om, 20), (sc, 16), (ty, 12), (m, 9), (imm, 0)])
  | .vaor d a b ow om sc ty m imm => some (pack 0x4A 1 [(d, 40), (a, 34), (b, 28), (ow, 24), (om, 20), (sc, 16), (ty, 12), (m, 9), (imm, 0)])
  | .wld d a b ow om sc port sz imm => some (pack 0x70 0 [(d, 40), (a, 34), (b, 28), (ow, 24), (om, 20), (sc, 16), (port, 12), (sz, 10), (imm, 0)])
  | .wlds d a b ow om sc port sz imm => some (pack 0x70 1 [(d, 40), (a, 34), (b, 28), (ow, 24), (om, 20), (sc, 16), (port, 12), (sz, 10), (imm, 0)])
  | .wst d a b ow om sc port sz imm => some (pack 0x70 2 [(d, 40), (a, 34), (b, 28), (ow, 24), (om, 20), (sc, 16), (port, 12), (sz, 10), (imm, 0)])
  | .wsend a ow om sc port => some (pack 0x70 3 [(a, 34), (ow, 24), (om, 20), (sc, 16), (port, 12)])
  | .wavail d port => some (pack 0x70 4 [(d, 40), (port, 12)])
  | .wfree d port => some (pack 0x70 5 [(d, 40), (port, 12)])
  | .wwait a b port => some (pack 0x70 6 [(a, 34), (b, 28), (port, 12)])
  | .wwaito b port => some (pack 0x70 7 [(b, 28), (port, 12)])
  | .weos a => some (pack 0x70 8 [(a, 34)])
  | .wmode d port => some (pack 0x70 9 [(d, 40), (port, 12)])
  | .fend => some (pack 0x70 10 [])
  | .fabort a => some (pack 0x70 11 [(a, 34)])
  | .wovf d port => some (pack 0x70 12 [(d, 40), (port, 12)])
  | .rld d a ow om sc sz sx imm => some (pack 0x80 0 [(d, 40), (a, 34), (ow, 24), (om, 20), (sc, 16), (sz, 14), (sx, 13), (imm, 0)])
  | .rst d a ow om sc sz imm => some (pack 0x80 1 [(d, 40), (a, 34), (ow, 24), (om, 20), (sc, 16), (sz, 14), (imm, 0)])
  | .ramo d a b ow om sc sz sx o imm => some (pack 0x80 2 [(d, 40), (a, 34), (b, 28), (ow, 24), (om, 20), (sc, 16), (sz, 14), (sx, 13), (o, 9), (imm, 0)])
  | .ovld d a ow om sc ty o cnt => some (pack 0x81 0 [(d, 40), (a, 34), (ow, 24), (om, 20), (sc, 16), (ty, 12), (o, 9), (cnt, 3)])
  | .ovst d a ow om sc ty o cnt => some (pack 0x81 1 [(d, 40), (a, 34), (ow, 24), (om, 20), (sc, 16), (ty, 12), (o, 9), (cnt, 3)])
  | .grpstat d a ow om sc ty o cnt => some (pack 0x81 2 [(d, 40), (a, 34), (ow, 24), (om, 20), (sc, 16), (ty, 12), (o, 9), (cnt, 3)])
  | .barr d a b ow om sc => some (pack 0x82 0 [(d, 40), (a, 34), (b, 28), (ow, 24), (om, 20), (sc, 16)])
  | .barx a b ow om sc => some (pack 0x82 1 [(a, 34), (b, 28), (ow, 24), (om, 20), (sc, 16)])
  | .barw d a b ow om sc => some (pack 0x82 2 [(d, 40), (a, 34), (b, 28), (ow, 24), (om, 20), (sc, 16)])
  | .mclaim d ow om sc keep n1 => some (pack 0x90 0 [(d, 40), (ow, 24), (om, 20), (sc, 16), (keep, 6), (n1, 0)])
  | .mrel d ow om sc n1 => some (pack 0x90 1 [(d, 40), (ow, 24), (om, 20), (sc, 16), (n1, 0)])
  | .mld d a b ow om sc rcnt => some (pack 0x90 2 [(d, 40), (a, 34), (b, 28), (ow, 24), (om, 20), (sc, 16), (rcnt, 11)])
  | .mldScl d a ow om sc rcnt => some (pack 0x90 2 [(d, 40), (a, 34), (ow, 24), (om, 20), (sc, 16), (rcnt, 11), (1, 10)])
  | .mldw d a b ow om sc port rcnt => some (pack 0x90 3 [(d, 40), (a, 34), (b, 28), (ow, 24), (om, 20), (sc, 16), (port, 12), (rcnt, 7)])
  | .mgath d a b ow om sc ty rcnt => some (pack 0x90 4 [(d, 40), (a, 34), (b, 28), (ow, 24), (om, 20), (sc, 16), (ty, 12), (rcnt, 7)])
  | .mtr d a ow om sc ty => some (pack 0x90 5 [(d, 40), (a, 34), (ow, 24), (om, 20), (sc, 16), (ty, 12)])
  | .mzero d ow om sc mc nc ty row => some (pack 0x90 6 [(d, 40), (ow, 24), (om, 20), (sc, 16), (mc, 14), (nc, 8), (ty, 4), (row, 2)])
  | .mma d a b ow om sc mc nc ty row st1 fin => some (pack 0x90 7 [(d, 40), (a, 34), (b, 28), (ow, 24), (om, 20), (sc, 16), (mc, 14), (nc, 8), (ty, 4), (row, 2), (st1, 1), (fin, 0)])
  | .mmag d a b ow om sc ldr nc ty st1 fin => some (pack 0x90 8 [(d, 40), (a, 34), (b, 28), (ow, 24), (om, 20), (sc, 16), (ldr, 12), (nc, 6), (ty, 2), (st1, 1), (fin, 0)])
  | .mdrain d a ow om sc mc nc row keep => some (pack 0x90 9 [(d, 40), (a, 34), (ow, 24), (om, 20), (sc, 16), (mc, 14), (nc, 8), (row, 2), (keep, 1)])
  | .mwait => some (pack 0x90 10 [])
  | .mstat d sl => some (pack 0x90 11 [(d, 40), (sl, 0)])
  | .sbind a ow om sc ctx => some (pack 0xA0 0 [(a, 34), (ow, 24), (om, 20), (sc, 16), (ctx, 8)])
  | .scopy a b ow om sc ctx => some (pack 0xA0 1 [(a, 34), (b, 28), (ow, 24), (om, 20), (sc, 16), (ctx, 8)])
  | .sfetch d a b ow om sc ctx => some (pack 0xA0 2 [(d, 40), (a, 34), (b, 28), (ow, 24), (om, 20), (sc, 16), (ctx, 8)])
  | .sput a b ow om sc ctx => some (pack 0xA0 3 [(a, 34), (b, 28), (ow, 24), (om, 20), (sc, 16), (ctx, 8)])
  | .cwait d a b ow om sc => some (pack 0xA0 4 [(d, 40), (a, 34), (b, 28), (ow, 24), (om, 20), (sc, 16)])
  | .sresume ctx => some (pack 0xA0 5 [(ctx, 8)])
  | .sstat d ctx sl => some (pack 0xA0 6 [(d, 40), (ctx, 8), (sl, 0)])
  | .etch d a b ow om => some (pack 0xB0 0 [(d, 40), (a, 34), (b, 28), (ow, 24), (om, 20)])
  | .pull d a b ow om => some (pack 0xB0 1 [(d, 40), (a, 34), (b, 28), (ow, 24), (om, 20)])
  | .drain d a b ow om => some (pack 0xB0 2 [(d, 40), (a, 34), (b, 28), (ow, 24), (om, 20)])
  | .drainFlush d a b ow om => some (pack 0xB0 2 [(d, 40), (a, 34), (b, 28), (ow, 24), (om, 20), (1, 0)])
  | .qstat d a ow om sl => some (pack 0xB0 3 [(d, 40), (a, 34), (ow, 24), (om, 20), (sl, 0)])
  | .palloc d a ow om => some (pack 0xB0 4 [(d, 40), (a, 34), (ow, 24), (om, 20)])
  | .pmove d a b ow om => some (pack 0xB0 5 [(d, 40), (a, 34), (b, 28), (ow, 24), (om, 20)])
  | .pfree d a ow om => some (pack 0xB0 6 [(d, 40), (a, 34), (ow, 24), (om, 20)])
  | .xld d a b ow om sc sz sx => some (pack 0xB8 0 [(d, 40), (a, 34), (b, 28), (ow, 24), (om, 20), (sc, 16), (sz, 14), (sx, 13)])
  | .xst d a b ow om sc sz => some (pack 0xB8 1 [(d, 40), (a, 34), (b, 28), (ow, 24), (om, 20), (sc, 16), (sz, 14)])
  | .xamo d a b ow om sc sz sx o e => some (pack 0xB8 2 [(d, 40), (a, 34), (b, 28), (ow, 24), (om, 20), (sc, 16), (sz, 14), (sx, 13), (o, 9), (e, 3)])
  | .edst d a b ow om sc e cnt => some (pack 0xB8 3 [(d, 40), (a, 34), (b, 28), (ow, 24), (om, 20), (sc, 16), (e, 10), (cnt, 3)])
  | .edwait d a b ow om sc => some (pack 0xB8 4 [(d, 40), (a, 34), (b, 28), (ow, 24), (om, 20), (sc, 16)])
  | .xovld d a b ow om sc ty o cnt => some (pack 0xB8 5 [(d, 40), (a, 34), (b, 28), (ow, 24), (om, 20), (sc, 16), (ty, 12), (o, 9), (cnt, 3)])
  | .rkreg d a ow om sc => some (pack 0xB8 6 [(d, 40), (a, 34), (ow, 24), (om, 20), (sc, 16)])
  | .rkrev d a ow om sc => some (pack 0xB8 7 [(d, 40), (a, 34), (ow, 24), (om, 20), (sc, 16)])
  | .xfence a ow om sc => some (pack 0xB8 8 [(a, 34), (ow, 24), (om, 20), (sc, 16)])
  | .qpop d a b ow om => some (pack 0xC0 0 [(d, 40), (a, 34), (b, 28), (ow, 24), (om, 20)])
  | .qdone d a b ow om => some (pack 0xC0 1 [(d, 40), (a, 34), (b, 28), (ow, 24), (om, 20)])
  | .launch d a b ow om => some (pack 0xC0 2 [(d, 40), (a, 34), (b, 28), (ow, 24), (om, 20)])
  | .cancel d a ow om => some (pack 0xC0 3 [(d, 40), (a, 34), (ow, 24), (om, 20)])
  | .preempt d a ow om => some (pack 0xC0 4 [(d, 40), (a, 34), (ow, 24), (om, 20)])
  | .preemptResume d a ow om => some (pack 0xC0 4 [(d, 40), (a, 34), (ow, 24), (om, 20), (1, 0)])
  | .ctxsave d a b ow om => some (pack 0xC0 5 [(d, 40), (a, 34), (b, 28), (ow, 24), (om, 20)])
  | .ctxrest d a ow om => some (pack 0xC0 6 [(d, 40), (a, 34), (ow, 24), (om, 20)])
  | .fwload d a b ow om slot => some (pack 0xC0 7 [(d, 40), (a, 34), (b, 28), (ow, 24), (om, 20), (slot, 0)])
  | .fwverify d ow om slot => some (pack 0xC0 8 [(d, 40), (ow, 24), (om, 20), (slot, 0)])
  | .fwmeasure d ow om slot => some (pack 0xC0 9 [(d, 40), (ow, 24), (om, 20), (slot, 0)])
  | .fwswitch d a ow om slot => some (pack 0xC0 10 [(d, 40), (a, 34), (ow, 24), (om, 20), (slot, 0)])
  | .hbeat d a ow om => some (pack 0xC0 11 [(d, 40), (a, 34), (ow, 24), (om, 20)])
  | .rpt n1 sd sa sb sc => some (pack 0xE0 n1 [(sd, 44), (sa, 42), (sb, 40), (sc, 38)])
  | .firingStart _ => none
  | .firingLimit _ => none
  | .containmentDecision _ => none
  | .interruptEntry _ => none
  | .pageWalk _ _ _ => none
  | .flitInject _ => none
  | .dataFlit _ => none
  | .pointerFlit _ => none
  | .markerFlit _ => none
  | .returnFlit _ => none
  | .markerForward _ => none
  | .faultedMarkerEffect _ => none
  | .regionDrained _ => none
  | .remoteAccessApply _ _ => none
  | .remoteResponse _ _ => none
  | .overprintSample _ _ => none
  | .overprintMemberAccess _ _ _ => none
  | .overprintComplete _ _ => none
  | .barrierUpdate _ _ => none
  | .barwRelease _ _ => none
  | .barwResend _ _ => none
  | .matrixCmdStart _ _ => none
  | .matrixCmdComplete _ _ => none
  | .mmagGangStart _ => none
  | .streamSourceFiring _ => none
  | .streamSinkFiring _ => none
  | .streamCmdAccept _ => none
  | .streamCmdPerform _ => none
  | .waitLimit _ => none
  | .firingHalt _ => none
  | .hubCloseTimeout _ => none
  | .pullSwap _ => none
  | .scrubComplete _ => none
  | .laneLock _ => none
  | .laneFailure _ => none
  | .trainSend _ => none
  | .trainingTimeout _ => none
  | .train _ _ _ _ _ => none
  | .creditInit _ => none
  | .replay _ _ => none
  | .flitReceive _ _ _ _ _ _ _ _ => none
  | .linkSilenceTimeout _ => none
  | .openMsg _ _ => none
  | .acceptMsg _ _ => none
  | .ld _ _ _ _ _ _ => none
  | .st _ _ _ _ _ _ _ => none
  | .amo _ _ _ _ _ _ _ _ _ => none
  | .edstMessage _ _ _ _ _ _ _ => none
  | .edApply _ _ _ _ _ _ _ _ _ => none
  | .dataMsg _ _ _ _ => none
  | .ackMsg _ _ _ => none
  | .errMsg _ _ _ _ _ _ => none
  | .staleMsg _ _ _ => none
  | .edNum _ _ _ _ => none
  | .retransmitTimeout _ => none
  | .connectionTimeout _ => none
  | .replyCacheExpiry _ _ _ => none
  | .editionGapTimeout _ => none
  | .announce _ _ _ _ _ _ _ => none
  | .syncMsg _ _ _ => none
  | .followUp _ _ _ _ => none
  | .delayReq _ _ _ => none
  | .delayResp _ _ _ _ => none
  | .ptpInterval _ _ => none
  | .announceReceiptTimeout => none
  | .kick _ _ => none
  | .queueCtlWrite _ _ => none
  | .hdmAccess _ _ _ _ => none
  | .getVersion => none
  | .getCapabilities => none
  | .negotiateAlgorithms _ _ => none
  | .getDigests => none
  | .getCertificate _ _ _ => none
  | .challenge _ => none
  | .getMeasurements _ _ _ => none
  | .keyExchange _ _ => none
  | .finish _ => none
  | .endSession => none
  | .vendorDefinedRequest _ => none
  | .tinvPage _ _ _ => none
  | .tinvRegion _ _ => none
  | .tinvAll _ => none
  | .tinvComplete _ => none
  | .ccrootWrite _ _ _ => none
  | .ccresetReset _ _ => none
  | .dbellWrite _ _ => none
  | .plateFenceWrite _ _ _ => none
  | .pfaultClear _ => none
  | .permanentFault _ => none
  | .linkDisWrite _ _ _ => none
  | .routeMaskWrite _ _ _ => none
  | .editionEntryWrite _ _ _ _ => none
  | .gtstatRead => none
  | .editionReportRead => none
  | .cxlErrorLogRead => none
  | .cxlLinkError _ => none
  | .storeErrorReport _ _ _ => none
  | .registerWrite _ _ _ => none
  | .throttleTick _ _ => none
  | .thermalShutdown _ => none
  | .powerCycle => none
  | .fundamentalReset => none
  | .secondaryBusReset => none
  | .boot _ _ => none
  | .fwRollback => none
  | .waitTargetReached _ => none
  | .ideKeyManagement _ _ _ => none

/-- The word of a guarded instruction (R135). -/
def encode (g : Guard) (i : Instr) : Option Nat :=
  i.word.map (fun w => w + (if g.neg then 2 ^ 55 else 0) + g.pred * 2 ^ 52)

end Sys2Proof
end

