-- ==== Sys2Proof/Config.lean ====
section
/-! DEFINITION. What one TV58 fixes and the spec leaves open: constants and free values without a body, so that nothing can be proved
about their values. -/

namespace Sys2Proof.Config

/-- True on revision B0, false on A0 (R2). -/
opaque isB0 : Bool

/-- REVISION of R2. -/
def revision : Nat := if isB0 then 0xB0 else 0xA0

/-- SERIAL of R467, from fuses. -/
opaque serial : Word

/-- R436: whether a signature of a message verifies against the vendor's RSA-3072 key, and against its SLH-DSA key, held in ROM. -/
opaque rsaOk : List Byte → List Byte → Bool
opaque slhOk : List Byte → List Byte → Bool

/-- R438: SHA-384 of the boot ROM. -/
opaque romDigest : Nat

/-- R439: the device's RSA-3072 and SLH-DSA signatures over a transcript, its certificate chain, its random numbers and its key exchange. -/
opaque rsaSign : List (List Nat) → Nat
opaque slhSign : List (List Nat) → Nat
opaque certificate : List Byte
opaque spdmNonce : Nat → Nat
opaque finishMac : List (List Nat) → Nat

/-- R405: the device's clock identity, the last field that the best master clock algorithm compares. -/
opaque clockId : Word

/-- R405: the accuracy and variance of the device's own clock, which that algorithm compares too. -/
opaque clockAccuracy : Nat
opaque clockVariance : Nat

/-- A value the spec leaves open, fresh for each value of State.freeCtr. -/
opaque freeWord : Nat → Word

end Sys2Proof.Config
end

