-- ==== Sys2Proof/Machine/Sparse.lean ====
section
/-! DEFINITION. Plain-data maps from natural numbers: a list of key and value pairs in one canonical form (keys strictly rising, no
entry equal to the value an unlisted key reads as), so that equal maps are equal data. Memory and every sparse part of the state use
it. -/

namespace Sys2Proof.Machine

/-- A map from numbers to values that reads as a default value wherever nothing is listed. -/
abbrev Sparse (α : Type) := List (Nat × α)

/-- The value at a key; `d` where the key is not listed. -/
def Sparse.get {α : Type} (d : α) : Sparse α → Nat → α
  | [], _ => d
  | (k, v) :: m, i => if i = k then v else if i < k then d else Sparse.get d m i

/-- Puts a listed entry in its place, replacing the one of the same key. -/
def Sparse.insert {α : Type} : Sparse α → Nat → α → Sparse α
  | [], i, x => [(i, x)]
  | (k, v) :: m, i, x =>
    if i < k then (i, x) :: (k, v) :: m else if i = k then (i, x) :: m else (k, v) :: Sparse.insert m i x

/-- Removes the entry of a key. -/
def Sparse.erase {α : Type} : Sparse α → Nat → Sparse α
  | [], _ => []
  | (k, v) :: m, i => if i < k then (k, v) :: m else if i = k then m else (k, v) :: Sparse.erase m i

/-- Writes a value at a key, keeping the canonical form: writing the default removes the entry. -/
def Sparse.set {α : Type} [DecidableEq α] (d : α) (m : Sparse α) (i : Nat) (x : α) : Sparse α :=
  if x = d then Sparse.erase m i else Sparse.insert m i x

/-- Removes every entry whose key lies in lo .. lo + n − 1. -/
def Sparse.clear {α : Type} (m : Sparse α) (lo n : Nat) : Sparse α :=
  m.filter (fun e => decide (e.1 < lo) || decide (lo + n ≤ e.1))

/-- Every key of the map is above a bound, and the keys rise strictly, and no entry holds the default. -/
def Sparse.okFrom {α : Type} [DecidableEq α] (d : α) : Nat → Sparse α → Bool
  | _, [] => true
  | b, (k, v) :: m => decide (b ≤ k) && decide (v ≠ d) && Sparse.okFrom d (k + 1) m

/-- The canonical form. -/
def Sparse.ok {α : Type} [DecidableEq α] (d : α) (m : Sparse α) : Bool := Sparse.okFrom d 0 m

/-- Every key of the map is at or above a bound, and the keys rise strictly. -/
def Sparse.risingFrom {α : Type} : Nat → Sparse α → Bool
  | _, [] => true
  | b, e :: m => decide (b ≤ e.1) && Sparse.risingFrom (e.1 + 1) m

/-- The keys rise strictly: no key is listed twice, and a read finds what a write left. -/
def Sparse.rising {α : Type} (m : Sparse α) : Bool := Sparse.risingFrom 0 m

/-- n bytes from a key upwards, little-endian (R3). -/
def Sparse.bytes (m : Sparse Byte) (i : Nat) : Nat → Nat
  | 0 => 0
  | n + 1 => (Sparse.get 0 m i).toNat + 256 * Sparse.bytes m (i + 1) n

/-- Writes the n low bytes of a number from a key upwards, little-endian (R3). -/
def Sparse.setBytes (m : Sparse Byte) (i : Nat) : Nat → Nat → Sparse Byte
  | 0, _ => m
  | n + 1, v => Sparse.setBytes (Sparse.set 0 m i (BitVec.ofNat 8 v)) (i + 1) n (v / 256)

/-- One more event at a key in a cycle, in a table of the latest cycle of each key and the number of its events then. -/
def countIn (m : Sparse (Nat × Nat)) (k cycle : Nat) : Sparse (Nat × Nat) :=
  let e := Sparse.get (0, 0) m k
  Sparse.set (0, 0) m k (cycle, (if e.1 = cycle then e.2 else 0) + 1)

/-- The events at a key in a cycle. -/
def countOf (m : Sparse (Nat × Nat)) (k cycle : Nat) : Nat :=
  let e := Sparse.get (0, 0) m k
  if e.1 = cycle then e.2 else 0

/-- The union of two ascending lists of numbers. -/
def unionSorted (a b : List Nat) : List Nat := b.foldl (fun l x => if l.contains x then l else l ++ [x]) a

end Sys2Proof.Machine
end

