-- ==== Sys2Proof/Machine/State.lean ====
section
/-! DEFINITION. The state of a TV58 as plain data, the reasons a step can stop, and the state right after reset. -/

namespace Sys2Proof.Machine

/-- The one reason a step stops the model with a fault. -/
inductive Fault where
  /-- Raised by `step` when the agenda names a core that the module does not have (R9, R26). Safe: no such core exists. -/
  | noSuchAgent
deriving DecidableEq, Repr

/-- The reasons a step is refused. -/
inductive Refusal where
  /-- Raised by `exec` for an instruction that has no meaning yet. Safe: the model stops where the hardware goes on. -/
  | notModelled (mnemonic : String)
deriving DecidableEq, Repr

/-- Who acts in a turn of the agenda: a core (0 to 2,047 the firing core of that PTILE, 2,048 + n control core n), or an event of the
machine, named by its row of the opcode table; or one of the inputs from outside the device that no row names. -/
inductive Act where
  | core (n : Nat)
  | event (i : Instr)
  /-- R466: SECDED finds and corrects an error of a class on a die, in the memory of a PTILE, streamer or core, at a byte offset. -/
  | softError (die cls unit off : Nat)
  /-- R468: an uncorrectable error arises in the check word of a key. -/
  | hardError (key : Nat)
  /-- R226: an uncorrectable error arises in the stored word of a v or m register of a firing core, by its code: 32 + n or 64 + n. -/
  | registerError (core code : Nat)
  /-- R466: SECDED finds an uncorrectable error in the router and network buffers of a die. -/
  | bufferError (die : Nat)
  /-- R415: the host reads 8 bytes of BAR0 at an offset. -/
  | hostRead (off : Nat)
  /-- R373: every message that the oldest flit of a class completes or continues has left a link's buffer. -/
  | bufferFree (link cls : Nat)
  /-- R396: the store of an answered `edst` to another home has been applied at every member. -/
  | editionPerformed (id : Nat) (out : Bool)
deriving DecidableEq, Repr

/-- One turn of the interleaving: the fclk cycles that pass before it, and who acts. -/
structure Turn where
  cycles : Nat
  act : Act
deriving DecidableEq, Repr

/-- A trap: code and TRAPINFO0 to TRAPINFO3 (R6); `sw` marks TRAPCAUSE.SW. -/
structure Trap where
  code : Nat
  i0 : Word := 0
  i1 : Word := 0
  i2 : Word := 0
  i3 : Word := 0
  sw : Bool := false
deriving DecidableEq, Repr

/-- A core: the register files of R141, the system registers of R161, and what a wait or a repeat in progress holds. -/
structure Core where
  pc : Word := 0
  /-- s0 to s31; s0 reads zero whatever stands here. -/
  s : Vector Word 32 := Vector.replicate 32 0
  /-- p0 to p7; p0 reads true. -/
  p : Vector Bool 8 := Vector.replicate 8 false
  /-- o0 to o15, each a set of engine-operation numbers (R122); o0 is empty. -/
  o : Vector (List Nat) 16 := Vector.replicate 16 []
  v : Vector VReg 32 := Vector.replicate 32 0
  /-- m0 to m7; m0 reads all ones. -/
  m : Vector MReg 8 := Vector.replicate 8 0
  /-- Codes of v and m registers whose stored word holds an uncorrectable error (R226): 32 + n for vn, 64 + n for mn. -/
  badReg : List Nat := []
  rptst : Word := 0
  fstat : Word := 0
  trapcause : Word := 0
  trapinfo0 : Word := 0
  trapinfo1 : Word := 0
  trapinfo2 : Word := 0
  trapinfo3 : Word := 0
  trappc : Word := 0
  trapbase : Word := 0
  cstat : Word := 3
  ien : Word := 0
  hsave0 : Word := 0
  hsave1 : Word := 0
  hsave2 : Word := 0
  hsave3 : Word := 0
  /-- Control core: fetching has begun (R462). -/
  running : Bool := false
  /-- Control core: halted by a nested trap (R194). -/
  halted : Bool := false
  /-- Doorbell bits of CCRESET (R419). -/
  dbell : Nat := 0
  /-- The store error its home reported and no interrupt has delivered yet (R193): address and code. -/
  storeErr : Option (Nat × Nat) := none
  /-- The word being executed, which some traps report (model's own). -/
  ir : Nat := 0
  /-- The repeat being executed inside one step (model's own; none outside a pair). -/
  rep : Option Nat := none
  /-- The words of the repeat pair in progress, its prefix and the word it repeats: they are read once (R149). -/
  pair : Option (Nat × Nat) := none
  /-- Cycle and ns count at the issue of the bounded wait in progress (R242, R323, R364, R398); none when the core waits on none. -/
  waitFrom : Option (Nat × Nat) := none
  /-- The engine operation the instruction now waiting has issued, so that it is issued once. -/
  waitOp : Option Nat := none
  /-- RSS draws made in the firing (R82). -/
  draws : Nat := 0
  /-- The region on which the core's instruction in progress works (R362), and whether interrupts wait for its end (R364). -/
  holds : Option Nat := none
  shut : Bool := false
  /-- The address operands of the instruction in progress have been checked (R362, R443). -/
  checked : Bool := false
  /-- The cycle at which the access in progress issued that waits for bytes of an `sfetch` (R324). -/
  issued : Option Nat := none
  /-- Of a `launch` or `cancel` in progress: its admission number (R426), the packet it works on (for `cancel` the instances swept so far),
  and the graph object whose held region it waits for (R427). -/
  adm : Option Nat := none
  pkt : Nat := 0
  want : Option Nat := none
deriving DecidableEq, Repr

/-- Actor-slot states (R48). -/
inductive SlotSt where
  | unused | waiting | firing | halted | quiescent | stopped
deriving DecidableEq, Repr

/-- The part of an actor slot that firings change (R34, R46, R48, R57). -/
structure ActorSlot where
  st : SlotSt := .unused
  /-- Logical firing number, 96 bits (R34). -/
  firing : Nat := 0
  /-- Firing origin (R35). -/
  k0 : Nat := 0
  bypass : Nat := 0
  tries : Vector Nat 5 := Vector.replicate 5 0
deriving DecidableEq, Repr

/-- A firing in progress (R39 to R44, R239 to R244). -/
structure Firing where
  slot : Nat := 0
  /-- Cycles counted under R40 before the firing's latest start or resumption, and the cycle of that start. -/
  count0 : Nat := 0
  since : Nat := 0
  ext : Bool := false
  /-- An `mmag` has issued (R297). -/
  noRetry : Bool := false
  /-- Lines of the state area journaled, in order (R42). -/
  journal : List Nat := []
  high : Vector Nat 8 := Vector.replicate 8 0
  sent : Vector Nat 8 := Vector.replicate 8 0
  /-- Overflow counts not yet carried, by output descriptor 0 to 31 of the tile (R251), and those a POINTER flit of this firing carried. -/
  ovf : Sparse Nat := []
  ovfSent : Sparse Nat := []
  eos : Option Nat := none
  /-- The `wst` and `wsend` operations issued: port, operation (R242). -/
  sends : List (Nat × Nat) := []
  /-- The core has trapped: it issues no more, and waits for containment (R57, R186). -/
  trapped : Bool := false
  /-- The earliest trap in program order found so far, while an operation issued before it may still trap (R186): its place in the order
  of issue, the address of its word, and the trap. -/
  fault : Option (Nat × Word × Trap) := none
  /-- The level at which firmware must decide (R57, levels 2 to 4). -/
  decide : Option Nat := none
  /-- A partial period of R61: no firing was in progress when the fault arose. -/
  partialPeriod : Bool := false
  /-- The hub operation closed while the firing was halted: its word's address and its trap (R410). -/
  closed : Option (Word × Trap) := none
deriving DecidableEq, Repr

/-- A descriptor (R229, R230), with the fields of both kinds; `kind` 0 unused, 1 input, 2 output. -/
structure Desc where
  kind : Nat := 0
  slot : Nat := 0
  port : Nat := 0
  base : Nat := 0
  tsz : Nat := 0
  cap : Nat := 0
  etype : Nat := 0
  eround : Nat := 0
  rd : Nat := 0
  wr : Nat := 0
  rpos : Nat := 0
  init : Nat := 0
  depth : Nat := 0
  ovf : Nat := 0
  peerL : Nat := 0
  peerD : Nat := 0
  mark : Bool := false
  mmode : Nat := 0
  mflt : Bool := false
  side : Bool := false
  mrd : Nat := 0
  wpos : Nat := 0
  sideof : Nat := 0
  ctype : Nat := 0
  cround : Nat := 0
deriving DecidableEq, Repr

/-- A circuit flit (R233). A DATA flit holds the byte offset in the consumer's memory and its bytes; `op` is the engine operation, if
any, that its arrival performs. -/
inductive Flit where
  | data (off : Nat) (bs : List Byte) (op : Option Nat)
  | pointer (wr ovf : Nat) (op : Option Nat)
  | marker (mode : Nat) (flt : Bool)
  | ret (rd : Nat)
deriving DecidableEq, Repr

/-- A flit in flight: the cycle in which it left its injecting router, and the cycle in which it arrives (R20). -/
structure Flight where
  left : Nat
  due : Nat
  flit : Flit
deriving DecidableEq, Repr

/-- A tile (R15), but for its core, its descriptors and its memories, which the state holds by PTILE. -/
structure Tile where
  slots : Vector ActorSlot 8 := #v[{}, {}, {}, {}, {}, {}, {}, {}]
  /-- Position in the schedule table (R45). -/
  schedPos : Nat := 0
  /-- The active and the proof plane of the tile's etch fields (R341 to R344), by `cfgKey`. -/
  plane : Sparse Nat := []
  proof : Sparse Nat := []
  /-- Router pairs (R345), key 8 × slot + output: active and proof. -/
  pairs : Sparse Nat := []
  pairsProof : Sparse Nat := []
  /-- Selectors and running indices (R340): ASEL, DSEL, RSEL, RSLOTIDX, SIDX; ARATEIDX is an etch field of the proof plane. -/
  asel : Nat := 0
  dsel : Nat := 0
  rsel : Nat := 0
  rslot : Nat := 0
  sidx : Nat := 0
  /-- The fault record (R187): TRAPCAUSE, TRAPPC, TRAPINFO0 to 3, firing, status; LEVEL 6 at reset. -/
  record : Vector Word 8 := #v[0, 0, 0, 0, 0, 0, 0, 0x600]
  /-- The firing in progress. -/
  firing : Option Firing := none
deriving DecidableEq, Repr

/-- Proof-plane states (R349). -/
inductive ProofSt where
  | none | etching | ready | pulling
deriving DecidableEq, Repr

/-- A section of a graph object (R451): its kind, rate set, logical tile and offset there, and its bytes. -/
structure Sect where
  kind : Nat
  rset : Nat
  ltile : Nat
  toff : Nat
  data : List Byte
deriving DecidableEq, Repr

/-- A region's group as its etch fields define it (R344). -/
structure GroupDef where
  defd : Bool := false
  skip : Bool := false
  count : Nat := 0
  members : List Nat := []
deriving DecidableEq, Repr

/-- A group bound to a package slot (R261, R262): its members are logical tiles in member order. -/
structure Group where
  skip : Bool
  region : Nat
  lgroup : Nat
  mbase : Nat
  members : List Nat
deriving DecidableEq, Repr

/-- An entry of a graph object's stream table (R469): role 0 SOURCE, 1 SINK, 2 COMMAND. -/
structure StreamDecl where
  role : Nat
  edge : Nat
  ltile : Nat
  p : Nat
  arc : Nat
  record : Nat
deriving DecidableEq, Repr

/-- One dimension of a shape record (R312). -/
structure Dim where
  size : Nat
  lim : Nat
  hlo : Nat
  hhi : Nat
  start : Int
  stride : Int
deriving DecidableEq, Repr

/-- A checked shape record (R312 to R314): element size in bytes, element count, first and last byte of the walk, and the space of its
bytes: 0 translated, 1 own tile memory, 2 a control core's private memory (R319). -/
structure Shape where
  base : Int := 0
  esz : Nat := 1
  ty : Nat := 0
  cscope : Nat := 0
  caddr : Nat := 0
  cinc : Nat := 0
  dims : List Dim := []
  n : Nat := 0
  lo : Nat := 0
  hi : Nat := 0
  space : Nat := 0
deriving DecidableEq, Repr

/-- What a graph object gives a region beside its etch fields (R348, R424): its address, its sections, its stream
declarations and their shape records. -/
structure Object where
  addr : Nat := 0
  sects : List Sect := []
  strs : List StreamDecl := []
  recs : List Shape := []
deriving DecidableEq, Repr

/-- The packet bound to a region until its `qdone` (R425), as its 64 bytes; the queue it came from; its admission number. -/
structure Binding where
  pkt : Nat
  queue : Option Nat
  adm : Nat
deriving DecidableEq, Repr

/-- A region (R102, R349, R425): its map, its proof plane's state, and its graph instance. -/
structure Region where
  live : Bool := false
  npl : Nat := 0
  /-- Physical plate of each logical plate, in order (R102). -/
  map : List Nat := []
  /-- Origin on the plate grid and shape (R354), and the placement record of R355. -/
  origin : Nat := 0
  pw : Nat := 0
  place : Nat := 0
  /-- The transit legs that record declares (R355). -/
  legs : List Nat := []
  proofSt : ProofSt := .none
  auto : Bool := false
  markTag : Nat := 0
  pulls : Nat := 0
  discards : Nat := 0
  /-- The instance record is clear and awaits its first swap (R428); and the cycle of the swap of the pull in progress (R350). -/
  fresh : Bool := true
  swapAt : Nat := 0
  /-- The stream being etched layers on a staged one (R349). -/
  staged : Bool := false
  modeSplit : Bool := false
  /-- GSEL and the groups of the active and the proof plane (R344). -/
  gsel : Nat := 0
  groups : Sparse GroupDef := []
  groupsProof : Sparse GroupDef := []
  /-- The object of the active plane, that of the proof plane, and its deferred sections (R348). -/
  obj : Object := {}
  objProof : Object := {}
  deferred : List Sect := []
  /-- Highest mode among the markers the sinks removed since the last start (R64). -/
  sinkMode : Option Nat := none
  /-- Rate set in force (R64). -/
  mode : Nat := 0
  seed : Word := 0
  instKey : Word := 0
  /-- Package context of each region context number (R310). -/
  ctx : List (Nat × Nat) := []
  /-- What the pull in progress has set aside for its swap: package contexts by region context number (R310), and groups by package slot
  (R261). -/
  ctxPlan : List (Nat × Nat) := []
  groupPlan : List (Nat × Group) := []
  /-- Policies and limits of levels 2, 3 and 4, in that order, those the region has (R56). -/
  pol : List (Nat × Nat) := [(2, 1)]
  /-- A graph instance runs (R350, R425); it has not had its `qdone` (R417). -/
  started : Bool := false
  undone : Bool := false
  /-- Pre-empted (R431). -/
  halted : Bool := false
  /-- CODE with which the instance ended, its drain included (R428). -/
  ended : Option Nat := none
  /-- GTIME at which it drained; none while it is not drained (R428). -/
  drainAt : Option Nat := none
  /-- The instance record (R428). -/
  startG : Nat := 0
  endG : Nat := 0
  firings : Nat := 0
  faults : Nat := 0
  ffw : Word := 0
  /-- The first fault has been reported (R59). -/
  reported : Bool := false
  /-- Mode carried to the sinks at the drain. -/
  drainMode : Nat := 0
  /-- The packet bound to the region; whether it holds the region, and whether the instance is a replay (R427). -/
  bound : Option Binding := none
  replay : Bool := false
  /-- The core whose replay launch waits for the region (R427); and the cycle of the pre-emption request (R410). -/
  next : Option Nat := none
  haltFrom : Nat := 0
deriving DecidableEq, Repr

/-- States of a stream context (R311). -/
inductive CtxSt where
  | unbound | idle | active | frozen | halted
deriving DecidableEq, Repr

/-- A streamer command (R320): its operation, the core and word that issued it, its operands and the set of OW at issue; once accepted
its sequence number, its records, the elements performed, and the promise of an `sfetch` (R324). `fn` 0 is `sbind`. -/
structure StreamCmd where
  id : Nat
  core : Nat
  fn : Nat
  word : Nat
  pc : Word
  ow : List Nat
  d : Nat := 0
  av : Word
  bv : Word
  /-- The firing that issued it has ended. -/
  orphan : Bool := false
  accepted : Bool := false
  seq : Nat := 0
  src : Shape := {}
  dst : Shape := {}
  done : Nat := 0
  promise : Nat := 0
deriving DecidableEq, Repr

/-- A stream context (R310, R311): `role` 0 SOURCE, 1 SINK, 2 COMMAND; its region, its number there and anchor tile. -/
structure Ctx where
  st : CtxSt := .unbound
  left : CtxSt := .idle
  role : Nat := 0
  region : Option Nat := none
  num : Nat := 0
  anchor : Nat := 0
  edge : Nat := 0
  p : Nat := 0
  arc : Nat := 0
  /-- Segments of its port (R232), and elements of a firing (R316). -/
  segs : Nat := 0
  per : Nat := 0
  shape : Shape := {}
  staged : Option Shape := none
  /-- Commands not yet performed, in issue order. -/
  cmds : List StreamCmd := []
  seq : Nat := 0
  /-- Elements walked within the firing in progress, those of a source as read; firings committed in the stream and commands performed
  (R330). -/
  pos : Nat := 0
  buf : List Byte := []
  fired : Nat := 0
  performed : Nat := 0
  promise : Nat := 0
  /-- A source or sink has met the end of its stream (R317). -/
  quiescent : Bool := false
  /-- Its fault record (R326). -/
  record : Vector Word 8 := Vector.replicate 8 0
deriving DecidableEq, Repr

/-- A leaf translation held by a cache (R112): its region or root, page base and size, physical base, permissions, TGT, A, D, level. -/
structure TlbEntry where
  tag : Nat
  va : Nat
  size : Nat
  pa : Nat
  tgt : Nat
  rp : Bool
  wp : Bool
  xp : Bool
  dirty : Bool
  lvl : Nat
  /-- Where its entry lies, for the D update (R113): space and address. -/
  pteTgt : Nat
  pteAddr : Nat
  pte : Nat
deriving DecidableEq, Repr

/-- An access or engine operation that has issued and is not yet performed: its number, its core, and whether `fend` waits for it
(R129). -/
structure LiveOp where
  id : Nat
  core : Nat
  eng : Bool
deriving DecidableEq, Repr

/-- The operations of a network engine (R258, R265, R272). -/
inductive NetKind where
  | rld | rst | ramo | ovld | ovst | grpstat | barr | barx | barw
deriving DecidableEq, Repr

/-- How far a network operation has come: its request is on its way, a `barw` is held or was refused at its atomic unit (R273), or its
effect is performed and the response is on its way. -/
inductive NetSt where
  | sent | held | refused | applied
deriving DecidableEq, Repr

/-- A network operation in flight (R259, R266, R273, R274). -/
structure NetOp where
  id : Nat
  kind : NetKind
  st : NetSt := .sent
  /-- The word that issued it (R260). -/
  pc : Word
  d : Nat
  /-- Size in bytes, sign extension, operation, element type. -/
  n : Nat := 0
  sx : Bool := false
  o : Nat := 0
  ty : Nat := 0
  /-- Key of the bytes at the owning bank, or the package slot of a group and the offset in its members. -/
  key : Nat := 0
  off : Nat := 0
  ea : Word
  /-- Data of a store, or compare value; and the operand of `ramo` or of a barrier. -/
  data : Nat := 0
  b : Nat := 0
  /-- The result, and the trap a response carries. -/
  val : Nat := 0
  trap : Option Trap := none
  /-- R263: the absent members sampled; none before the sample. -/
  abs : Option (List Nat) := none
  /-- Members read or written, with the value read; and those that met an uncorrectable error. -/
  got : List (Nat × Nat) := []
  faulty : List Nat := []
  /-- The firing that issued it has ended. -/
  orphan : Bool := false
deriving DecidableEq, Repr

/-- A plate's status (R353): STATE 0 FREE, 1 ALLOCATED, 2 SCRUB. -/
structure Plate where
  st : Nat := 0
  fence : Bool := false
  region : Nat := 0
  pfault : Bool := false
deriving DecidableEq, Repr

/-- A slot tag (R280): TAG 0 FREE, 1 EMPTY, 2 FULL. -/
structure SlotTag where
  tag : Nat := 0
  owner : Nat := 0
  keep : Bool := false
  relp : Bool := false
deriving DecidableEq, Repr

/-- A block tag (R281): TAG 0 EMPTY, 1 OPEN, 2 FULL; `int` is KIND. -/
structure BlockTag where
  tag : Nat := 0
  int : Bool := false
deriving DecidableEq, Repr

/-- A queued matrix command (R286, R305): its word, the values of its A and B registers and its RSS number, read at issue. -/
structure MatCmd where
  id : Nat
  word : Nat
  av : Nat
  bv : Nat
  draw : Nat
  pc : Word
  /-- The accesses in its set(OW) at issue. -/
  waits : List Nat
  /-- Gang count of an `mmag` (R297). -/
  gang : Nat := 0
  started : Bool := false
  /-- The cycle at which its start first met bytes of an `sfetch` not yet performed (R324). -/
  since : Option Nat := none
  flags : Nat := 0
  /-- Operations of the rows a drain has queued at a port. -/
  flits : List Nat := []
deriving DecidableEq, Repr

/-- A tile's matrix engine, but for its memories (R280 to R286, R297). -/
structure Mat where
  slots : Sparse SlotTag := []
  blocks : Sparse BlockTag := []
  /-- The projected copies (R284). -/
  pslots : Sparse SlotTag := []
  pblocks : Sparse BlockTag := []
  /-- Slot tags at the start of the firing (R282). -/
  snap : Sparse SlotTag := []
  queue : List MatCmd := []
  gang : Nat := 0
deriving DecidableEq, Repr

/-- A submission queue's descriptor (R420). -/
structure Queue where
  base : Word := 0
  en : Bool := false
  err : Bool := false
  stopped : Bool := false
  log2n : Nat := 0
  prio : Nat := 0
  pol4 : Nat := 0
  lim4 : Nat := 0
  head : Nat := 0
  tail : Nat := 0
  nextSeq : Nat := 0
  qroot : Word := 0
  /-- Re-reads of the packet at HEAD made by the `qpop` in progress, and the cycle of the latest (R423). -/
  tries : Nat := 0
  readAt : Nat := 0
deriving DecidableEq, Repr

/-- A measurement-log entry (R438): slot, digest and VERSION. -/
structure LogEntry where
  slot : Nat
  digest : Nat
  version : Nat
deriving DecidableEq, Repr

/-- The firmware's state (R437, R438, R440, R465). -/
structure Firmware where
  active : Nat := 0
  pending : Bool := false
  rollback : Bool := false
  valid : Vector Bool 2 := #v[false, false]
  /-- The boot slot held in flash. -/
  flash : Nat := 0
  /-- The reference clock's reading at the deadline of the latest switch, and its handover address. -/
  deadline : Nat := 0
  handover : Word := 0
  log : List LogEntry := []
  wdogValue : Nat := 0
  wdogCount : Nat := 0
deriving DecidableEq, Repr

/-- Boot status, power and temperature (R459, R460, R464). -/
structure Package where
  powered : Bool := true
  step : Nat := 0
  alt : Bool := false
  err : Nat := 0
  fstep : Nat := 16
  tpow : Bool := false
  ttherm : Bool := false
  pwr : Nat := 0
  temp : Nat := 0
  plim : Nat := 2600
  /-- The value of s11 at the next start of the cores through the whole boot path (R461). -/
  why : Nat := 0
deriving DecidableEq, Repr

/-- A Vynos message (R374): its type, epoch, sequence number and body, the last as its fields in order and its data bytes. -/
structure Msg where
  ty : Nat
  src : Nat
  dst : Nat
  epoch : Nat
  seq : Nat
  a : Nat := 0
  b : Nat := 0
  c : Nat := 0
  d : Nat := 0
  e : Nat := 0
  data : Nat := 0
deriving DecidableEq, Repr

/-- A hatch link (R371 to R376, R379). -/
structure Link where
  up : Bool := false
  dis : Bool := false
  peer : Nat := 0
  plink : Nat := 0
  locked : Bool := false
  /-- The latest TRAIN record's contents, TRAIN records of those contents in succession, and CREDIT_INIT sent and received. -/
  trained : Option (Nat × Nat × Nat × Nat) := none
  trains : Nat := 0
  initSent : Bool := false
  initRecv : Bool := false
  /-- Sequence numbers: of the next flit sent, and of the next expected. -/
  next : Nat := 0
  expect : Nat := 0
  /-- Flits held for replay, oldest first: sequence number, class (0 request, 1 response), and the messages in it, each with the byte it
  starts from and the bytes it has there (R374). -/
  held : List (Nat × Nat × List (Msg × Nat × Nat)) := []
  /-- The messages of each class that wait for a credit or for room, with the bytes that earlier flits have taken. -/
  waiting : Vector (List (Msg × Nat)) 2 := #v[[], []]
  /-- Credits held of the request and of the response class. -/
  credit : Vector Nat 2 := #v[0, 0]
  /-- Flits in this end's buffer of each class, at most 64, and the credits returned for those that have left it (R373). -/
  inbuf : Vector Nat 2 := #v[0, 0]
  returned : Vector Nat 2 := #v[0, 0]
  /-- Replays that failed in succession. -/
  fails : Nat := 0
  /-- A replay is asked for from `expect`. -/
  asks : Bool := false
  /-- Counters of R379. -/
  count : Vector Nat 5 := Vector.replicate 5 0
  /-- TRAIN records sent. -/
  sentTrain : Nat := 0
  /-- Reference clock at the lane lock, and at the latest flit received. -/
  lockAt : Nat := 0
  flitAt : Nat := 0
deriving DecidableEq, Repr

/-- A connection to a node (R382): STATE 0 CLOSED, 1 UP, 2 RETRYING, 3 DOWN; the handshake in progress. -/
structure Conn where
  st : Nat := 0
  epoch : Nat := 0
  nextSeq : Nat := 0
  hand : Bool := false
  /-- Reference clock at the handshake's start. -/
  since : Nat := 0
  /-- Reference clock at the latest resending. -/
  sentAt : Nat := 0
  /-- Link of the latest sending. -/
  link : Nat := 0
deriving DecidableEq, Repr

/-- The target's side of a connection (R383): the source's epoch, the next sequence number expected, and requests held. -/
structure Source where
  known : Bool := false
  epoch : Nat := 0
  expect : Nat := 0
  held : List Msg := []
  /-- Requests of the epoch that were refused, nothing performed: sequence number, code, reason and table entry (R383, R388). -/
  refused : List (Nat × Nat × Nat × Nat) := []
deriving DecidableEq, Repr

/-- A reply-cache entry (R384). -/
structure Reply where
  src : Nat
  epoch : Nat
  seq : Nat
  val : Nat
  at_ : Nat
deriving DecidableEq, Repr

/-- An operation of MAJ 0xB8 not yet answered (R392, R393, R396, R403); `fn` is as in R390, 16 a home's edition message to a member, 17
a member read of `xovld`, 18 an `edst` that is answered but not yet performed at every member (its node is then 1,024). -/
structure HubOp where
  id : Nat
  fn : Nat
  core : Nat
  pc : Word
  node : Nat
  /-- The sequence number, once it is on its connection, and the reference clock at its first sending. -/
  seq : Option Nat := none
  at_ : Nat := 0
  /-- D, E, size in bytes, sign extension, operation and element type. -/
  d : Nat := 0
  x : Nat := 0
  n : Nat := 0
  sx : Bool := false
  o : Nat := 0
  ty : Nat := 0
  off : Nat := 0
  /-- Target word, or group. -/
  target : Nat := 0
  /-- Data of a store, or operand; and the compare value. -/
  data : Nat := 0
  cmp : Nat := 0
  /-- Of an edition message: the group's epoch and the edition. -/
  epoch : Nat := 0
  edition : Nat := 0
  /-- The operation of which an edition message or a member read is a part, and the member. -/
  parent : Nat := 0
  member : Nat := 0
  /-- Of `xovld`: its member count, values got, codes answered, and members that ended with LINK_UNKNOWN, with TRAPINFO1 and TRAPINFO3. -/
  count : Nat := 0
  got : List (Nat × Nat) := []
  bad : List (Nat × Nat) := []
  lost : List (Nat × Nat × Nat) := []
  /-- The firing that issued it has ended. -/
  orphan : Bool := false
deriving DecidableEq, Repr

/-- A remote key (R386, R387). -/
structure Key where
  live : Bool := false
  gen : Nat := 0
  base : Nat := 0
  len : Nat := 0
  perm : Nat := 0
  space : Nat := 0
  region : Nat := 0
  index : Nat := 0
deriving DecidableEq, Repr

/-- An edition-group entry (R395), with the messages held and the gap clock (R397), and the stores stamped here whose applications
are not all answered: edition, operation, members. -/
structure Edition where
  st : Nat := 0
  member : Bool := false
  home : Bool := false
  homeNode : Nat := 0
  epoch : Nat := 0
  next : Nat := 0
  applied : Nat := 0
  copyBase : Word := 0
  edLen : Nat := 0
  copySpace : Nat := 0
  region : Nat := 0
  gapt : Nat := 0
  dropped : Nat := 0
  bitmap : Nat := 0
  held : List Msg := []
  gapFrom : Option Nat := none
deriving DecidableEq, Repr

/-- The latest Announce message of a port (R405): its dataset as a number that compares as the algorithm does, grandmaster, steps removed,
the sender's port identity, timescale, and the reference clock at its receipt. -/
structure Announced where
  rank : Nat
  gm : Nat
  steps : Nat
  src : Nat
  ptp : Bool
  heard : Nat
deriving DecidableEq, Repr

/-- The time service (R405 to R407): PTPCFG, GTSTAT, and what the clock holds of each port and of its master. -/
structure Ptp where
  cfg : Nat := 0xF8808000
  st : Nat := 0
  gm : Bool := false
  ptpts : Bool := false
  port : Nat := 0
  offset : Int := 0
  /-- STATE has changed since GTSTAT was read. -/
  changed : Bool := false
  /-- The latest Announce by link; the master followed, by its link; and the reference clock at its latest Announce, or when it was lost. -/
  heard : List (Nat × Announced) := []
  master : Option (Nat × Announced) := none
  since : Nat := 0
  /-- The change of GTIME's rate, in parts per 10^9. -/
  rate : Int := 0
  /-- The latest Sync: its number and local receipt; t2 − t1 of the latest pair; the path delay measured. -/
  sync : Option (Nat × Nat) := none
  ms : Option Int := none
  delay : Option Int := none
  /-- The latest Delay_Req sent: its number and local time. -/
  req : Option (Nat × Nat) := none
  reqSeq : Nat := 0
  syncSeq : Nat := 0
  /-- An offset from this master has been measured. -/
  stepped : Bool := false
  /-- Messages sent, oldest first: link, kind (0 Sync, 1 Announce, 2 Delay_Req, 3 Follow_Up, 4 Delay_Resp), number, time. -/
  sent : List (Nat × Nat × Nat × Nat) := []
deriving DecidableEq, Repr

/-- The link hub (R378). -/
structure Hub where
  node : Nat := 0
  nvalid : Bool := false
  cto : Nat := 4000
  rto : Nat := 20
  /-- Peer-group descriptors and member entries (R401): NODE, KEY and OFFSET of a member as one number. -/
  groups : Sparse Nat := []
  members : Sparse Nat := []
  conns : Sparse Conn := []
  sources : Sparse Source := []
  routes : Sparse Nat := []
  links : Sparse Link := []
  keys : Sparse Key := []
  editions : Sparse Edition := []
  replies : List Reply := []
  ops : List HubOp := []
  /-- Messages sent to the own node and not yet arrived (R381). -/
  loop : List Msg := []
  /-- Reports not yet read (R397, R417 source 6): code, reason, group, edition, least held. -/
  reports : List (Nat × Nat × Nat × Nat × Nat) := []
  ptp : Ptp := {}
deriving DecidableEq, Repr

/-- An answer of the SPDM responder (R439): request code, and its content: numbers, and the signatures of a signed one. -/
structure SpdmAnswer where
  req : Nat
  body : List Nat := []
  rsa : Option Nat := none
  slh : Option Nat := none
deriving DecidableEq, Repr

/-- The SPDM responder (R439): how far negotiation has come (0 none, 1 version, 2 capabilities, 3 algorithms), the transcript, the session
(its number and whether FINISH has passed), and the answers given. -/
structure Spdm where
  stage : Nat := 0
  transcript : List (List Nat) := []
  session : Option (Nat × Bool) := none
  answers : List SpdmAnswer := []
  /-- The transcript at each signed answer, by its number. -/
  marks : List (List (List Nat)) := []
  /-- CXL IDE keys by stream and kind (R413). -/
  ideKeys : Sparse Nat := []
deriving DecidableEq, Repr

/-- The state of the module. -/
structure State where
  /-- Model's own: the interleaving of agents still to come. -/
  agenda : List Turn
  /-- Model's own: the core whose turn it is. -/
  cur : Nat
  /-- Model's own: makes each free value fresh. -/
  freeCtr : Nat
  /-- Model's own: the number of the next engine operation. -/
  nextId : Nat
  /-- Model's own: operations issued and not yet performed. -/
  live : List LiveOp
  /-- CYCLE (R13) and GTIME (R14). -/
  cycle : Nat
  gtime : Nat
  /-- The boot path has run (R462). -/
  booted : Bool
  /-- The device SEED (R161). -/
  seedReg : Word
  /-- Every memory of the module and of the host, as one canonical byte list over the spaces of `Machine.Ops`. -/
  mem : List Host.Cell
  /-- Keys of check words that hold an uncorrectable error (R468). -/
  bad : List Nat
  cores : Sparse Core
  tiles : Sparse Tile
  /-- Descriptors, key 32 × PTILE + d; those of stream contexts at 65,536 + context. -/
  descs : Sparse Desc
  /-- Flits queued at a descriptor (R234) and flits in flight from it (R20), oldest first. -/
  queued : Sparse (List Flit)
  /-- Of a descriptor, the cycle in which a flit last entered its buffer, and how many entered in that cycle (R29). -/
  entered : Sparse (Nat × Nat)
  flight : Sparse (List Flight)
  regions : Sparse Region
  /-- The region-root table (R107). -/
  roots : Sparse Word
  ccroots : Word
  ccrootm : Word
  /-- Translations held, oldest first (R112): by firing core, by plate, by control core, by stream context. -/
  tlb : Sparse (List TlbEntry)
  /-- Network operations in flight of each tile, oldest first (R274). -/
  netOps : Sparse (List NetOp)
  mats : Sparse Mat
  /-- Stream contexts, key 16 × streamer + context; those of the firmware at 2,048 + number (R310). -/
  ctxs : Sparse Ctx
  plates : Sparse Plate
  /-- Groups by package slot (R261). -/
  groups : Sparse (Option Group)
  queues : Sparse Queue
  /-- The queue from which the latest packet at an address was popped, plus 1 (R56). -/
  pops : Sparse Nat
  /-- Admission numbers given (R426), and the cancel points in force: job, number (R430). -/
  admission : Nat
  cancels : Sparse Nat
  /-- MSI-X vectors sent to the host, oldest first. -/
  msix : List Nat
  fw : Firmware
  pkg : Package
  hub : Hub
  spdm : Spdm
  /-- The CXL error log (R417 source 10). -/
  cxlErr : List Word
  /-- The data of the host's latest read of HBM (R413). -/
  hdmData : Nat
  /-- The data of the host's latest read of BAR0 (R415). -/
  hostData : Word
  /-- Nanoseconds of the module's reference clock since reset (R407, R440), and the part of a nanosecond beyond them, in units of
  1 / 2,162,160 ns, of which a cycle at every FSTEP is a whole number (R458). -/
  refClock : Nat
  subNs : Nat
  /-- The part of a nanosecond that GTIME has counted beyond its value, in units of 1 / 2,162,160,000,000,000 ns (R407). -/
  subG : Nat
  /-- Uncorrectable errors counted, key 16 × die + class (R466), corrected errors, and each die's latest corrected word. -/
  hardErr : Sparse Nat
  softErr : Sparse Nat
  /-- Of each counter, the cycle of its latest increments and their number, which a write in that cycle precedes (R466): hardErr's keys, and
  softErr's from 32. -/
  counted : Sparse (Nat × Nat)
  lastSoft : Vector Word 2
  /-- TINV in progress on a die, as written, and TINVS.ERR (R114). -/
  tinvBusy : Vector (Option Word) 2
  tinvErr : Vector Bool 2
deriving DecidableEq, Repr

/-- The machine right after reset: CYCLE 0, nothing running until the boot path of R462 has run. -/
def State.reset : State where
  agenda := []
  cur := 2048
  freeCtr := 0
  nextId := 0
  live := []
  cycle := 0
  gtime := 0
  booted := false
  seedReg := 0
  mem := []
  bad := []
  cores := []
  tiles := []
  descs := []
  queued := []
  entered := []
  flight := []
  regions := []
  roots := []
  ccroots := 0
  ccrootm := 0
  tlb := []
  netOps := []
  mats := []
  ctxs := []
  plates := []
  groups := []
  queues := []
  pops := []
  admission := 0
  cancels := []
  msix := []
  fw := {}
  pkg := {}
  hub := {}
  spdm := {}
  cxlErr := []
  hdmData := 0
  hostData := 0
  refClock := 0
  subNs := 0
  subG := 0
  hardErr := []
  softErr := []
  counted := []
  lastSoft := #v[0, 0]
  tinvBusy := #v[none, none]
  tinvErr := #v[false, false]

end Sys2Proof.Machine
end

