-- ==== Sys2Proof/Machine/Regs.lean ====
section
/-! DEFINITION. Accessors of the state: the registers of the core whose turn it is, tiles, regions and descriptors by number, the
configured fields of a tile (R340 to R344), the memories and their check words (R16, R99, R135, R278, R279, R468). -/

namespace Sys2Proof.Machine

/-- A number as a 64-bit word. -/
abbrev word (n : Nat) : Word := BitVec.ofNat 64 n

/-- Field [lo+w−1:lo] of a word, as a number (R6). -/
def fieldOf (x : Word) (lo w : Nat) : Nat := bits x.toNat lo w

/-! ## Registers -/

/-- The core whose turn it is. -/
def State.core (s : State) : Core := Sparse.get {} s.cores s.cur

def State.setCore (s : State) (c : Core) : State := { s with cores := Sparse.set {} s.cores s.cur c }

def State.mapCore (s : State) (f : Core → Core) : State := s.setCore (f s.core)

/-- The core of a number. -/
def State.coreAt (s : State) (n : Nat) : Core := Sparse.get {} s.cores n

def State.setCoreAt (s : State) (n : Nat) (c : Core) : State := { s with cores := Sparse.set {} s.cores n c }

/-- Whether the turn is a firing core's. -/
def State.isFiring (s : State) : Bool := decide (s.cur < 2048)

/-- CCORE of the current control core (R161). -/
def State.ccore (s : State) : Nat := s.cur - 2048

/-- s registers; s0 reads zero (R140). -/
def Core.sreg (c : Core) (n : Nat) : Word := if n = 0 then 0 else c.s[n]?.getD 0

/-- A write to an s register; to s0 it is discarded (R140). -/
def Core.setS (c : Core) (n : Nat) (x : Word) : Core := if n = 0 then c else { c with s := c.s.setIfInBounds n x }

/-- p registers; p0 reads true (R140). -/
def Core.preg (c : Core) (n : Nat) : Bool := if n = 0 then true else c.p[n]?.getD false

def Core.setP (c : Core) (n : Nat) (x : Bool) : Core := if n = 0 then c else { c with p := c.p.setIfInBounds n x }

/-- v registers by code 32 + n (R139). -/
def Core.vreg (c : Core) (code : Nat) : VReg := c.v[code - 32]?.getD 0

/-- A write of a whole v register, which clears an uncorrectable error of its word (R226). -/
def Core.setV (c : Core) (code : Nat) (x : VReg) : Core :=
  { c with v := c.v.setIfInBounds (code - 32) x, badReg := c.badReg.filter (· ≠ code) }

/-- m registers; m0 reads all ones (R140). -/
def Core.mreg (c : Core) (n : Nat) : MReg := if n = 0 then BitVec.allOnes 128 else c.m[n]?.getD 0

def Core.setM (c : Core) (n : Nat) (x : MReg) : Core :=
  if n = 0 then c else { c with m := c.m.setIfInBounds n x, badReg := c.badReg.filter (· ≠ 64 + n) }

/-- o registers; o0 holds the empty set (R140). -/
def Core.oset (c : Core) (n : Nat) : List Nat := if n = 0 then [] else c.o[n]?.getD []

def Core.setO (c : Core) (n : Nat) (x : List Nat) : Core := if n = 0 then c else { c with o := c.o.setIfInBounds n x }

def State.sreg (s : State) (n : Nat) : Word := s.core.sreg n
def State.preg (s : State) (n : Nat) : Bool := s.core.preg n
def State.vreg (s : State) (n : Nat) : VReg := s.core.vreg n
def State.mreg (s : State) (n : Nat) : MReg := s.core.mreg n
def State.setS (s : State) (n : Nat) (x : Word) : State := s.mapCore (fun c => c.setS n x)
def State.setP (s : State) (n : Nat) (x : Bool) : State := s.mapCore (fun c => c.setP n x)
def State.setV (s : State) (n : Nat) (x : VReg) : State := s.mapCore (fun c => c.setV n x)
def State.setM (s : State) (n : Nat) (x : MReg) : State := s.mapCore (fun c => c.setM n x)

/-- Flags of a firing core accumulate in FSTAT (R83); control cores keep none (R161). -/
def State.raise (s : State) (flags : Nat) : State :=
  if s.isFiring then s.mapCore (fun c => { c with fstat := c.fstat ||| word (flags % 128) }) else s

/-- The guard of a word (R136). -/
def State.guardTrue (s : State) (g : Guard) : Bool := s.preg g.pred != g.neg

/-- RPTST.DONE of R151. -/
def Core.rptDone (c : Core) : Nat := fieldOf c.rptst 0 6

/-- RPTST.ACTIVE of R151. -/
def Core.rptActive (c : Core) : Bool := fieldOf c.rptst 6 1 == 1

/-- No instruction is in progress: what a wait, a repeat step or an engine's function held is over. -/
def Core.settle (c : Core) : Core :=
  { c with rep := none, waitFrom := none, waitOp := none, holds := none, shut := false, checked := false, issued := none, adm := none, pkt := 0, want := none }

/-- The end of an instruction that goes on to the next word (R135), or of one repeat of a pair of n (R149): the last repeat leaves RPTST
zero and the program counter past the pair. A wait that held the instruction is over. -/
def Core.advance (c : Core) : Core :=
  match c.rep with
  | none => { c.settle with pc := c.pc + 8 }
  | some n =>
    if c.rptDone + 1 < n then { c.settle with rptst := word (c.rptDone + 1 + 64) }
    else { c.settle with rptst := 0, pc := c.pc + 16, pair := none }

def State.advance (s : State) : State := s.mapCore Core.advance

/-- A taken branch or jump (R151, R177). -/
def Core.goto (c : Core) (pc : Word) : Core := { c.settle with pc := pc, rptst := 0, pair := none }

/-! ## Tiles, regions, descriptors -/

def State.tile (s : State) (p : Nat) : Tile := Sparse.get {} s.tiles p
def State.setTile (s : State) (p : Nat) (t : Tile) : State := { s with tiles := Sparse.set {} s.tiles p t }
/-- Every tile that differs from its reset state, changed. -/
def State.mapTiles (s : State) (f : Tile → Tile) : State :=
  { s with tiles := s.tiles.foldl (fun m e => Sparse.set {} m e.1 (f e.2)) s.tiles }
def State.region (s : State) (g : Nat) : Region := Sparse.get {} s.regions g
def State.setRegion (s : State) (g : Nat) (r : Region) : State := { s with regions := Sparse.set {} s.regions g r }
def State.mapRegion (s : State) (g : Nat) (f : Region → Region) : State := s.setRegion g (f (s.region g))
def State.desc (s : State) (k : Nat) : Desc := Sparse.get {} s.descs k
def State.setDesc (s : State) (k : Nat) (d : Desc) : State := { s with descs := Sparse.set {} s.descs k d }

/-! ## Sets of numbers -/

/-- A number put into an ascending list without repeats. -/
def insertNat (x : Nat) : List Nat → List Nat
  | [] => [x]
  | y :: ys => if x < y then x :: y :: ys else if x = y then y :: ys else y :: insertNat x ys

/-- A list as an ascending one without repeats. -/
def sortNats (l : List Nat) : List Nat := l.foldr insertNat []

/-- R347: a pair is a region's. -/
def pairOwned (x g : Nat) : Bool := x.testBit 3 && bits x 4 7 == g

/-- R10: the physical plate of a tile. -/
def plateOf (p : Nat) : Nat := p / 1024 * 64 + p % 1024 / 32 / 4 * 8 + p % 32 / 4

/-- R103: the physical tile of index i in a physical plate. -/
def tileOf (plate i : Nat) : Nat := plate / 64 * 1024 + (4 * (plate % 64 / 8) + i / 4) * 32 + 4 * (plate % 8) + i % 4

/-- The die of a tile, 0 or 1 (R9). -/
def dieOf (p : Nat) : Nat := p / 1024

/-- R103: logical tile l of a region as a physical tile; none beyond the region. -/
def Region.resolve (r : Region) (l : Nat) : Option Nat :=
  if l < 16 * r.npl then (r.map[l / 16]?).map (fun pp => tileOf pp (l % 16)) else none

/-- The physical tiles of a region, in logical order. -/
def Region.tiles (r : Region) : List Nat := r.map.flatMap (fun pp => (List.range 16).map (tileOf pp))

/-- The index of a value in a list. -/
def indexOf? (x : Nat) : List Nat → Nat → Option Nat
  | [], _ => none
  | y :: ys, i => if x = y then some i else indexOf? x ys (i + 1)

/-- R102, R103: the region that holds a tile and its logical number there. -/
def State.owner (s : State) (p : Nat) : Option (Nat × Nat) :=
  s.regions.findSome? (fun (g, r) =>
    if r.live then (indexOf? (plateOf p) r.map 0).map (fun i => (g, 16 * i + (p % 1024 / 32 % 4 * 4 + p % 4))) else none)

/-- The region number of a tile; 0 where no region holds it. -/
def State.regionOf (s : State) (p : Nat) : Nat := ((s.owner p).map Prod.fst).getD 0

/-- The logical number of a tile; 0 where no region holds it. -/
def State.ltileOf (s : State) (p : Nat) : Nat := ((s.owner p).map Prod.snd).getD 0

/-! ## Configured fields -/

/-- Key of an etch field in a plane: field number, selected object, rate set, running index (R340). -/
def cfgKey (f obj r idx : Nat) : Nat := ((f * 64 + obj) * 8 + r) * 256 + idx

def Tile.cfg (t : Tile) (f obj r idx : Nat) : Nat := Sparse.get 0 t.plane (cfgKey f obj r idx)

/-- The fields of R341 of a slot, the R-marked ones for a rate set. -/
def Tile.aindex (t : Tile) (a : Nat) : Nat := t.cfg 1 a 0 0
def Tile.acopy (t : Tile) (a : Nat) : Nat := bits (t.cfg 2 a 0 0) 0 6
def Tile.arep (t : Tile) (a : Nat) : Nat := bits (t.cfg 2 a 0 0) 6 7
def Tile.afirst (t : Tile) (a : Nat) : Nat := t.cfg 3 a 0 0
def Tile.phases (t : Tile) (a r : Nat) : Nat := t.cfg 4 a r 0
/-- The actor's repetition count q: AQ holds q / n − 1 (R341). -/
def Tile.aq (t : Tile) (a r : Nat) : Nat := (t.cfg 5 a r 0 + 1) * t.arep a
def Tile.fmax (t : Tile) (a : Nat) : Nat := t.cfg 6 a 0 0
def Tile.privOff (t : Tile) (a : Nat) : Nat := 64 * bits (t.cfg 7 a 0 0) 0 13
def Tile.privLen (t : Tile) (a : Nat) : Nat := 64 * bits (t.cfg 7 a 0 0) 13 13
def Tile.stateLen (t : Tile) (a : Nat) : Nat := 64 * t.cfg 8 a 0 0
def Tile.apol (t : Tile) (a : Nat) : Nat := t.cfg 9 a 0 0
def Tile.entry (t : Tile) (a ph : Nat) : Nat := 8 * t.cfg 10 a 0 ph
/-- The count of a port, by its w number, in a phase (R33, ARATEDAT). -/
def Tile.rate (t : Tile) (a r w ph : Nat) : Nat := t.cfg 12 a r (w + 16 * ph)
def Tile.avalid (t : Tile) (a : Nat) : Bool := t.cfg 13 a 0 0 == 1
def Tile.readyFirst (t : Tile) : Bool := bits (t.cfg 113 0 0 0) 0 1 == 1
def Tile.schedLen (t : Tile) : Nat := bits (t.cfg 113 0 0 0) 1 7
def Tile.schedEntry (t : Tile) (i : Nat) : Nat := t.cfg 115 0 0 i

def Tile.slot (t : Tile) (a : Nat) : ActorSlot := t.slots[a]?.getD {}
def Tile.setSlot (t : Tile) (a : Nat) (x : ActorSlot) : Tile := { t with slots := t.slots.setIfInBounds a x }

/-- R34: the phase counter of a slot in a rate set. -/
def Tile.phase (t : Tile) (a r : Nat) : Nat := ((t.slot a).firing - (t.slot a).k0) % (t.phases a r)

/-- The firing core's tile, and the firing in progress there. -/
def State.myTile (s : State) : Tile := s.tile s.cur
def State.firingNow (s : State) : Firing := (s.myTile.firing).getD {}
def State.mapFiring (s : State) (f : Firing → Firing) : State :=
  s.setTile s.cur { s.myTile with firing := (s.myTile.firing).map f }

/-- The rate set in force on a tile (R64). -/
def State.modeOf (s : State) (p : Nat) : Nat := (s.region (s.regionOf p)).mode

/-! ## Memories

Each memory has a base in one key space, so that one canonical byte list holds them all. -/

def hbmBase : Nat := 0
def tileBase (p : Nat) : Nat := 2 ^ 40 + p * 2 ^ 19
def imemBase (p : Nat) : Nat := 2 ^ 41 + p * 2 ^ 16
def privBase (n : Nat) : Nat := 2 ^ 42 + n * 2 ^ 19
def opndBase (p : Nat) : Nat := 2 ^ 43 + p * 2 ^ 17
def scaleBase (p : Nat) : Nat := 2 ^ 44 + p * 2 ^ 13
def accBase (p : Nat) : Nat := 2 ^ 45 + p * 2 ^ 18
def flashBase (b : Nat) : Nat := 2 ^ 46 + b * 2 ^ 23
def hostBase : Nat := 2 ^ 64

/-- Whether a key lies in a memory under SECDED (R468): tile, instruction, private, operand and accumulator memory. -/
def eccKey (k : Nat) : Bool := decide (2 ^ 40 ≤ k ∧ k < 2 ^ 46)

/-- The check word of a key (R468). -/
def checkWord (k : Nat) : Nat := k / 8 * 8

/-- A read of n bytes at a key meets an uncorrectable error (R468). -/
def State.readBad (s : State) (k n : Nat) : Bool := s.bad.any (fun w => decide (w < k + n ∧ k < w + 8))

/-- A write of n bytes at a key covers part of a bad check word (R468). -/
def State.writeBad (s : State) (k n : Nat) : Bool :=
  s.bad.any (fun w => decide (w < k + n ∧ k < w + 8) && !decide (k ≤ w ∧ w + 8 ≤ k + n))

/-- n bytes at a key, as a number (R3). -/
def State.rd (s : State) (k n : Nat) : Nat := Sparse.bytes s.mem k n

/-- Writes n bytes at a key; check words written whole lose their error (R468). A word's caller has made the check of `writeBad`. -/
def State.wr (s : State) (k n v : Nat) : State :=
  { s with mem := Sparse.setBytes s.mem k n v, bad := s.bad.filter (fun w => !decide (k ≤ w ∧ w + 8 ≤ k + n)) }

/-- The bytes at a key, as a list. -/
def State.rdList (s : State) (k n : Nat) : List Byte := (List.range n).map (fun i => Sparse.get 0 s.mem (k + i))

/-- Writes a list of bytes at a key. -/
def State.wrList (s : State) (k : Nat) : List Byte → State
  | [] => s
  | b :: bs => State.wrList (s.wr k 1 b.toNat) (k + 1) bs

/-- Writes whole check words: a list of bytes at a key, errors of the covered words cleared (R468). -/
def State.wrBlock (s : State) (k : Nat) (bs : List Byte) : State :=
  let t := ({ s with bad := s.bad.filter (fun w => !decide (k ≤ w ∧ w + 8 ≤ k + bs.length)) } : State).wrList k bs
  { s with mem := t.mem, bad := t.bad }

/-- Zeroes a range of memory with its check bits (R358, R468). -/
def State.zero (s : State) (k n : Nat) : State :=
  { s with mem := Sparse.clear s.mem k n, bad := s.bad.filter (fun w => decide (w < k) || decide (k + n ≤ w)) }

/-- Copies n bytes between keys, for moves of whole memories. A word that holds an uncorrectable error is copied as its bytes stand, with fresh
check bits: the spec does not say what the copy holds (DESIGN CHOICE, assumption 102). -/
def State.copyMem (s : State) (src dst n : Nat) : State :=
  let t := (s.zero dst n).wrList dst (s.rdList src n)
  { s with mem := t.mem, bad := t.bad }

/-- A fresh free value (the spec leaves the value open). -/
def State.free (s : State) : Word × State := (Config.freeWord s.freeCtr, { s with freeCtr := s.freeCtr + 1 })

/-- Issues an operation of the current core: its number, which OM's set gains (R122, R126). `eng` marks an engine operation, for which
`fend` waits (R129). -/
def State.issueOp (s : State) (om : Nat) (eng : Bool) : Nat × State :=
  let id := s.nextId
  let s := { s with nextId := id + 1, live := s.live ++ [LiveOp.mk id s.cur eng] }
  (id, s.mapCore (fun c => c.setO om (c.oset om ++ [id])))

/-- An operation is performed. -/
def State.retire (s : State) (id : Nat) : State := { s with live := s.live.filter (fun e => e.id ≠ id) }

def State.retireOpt (s : State) (id : Option Nat) : State :=
  match id with
  | some i => s.retire i
  | none => s

/-- R129: `fend` waits for operation `id` no more: a command is accepted (R320), an `edst` answered (R392). -/
def State.engRelease (s : State) (id : Nat) : State :=
  { s with live := s.live.map (fun e => if e.id = id then { e with eng := false } else e) }

/-- An operation has been issued and not yet performed. -/
def State.isLive (s : State) (id : Nat) : Bool := s.live.any (fun e => e.id == id)

/-- R117: a scope that holds no agent of another device. -/
def nearScope (sc : Nat) : Bool := Nat.blt sc 8

/-- R396: an answered `edst` is performed at every scope of this device: its own copy, where it has one, has applied it. -/
def State.edstNear (s : State) (id : Nat) : Bool :=
  s.hub.ops.any (fun o => o.id == id && o.fn == 18 &&
    (let e := Sparse.get {} s.hub.editions o.target
     !e.member || Nat.ble o.edition e.applied))

/-- Operation `id` is performed at a scope (R117). -/
def State.performed (s : State) (sc id : Nat) : Bool := !s.isLive id || (nearScope sc && s.edstNear id)

/-- Every access of an order register's set has been performed at the SCOPE of the word being executed (R122). -/
def State.setDone (s : State) (ow : Nat) : Bool := (s.core.oset ow).all (s.performed (bits s.core.ir 16 4))

/-- Every operation of the current core is performed at a scope (R125). -/
def State.noneLive (s : State) (sc : Nat) : Bool := s.live.all (fun e => e.core != s.cur || s.performed sc e.id)

/-- No engine operation of the current core is outstanding (R129). -/
def State.engDone (s : State) : Bool := s.live.all (fun e => e.core != s.cur || !e.eng)

end Sys2Proof.Machine
end

