-- ==== Sys2Proof/Machine/MatrixTags.lean ====
section
/-! DEFINITION. The tags of the matrix engine (R280 to R285): the uses commands make of slots and blocks, the transitions they cause, and
what the start, commit and discard of a firing do to them. -/

namespace Sys2Proof.Machine

def State.mat (s : State) (p : Nat) : Mat := Sparse.get {} s.mats p
def State.setMat (s : State) (p : Nat) (x : Mat) : State := { s with mats := Sparse.set {} s.mats p x }
def State.mapMat (s : State) (p : Nat) (f : Mat → Mat) : State := s.setMat p (f (s.mat p))

/-- What a command does to a slot (R282). -/
inductive SlotUse where
  | claim (keep : Bool) | rel | scl | write | read
deriving DecidableEq, Repr

/-- What a command does to a block (R283): `int` is the KIND its TYPE asks for. -/
inductive BlockUse where
  | zero (int : Bool) | start (int fin : Bool) | acc (int fin : Bool) | drain (keep : Bool)
deriving DecidableEq, Repr

/-- R282, R284: the next tag of a slot for a command of actor slot a, or the code of the state found; a write to a FULL slot with both RELP and
KEEP reports 4 (DESIGN CHOICE, assumption 109). -/
def SlotTag.next (t : SlotTag) (u : SlotUse) (a : Nat) : Except Nat SlotTag :=
  match u with
  | .claim keep => if t.tag = 0 then .ok { tag := 1, owner := a, keep := keep } else if t.owner ≠ a then .error 3 else .error t.tag
  | _ =>
    if t.tag = 0 then .error 0
    else if t.owner ≠ a then .error 3
    else match u with
      | .read => if t.tag = 2 then .ok t else .error t.tag
      | .rel => if t.relp then .error 4 else if t.keep then .ok { t with relp := true } else .ok {}
      | .write => if t.relp then .error 4 else if t.keep ∧ t.tag = 2 then .error 5 else .ok { t with tag := 2 }
      | _ => if t.relp then .error 4 else if t.keep ∧ t.tag = 2 then .error 5 else .ok t

/-- R284: the codes a use would have accepted, as a mask. -/
def SlotUse.mask : SlotUse → Nat
  | .claim _ => 1
  | .read => 4
  | _ => 6

/-- R283, R284: the next tag of a block, or the code of the state found. -/
def BlockTag.next (t : BlockTag) (u : BlockUse) : Except Nat BlockTag :=
  match u with
  | .zero i => if t.tag = 0 then .ok { tag := 1, int := i } else .error t.tag
  | .start i fin => if t.tag = 0 then .ok { tag := if fin then 2 else 1, int := i } else .error t.tag
  | .acc i fin => if t.tag ≠ 1 then .error t.tag else if t.int ≠ i then .error 6 else .ok { tag := if fin then 2 else 1, int := i }
  | .drain keep => if t.tag ≠ 2 then .error t.tag else .ok (if keep then t else {})

def BlockUse.mask : BlockUse → Nat
  | .acc _ _ => 2
  | .drain _ => 4
  | _ => 1

/-- The failure at the least slot, the earliest of the list among those at one slot. -/
def leastFailure : List (Nat × Nat × Nat) → Option (Nat × Nat × Nat)
  | [] => none
  | e :: es => match leastFailure es with
    | some x => some (if x.1 < e.1 then x else e)
    | none => some e

/-- The tags after the uses of a command, each checked against the tags as they stand before it; of those that fail the least slot gives
number, code and mask (R284). -/
def stepSlots (a : Nat) (us : List (Nat × SlotUse)) (m : Sparse SlotTag) : Except (Nat × Nat × Nat) (Sparse SlotTag) :=
  let fails := us.filterMap (fun (q, u) =>
    match (Sparse.get {} m q).next u a with
    | .error c => some (q, c, u.mask)
    | .ok _ => none)
  match leastFailure fails with
  | some e => .error e
  | none => .ok (us.foldl (fun m (q, u) =>
      match (Sparse.get {} m q).next u a with
      | .ok t => Sparse.set {} m q t
      | .error _ => m) m)

def stepBlocks : List (Nat × BlockUse) → Sparse BlockTag → Except (Nat × Nat × Nat) (Sparse BlockTag)
  | [], m => .ok m
  | (b, u) :: us, m =>
    match (Sparse.get {} m b).next u with
    | .error c => .error (0x100 + b, c, u.mask)
    | .ok t => stepBlocks us (Sparse.set {} m b t)

/-! ## The fields of a queued command (R287, R288) -/

def MatCmd.fn (c : MatCmd) : Nat := bits c.word 46 6
def MatCmd.d (c : MatCmd) : Nat := bits c.word 40 6
def MatCmd.a (c : MatCmd) : Nat := bits c.word 34 6
def MatCmd.b (c : MatCmd) : Nat := bits c.word 28 6
def MatCmd.om (c : MatCmd) : Nat := bits c.word 20 4
/-- Rows and columns of the region of `mzero`, `mma`, `mmag` and `mdrain`, and its first row block. -/
def MatCmd.m (c : MatCmd) : Nat := if c.fn = 8 then 64 else 16 * 2 ^ bits c.word 14 2
def MatCmd.n (c : MatCmd) : Nat := let nc := if c.fn = 8 then bits c.word 6 6 else bits c.word 8 6; if nc = 0 then 1024 else 16 * nc
def MatCmd.row (c : MatCmd) : Nat := if c.fn = 8 then 0 else bits c.word 2 2
def MatCmd.ty (c : MatCmd) : Nat :=
  if c.fn = 6 ∨ c.fn = 7 then bits c.word 4 4 else if c.fn = 8 then bits c.word 2 4 else bits c.word 12 4
def MatCmd.st (c : MatCmd) : Bool := c.word.testBit 1
def MatCmd.fin (c : MatCmd) : Bool := c.word.testBit 0
def MatCmd.ldr (c : MatCmd) : Nat := bits c.word 12 4
def MatCmd.rows (c : MatCmd) : Nat := (if c.fn = 2 then bits c.word 11 5 else bits c.word 7 5) + 1

/-- R283, R288: the blocks of a command's region, ascending. -/
def MatCmd.region (c : MatCmd) : List Nat :=
  (List.range (c.m / 16)).flatMap (fun g => (List.range (c.n / 16)).map (fun x => 64 * (c.row + g) + c.d + x))

/-- The index of a tile in its plate (R10). -/
def tileIndex (p : Nat) : Nat := p % 1024 / 32 % 4 * 4 + p % 4

/-- R282: the slots a command uses on tile p, ascending. -/
def MatCmd.slots (c : MatCmd) (p : Nat) : List (Nat × SlotUse) :=
  let from_ (q n : Nat) (u : SlotUse) : List (Nat × SlotUse) := (List.range n).map (fun i => (q + i, u))
  match c.fn with
  | 0 => from_ c.d (bits c.word 0 6 + 1) (.claim (c.word.testBit 6))
  | 1 => from_ c.d (bits c.word 0 6 + 1) .rel
  | 2 => [(c.d, if c.word.testBit 10 then .scl else .write)]
  | 3 | 4 => [(c.d, .write)]
  | 5 =>
    let n := 16 / (if c.ty = 0 ∨ c.ty = 7 then 4 else if c.ty = 10 ∨ c.ty = 11 then 16 else 8)
    if c.a < c.d then from_ c.a n .read ++ from_ c.d n .write else from_ c.d n .write ++ from_ c.a n .read
  | 7 | 8 =>
    let na := if c.m = 64 then 2 else 1
    let ub : SlotUse := if c.fn = 7 ∨ tileIndex p = c.ldr then .read else .write
    if c.a ≤ c.b then from_ c.a na .read ++ from_ c.b ((c.n + 31) / 32) ub else from_ c.b ((c.n + 31) / 32) ub ++ from_ c.a na .read
  | _ => []

/-- R283: the blocks a command uses. -/
def MatCmd.blocks (c : MatCmd) : List (Nat × BlockUse) :=
  let u (x : BlockUse) : List (Nat × BlockUse) := c.region.map (fun b => (b, x))
  match c.fn with
  | 6 => u (.zero (decide (c.ty ≤ 6)))
  | 7 | 8 => u (if c.st then .start (decide (c.ty ≤ 6)) c.fin else .acc (decide (c.ty ≤ 6)) c.fin)
  | 9 => u (.drain (c.word.testBit 1))
  | _ => []

/-- R286: a command must wait for an earlier one: a slot one of them writes, or a block, in common. -/
def MatCmd.after (c e : MatCmd) (p : Nat) : Bool :=
  (c.slots p).any (fun x => (e.slots p).any (fun y => x.1 == y.1 && (x.2 != .read || y.2 != .read))) ||
    c.blocks.any (fun x => e.blocks.any (fun y => x.1 == y.1))

/-- The commands of a queue that the engine cannot let start by itself: those of which `awaits` says so, and those that wait for such a
command. -/
def stuckCmds (awaits : MatCmd → Bool) (p : Nat) (q : List MatCmd) : List MatCmd :=
  q.foldl (fun acc c => if !c.started && (awaits c || acc.any (fun e => c.after e p)) then acc ++ [c] else acc) []

/-- R186: some command issued before operation n will still run, and may trap. -/
def Mat.mayTrap (x : Mat) (awaits : MatCmd → Bool) (p n : Nat) : Bool :=
  (x.queue.filter (fun c => c.id < n)).any (fun c => !(stuckCmds awaits p x.queue).contains c)

/-- Tags after a command that has passed its checks; unchanged where a use is refused. -/
def Mat.complete (x : Mat) (p a : Nat) (c : MatCmd) : Mat :=
  match stepSlots a (c.slots p) x.slots, stepBlocks c.blocks x.blocks with
  | .ok sl, .ok bl => { x with slots := sl, blocks := bl }
  | _, _ => x

/-- R285: the least block that is not EMPTY, and its tag. -/
def Mat.openBlock (x : Mat) : Option (Nat × Nat) := (x.blocks.find? (fun e => e.2.tag ≠ 0)).map (fun e => (e.1, e.2.tag))

/-- R282: the tags at the start of a firing. -/
def State.matStart (s : State) (p : Nat) : State := s.mapMat p (fun x => { x with snap := x.slots })

/-- R282: a commit frees the slots held by actor slot a but for KEEP claims not released. -/
def Mat.commit (x : Mat) (a : Nat) : Mat :=
  let sl := x.slots.filter (fun e => !(e.2.owner == a && (!e.2.keep || e.2.relp)))
  { x with slots := sl, pslots := sl, pblocks := x.blocks, snap := [] }

def State.matCommit (s : State) (p a : Nat) : State := s.mapMat p (fun x => x.commit a)

/-- R282, R285: a discard drops the commands that have not started, completes those that have, frees the slots claimed during the firing
and restores the tags of those claimed before it, and empties every block. -/
def Mat.discard (x : Mat) (p a : Nat) : Mat :=
  let x := (x.queue.filter MatCmd.started).foldl (fun x c => x.complete p a c) x
  let back (q : Nat) (t : SlotTag) : SlotTag :=
    let old := Sparse.get {} x.snap q
    if t.owner = a ∧ t.tag ≠ 0 then (if old.keep ∧ old.owner = a then old else {}) else t
  let sl := (x.slots.map (fun e => (e.1, back e.1 e.2))).filter (fun e => e.2 ≠ {})
  { x with slots := sl, pslots := sl, blocks := [], pblocks := [], snap := [], queue := [] }

def State.matDiscard (s : State) (p a : Nat) : State :=
  let ids := (s.mat p).queue.map MatCmd.id
  let s := s.mapMat p (fun x => x.discard p a)
  { s with live := s.live.filter (fun e => !ids.contains e.id) }

end Sys2Proof.Machine
end

