-- ==== Sys2Proof/Machine/Numbers.lean ====
section
/-! DEFINITION. Number formats and arithmetic (spec/03): exact values, decoding and rounding in every format, conversions, the correctly
rounded functions, integer division. A floating operation computes an exact value and rounds it once (R77). -/

namespace Sys2Proof.Machine

/-- FSTAT bits (R83). -/
def fNV : Nat := 1
def fDZ : Nat := 2
def fOV : Nat := 4
def fUF : Nat := 8
def fNX : Nat := 16
def fSAT : Nat := 32
def fSKIP : Nat := 64

/-- An exact value: a NaN, an infinity, or sign, magnitude m × 2^e, and whether the true magnitude lies strictly between m and m + 1
units (an irrational or non-dyadic result). Zeros carry a sign (R78). -/
inductive Num where
  | nan
  | inf (neg : Bool)
  | fin (neg : Bool) (m : Nat) (e : Int) (more : Bool)
deriving DecidableEq, Repr

/-- A floating format (R70, R71): fraction bits, bias, encoding of the greatest finite magnitude, width, infinities, canonical NaN. -/
structure Fmt where
  f : Nat
  bias : Nat
  maxEnc : Nat
  width : Nat
  hasInf : Bool
  nan : Nat
deriving DecidableEq, Repr

/-- R70, R71: the format of a floating type code; f32 for any other code. e2m1 has no NaN, and R81 delivers +0 for one. -/
def fmtOf : Nat → Fmt
  | 7 => ⟨1, 1, 0x7, 4, false, 0⟩
  | 8 => ⟨3, 7, 0x7E, 8, false, 0x7F⟩
  | 9 => ⟨2, 15, 0x7B, 8, true, 0x7E⟩
  | 10 => ⟨7, 127, 0x7F7F, 16, true, 0x7FC0⟩
  | 11 => ⟨10, 15, 0x7BFF, 16, true, 0x7E00⟩
  | _ => ⟨23, 127, 0x7F7FFFFF, 32, true, 0x7FC00000⟩

/-- R70, R71: the value of an encoding. -/
def Fmt.decode (g : Fmt) (x : Nat) : Num :=
  let neg := x.testBit (g.width - 1)
  let a := x % 2 ^ (g.width - 1)
  if a ≤ g.maxEnc then
    let ex := a / 2 ^ g.f
    let fr := a % 2 ^ g.f
    if ex = 0 then .fin neg fr (1 - (g.bias : Int) - g.f) false
    else .fin neg (2 ^ g.f + fr) ((ex : Int) - g.bias - g.f) false
  else if g.hasInf && a == g.maxEnc + 1 then .inf neg
  else .nan

/-- R72: the value of an e8m0 element. -/
def decodeE8m0 (x : Nat) : Num := if x % 256 = 255 then .nan else .fin false 1 ((x % 256 : Nat) - 127) false

/-- R68: an integer element as an integer. -/
def intOf (ty x : Nat) : Int := if isSignedTy ty then signed (elemWidth ty) x else (x % 2 ^ elemWidth ty : Nat)

/-- An integer as an exact value. -/
def Num.ofInt (i : Int) : Num := .fin (decide (i < 0)) i.natAbs 0 false

/-- The value of an element of any type code. -/
def decodeTy (ty x : Nat) : Num :=
  if isIntTy ty then .ofInt (intOf ty x) else if ty = 13 then decodeE8m0 x else (fmtOf ty).decode (x % 2 ^ elemWidth ty)

def Num.isNan : Num → Bool
  | .nan => true
  | _ => false

def Num.isInf : Num → Bool
  | .inf _ => true
  | _ => false

def Num.isNeg : Num → Bool
  | .nan => false
  | .inf n => n
  | .fin n _ _ _ => n

def Num.isZero : Num → Bool
  | .fin _ 0 _ more => !more
  | _ => false

/-- Whether a magnitude cut at a quantum is moved away from zero (R76, R82): `q` the units kept, `num / 2 ^ sh` the part cut off, `more`
whether something lies below, `r` the draw. -/
def roundsUp (mode r : Nat) (neg : Bool) (q rem sh : Nat) (more : Bool) : Bool :=
  let inexact := decide (rem ≠ 0) || more
  let half := 2 ^ sh
  match mode with
  | 0 => decide (half < 2 * rem) || (decide (half = 2 * rem) && (more || q % 2 == 1))
  | 1 => false
  | 2 => inexact && neg
  | 3 => inexact && !neg
  | 4 => decide (half ≤ 2 * rem) && decide (rem ≠ 0)
  | _ => inexact && decide (r < rem * 65536 / 2 ^ sh)

/-- The magnitude m × 2^e cut at the quantum 2^k: units kept, part cut off, and by how many bits. -/
def cutAt (m : Nat) (e k : Int) : Nat × Nat × Nat :=
  if k ≤ e then (m * 2 ^ (e - k).toNat, 0, 0) else (m / 2 ^ (k - e).toNat, m % 2 ^ (k - e).toNat, (k - e).toNat)

/-- R76, R77, R80 to R82: a finite non-zero value rounded to a format: encoding and flags. `sat` marks a conversion, whose values beyond
a range without infinities deliver the greatest finite value (R81). -/
def Fmt.roundMag (g : Fmt) (mode r : Nat) (neg : Bool) (m : Nat) (e : Int) (more : Bool) : Nat × Nat :=
  let sgn := if neg then 2 ^ (g.width - 1) else 0
  let top : Int := (m.log2 : Int) + e
  let emin : Int := 1 - g.bias
  let k := max (top - g.f) (emin - g.f)
  let (q, rem, sh) := cutAt m e k
  let up := roundsUp mode r neg q rem sh more
  let q' := if up then q + 1 else q
  let inexact := decide (rem ≠ 0) || more
  let enc := if q' < 2 ^ g.f then q' else (k + g.f + g.bias).toNat * 2 ^ g.f + (q' - 2 ^ g.f)
  let lowEnc := if q < 2 ^ g.f then q else (k + g.f + g.bias).toNat * 2 ^ g.f + (q - 2 ^ g.f)
  -- tiny: rounded to the precision with an unbounded exponent range, the magnitude is below the least normal value (R77)
  let (tq, trem, tsh) := cutAt m e (top - g.f)
  let tup := roundsUp mode r neg tq trem tsh more
  let tiny := decide (top < emin) && !(decide (top = emin - 1) && tup && decide (tq + 1 = 2 ^ (g.f + 1)))
  let tooBig := if mode = 5 then decide (g.maxEnc < lowEnc) || (decide (lowEnc = g.maxEnc) && inexact) else decide (g.maxEnc < enc)
  if tooBig then
    let toInf := g.hasInf && (mode == 0 || mode == 4 || (mode == 2 && neg) || (mode == 3 && !neg))
    (sgn + (if toInf then g.maxEnc + 1 else g.maxEnc), fOV + fNX)
  else (sgn + enc, (if inexact then fNX else 0) + (if tiny && inexact then fUF else 0))

/-- A value delivered to a floating format (R77, R79 to R81). -/
def Fmt.round (g : Fmt) (mode r : Nat) (x : Num) : Nat × Nat :=
  match x with
  | .nan => (g.nan, if g.width = 4 then fNV else 0)
  | .inf neg =>
    let sgn := if neg then 2 ^ (g.width - 1) else 0
    if g.hasInf then (sgn + (g.maxEnc + 1), 0) else (sgn + g.maxEnc, fOV)
  | .fin neg m e more =>
    if m = 0 && !more then (if neg then 2 ^ (g.width - 1) else 0, 0) else g.roundMag mode r neg m e more

/-- The least and greatest value of an integer type (R68). -/
def intLo (ty : Nat) : Int := if isSignedTy ty then -(2 ^ (elemWidth ty - 1) : Nat) else 0
def intHi (ty : Nat) : Int := if isSignedTy ty then (2 ^ (elemWidth ty - 1) : Nat) - 1 else (2 ^ elemWidth ty : Nat) - 1

/-- An integer as the bits of a type, modulo 2^w (R69). -/
def intBits (w : Nat) (i : Int) : Nat := (i % (2 ^ w : Nat)).toNat

/-- R88: an exact integer saturated to a type: bits and flags. -/
def satTo (ty : Nat) (i : Int) : Nat × Nat :=
  if i < intLo ty then (intBits (elemWidth ty) (intLo ty), fSAT)
  else if intHi ty < i then (intBits (elemWidth ty) (intHi ty), fSAT)
  else (intBits (elemWidth ty) i, 0)

/-- A finite value rounded to an integer under a rounding code (R76, R82), and whether it was inexact. -/
def roundInt (mode r : Nat) (neg : Bool) (m : Nat) (e : Int) (more : Bool) : Int × Bool :=
  let (q, rem, sh) := cutAt m e 0
  let q' := if roundsUp mode r neg q rem sh more then q + 1 else q
  (if neg then -(q' : Int) else q', decide (rem ≠ 0) || more)

/-- A floating value converted to an integer type (R81); `drain` takes the rule of R88 for `mdrain`, whose bounds raise SAT. -/
def toIntTy (ty mode r : Nat) (drain : Bool) (x : Num) : Nat × Nat :=
  let w := elemWidth ty
  match x with
  | .nan => (0, fNV)
  | .inf neg => (intBits w (if neg then intLo ty else intHi ty), fNV)
  | .fin neg m e more =>
    let (i, inex) := roundInt mode r neg m e more
    let nx := if inex then fNX else 0
    if i < intLo ty then (intBits w (intLo ty), if drain then fSAT + nx else fNV)
    else if intHi ty < i then (intBits w (intHi ty), if drain then fSAT + nx else fNV)
    else (intBits w i, nx)

/-- R213, R74: the exponent of the e8m0 element nearest a positive f32 value is stated where it is used; the value as an f32. -/
def convert (ts td mode r x : Nat) : Nat × Nat :=
  if isIntTy ts && isIntTy td then satTo td (intOf ts x)
  else if isIntTy td then toIntTy td mode r false (decodeTy ts x)
  else (fmtOf td).round mode r (decodeTy ts x)

/-- The signed integer m × 2^(e − k), for k at most e. -/
def scaled (neg : Bool) (m : Nat) (e k : Int) : Int :=
  let a : Int := (m * 2 ^ (e - k).toNat : Nat)
  if neg then -a else a

/-- The exact product of two values and its flags (R79). -/
def Num.mul (a b : Num) : Num × Nat :=
  match a, b with
  | .nan, _ => (.nan, 0)
  | _, .nan => (.nan, 0)
  | .inf n, y => if y.isZero then (.nan, fNV) else (.inf (n != y.isNeg), 0)
  | x, .inf n => if x.isZero then (.nan, fNV) else (.inf (x.isNeg != n), 0)
  | .fin n m e p, .fin n' m' e' p' => (.fin (n != n') (m * m') (e + e') (p || p'), 0)

def Num.neg : Num → Num
  | .nan => .nan
  | .inf n => .inf (!n)
  | .fin n m e p => .fin (!n) m e p

/-- The least exponent among finite non-zero values, from a starting value. -/
def minExp : List Num → Int → Int
  | [], k => k
  | .fin _ m e _ :: xs, k => if m = 0 then minExp xs k else minExp xs (min e k)
  | _ :: xs, k => minExp xs k

/-- The exact integer sum of finite values in units of 2^k. -/
def sumAt (k : Int) : List Num → Int
  | [] => 0
  | .fin n m e _ :: xs => (if m = 0 then 0 else scaled n m e k) + sumAt k xs
  | _ :: xs => sumAt k xs

/-- The exact sum of values, the sign of a zero total taken from R78 under the rounding code, and its flags (R79, R90). -/
def Num.sum (mode : Nat) (xs : List Num) : Num × Nat :=
  if xs.any Num.isNan then
    (.nan, if xs.any (fun x => x.isInf && x.isNeg) && xs.any (fun x => x.isInf && !x.isNeg) then fNV else 0)
  else if xs.any Num.isInf then
    if xs.any (fun x => x.isInf && x.isNeg) then
      (if xs.any (fun x => x.isInf && !x.isNeg) then (.nan, fNV) else (.inf true, 0))
    else (.inf false, 0)
  else
    let k := minExp xs 0
    let t := sumAt k xs
    if t = 0 then (.fin (if xs.all (fun x => x.isZero && x.isNeg) && !xs.isEmpty then true else mode == 2) 0 0 false, 0)
    else (.fin (decide (t < 0)) t.natAbs k false, 0)

/-- R85, R86: the order of two values that are not NaN, −0 equal to +0: the sign of a − b. -/
def Num.cmp (a b : Num) : Int :=
  match a, b with
  | .inf n, .inf n' => if n = n' then 0 else if n then -1 else 1
  | .inf n, _ => if n then -1 else 1
  | _, .inf n => if n then 1 else -1
  | .fin n m e _, .fin n' m' e' _ => (scaled n m e (min e e') - scaled n' m' e' (min e e')).sign
  | _, _ => 0

/-- R86: whether the first of two values, neither a NaN, lies below the second, with −0 below +0. -/
def Num.below (a b : Num) : Bool :=
  let c := a.cmp b
  decide (c < 0) || (decide (c = 0) && a.isNeg && !b.isNeg)

/-- R86: the greater (or the lesser) of two elements of a floating type. -/
def fpick (ty : Nat) (greater : Bool) (x y : Nat) : Nat :=
  let a := decodeTy ty x
  let b := decodeTy ty y
  if a.isNan then (if b.isNan then (fmtOf ty).nan else y)
  else if b.isNan then x
  else if greater then (if a.below b then y else x) else (if b.below a then y else x)

/-- Integer square root, bit by bit from bit n − 1 down, of values below 4^n. -/
def isqrtFrom (x : Nat) : Nat → Nat → Nat
  | 0, r => r
  | n + 1, r => isqrtFrom x n (if (r + 2 ^ n) * (r + 2 ^ n) ≤ x then r + 2 ^ n else r)

def isqrt (x : Nat) : Nat := isqrtFrom x (x.log2 / 2 + 1) 0

/-- R87: the quotient, with at least 64 significant bits and whether more lies below. -/
def Num.div (a b : Num) : Num × Nat :=
  match a, b with
  | .nan, _ => (.nan, 0)
  | _, .nan => (.nan, 0)
  | .inf _, .inf _ => (.nan, fNV)
  | .inf n, y => (.inf (n != y.isNeg), 0)
  | x, .inf n => (.fin (x.isNeg != n) 0 0 false, 0)
  | .fin n m e _, .fin n' m' e' _ =>
    if m' = 0 then (if m = 0 then (.nan, fNV) else (.inf (n != n'), fDZ))
    else if m = 0 then (.fin (n != n') 0 0 false, 0)
    else
      let k := 96 + m'.log2
      (.fin (n != n') (m * 2 ^ k / m') (e - e' - k) (decide (m * 2 ^ k % m' ≠ 0)), 0)

/-- R87: the square root. -/
def Num.sqrt (x : Num) : Num × Nat :=
  match x with
  | .nan => (.nan, 0)
  | .inf n => if n then (.nan, fNV) else (.inf false, 0)
  | .fin n m e _ =>
    if m = 0 then (.fin n 0 0 false, 0)
    else if n then (.nan, fNV)
    else
      let odd := (e % 2).toNat
      let m2 := m * 2 ^ (odd + 128)
      let r := isqrt m2
      (.fin false r ((e - odd) / 2 - 64) (decide (r * r ≠ m2)), 0)

/-- R87: the reciprocal square root. -/
def Num.rsqrt (x : Num) : Num × Nat :=
  match x with
  | .nan => (.nan, 0)
  | .inf n => if n then (.nan, fNV) else (.fin false 0 0 false, 0)
  | .fin n m e _ =>
    if m = 0 then (.inf n, fDZ)
    else if n then (.nan, fNV)
    else
      let odd := (e % 2).toNat
      let m1 := m * 2 ^ odd
      let k := 128 + m1.log2
      let r := isqrt (2 ^ (2 * k) / m1)
      (.fin false r (-((e - odd) / 2) - k) (decide (r * r * m1 ≠ 2 ^ (2 * k))), 0)

/-- Fixed-point precision, in bits, of the exponential and the logarithm. -/
def fxBits : Nat := 256

/-- ln 2 in units of 2^−256, from its series of 1 / (k 2^k), k from n down to 1. -/
def ln2Sum : Nat → Nat
  | 0 => 0
  | n + 1 => 2 ^ fxBits / ((n + 1) * 2 ^ (n + 1)) + ln2Sum n

/-- The exponential series of a fixed-point y, n terms, the k-th term being `term`. -/
def expSum (y : Nat) : Nat → Nat → Nat → Nat
  | 0, _, _ => 0
  | n + 1, k, term => term + expSum y n (k + 1) (term * y / 2 ^ fxBits / (k + 1))

/-- R87: 2 to the power of x. A result that is no power of two is irrational; its 256-bit approximation lies closer to it than to any
rounding boundary of f32 (DEDUCED, assumption 11). -/
def Num.exp2 (x : Num) : Num × Nat :=
  match x with
  | .nan => (.nan, 0)
  | .inf n => (if n then .fin false 0 0 false else .inf false, 0)
  | .fin n m e _ =>
    let (q, rem, sh) := cutAt m e 0
    if 400 ≤ q then (.fin false 1 (if n then -400 else 400) false, 0)
    else if rem = 0 then (.fin false 1 (if n then -(q : Int) else q) false, 0)
    else
      -- x = i + fr / 2^sh with 0 < fr < 2^sh
      let (i, fr) : Int × Nat := if n then (-(q : Int) - 1, 2 ^ sh - rem) else ((q : Int), rem)
      let y := fr * ln2Sum 300 / 2 ^ sh
      (.fin false (expSum y 80 0 (2 ^ fxBits)) (i - fxBits) true, 0)

/-- n binary digits of log2 of a fixed-point value in [1, 2), by repeated squaring. -/
def log2Digits : Nat → Nat → Nat → Nat
  | 0, _, acc => acc
  | n + 1, z, acc =>
    let z2 := z * z / 2 ^ fxBits
    if 2 ^ (fxBits + 1) ≤ z2 then log2Digits n (z2 / 2) (2 * acc + 1) else log2Digits n z2 (2 * acc)

/-- R87: the base-2 logarithm. -/
def Num.log2 (x : Num) : Num × Nat :=
  match x with
  | .nan => (.nan, 0)
  | .inf n => if n then (.nan, fNV) else (.inf false, 0)
  | .fin n m e _ =>
    if m = 0 then (.inf true, fDZ)
    else if n then (.nan, fNV)
    else
      let top : Int := (m.log2 : Int) + e
      if m = 2 ^ m.log2 then (.ofInt top, 0)
      else
        let d := log2Digits 120 (m * 2 ^ (fxBits - m.log2)) 0
        let t : Int := top * (2 ^ 120 : Nat) + d
        if t < 0 then (.fin true (t.natAbs - 1) (-120) true, 0) else (.fin false t.natAbs (-120) true, 0)

/-- R89: signed quotient of width w, on the operands as integers. -/
def divS (w : Nat) (a b : Int) : Int := if b = 0 then -1 else if a = -(2 ^ (w - 1) : Nat) ∧ b = -1 then a else a.tdiv b

/-- R89: signed remainder. -/
def remS (a b : Int) : Int := if b = 0 then a else a.tmod b

/-- R89: unsigned quotient of width w. -/
def divU (w a b : Nat) : Nat := if b = 0 then 2 ^ w - 1 else a / b

/-- R89: unsigned remainder. -/
def remU (a b : Nat) : Nat := if b = 0 then a else a % b

end Sys2Proof.Machine
end

