-- ==== Sys2Proof/Machine/Graph.lean ====
section
/-! DEFINITION. Firings and arcs as every engine shares them: segments and the dealing of tokens (R36, R232), flits (R233), the start,
discard and end of a firing (R39, R44, R58, R246), and containment (R57, R59). -/

namespace Sys2Proof.Machine

/-! ## Elements and bytes -/

/-- n elements of width w from the low end of a number. -/
def unpackElems (w x : Nat) : Nat → List Nat
  | 0 => []
  | n + 1 => x % 2 ^ w :: unpackElems w (x / 2 ^ w) n

/-- Elements of width w packed from the low end (R68). -/
def packElems (w : Nat) : List Nat → Nat
  | [] => 0
  | x :: xs => x % 2 ^ w + 2 ^ w * packElems w xs

/-- n bytes of a number, least significant first (R3). -/
def toBytes (x : Nat) : Nat → List Byte
  | 0 => []
  | n + 1 => BitVec.ofNat 8 x :: toBytes (x / 256) n

/-- Bytes as a number (R3). -/
def ofBytes : List Byte → Nat
  | [] => 0
  | b :: bs => b.toNat + 256 * ofBytes bs

/-- R214: a value as an e8m0 element: 255 and NV for a NaN or an infinity, 0 for a zero, else the exponent of its magnitude held to
0 to 254, with NX where the magnitude is no power of two the format holds. -/
def toE8m0 : Num → Nat × Nat
  | .nan => (255, fNV)
  | .inf _ => (255, fNV)
  | .fin _ m e _ =>
    if m = 0 then (0, 0)
    else
      let t : Int := (m.log2 : Int) + e
      ((min (max (t + 127) 0) 254).toNat, if m = 2 ^ m.log2 ∧ -127 ≤ t ∧ t ≤ 127 then 0 else fNX)

/-- R81, R213, R214: one element converted, e8m0 included. -/
def convertElem (ts td mode r x : Nat) : Nat × Nat :=
  if td = 13 then (if ts = 13 then (x % 256, 0) else toE8m0 (decodeTy ts x)) else convert ts td mode r x

/-- R96, R251: bytes of one type converted to another: the bytes and the elements counted as overflow. -/
def convertBytes (pt ct mode : Nat) (bs : List Byte) : List Byte × Nat :=
  if pt = ct then (bs, 0)
  else
    let n := bs.length * 8 / elemWidth pt
    let rs := (unpackElems (elemWidth pt) (ofBytes bs) n).map (fun x => convertElem pt ct mode 0 x)
    (toBytes (packElems (elemWidth ct) (rs.map Prod.fst)) (n * elemWidth ct / 8),
     (rs.filter (fun r => r.2 % 2 != 0 || bits r.2 2 1 != 0 || bits r.2 5 1 != 0)).length)

/-! ## Segments -/

/-- Key of descriptor d of a physical tile; segment i of stream context c follows at 65,536 (R232, R310). -/
def descKey (p d : Nat) : Nat := p * 32 + d
def ctxKey (c i : Nat) : Nat := 65536 + 4096 * i + c

/-- The stream context of a descriptor key. -/
def ctxOf (k : Nat) : Nat := (k - 65536) % 4096

def State.ctxAt (s : State) (c : Nat) : Ctx := Sparse.get {} s.ctxs c
def State.setCtx (s : State) (c : Nat) (x : Ctx) : State := { s with ctxs := Sparse.set {} s.ctxs c x }
def State.mapCtx (s : State) (c : Nat) (f : Ctx → Ctx) : State := s.setCtx c (f (s.ctxAt c))

/-- The region of a descriptor's holder. -/
def State.keyRegion (s : State) (k : Nat) : Nat := if k < 65536 then s.regionOf (k / 32) else ((s.ctxAt (ctxOf k)).region).getD 0

/-- The descriptor segment of a stream context whose far end is descriptor d of tile l of its region. -/
def State.ctxPeer (s : State) (g l d : Nat) : Option Nat :=
  s.ctxs.findSome? (fun (c, x) =>
    if x.region = some g then
      (List.range x.segs).findSome? (fun i => let e := s.desc (ctxKey c i); if e.peerL = l ∧ e.peerD = d then some (ctxKey c i) else none)
    else none)

/-- The descriptor at the far end of a segment (R229, R230, R232): the stream context joined there, or the tile descriptor named. -/
def State.peerKey (s : State) (k : Nat) : Option Nat :=
  let g := s.keyRegion k
  let d := s.desc k
  let named := ((s.region g).resolve d.peerL).map (fun p => descKey p d.peerD)
  if k < 65536 then (s.ctxPeer g (s.ltileOf (k / 32)) (k % 32)).or named else named

/-- The base key of the memory in which a descriptor's window lies: tile memory, or the streamer's own. -/
def winBase (k : Nat) : Nat := if k < 65536 then tileBase (k / 32) else 2 ^ 47 + (k - 65536) * 2 ^ 28

/-- The descriptors of a slot's port, of a kind, by number. -/
def State.portDescs (s : State) (p kind a port : Nat) : List Nat :=
  ((List.range 32).map (descKey p)).filter (fun k => let d := s.desc k; d.kind == kind && d.slot == a && d.port == port)

/-- The copy number of the actor at the far end of a descriptor, and its number of copies. -/
def State.peerCopy (s : State) (k : Nat) : Nat × Nat :=
  match s.peerKey k with
  | some pk => if pk < 65536 then let t := s.tile (pk / 32); (t.acopy (s.desc pk).slot, t.arep (s.desc pk).slot) else (0, 1)
  | none => (0, 1)

/-- The segments of a slot's port, by the copy at the far end (R232). -/
def State.segments (s : State) (p kind a port : Nat) : List (Nat × Nat) :=
  (s.portDescs p kind a port).map (fun k => ((s.peerCopy k).1, k))

/-- Per-phase counts of a port. -/
def Tile.counts (t : Tile) (a r w : Nat) : List Nat := (List.range (t.phases a r)).map (t.rate a r w)

/-- Tokens of the first n phases. -/
def prefixSum (l : List Nat) (n : Nat) : Nat := (l.take n).sum

/-- Tokens before firing f, counted from the start of the mode (R35). -/
def tokensBefore (counts : List Nat) (f : Nat) : Nat :=
  if counts.isEmpty then 0 else f / counts.length * counts.sum + prefixSum counts (f % counts.length)

/-- The least n with more than x tokens in the first n + 1 phases. -/
def coverPhase (x : Nat) : List Nat → Nat → Nat
  | [], n => n
  | c :: cs, n => if x < c then n else coverPhase (x - c) cs (n + 1)

/-- The firing, counted from the start of the mode, that covers a token index (R36, R232). Initial tokens have a producer's index below
zero, and the model extends the producer's periodic dealing to them (DESIGN CHOICE, assumption 80). -/
def coverFiring (counts : List Nat) (i : Int) : Int :=
  if counts.sum = 0 then 0
  else i / counts.sum * counts.length + coverPhase (i % counts.sum).toNat counts 0

/-- The initial tokens of the arc that a slot's input port ends: the INIT of every segment of every copy (R232). -/
def State.arcInit (s : State) (p a port : Nat) : Nat :=
  let t := s.tile p
  let r := s.region (s.regionOf p)
  ((List.range (max 1 (t.arep a))).map (fun c =>
    match r.resolve (t.afirst a + c) with
    | none => 0
    | some q =>
      match (List.range 8).find? (fun b => (s.tile q).avalid b && (s.tile q).aindex b == t.aindex a && (s.tile q).acopy b == c) with
      | none => 0
      | some b => ((s.portDescs q 1 b port).map (fun k => (s.desc k).init)).sum)).sum

/-- What the dealing of an arc needs of one end: counts per phase, copies, initial tokens; a stream context has one phase and copy. -/
structure ArcEnd where
  counts : List Nat
  copies : Nat
  init : Nat
deriving DecidableEq, Repr

/-- The far end of an arc seen from a descriptor. -/
def State.farEnd (s : State) (k : Nat) : ArcEnd :=
  match s.peerKey k with
  | some pk =>
    if pk < 65536 then
      let p := pk / 32
      let t := s.tile p
      let d := s.desc pk
      let a := d.slot
      let r := s.modeOf p
      { counts := t.counts a r (if d.kind = 1 then d.port else d.port + 8), copies := max 1 (t.arep a),
        init := if d.kind = 1 then s.arcInit p a d.port else 0 }
    else
      let c := ctxOf pk
      { counts := [(s.ctxAt c).p], copies := 1, init := ((List.range (s.ctxAt c).segs).map (fun i => (s.desc (ctxKey c i)).init)).sum }
  | none => { counts := [0], copies := 1, init := 0 }

/-- R36: the copies at the far end that share tokens of one end, given by their indices there, shifted by the arc's initial tokens. -/
def dealTokens (far : ArcEnd) (consumer : Bool) (init : Nat) (is : List Nat) : List Nat :=
  is.map (fun (j : Nat) =>
    let i : Int := if consumer then (j : Int) - init else ((j + init : Nat) : Int)
    (coverFiring far.counts i % far.copies).toNat)

/-- The indices of n tokens from one on. -/
def tokensFrom (start n : Nat) : List Nat := (List.range n).map (start + ·)

/-- R35, R36, R238: the indices of the first m tokens of a copy's firings f, f + n, f + 2n, …, where n is the actor's number of copies: those
of firing f, and the copy's next ones. `fuel` bounds the firings. -/
def copyTokens (counts : List Nat) (n : Nat) : Nat → Nat → Nat → List Nat
  | 0, _, _ => []
  | fuel + 1, f, m =>
    let c := min m ((counts[f % max 1 counts.length]?).getD 0)
    tokensFrom (tokensBefore counts f) c ++ (if m = c then [] else copyTokens counts n fuel (f + n) (m - c))

/-- R36, R232: for each of the tokens 0 to n − 1 from firing f of a copy on a port, the copy at the far end that shares it. `f` counts the
port's firings from the start of the mode. -/
def State.deal (s : State) (p kind a port f n : Nat) : List Nat :=
  match s.portDescs p kind a port with
  | [] => []
  | [k] => List.replicate n (s.peerCopy k).1
  | k :: _ =>
    let far := s.farEnd k
    let own := (s.tile p).counts a (s.modeOf p) (if kind = 1 then port else port + 8)
    dealTokens far (kind == 1) (if kind = 1 then s.arcInit p a port else far.init)
      (copyTokens own (max 1 ((s.tile p).arep a)) ((n + 1) * own.length) f n)

/-- R310: the same for a firing of a stream context with its fixed count of tokens: the copy is the segment. -/
def State.ctxDeal (s : State) (c f n : Nat) : List Nat :=
  let x := s.ctxAt c
  if x.segs ≤ 1 then List.replicate n 0
  else
    let far := s.farEnd (ctxKey c 0)
    let init := if x.role = 1 then ((List.range x.segs).map (fun i => (s.desc (ctxKey c i)).init)).sum else far.init
    dealTokens far (x.role == 1) init (tokensFrom (f * x.p) n)

/-- The segment of token j of a firing on a port, and how many of the firing's earlier tokens lie in the same segment. -/
def State.tokenSeg (s : State) (p kind a port f j : Nat) : Option (Nat × Nat) :=
  match s.portDescs p kind a port with
  | [] => none
  | [k] => some (k, j)
  | _ =>
    let ds := s.deal p kind a port f (j + 1)
    match ds[j]? with
    | none => none
    | some c => ((s.segments p kind a port).find? (fun e => e.1 = c)).map (fun e => (e.2, ((ds.take j).filter (· = c)).length))

/-- The segments of a port with the tokens each takes of the n of a firing. -/
def State.shares (s : State) (p kind a port f n : Nat) : List (Nat × Nat) :=
  match s.portDescs p kind a port with
  | [] => []
  | [k] => [(k, n)]
  | _ => let ds := s.deal p kind a port f n
    (s.segments p kind a port).map (fun e => (e.2, (ds.filter (· = e.1)).length))

/-- R231: the tokens held by a window, and the free space of an output port. -/
def Desc.count (d : Desc) : Nat := (d.wr + 2 ^ 32 - d.rd) % 2 ^ 32
def Desc.used (d : Desc) : Nat := (d.wr + 2 ^ 32 - d.mrd) % 2 ^ 32
def Desc.space (d : Desc) : Nat := d.cap - d.used
/-- Token size in bytes. -/
def Desc.size (d : Desc) : Nat := 4 * (d.tsz + 1)

/-! ## Circuits -/

/-- The router ports of R343: 0 N, 1 E, 2 S, 3 W, 4 L; the port at the far side of a link. -/
def oppositePort (o : Nat) : Nat := if o < 4 then (o + 2) % 4 else 4

/-- The tile beyond a port of a tile's router on the package (R9, R24), if there is one. -/
def neighbour (p o : Nat) : Option Nat :=
  let x := p % 32
  let y := p % 1024 / 32
  match o with
  | 0 => if y = 0 then none else some (p - 32)
  | 1 => if x < 31 then some (p + 1) else if p < 1024 then some (p + 1024 - 31) else none
  | 2 => if y = 31 then none else some (p + 32)
  | 3 => if 0 < x then some (p - 1) else if 1024 ≤ p then some (p - 1024 + 31) else none
  | _ => none

/-- Where a circuit ends: at the local port of a tile, or beyond the edge of the array, past a tile's port. -/
inductive CircuitEnd where
  | tile (p : Nat)
  | edge (p o : Nat)
deriving DecidableEq, Repr

/-- R20, R24: the cycles a flit takes over the link between two tiles: 1, and 8 more across the die bridge. -/
def linkCycles (p q : Nat) : Nat := if dieOf p = dieOf q then 1 else 9

/-- The way of the flits that leave their first router in the cycles `cls`, `cls + mod`, `cls + 2 mod`, …: where they end, if every router
has a slot for them, in how many cycles, and the slot-table entries they cross (router, 8 × slot + output). -/
structure Route where
  cls : Nat
  mod : Nat
  dest : Option CircuitEnd
  cycles : Nat
  crossed : List (Nat × Nat)
deriving DecidableEq, Repr

/-- Routes cross one slot-table entry more, at their start. -/
def crossing (e : Nat × Nat) (ls : List Route) : List Route := ls.map (fun l => { l with crossed := e :: l.crossed })

/-- The output that a region's flits from an input port take in a slot of a router. -/
def slotOutput (pairs : Nat → Sparse Nat) (g q inp slot : Nat) : Option Nat :=
  (List.range 5).find? (fun o =>
    let x := Sparse.get 0 (pairs q) (8 * slot + o)
    x.testBit 3 && x % 8 == inp && bits x 4 7 == g)

/-- R19, R20, R343, R347: the routes of a region's flits that leave their first router in the cycles `c` modulo `m`, and leave router p by output
o, `d` cycles later. The slot in force at a router q is that of CYCLE + RPHASE modulo its own period, so that flits of one slot of a router may
meet several slots of the next. `pairs` are the slot tables, `per` and `ph` the routers' periods and phases, `next` their links. -/
def traceCircuit (pairs : Nat → Sparse Nat) (per ph : Nat → Nat) (next : Nat → Nat → Option Nat) (g : Nat) :
    Nat → Nat → Nat → Nat → Nat → Nat → List Route
  | 0, m, c, _, _, d => [⟨c, m, none, d, []⟩]
  | fuel + 1, m, c, p, o, d =>
    if o = 4 then [⟨c, m, some (.tile p), d, []⟩]
    else
      match next p o with
      | none => [⟨c, m, some (.edge p o), d + 1, []⟩]
      | some q =>
        let n := max 1 (per q)
        let m' := Nat.lcm m n
        let d' := d + linkCycles p q
        (List.range (m' / m)).flatMap (fun j =>
          let c' := c + j * m
          let slot := (c' + d' + ph q) % n
          match slotOutput pairs g q (oppositePort o) slot with
          | none => [⟨c', m', none, d', []⟩]
          | some o' => crossing (q, 8 * slot + o') (traceCircuit pairs per ph next g fuel m' c' q o' d'))

/-- The circuits of a region that leave tile p in slot s with the flits of its input port `inp`: the routes of each. -/
def circuitsFrom (pairs : Nat → Sparse Nat) (per ph : Nat → Nat) (next : Nat → Nat → Option Nat) (g p inp s : Nat) : List (List Route) :=
  let n := max 1 (per p)
  (List.range 5).filterMap (fun o =>
    let x := Sparse.get 0 (pairs p) (8 * s + o)
    if x.testBit 3 ∧ x % 8 = inp ∧ bits x 4 7 = g then
      some (crossing (p, 8 * s + o) (traceCircuit pairs per ph next g 512 n ((s + n - ph p % n) % n) p o 0))
    else none)

/-- The tile beside which a stream context's streamer sits, and the port that faces it (R25). -/
def edgeOf (c : Nat) : Nat × Nat :=
  let st := c / 16
  (st / 64 * 1024 + (if st % 64 < 32 then st % 32 else 31 * 32 + st % 32), if st % 64 < 32 then 0 else 2)

/-- Where the circuits of a descriptor start and end: at its tile, or at the edge beside its streamer (assumption 18). -/
def endOf (k : Nat) : CircuitEnd := if k < 65536 then .tile (k / 32) else .edge (edgeOf (ctxOf k)).1 (edgeOf (ctxOf k)).2

/-- The router into which flits from an end are injected, and the port by which they come. -/
def CircuitEnd.router : CircuitEnd → Nat × Nat
  | .tile p => (p, 4)
  | .edge p o => (p, o)

/-- RPERIOD and RPHASE of a tile's router (R343). -/
def State.rperiod (s : State) (q : Nat) : Nat := (s.tile q).cfg 82 0 0 0
def State.rphase (s : State) (q : Nat) : Nat := (s.tile q).cfg 83 0 0 0

/-- The circuits of a region from one end to another, in ascending slot of the first router: the routes of each. Whatever the cycle in which a
flit leaves in the slot, it reaches that end. -/
def State.circuits (s : State) (g : Nat) (x y : CircuitEnd) : List (List Route) :=
  let (p, inp) := x.router
  (List.range (max 1 (s.rperiod p))).flatMap (fun sl =>
    (circuitsFrom (fun q => (s.tile q).pairs) s.rperiod s.rphase neighbour g p inp sl).filter (fun ls => ls.all (fun l => l.dest == some y)))

/-- The descriptors of a region at an end. -/
def State.keysAt (s : State) (g : Nat) (x : CircuitEnd) : List Nat :=
  match x with
  | .tile p => ((List.range 32).map (descKey p)).filter (fun k => (s.desc k).kind != 0)
  | .edge _ _ => s.ctxs.flatMap (fun (c, z) =>
      if z.region = some g then ((List.range z.segs).map (ctxKey c)).filter (fun k => endOf k = x) else [])

/-- The descriptors that share the circuits from one end to another, in ascending number. -/
def State.sharers (s : State) (g : Nat) (x y : CircuitEnd) : List Nat :=
  (s.keysAt g x).filter (fun k => (s.peerKey k).map endOf = some y)

/-- The routes of the circuits that the arc of descriptor k owns towards the far end, where the ends differ. Between two tiles the region's
circuits are dealt in turn to the arcs that join them, so that a slot has one owner: a slot entry names no arc (DESIGN CHOICE, assumption
77). -/
def State.ownRoutes (s : State) (k : Nat) (x y : CircuitEnd) : List Route :=
  let g := s.keyRegion k
  let ks := s.sharers g x y
  let cs := s.circuits g x y
  (List.range cs.length).flatMap (fun j => if ks[j % max 1 ks.length]? = some k then (cs[j]?).getD [] else [])

/-- R20, R21, R234: a flit of descriptor k may leave in a cycle: the arc owns a slot on the first link then; the cycles it takes.
Descriptors of one tile need no circuit (assumption 18). -/
def State.departs (s : State) (k c : Nat) : Option Nat :=
  match s.peerKey k with
  | none => none
  | some q =>
    if endOf k = endOf q then some 0
    else ((s.ownRoutes k (endOf k) (endOf q)).find? (fun l => c % l.mod == l.cls)).map Route.cycles

/-- The far end of a descriptor is another than its own: its flits travel on a circuit. -/
def State.remote (s : State) (k : Nat) : Bool := decide ((s.peerKey k).map endOf ≠ some (endOf k))

/-- A flit of descriptor k has left in a cycle: a slot carries one (R19, R21). -/
def State.departed (s : State) (k c : Nat) : Bool := (Sparse.get [] s.flight k).any (fun e => e.left == c) && s.remote k

/-- R29: every flit in the buffer of descriptor k entered it in a cycle: the oldest leaves in the next at the earliest, on a circuit
(assumption 99). -/
def State.fresh (s : State) (k c : Nat) : Bool :=
  decide ((Sparse.get [] s.queued k).length ≤ countOf s.entered k c) && s.remote k

/-- R20, R29: in a cycle the oldest flit in the buffer of descriptor k leaves it, and takes so many cycles to the far end. -/
def State.leaves (s : State) (k c : Nat) : Option Nat := if s.departed k c || s.fresh k c then none else s.departs k c

/-- R20: in a cycle a flit must leave its buffer, or arrives. -/
def State.flitDue (s : State) (c : Nat) : Bool :=
  s.flight.any (fun e => (e.2.head?.map (fun f => decide (f.due ≤ c))).getD false && (s.peerKey e.1).isSome) ||
    s.queued.any (fun e => !e.2.isEmpty && (s.leaves e.1 c).isSome)

/-- R20: the cycles that may pass, at most `fuel`, before a flit must leave or arrives. -/
def State.mayPass (s : State) : Nat → Nat → Nat
  | 0, j => j
  | fuel + 1, j => if s.flitDue (s.cycle + j) then j else s.mayPass fuel (j + 1)

/-! ## Flits -/

/-- A flit enters the injection buffer of descriptor k (R20, R234). -/
def State.queueFlit (s : State) (k : Nat) (f : Flit) : State :=
  { s with queued := Sparse.set [] s.queued k (Sparse.get [] s.queued k ++ [f]), entered := countIn s.entered k s.cycle }

/-- Bytes at an offset cut into flits, one for each 128-byte block of the window they touch (R233); `fuel` bounds the blocks. -/
def dataFlits : Nat → Nat → List Byte → List Flit
  | 0, _, _ => []
  | fuel + 1, off, bs =>
    if bs.isEmpty then []
    else
      let n := 128 - off % 128
      .data off (bs.take n) none :: dataFlits fuel (off + n) (bs.drop n)

/-- The last flit of a list carries the operation its arrival performs. -/
def markLast (op : Option Nat) : List Flit → List Flit
  | [] => []
  | [.data off bs _] => [.data off bs op]
  | [f] => [f]
  | f :: fs => f :: markLast op fs

/-- Queues DATA flits that write bytes at byte o of position pos of the window at the far end of an output descriptor (R239). -/
def State.queueData (s : State) (k pos o : Nat) (bs : List Byte) (op : Option Nat) : State :=
  match s.peerKey k with
  | none => s
  | some pk =>
    let off := (s.desc pk).base + pos * (s.desc pk).size + o
    (markLast op (dataFlits (bs.length / 128 + 2) off bs)).foldl (fun s f => s.queueFlit k f) s

/-- R97, R249 to R251: n elements more in the overflow count of a firing for the output descriptor of key k. -/
def Firing.addOvf (f : Firing) (k n : Nat) : Firing :=
  { f with ovf := Sparse.set 0 f.ovf (k % 32) (Sparse.get 0 f.ovf (k % 32) + n) }

/-! ## The firing rule and the scheduler's counts -/

/-- R37: the firing rule of slot a on tile p, segment by segment (R232). -/
def State.firingRule (s : State) (p a : Nat) : Bool :=
  let t := s.tile p
  let r := s.modeOf p
  let ph := t.phase a r
  let fr := (t.slot a).firing - (t.slot a).k0
  (t.slot a).st == .waiting &&
    (List.range 8).all (fun j =>
      (s.shares p 1 a j fr (t.rate a r j ph)).all (fun (k, m) => decide (m ≤ (s.desc k).count)) &&
      (s.shares p 2 a j fr (t.rate a r (j + 8) ph)).all (fun (k, m) => decide (m ≤ (s.desc k).space)))

/-- R63, R248: some segment holds a faulted marker that takes effect: fewer tokens stand ahead of it than the phase takes from the segment, or
the input holds no token at all (assumption 34). -/
def State.faultedMarker (s : State) (p a : Nat) : Bool :=
  let t := s.tile p
  let r := s.modeOf p
  let ph := t.phase a r
  let fr := (t.slot a).firing - (t.slot a).k0
  (List.range 8).any (fun j =>
    let sh := s.shares p 1 a j fr (t.rate a r j ph)
    let head := sh.all (fun (k, _) => decide ((s.desc k).count = 0))
    sh.any (fun (k, m) => (s.desc k).mark && (s.desc k).mflt && (head || decide ((s.desc k).count < m))))

/-- R37, R63: a slot that may fire: its firing rule holds, and no faulted marker takes effect there first. -/
def State.mayFire (s : State) (p a : Nat) : Bool := s.firingRule p a && !s.faultedMarker p a

/-- R46: as a firing of slot a starts on a tile in ready-first mode, the other ready slots are passed over once more. -/
def State.countBypass (s : State) (p a : Nat) : State :=
  let t := s.tile p
  if !t.readyFirst then s else s.setTile p ((List.range 8).foldl (fun t b =>
    if b ≠ a ∧ s.mayFire p b then t.setSlot b { t.slot b with bypass := min 64 ((t.slot b).bypass + 1) } else t) t)

/-! ## The start and end of a firing -/

/-- A core in which only the trap registers stand (R188). -/
def Core.trapRegs (c : Core) : Core :=
  { trapcause := c.trapcause, trapinfo0 := c.trapinfo0, trapinfo1 := c.trapinfo1, trapinfo2 := c.trapinfo2, trapinfo3 := c.trapinfo3,
    trappc := c.trappc }

/-- The firing core's state at the start of a firing (R39); the trap registers survive a retry (R188). -/
def State.startCore (s : State) (p a : Nat) (retry : Bool) : State :=
  let t := s.tile p
  let r := s.modeOf p
  let sl := t.slot a
  let ph := t.phase a r
  let base : Core := if retry then (s.coreAt p).trapRegs else {}
  let c := { base with pc := word (t.entry a ph) }
  let c := c.setS 1 (word ph)
  let c := c.setS 2 (word sl.firing)
  let c := c.setS 3 (word (0xF00000000000 + t.privOff a))
  let c := c.setS 4 (word (s.ltileOf p))
  s.setCoreAt p c

/-- A firing of slot a starts on tile p (R47, R48, R282). -/
def State.startFiring (s : State) (p a : Nat) (retry : Bool) : State :=
  let t := s.tile p
  let t := t.setSlot a { t.slot a with st := .firing, bypass := 0 }
  let s := (s.setTile p { t with firing := some { slot := a, since := s.cycle } }).matStart p
  s.startCore p a retry

/-- The journaled lines written back in order (R42, R44): line k of the state area lies at 0x7_E000 + 64k of the save frame. -/
def State.writeBack (s : State) (p a : Nat) : List Nat → State
  | [] => s
  | k :: ks =>
    let dst := tileBase p + (s.tile p).privOff a + 64 * k
    (s.wrBlock dst (s.rdList (tileBase p + 0x7E000 + 64 * k) 64)).writeBack p a ks

/-- The operations of a core whose firing has ended belong to no later firing (R39, R277): a waiting `barw` is withdrawn (R273), the
others, and streamer commands, complete without a firing to return to. -/
def State.orphanOps (s : State) (p : Nat) : State :=
  let ops := Sparse.get [] s.netOps p
  let gone := (ops.filter (fun o => o.kind = .barw)).map NetOp.id
  { s with
    ctxs := s.ctxs.map (fun e => (e.1, { e.2 with cmds := e.2.cmds.map (fun m => if m.core = p then { m with orphan := true } else m) })),
    netOps := Sparse.set [] s.netOps p ((ops.filter (fun o => o.kind ≠ .barw)).map (fun o => { o with orphan := true })),
    hub := { s.hub with ops := s.hub.ops.map (fun (o : HubOp) => if o.core = p then { o with orphan := true } else o) },
    live := (s.live.filter (fun e => !gone.contains e.id)).map (fun e => if e.core = p then { e with core := 1000000, eng := false } else e) }

/-- Discards the firing of a tile (R44, R249); after a trap, its trap registers describe the discarded attempt (R188). -/
def State.discard (s : State) (p : Nat) : State :=
  match (s.tile p).firing with
  | none => s
  | some f =>
    let s := s.writeBack p f.slot f.journal
    let t := s.tile p
    let rec_ := t.record
    let old := s.coreAt p
    let c : Core :=
      if f.trapped && f.fault.isNone && !f.partialPeriod then
        { trapcause := rec_[0], trappc := rec_[1], trapinfo0 := rec_[2], trapinfo1 := rec_[3], trapinfo2 := rec_[4], trapinfo3 := rec_[5] }
      else old.trapRegs
    (((s.orphanOps p).setTile p { t with firing := none }).setCoreAt p c).matDiscard p f.slot

/-- The firing number and counters after a committed or null firing (R34, R45, R57, R188). -/
def State.endFiring (s : State) (p a : Nat) (st : SlotSt) : State :=
  let t := s.tile p
  let sl := t.slot a
  let t := t.setSlot a { sl with st := st, firing := (sl.firing + max 1 (t.arep a)) % 2 ^ 96, tries := Vector.replicate 5 0 }
  let t := { t with firing := none, schedPos := if t.readyFirst then t.schedPos else (t.schedPos + 1) % max 1 t.schedLen }
  let s := (((s.orphanOps p).setTile p t).setCoreAt p {}).matCommit p a
  s.mapRegion (s.regionOf p) (fun r => { r with firings := r.firings + 1 })

/-- The consumption of a firing (R246): RD and RPOS of every segment advance, and each sends its RETURN flit. -/
def State.consume (s : State) (p a f : Nat) : State :=
  let t := s.tile p
  let r := s.modeOf p
  let ph := t.phase a r
  (List.range 8).foldl (fun s j =>
    let n := t.rate a r j ph
    if n = 0 then s
    else (s.shares p 1 a j f n).foldl (fun s (k, m) =>
      if m = 0 then s
      else
        let d := s.desc k
        let d := { d with rd := (d.rd + m) % 2 ^ 32, rpos := (d.rpos + m) % max 1 d.cap }
        (s.setDesc k d).queueFlit k (.ret d.rd)) s) s

/-- Writes n zero tokens into the segments of an output port (R58, R250); zero converts exactly into the window's type. -/
def State.zeroTokens (s : State) (k n : Nat) : State :=
  let d := s.desc k
  let bs := (convertBytes d.etype d.ctype d.cround (List.replicate d.size 0)).1
  (List.range n).foldl (fun s j => s.queueData k ((d.wpos + j) % max 1 d.cap) 0 bs none) s

/-- A null firing of slot a on tile p (R58, R250). -/
def State.nullFiring (s : State) (p a : Nat) : State :=
  let t := s.tile p
  let r := s.modeOf p
  let sl := t.slot a
  let ph := t.phase a r
  let fr := sl.firing - sl.k0
  let s := s.consume p a fr
  let s := (List.range 8).foldl (fun s k =>
    let n := t.rate a r (k + 8) ph
    (s.shares p 2 a k fr n).foldl (fun s (key, m) =>
      if m = 0 then s
      else
        let s := s.zeroTokens key m
        let d := s.desc key
        let d := { d with wr := (d.wr + m) % 2 ^ 32, wpos := (d.wpos + m) % max 1 d.cap }
        (s.setDesc key d).queueFlit key (.pointer d.wr 0 none)) s) s
  s.endFiring p a .waiting

/-- The output descriptors of a slot. -/
def State.outDescs (s : State) (p a : Nat) : List Nat :=
  ((List.range 32).map (descKey p)).filter (fun k => (s.desc k).kind == 2 && (s.desc k).slot == a)

def State.inDescs (s : State) (p a : Nat) : List Nat :=
  ((List.range 32).map (descKey p)).filter (fun k => (s.desc k).kind == 1 && (s.desc k).slot == a)

/-- A marker queued on every output of a slot (R59, R62, R63, R246). -/
def State.sendMarkers (s : State) (p a mode : Nat) (flt : Bool) : State :=
  (s.outDescs p a).foldl (fun s k => s.queueFlit k (.marker mode flt)) s

/-! ## Containment -/

/-- R59, level 0: the copy stops, its firing discarded, and sends a faulted marker on every output. The rule gives the marker no mode; the
model sends mode 0 (DESIGN CHOICE, assumption 79). -/
def State.stopCopy (s : State) (p a : Nat) : State :=
  let s := if ((s.tile p).firing.map Firing.slot) = some a then s.discard p else s
  let t := s.tile p
  let s := s.setTile p (t.setSlot a { t.slot a with st := .stopped })
  s.sendMarkers p a 0 true

/-- R59, level 1: every copy of the actor stops. -/
def State.stopActor (s : State) (p a : Nat) : State :=
  let t := s.tile p
  let r := s.region (s.regionOf p)
  (List.range (max 1 (t.arep a))).foldl (fun s c =>
    match r.resolve (t.afirst a + c) with
    | none => s
    | some q =>
      match (List.range 8).find? (fun b => (s.tile q).avalid b && (s.tile q).aindex b == t.aindex a && (s.tile q).acopy b == c) with
      | none => s
      | some b => s.stopCopy q b) s

/-- R48, R282, R283, R311: what the end of a graph instance does to a tile and to a stream context. -/
def State.endTile (s : State) (p : Nat) : State :=
  let s := s.discard p
  let t := s.tile p
  let s := s.setTile p { t with slots := t.slots.map (fun x => { x with st := .unused }) }
  s.mapMat p (fun x => { gang := x.gang })

def State.endCtx (s : State) (c : Nat) : State :=
  let ids := (s.ctxAt c).cmds.map StreamCmd.id
  let s := s.mapCtx c (fun x => { x with st := .unbound, cmds := [], staged := none })
  { s with live := s.live.filter (fun e => !ids.contains e.id) }

/-- R59, level 2, and R64, R430: the graph instance of a region ends with a code: its firing cores halt, its slots and contexts are
released. One that ends at its drain ended at the time of it (R428). -/
def State.endInstance (s : State) (g code : Nat) : State :=
  let r := s.region g
  if r.live && r.started && r.ended.isNone then
    let s := r.tiles.foldl (fun s p => s.endTile p) s
    let s := (r.ctx.map Prod.snd).foldl (fun s c => s.endCtx c) s
    s.mapRegion g (fun r => { r with ended := some code, started := false, halted := false, endG := if code = 0 then r.drainAt.getD s.gtime else s.gtime })
  else s

/-- The status word of the fault record (R187) with its decision filled in. -/
def State.recordDecision (s : State) (p level policy tries : Nat) : State :=
  let t := s.tile p
  let w := (t.record[7]).toNat
  let w := w - bits w 8 9 * 2 ^ 8 + level * 2 ^ 8 + policy * 2 ^ 11 + tries * 2 ^ 13
  s.setTile p { t with record := t.record.set 7 (word w) }

/-- R59, R428: a decided fault is reported; the first report of an instance fills its first-fault word. -/
def State.reportFault (s : State) (p a code level policy : Nat) : State :=
  let t := s.tile p
  let info1 := (t.record[3]).toNat
  s.mapRegion (s.regionOf p) (fun r =>
    if !r.reported then
      { r with reported := true, ffw := word (code % 256 + level * 2 ^ 8 + policy * 2 ^ 11 + s.ltileOf p * 2 ^ 16 + t.aindex a * 2 ^ 32
                 + info1 % 65536 * 2 ^ 48) }
    else r)

/-- One level of containment on a tile (R57), levels 0 and 1, for a firing (`hasFiring`) or a partial period: the state after a
decision, or none when the fault goes to the parent. -/
def State.containAt (s : State) (p a code lvl : Nat) (hasFiring : Bool) : Option State :=
  let t := s.tile p
  let pol0 := bits (t.apol a) (6 * lvl) 2
  let lim := bits (t.apol a) (6 * lvl + 2) 4
  let ext := (t.firing.map (fun f => f.ext || f.noRetry)).getD false
  let pol := if pol0 ≤ 1 ∧ (!hasFiring || ext) then 3 else pol0
  let tries := ((t.slot a).tries[lvl]?).getD 0
  let done (s : State) (policy tr : Nat) : State := (s.recordDecision p lvl policy tr).reportFault p a code lvl policy
  match pol with
  | 0 => let s := done s 0 tries
    some ((s.discard p).nullFiring p a)
  | 1 =>
    if tries < lim then
      let s := done s 1 (tries + 1)
      let s := s.discard p
      let t := s.tile p
      let sl := t.slot a
      let s := s.setTile p (t.setSlot a { sl with tries := sl.tries.setIfInBounds lvl (tries + 1) })
      some ((s.countBypass p a).startFiring p a true)
    else none
  | 2 => let s := done s 2 tries
    some (if lvl = 0 then s.stopCopy p a else s.stopActor p a)
  | _ => none

/-- R57: a fault of slot a on tile p is presented to containment from a level. The tile decides levels 0 and 1; above them the fault
waits for firmware (CONTAINMENT_DECISION). A partial period (`hasFiring` false) comes only to a tile without a firing (assumption 78). -/
def State.contain (s : State) (p a code start : Nat) (hasFiring : Bool) : State :=
  let s := s.mapRegion (s.regionOf p) (fun r => { r with faults := r.faults + 1 })
  let wait (s : State) : State :=
    let t := s.tile p
    match t.firing with
    | some f => s.setTile p { t with firing := some { f with trapped := true, fault := none, decide := some 2 } }
    | none => s.setTile p { t with firing := some { slot := a, trapped := true, decide := some 2, partialPeriod := true } }
  let r0 := if start = 0 then s.containAt p a code 0 hasFiring else none
  match r0 with
  | some s => s
  | none =>
    match s.containAt p a code 1 hasFiring with
    | some s => s
    | none => wait s

end Sys2Proof.Machine
end

