-- ==== Sys2Proof/Machine/Reduction.lean ====
section
/-! DEFINITION. The combining functions that several engines share: floating and integer nodes (R93, R220), the overprint tree over members
(R266, R267), the atomics of R258; and an operation carried out as another core. -/

namespace Sys2Proof.Machine

/-- An operation carried out as a core other than the one whose turn it is. -/
def State.asCore (s : State) (n : Nat) (f : State → State) : State :=
  { f { s with cur := n } with cur := s.cur }

/-- The union of the flags of several results. -/
def joinFlags (fs : List Nat) : Nat := fs.foldl Nat.lor 0

/-- R93: a floating sum node rounded to f32, and the maximum or minimum of R86. -/
def f32Node (op rnd : Nat) (x y : Nat) : Nat × Nat :=
  if op = 0 then
    let (v, f1) := Num.sum rnd [decodeTy 12 x, decodeTy 12 y]
    let (z, f2) := (fmtOf 12).round rnd 0 v
    (z, Nat.lor f1 f2)
  else (fpick 12 (op == 1) x y, 0)

/-- R93: the identity of a floating operation: 0 sum, 1 maximum, 2 minimum. -/
def f32Identity (op : Nat) : Nat := if op = 0 then 0 else if op = 1 then 0xFF800000 else 0x7F800000

/-- A floating element widened exactly to f32 (R93). -/
def toF32 (ty x : Nat) : Nat := if ty = 12 then x else (convert ty 12 0 0 x).1

/-- R220: the combination of `vscan` on elements of a type. -/
def intCombine (op ty x y : Nat) : Nat × Nat :=
  if op = 0 then ((x + y) % 2 ^ elemWidth ty, 0)
  else if op = 1 then (if intOf ty x < intOf ty y then y else x, 0)
  else (if intOf ty y < intOf ty x then y else x, 0)

/-- R93, R267: the identity of an element of an overprint operation: sum, max, min, and, or, xor. -/
def overIdentity (o ty : Nat) : Nat :=
  if isIntTy ty then
    (match o with
     | 0 => 0
     | 1 => intBits 32 (intLo ty)
     | 2 => intBits 32 (intHi ty)
     | 3 => 2 ^ 32 - 1
     | _ => 0)
  else f32Identity o

/-- R267: a node of the tree over 32-bit values and its flags. -/
def overNode (o ty x y : Nat) : Nat × Nat :=
  if isIntTy ty then
    (match o with
     | 3 => (Nat.land x y, 0)
     | 4 => (Nat.lor x y, 0)
     | 5 => (Nat.xor x y, 0)
     | _ => intCombine o ty x y)
  else f32Node o 0 x y

/-- R267: one level of the tree over members; an odd last node passes up. -/
def overLevel (f : Nat → Nat → Nat × Nat) : List (Nat × Nat) → List (Nat × Nat)
  | (x, fx) :: (y, fy) :: l => let (z, fz) := f x y; (z, Nat.lor (Nat.lor fx fy) fz) :: overLevel f l
  | l => l

/-- R267: the tree; `fuel` bounds its levels. -/
def overTree (f : Nat → Nat → Nat × Nat) : Nat → List (Nat × Nat) → Nat × Nat
  | 0, l => (l.head?).getD (0, 0)
  | n + 1, l => if l.length ≤ 1 then (l.head?).getD (0, 0) else overTree f n (overLevel f l)

/-- R266: the results of an overprint load over the members' bytes (none for an absent member), packed as 32-bit elements, and flags. -/
def overResult (o ty n : Nat) (xs : List (Option Nat)) : Nat × Nat :=
  let w := elemWidth ty
  let rs := (List.range (8 * n / w)).map (fun e =>
    overTree (overNode o ty) 12 (xs.map (fun x =>
      match x with
      | some v => (if isIntTy ty then bits v (w * e) w else toF32 ty (bits v (w * e) w), 0)
      | none => (overIdentity o ty, fSKIP))))
  (packElems 32 (rs.map Prod.fst), joinFlags (rs.map Prod.snd))

/-- R258: the value an atomic on n bytes leaves: operations 0 to 9. -/
def atomicVal (o n old b x : Nat) : Nat :=
  let w := 8 * n
  match o with
  | 0 => (old + b) % 2 ^ w
  | 1 => Nat.land old b
  | 2 => Nat.lor old b
  | 3 => Nat.xor old b
  | 4 => if signed w b < signed w old then b else old
  | 5 => if signed w old < signed w b then b else old
  | 6 => if b < old then b else old
  | 7 => if old < b then b else old
  | 8 => b
  | _ => if old = x then b else old

/-- A value of n bytes in a register, sign-extended on request (R259). -/
def extendVal (n : Nat) (sx : Bool) (v : Nat) : Word := if sx then sxWord (8 * n) v else word v

end Sys2Proof.Machine
end

