-- ==== Sys2Proof/Machine/Shapes.lean ====
section
/-! DEFINITION. Shape records (R312 to R314): reading the fields, the checks, and the walk. -/

namespace Sys2Proof.Machine

/-- Bytes off .. off + n − 1 of a record, as a number. -/
def byteField (r off n : Nat) : Nat := bits r (8 * off) (8 * n)

/-- R312: the fields of dimension d with their byte offsets and sizes. -/
def dimFields (r d : Nat) : List (Nat × Nat) :=
  let o := 32 + 32 * d
  [(o, 4), (o + 4, 4), (o + 8, 2), (o + 10, 2), (o + 12, 4), (o + 16, 8), (o + 24, 8)].map (fun e => (byteField r e.1 e.2, e.1))

/-- R314, first clause, and R312: the first field outside its values: value and byte offset. -/
def shapeFault (r : Nat) : Option (Nat × Nat) :=
  let nd := byteField r 10 1
  let b11 := byteField r 11 1
  let okScope : List Nat := [0, 1, 2, 3, 4, 5, 7, 10, 11]
  if nd = 0 ∨ 5 < nd then some (nd, 10)
  else if 13 < byteField r 8 2 / 4096 then some (byteField r 8 2 / 4096, 8)
  else if 16 ≤ b11 then some (b11 / 16, 11)
  else if !okScope.contains b11 then some (b11, 11)
  else if byteField r 12 4 ≠ 0 then some (byteField r 12 4, 12)
  else (List.range 5).findSome? (fun d =>
    if nd ≤ d then (dimFields r d).find? (fun e => e.1 ≠ 0)
    else if byteField r (32 + 32 * d) 4 = 0 then some (0, 32 + 32 * d)
    else if byteField r (44 + 32 * d) 4 ≠ 0 then some (byteField r (44 + 32 * d) 4, 44 + 32 * d)
    else none)

def dimOf (r d : Nat) : Dim :=
  let o := 32 + 32 * d
  { size := byteField r o 4, lim := byteField r (o + 4) 4, hlo := byteField r (o + 8) 2, hhi := byteField r (o + 10) 2,
    start := signed 64 (byteField r (o + 16) 8), stride := signed 64 (byteField r (o + 24) 8) }

/-- int64 (R314). -/
def inInt64 (x : Int) : Bool := decide (-(2 ^ 63 : Nat) ≤ x ∧ x < (2 ^ 63 : Nat))

/-- R314: the dimensions in turn, from a least and greatest address: those of the walk, or reason, dimension and coordinate. -/
def walkBounds : Nat → List Dim → Int → Int → Except (Nat × Nat × Int) (Int × Int)
  | _, [], lo, hi => .ok (lo, hi)
  | d, x :: xs, lo, hi =>
    let xlo := x.start
    let xhi := x.start + x.size - 1
    if xlo < -(x.hlo : Int) then .error (1, d, xlo)
    else if x.lim ≠ 0 ∧ (x.lim : Int) + x.hhi ≤ xhi then .error (1, d, xhi)
    else
      let vlo := max xlo 0
      let vhi := if x.lim ≠ 0 then min xhi ((x.lim : Int) - 1) else xhi
      if vlo ≤ vhi then
        let p := vlo * x.stride
        let q := vhi * x.stride
        if !inInt64 p then .error (2, d, vlo)
        else if !inInt64 q then .error (2, d, vhi)
        else if !inInt64 (lo + min p q) || !inInt64 (hi + max p q) then .error (3, d, 0)
        else walkBounds (d + 1) xs (lo + min p q) (hi + max p q)
      else walkBounds (d + 1) xs lo hi

/-- R314 up to its last clause: the record at an address as a shape, or code and TRAPINFO0 to 3 of its trap. FORMAT is 0x15, STREAM_ADDR
0x11. -/
def shapeOf (r addr : Nat) : Except Trap Shape :=
  match shapeFault r with
  | some (v, o) => .error { code := 0x15, i0 := word v, i1 := word o }
  | none =>
    let nd := byteField r 10 1
    let dims := (List.range nd).map (dimOf r)
    let n := (dims.map Dim.size).foldl (· * ·) 1
    let base := signed 64 (byteField r 0 8)
    let esz := byteField r 8 2 % 4096
    if 2 ^ 48 < n then .error { code := 0x15, i0 := word nd, i1 := 10 }
    else
      let bad (reason d : Nat) (x : Int) : Except Trap Shape :=
        .error { code := 0x11, i0 := word addr, i1 := word reason, i2 := word d, i3 := BitVec.ofInt 64 x }
      match walkBounds 0 dims base base with
      | .error (reason, d, x) => bad reason d x
      | .ok (lo, hi) =>
        let hi := hi + esz
        if lo < 0 ∨ (2 ^ 48 : Nat) ≤ hi then bad 4 5 0
        else .ok { base := base, esz := esz + 1, ty := byteField r 8 2 / 4096, cscope := byteField r 11 1, caddr := byteField r 16 8,
                   cinc := byteField r 24 8, dims := dims, n := n, lo := lo.toNat, hi := hi.toNat }

/-- R313: the address of element e of a walk over dimensions, from an address on; none for a halo element. -/
def walkAddr : List Dim → Nat → Int → Option Int
  | [], _, a => some a
  | x :: xs, e, a =>
    let c := x.start + (e % max 1 x.size : Nat)
    let rest := walkAddr xs (e / max 1 x.size) (a + c * x.stride)
    if c < 0 ∨ (x.lim ≠ 0 ∧ (x.lim : Int) ≤ c) then none else rest

/-- R313: the address of element e; none for a halo element. -/
def Shape.addrOf (x : Shape) (e : Nat) : Option Nat := (walkAddr x.dims e x.base).map Int.toNat

/-- R324: the lowest byte of tile memory among n from an offset that elements not yet performed of an `sfetch` will write. -/
def StreamCmd.pendingByte (c : StreamCmd) (off n : Nat) : Option Nat :=
  (List.range n).findSome? (fun i =>
    if (List.range (c.dst.n - c.done)).any (fun e => match c.dst.addrOf (c.done + e) with
        | some a => decide (a % 2 ^ 19 ≤ off + i ∧ off + i < a % 2 ^ 19 + c.dst.esz)
        | none => false)
    then some (off + i) else none)

/-- R324: the `sfetch` commands of tile p not yet performed, with their context. One that awaits acceptance has the destination that its
record gives as it stands (assumption 88). -/
def State.fetches (s : State) (p : Nat) : List (Nat × StreamCmd) :=
  s.ctxs.flatMap (fun (c, x) => (x.cmds.filter (fun m => m.fn = 2 ∧ m.core = p)).filterMap (fun m =>
    if m.accepted then some (c, m)
    else match shapeOf (s.rd (tileBase p + m.bv.toNat % 2 ^ 19) 192) m.bv.toNat with
      | .ok y => some (c, { m with dst := y })
      | .error _ => none))

/-- R320: the registers of tile p that an `sfetch` not yet accepted will write. -/
def State.promised (s : State) (p : Nat) : List Nat :=
  s.ctxs.flatMap (fun (_, x) => (x.cmds.filter (fun m => !m.accepted ∧ !m.orphan ∧ m.fn = 2 ∧ m.core = p ∧ m.d ≠ 0)).map StreamCmd.d)

end Sys2Proof.Machine
end

