-- ==== Sys2Proof/Machine/Ops.lean ====
section
/-! DEFINITION. The shared operations of every instruction: ending an instruction, taking an exception in a firing core (R186) and in a
control core (R194), returning from one (R197), waiting, translation (R108 to R113) and the checks of an access in the order of R115. -/

namespace Sys2Proof.Machine

/-- What a meaning answers. -/
abbrev Out := Host.Outcome State Fault Refusal

/-- Trap codes of R164. -/
def cILLEGAL : Nat := 0x01
def cPRIV : Nat := 0x02
def cMISALIGN : Nat := 0x03
def cTRANSLATE : Nat := 0x04
def cPROTECT : Nat := 0x05
def cTILE_RANGE : Nat := 0x06
def cWAIT_LIMIT : Nat := 0x07
def cRATE : Nat := 0x08
def cWINDOW_OVER : Nat := 0x09
def cTOKEN_RANGE : Nat := 0x0A
def cRESIDUE : Nat := 0x0B
def cGROUP_ABSENT : Nat := 0x0C
def cGROUP_FAULT : Nat := 0x0D
def cEDITION_GAP : Nat := 0x0E
def cRKEY : Nat := 0x0F
def cLINK_UNKNOWN : Nat := 0x10
def cSTREAM_ADDR : Nat := 0x11
def cSTREAM_FAULT : Nat := 0x12
def cLATE : Nat := 0x13
def cSLOT_STATE : Nat := 0x14
def cFORMAT : Nat := 0x15
def cECC : Nat := 0x16
def cFIRING_LIMIT : Nat := 0x17
def cPROFILE : Nat := 0x18
def cBREAK : Nat := 0x19
def cSTALE : Nat := 0x1B
def cQUEUE_TORN : Nat := 0x1C
def cCANCELLED : Nat := 0x1D
def cREPEAT : Nat := 0x1E
def cCONFIG_REJECT : Nat := 0x1F

/-! ## CSTAT (R166) -/

/-- LVL: 1 at level M. -/
def Core.lvl (c : Core) : Nat := fieldOf c.cstat 0 1
def Core.plv (c : Core) : Nat := fieldOf c.cstat 1 1
def Core.ie (c : Core) : Nat := fieldOf c.cstat 2 1
def Core.pie (c : Core) : Nat := fieldOf c.cstat 3 1
def Core.inh (c : Core) : Nat := fieldOf c.cstat 4 1
def Core.dlg (c : Core) : Nat := fieldOf c.cstat 5 1

/-- CSTAT from its fields. -/
def cstatOf (lvl plv ie pie inh dlg : Nat) : Word := word (lvl + 2 * plv + 4 * ie + 8 * pie + 16 * inh + 32 * dlg)

/-! ## Taking an exception and returning from one -/

/-- R194: a trap or an interrupt enters a control core's handler, or halts the core when it is nested. -/
def Core.enter (c : Core) (t : Trap) (int : Bool) (src : Nat) : Core :=
  let cause := t.code + (if t.sw then 2 ^ 8 else 0) + (if int then 2 ^ 9 else 0) + src * 2 ^ 10 + c.lvl * 2 ^ 16
  let c : Core :=
    { c.settle with trapinfo0 := t.i0, trapinfo1 := t.i1, trapinfo2 := t.i2, trapinfo3 := t.i3, trappc := c.pc, pair := none }
  if c.inh = 1 then { c with trapcause := word (cause + 2 ^ 17), halted := true }
  else
    let toS := !int && c.lvl == 0 && c.dlg == 1 && t.code != cPRIV && t.code != cECC
    { c with trapcause := word cause,
             cstat := cstatOf (if toS then 0 else 1) c.lvl 0 c.ie 1 c.dlg,
             pc := if int then c.trapbase + 0x100 else if toS then c.trapbase + 0x200 else c.trapbase }

/-- R197: the return from a handler, once its level check has passed. -/
def Core.leave (c : Core) : Core :=
  { c.settle with pc := c.trappc &&& ~~~7#64, cstat := cstatOf c.plv c.plv c.pie c.pie 0 c.dlg, pair := none }

/-! ## The ports of the firing in progress -/

/-- The slot of the firing in progress, its phase, and its number counted from the start of the mode (R34, R35). -/
def State.aSlot (s : State) : Nat := s.firingNow.slot
def State.aPhase (s : State) : Nat := s.myTile.phase s.aSlot (s.modeOf s.cur)
def State.aFiring (s : State) : Nat := let x := s.myTile.slot s.aSlot; x.firing - x.k0

/-- The declared count of a port of the current phase, by its w number (R33). -/
def State.aRate (s : State) (w : Nat) : Nat := s.myTile.rate s.aSlot (s.modeOf s.cur) w s.aPhase

/-- The descriptors of the current slot's port, by its w number (R232). -/
def State.wDescs (s : State) (w : Nat) : List Nat :=
  if w < 8 then s.portDescs s.cur 1 s.aSlot w else s.portDescs s.cur 2 s.aSlot (w - 8)

/-- The segment of token j of the current firing on a port, and the token's place among the firing's tokens there (R232). -/
def State.wToken (s : State) (w j : Nat) : Option (Nat × Nat) :=
  if w < 8 then s.tokenSeg s.cur 1 s.aSlot w s.aFiring j else s.tokenSeg s.cur 2 s.aSlot (w - 8) s.aFiring j

/-- How the first n tokens of the current firing on a port fall to its segments. -/
def State.wShares (s : State) (w n : Nat) : List (Nat × Nat) :=
  if w < 8 then s.shares s.cur 1 s.aSlot w s.aFiring n else s.shares s.cur 2 s.aSlot (w - 8) s.aFiring n

/-- R292: every row's token of an `mldw` is committed, or cannot be. -/
def State.tokenReady (s : State) (c : MatCmd) : Bool :=
  if c.fn = 3 then
    match s.wToken (bits c.word 12 4) c.av with
    | some (k, i) => decide (c.av < s.aRate (bits c.word 12 4)) || decide (i < (s.desc k).count) || (s.desc k).mark
    | none => true
  else true

/-- A queued matrix command awaits what lies outside its queue: its gang (R297), its OW set (R303), or a token (R292). Only FMAX bounds such a
wait, so it holds no trap back. -/
def State.awaitsOutside (s : State) (c : MatCmd) : Bool := c.fn == 8 || !c.waits.all (s.performed (bits c.word 16 4)) || !s.tokenReady c

/-! ## The traps of a firing (R186) -/

/-- R186: an operation that the firing of tile p issued before operation n may still trap: a network request whose effect is to come or whose
response carries a trap, a hub operation without its answer, a streamer command that is next to be accepted, a matrix command that will still
run. What waits for something else holds nothing back (assumption 43). -/
def State.mayTrap (s : State) (p n : Nat) : Bool :=
  (Sparse.get [] s.netOps p).any (fun o => !o.orphan && decide (o.id < n) && !(o.st == .applied && o.trap.isNone)) ||
  s.hub.ops.any (fun (o : HubOp) => o.core == p && !o.orphan && decide (o.id < n) && Nat.blt o.fn 16) ||
  s.ctxs.any (fun e => e.2.st != .frozen && e.2.st != .halted &&
    e.2.cmds.any (fun m => m.core == p && !m.orphan && !m.accepted && decide (m.id < n) && m.ow.all (s.performed (bits m.word 16 4)))) ||
  (s.mat p).mayTrap { s with cur := p }.awaitsOutside p n

/-- R186, R187: the trap t of the word at pc is the one recorded of firing f on tile p: the fault record is latched, and containment takes the
fault. -/
def State.presentTrap (s : State) (p : Nat) (f : Firing) (pc : Word) (t : Trap) : State :=
  let tl := s.tile p
  let sl := tl.slot f.slot
  let ph := tl.phase f.slot (s.modeOf p)
  let cause := t.code + (if t.sw then 2 ^ 8 else 0)
  let status := f.slot + ph * 2 ^ 3 + (if f.ext then 2 ^ 7 else 0) + 7 * 2 ^ 8 + sl.firing / 2 ^ 64 % 2 ^ 32 * 2 ^ 32
  let rec_ : Vector Word 8 := #v[word cause, pc, t.i0, t.i1, t.i2, t.i3, word sl.firing, word status]
  (s.setTile p { tl with record := rec_, firing := some { f with trapped := true, fault := none } }).contain p f.slot t.code 0 true

/-- R186: the fault of tile p's firing is presented once nothing issued before it may still trap. -/
def State.settleTrap (s : State) (p : Nat) : State :=
  match (s.tile p).firing with
  | some f =>
    match f.fault with
    | some (n, pc, t) => if s.mayTrap p n then s else s.presentTrap p f pc t
    | none => s
  | none => s

/-- R186: the trap t of a firing core, at place n in the order of issue and of the word at pc: the core stops, and of several traps the
earliest in program order stands. None counts once containment has the fault (assumption 43). -/
def State.firingTrap (s : State) (n : Nat) (pc : Word) (t : Trap) : State :=
  match s.myTile.firing with
  | none => s
  | some f =>
    if f.trapped && f.fault.isNone then s
    else
      let first := match f.fault with
        | some x => if x.1 ≤ n then x else (n, pc, t)
        | none => (n, pc, t)
      ((s.setTile s.cur { s.myTile with firing := some { f with trapped := true, fault := some first } }).mapCore Core.settle).settleTrap s.cur

/-- R186: operation n of a firing changes no register, flag or order set any more: the firing has trapped, at a word issued before it or one
that containment has. -/
def Firing.silent (f : Firing) (n : Nat) : Bool := f.trapped && !f.fault.any (fun x => Nat.blt n x.1)

/-- R186: the result of operation n reaches core p. -/
def State.resultTo (s : State) (p n : Nat) (f : State → State) : State :=
  (s.asCore p (fun s => if s.firingNow.silent n then s else f s)).settleTrap p

/-- Taking an exception: the one operation by which an instruction of the current core traps (R186, R194). An uncorrectable error is
counted (R466). -/
def State.takeTrap (s : State) (t : Trap) : State :=
  if s.isFiring then s.firingTrap s.nextId s.core.pc t else s.mapCore (fun c => c.enter t false 0)

/-- R186: operation n of core p, issued by the word at pc, traps. A control core takes the trap as if at that word. -/
def State.engineTrap (s : State) (p n : Nat) (pc : Word) (t : Trap) : State :=
  let u := { s with cur := p }
  { (if u.isFiring then u.firingTrap n pc t else (u.mapCore (fun c => { c with pc := pc })).takeTrap t) with cur := s.cur }

/-- R40, R273: the instruction of tile p that waits is abandoned as if it had not issued: a held `barw` is withdrawn, and any other
operation completes without a firing to return to. -/
def State.abandonWait (s : State) (p : Nat) : State :=
  match (s.coreAt p).waitOp with
  | none => s
  | some id =>
    let ops := Sparse.get [] s.netOps p
    let held := ops.any (fun o => o.id == id && o.kind == .barw)
    let s := { s with
      netOps := Sparse.set [] s.netOps p ((ops.filter (fun o => o.id ≠ id ∨ o.kind ≠ .barw)).map (fun o =>
        if o.id = id then { o with orphan := true } else o)),
      hub := { s.hub with ops := s.hub.ops.map (fun (o : HubOp) => if o.id = id then { o with orphan := true } else o) } }
    if held then s.retire id else s

/-! ## Instructions that read, wait or trap -/

/-- How an instruction stops before its end: it traps, or it waits and is tried again in a later turn of its core. -/
inductive Stop where
  | trap (t : Trap)
  | wait
deriving DecidableEq, Repr

/-- An operation of an instruction on the state. A stop keeps the state it stops in, so that the walker's updates (R113) stay. -/
abbrev M (α : Type) := EStateM Stop State α

/-- The trap of an operation. -/
def raiseTrap {α : Type} (t : Trap) : M α := throw (.trap t)

/-- The instruction waits: nothing of it is performed in this turn. -/
def waitHere {α : Type} : M α := throw .wait

/-- The meaning of an instruction written as an operation. -/
def runM (m : M Unit) (s : State) : Out :=
  match m s with
  | .ok _ s' => .next s'
  | .error (.trap t) s' => .next (s'.takeTrap t)
  | .error .wait s' => .next s'

/-- The instruction is done: on to the next word. -/
def advanceM : M Unit := modify State.advance

/-- R122: an instruction waits until every access of OW's set has been performed at its SCOPE. -/
def waitOw (ow : Nat) : M Unit := do
  let s ← get
  if s.setDone ow then pure () else waitHere

/-- An external effect of the firing has issued (R43). -/
def markExt : M Unit := modify (fun s => if s.isFiring then s.mapFiring (fun f => { f with ext := true }) else s)

/-- The region number of R115's TRAPINFO3, or 128 + CCORE (R193). -/
def State.regionInfo (s : State) : Word := if s.isFiring then word (s.regionOf s.cur) else word (128 + s.ccore)

/-- A bounded wait from the cycle of issue (R242): the core keeps the cycle at which it began; WAIT_LIMIT once `limit` cycles passed. -/
def boundedWait (limit : Nat) (t : Trap) : M Unit := do
  let s ← get
  match s.core.waitFrom with
  | none =>
    if limit = 0 then raiseTrap t
    else
      modify (fun s => s.mapCore (fun c => { c with waitFrom := some (s.cycle, s.gtime) }))
      waitHere
  | some (c0, _) => if limit ≤ s.cycle - c0 then raiseTrap t else waitHere

/-- A physical place an access reaches: a byte of a memory by its key, or a register of system space by its address. -/
inductive Place where
  | mem (key : Nat)
  | sys (addr : Nat)
deriving DecidableEq, Repr

/-- Whether two ranges of bytes meet, each given by its start and length. -/
def rangesMeet (a b : Nat × Nat) : Bool := decide (a.1 < b.1 + b.2 ∧ b.1 < a.1 + a.2)

/-- The group of an overprint operation. -/
def State.opGroup (s : State) (op : NetOp) : Option Group := Sparse.get none s.groups op.key

/-- The key of the bytes of member j. -/
def State.memberKey (s : State) (g : Group) (op : NetOp) (j : Nat) : Option Nat :=
  ((s.region g.region).resolve (g.members[j]?.getD 0)).map (fun p => tileBase p + op.off)

def NetOp.isOver (o : NetOp) : Bool := o.kind == .ovld || o.kind == .ovst

/-- The bytes at which an operation is still to be performed: a single access's, or those of an overprint operation's members. -/
def State.netReach (s : State) (o : NetOp) : List (Nat × Nat) :=
  if o.st ≠ .sent then []
  else match o.kind with
    | .rld | .rst | .ramo => [(o.key, o.n)]
    | .ovld | .ovst =>
      if o.trap.isSome then []
      else match s.opGroup o with
      | none => []
      | some g => (List.range g.members.length).filterMap (fun j =>
          if (o.abs.getD []).contains j || o.got.any (fun e => e.1 == j) then none else (s.memberKey g o j).map (fun k => (k, o.n)))
    | _ => []

/-- R121, R270: among the operations that tile t has issued, one must be performed before an access of n bytes at key k: a single access, or an
overprint operation where `overprint`, on a common byte; and on the tile's own bytes either kind. -/
def State.precedes (s : State) (t : Nat) (ops : List NetOp) (overprint : Bool) (k n : Nat) : Bool :=
  ops.any (fun o => (o.isOver == overprint || decide (tileBase t ≤ k ∧ k < tileBase t + 2 ^ 19)) && (s.netReach o).any (rangesMeet (k, n)))

/-- R324: an access of n bytes at a tile-memory key touches a byte that an `sfetch` has not yet performed. One that issued before the promise
was known, or before CYCLE reached it, waits; a later one takes LATE. -/
def awaitFetch (key n : Nat) : M Unit := do
  let s ← get
  let base := tileBase s.cur
  if s.isFiring && decide (base ≤ key ∧ key < base + 2 ^ 19) then
    match (s.fetches s.cur).filterMap (fun (c, m) => (m.pendingByte (key - base) n).map (fun b => (b, c, m))) with
    | [] => pure ()
    | x :: xs =>
      let (b, c, m) := xs.foldl (fun y z => if z.1 < y.1 then z else y) x
      let at_ := s.core.issued.getD s.cycle
      if m.accepted ∧ m.promise ≤ at_ then
        raiseTrap { code := cLATE, i0 := word (0xF00000000000 + b), i1 := word m.promise, i2 := word at_, i3 := word (s.ctxAt c).num }
      else
        set (s.mapCore (fun k => { k with issued := some at_ }))
        waitHere
  else pure ()

/-- The same for a place of any kind. -/
def awaitStream (pl : Place) (n : Nat) : M Unit :=
  match pl with
  | .mem k => awaitFetch k n
  | .sys _ => pure ()

/-- R121, R324: a single access of a core waits for what it must follow. -/
def awaitPlace (pl : Place) (n : Nat) : M Unit := do
  awaitStream pl n
  match pl with
  | .mem k =>
    let s ← get
    if s.isFiring && s.precedes s.cur (Sparse.get [] s.netOps s.cur) false k n then waitHere else pure ()
  | .sys _ => pure ()

/-! ## Translation -/

/-- A word of an engine from its fields, its guard apart (R137, the E format). -/
def engineWord (maj fn d a b ow om sc low : Nat) : Nat :=
  maj * 2 ^ 56 + fn * 2 ^ 46 + d * 2 ^ 40 + a * 2 ^ 34 + b * 2 ^ 28 + ow * 2 ^ 24 + om * 2 ^ 20 + sc * 2 ^ 16 + low

/-- The guard of the word being executed (R136). -/
def guardBits (c : Core) : Nat := bits c.ir 52 4 * 2 ^ 52

/-- Kinds of access for R111. -/
inductive Rw where
  | read | write | atomic | fetch
deriving DecidableEq, Repr

/-- R108: shift, index width and table size of a level. -/
def walkLevel : Nat → Nat × Nat × Nat
  | 0 => (39, 8, 2048)
  | 1 => (30, 9, 4096)
  | 2 => (21, 9, 4096)
  | _ => (16, 5, 256)

def tinfo (n lvl : Nat) : Word := word (n + 256 * lvl)

/-- The key of a physical address under a TGT: HBM, or host memory. -/
def physKey (tgt pa : Nat) : Nat := if tgt = 1 then hostBase + pa else hbmBase + pa

/-- A table entry in memory. HBM ends at 2^39 (R308); beyond it an entry reads as zero (assumption 13). -/
def State.readPte (s : State) (tgt pa : Nat) : Nat := if tgt = 0 ∧ 2 ^ 39 ≤ pa then 0 else s.rd (physKey tgt pa) 8

/-- R108: the leaf checks of an entry at a level: the reason, or the translation. -/
def leafOf (tag va lvl tgtT paT pte : Nat) : Except Nat TlbEntry :=
  let (sh, _, _) := walkLevel lvl
  let size := 2 ^ sh
  let pa := bits pte 8 44 * 256
  let tgt := bits pte 52 2
  if lvl = 0 then .error 4
  else if pa % size ≠ 0 then .error 5
  else if (tgt = 0 ∧ 2 ^ 39 < pa + size) ∨ (tgt = 2 ∧ 2 ^ 40 < pa + size) then .error 6
  else .ok { tag := tag, va := va / size * size, size := size, pa := pa, tgt := tgt, rp := pte.testBit 2, wp := pte.testBit 3,
             xp := pte.testBit 4, dirty := pte.testBit 6, lvl := lvl, pteTgt := tgtT, pteAddr := paT, pte := pte }

/-- The checks common to every entry read (R108): valid, reserved bits. -/
def pteBad (pte : Nat) : Option Nat :=
  if pte % 2 = 0 then some 2
  else if bits pte 7 1 ≠ 0 ∨ bits pte 54 10 ≠ 0 ∨ bits pte 52 2 = 3 then some 3
  else none

/-- The class of a memory's errors (R466), for keys. -/
def errClass (k : Nat) : Nat :=
  if k < 2 ^ 40 ∨ 2 ^ 46 ≤ k then 6 else if k < 2 ^ 41 then 0 else if k < 2 ^ 42 then 3 else if k < 2 ^ 43 then 5
  else if k < 2 ^ 45 then 1 else 2

/-- The die on which a memory lies. -/
def dieOfKey (k : Nat) : Nat :=
  if k < 2 ^ 40 then k / 2 ^ 38 % 2 else if k < 2 ^ 41 then (k - 2 ^ 40) / 2 ^ 19 / 1024 % 2 else if k < 2 ^ 42 then (k - 2 ^ 41) / 2 ^ 16 / 1024 % 2
  else if k < 2 ^ 43 then (k - 2 ^ 42) / 2 ^ 19 / 4 % 2 else if k < 2 ^ 44 then (k - 2 ^ 43) / 2 ^ 17 / 1024 % 2
  else if k < 2 ^ 45 then (k - 2 ^ 44) / 2 ^ 13 / 1024 % 2 else (k - 2 ^ 45) / 2 ^ 18 / 1024 % 2

/-- R466: an uncorrectable error found in a class on a die is counted, saturating. -/
def State.countHard (s : State) (die cls : Nat) : State :=
  let k := 16 * die + cls
  { s with hardErr := Sparse.set 0 s.hardErr k (min (Sparse.get 0 s.hardErr k + 1) (2 ^ 64 - 1)), counted := countIn s.counted k s.cycle }

/-- The result of a walk: a leaf; code, TRAPINFO1 and TRAPINFO2 of its failure; or an uncorrectable error in an entry of a level. -/
inductive WalkRes where
  | leaf (e : TlbEntry)
  | fail (code : Nat) (i1 i2 : Word)
  | ecc (lvl key : Nat)
deriving DecidableEq, Repr

/-- R108 from a level on; `fuel` counts the levels left. -/
def State.walkFrom (s : State) (tag va : Nat) : Nat → Nat → Nat → Nat → WalkRes
  | 0, _, _, _ => .fail cTRANSLATE (tinfo 4 3) 0
  | fuel + 1, lvl, tgt, base =>
    let (sh, wd, _) := walkLevel lvl
    let pa := base + 8 * (va / 2 ^ sh % 2 ^ wd)
    if (tgt = 1 ∨ pa < 2 ^ 39) ∧ s.readBad (physKey tgt pa) 8 then .ecc lvl (physKey tgt pa)
    else
      let pte := s.readPte tgt pa
      let bad (n : Nat) : WalkRes := .fail cTRANSLATE (tinfo n lvl) (word pte)
      match pteBad pte with
      | some n => bad n
      | none =>
        if pte.testBit 1 then
          match leafOf tag va lvl tgt pa pte with
          | .ok e => .leaf e
          | .error n => bad n
        else if lvl = 3 ∨ bits pte 52 2 = 2 then bad 4
        else
          let nb := bits pte 8 44 * 256
          if nb % (walkLevel (lvl + 1)).2.2 ≠ 0 then bad 5 else s.walkFrom tag va fuel (lvl + 1) (bits pte 52 2) nb

/-- R107, R108: the walk from a root entry. Of an entry with a reserved TGT and a non-zero RSV field the model reports the TGT; the rule gives no
order (DESIGN CHOICE, assumption 101). -/
def State.walk (s : State) (tag va : Nat) (root : Word) : WalkRes :=
  let r := root.toNat
  if r % 2 = 0 then .fail cTRANSLATE (tinfo 1 15) root
  else if 2 ≤ bits r 1 2 then .fail cTRANSLATE (tinfo 7 15) root
  else if bits r 3 8 ≠ 0 ∨ bits r 52 12 ≠ 0 then .fail cTRANSLATE (tinfo 3 15) root
  else s.walkFrom tag va 4 0 (bits r 1 2) (bits r 11 41 * 2 ^ 11)

/-- R113: bits set in a table entry by an atomic OR at its home; the value it returns. -/
def State.orPte (s : State) (tgt pa mask : Nat) : Nat × State :=
  let old := s.readPte tgt pa
  (old, if tgt = 0 ∧ 2 ^ 39 ≤ pa then s else s.wr (physKey tgt pa) 8 (Nat.lor old mask))

/-- Translation caches (R112): key of a firing core's first level, a plate's second level, a control core's, a context's; and how many
entries each holds. -/
def l1Key (p : Nat) : Nat := p
def l2Key (plate : Nat) : Nat := 4096 + plate
def ccKey (n : Nat) : Nat := 8192 + n
def ctxTlbKey (c : Nat) : Nat := 16384 + c

/-- Entries of a cache: 64 of a firing core, 4,096 of a plate (R18), 1 of a stream context (R319). The spec gives a control core's no size: the
model takes 64 (DESIGN CHOICE, assumption 84). -/
def tlbRoom (k : Nat) : Nat := if k < 4096 then 64 else if k < 8192 then 4096 else if k < 16384 then 64 else 1

def State.tlbAt (s : State) (k : Nat) : List TlbEntry := Sparse.get [] s.tlb k

/-- An entry installed, in place of the one of its page, the oldest leaving a full cache (replacement DESIGN CHOICE, assumption 14). -/
def State.tlbPut (s : State) (k : Nat) (e : TlbEntry) : State :=
  let l := (s.tlbAt k).filter (fun x => !(x.tag == e.tag && x.va == e.va && x.size == e.size))
  let l := l ++ [e]
  { s with tlb := Sparse.set [] s.tlb k (l.drop (l.length - tlbRoom k)) }

def TlbEntry.hit (e : TlbEntry) (tag va : Nat) : Bool := e.tag == tag && decide (e.va ≤ va ∧ va < e.va + e.size)

/-- The caches an agent looks in, first level first. -/
def cachesOf (agent : Nat) : List Nat :=
  if agent < 2048 then [l1Key agent, l2Key (plateOf agent)] else if agent < 16384 then [ccKey (agent - 2048)] else [ctxTlbKey (agent - 16384)]

/-- The root an agent translates through, and the tag of its entries (R107, R418). Agents: firing cores, 2,048 + n control cores,
16,384 + c stream contexts and the engine of the link hub (18,689), with the region given, 128 for CCROOTS and 129 for CCROOTM. -/
def State.rootOf (s : State) (agent region : Nat) : Nat × Word :=
  if 2048 ≤ agent ∧ agent < 16384 then
    (if (s.coreAt agent).lvl = 1 then (129, s.ccrootm) else (128, s.ccroots))
  else if region < 128 then (region, Sparse.get 0 s.roots region)
  else if region = 129 then (129, s.ccrootm)
  else (128, s.ccroots)

/-- R112, R113: the translation of an address for an agent: a held entry, or a walk whose leaf has A set before it is installed. An
uncorrectable error that the walk meets is counted (R466). -/
def State.translate (s : State) (agent region va : Nat) : WalkRes × State :=
  let (tag, root) := s.rootOf agent region
  let ks := cachesOf agent
  match ks.findSome? (fun k => (s.tlbAt k).find? (fun e => e.hit tag va)) with
  | some e => (.leaf e, ks.foldl (fun s k => if (s.tlbAt k).any (fun x => x.hit tag va) then s else s.tlbPut k e) s)
  | none =>
    match s.walk tag va root with
    | .fail c a b => (.fail c a b, s)
    | .ecc lvl k => (.ecc lvl k, s.countHard (dieOfKey k) (errClass k))
    | .leaf e =>
      if e.pte.testBit 5 then (.leaf e, ks.foldl (fun s k => s.tlbPut k e) s)
      else
        let (old, s) := s.orPte e.pteTgt e.pteAddr 32
        if old % 2 = 0 then (.fail cTRANSLATE (tinfo 2 e.lvl) (word old), s)
        else
          let e := { e with pte := Nat.lor e.pte 32 }
          (.leaf e, ks.foldl (fun s k => s.tlbPut k e) s)

/-- R111: the reason for which an access is refused by a leaf; `cc` marks a control core. The rule orders the reasons of a fetch; of another
access that fails in several ways the model reports a missing RP first, then a missing WP, then a TGT of 2 (DESIGN CHOICE, assumption
85). -/
def permBad (e : TlbEntry) (rw : Rw) (cc : Bool) : Option Nat :=
  match rw with
  | .fetch => if e.tgt = 2 then some 8 else if e.xp then none else some 6
  | .read => if !e.rp then some 4 else if e.tgt = 2 && !cc then some 8 else none
  | .write => if !e.wp then some 5 else if e.tgt = 2 && !cc then some 8 else none
  | .atomic => if !e.rp then some 4 else if !e.wp then some 5 else if e.tgt = 2 then some 8 else none

/-- R111, R113: permission and the D update of a translated access: the place reached, or code, TRAPINFO1 and TRAPINFO2. The update reads
the entry, and an uncorrectable error there is taken as a walk takes it, counted, the entry unchanged (R108, R466). -/
def State.useLeaf (s : State) (agent va : Nat) (e : TlbEntry) (rw : Rw) (cc : Bool) : Except (Nat × Word × Word) Place × State :=
  let place (e : TlbEntry) : Place :=
    if e.tgt = 2 then .sys (0xF40000000000 + e.pa + va % e.size) else .mem (physKey e.tgt (e.pa + va % e.size))
  match permBad e rw cc with
  | some n => (.error (cPROTECT, word (n + 256 * e.lvl), word e.pte), s)
  | none =>
    if (rw = .write ∨ rw = .atomic) ∧ !e.dirty then
      let k := physKey e.pteTgt e.pteAddr
      if (e.pteTgt = 1 ∨ e.pteAddr < 2 ^ 39) ∧ s.readBad k 8 then
        (.error (cECC, tinfo 8 e.lvl, 0), s.countHard (dieOfKey k) (errClass k))
      else
      let (old, s) := s.orPte e.pteTgt e.pteAddr 0x60
      let bad (n : Nat) : Except (Nat × Word × Word) Place × State := (.error (cTRANSLATE, tinfo n e.lvl, word old), s)
      match pteBad old with
      | some n => bad n
      | none =>
        if !old.testBit 1 then bad 4
        else match leafOf e.tag va e.lvl e.pteTgt e.pteAddr (Nat.lor old 0x60) with
          | .error n => bad n
          | .ok e' =>
            let s := (cachesOf agent).foldl (fun s k => s.tlbPut k e') s
            match permBad e' rw cc with
            | some n => (.error (cPROTECT, word (n + 256 * e'.lvl), word e'.pte), s)
            | none => (.ok (place e'), s)
    else (.ok (place e), s)

/-- A translated access of an agent (R115, checks 8 and 9). -/
def State.access (s : State) (agent region va : Nat) (rw : Rw) (cc : Bool) : Except (Nat × Word × Word) Place × State :=
  match s.translate agent region va with
  | (.fail c a b, s) => (.error (c, a, b), s)
  | (.ecc lvl _, s) => (.error (cECC, tinfo 8 lvl, 0), s)
  | (.leaf e, s) => s.useLeaf agent va e rw cc

/-! ## The checks of an access -/

/-- The classes of R100, and the own-tile reads and writes of the matrix engine, to which every other space is reason 8 (R291). -/
inductive Reach where
  | loadStore | localAtomic | remote | group | control | ownTile
deriving DecidableEq, Repr

/-- What an address names before any walk (R98, R99). -/
inductive Spot where
  | translated (va : Nat)
  | tile (ptile off : Nat)
  | group (g off : Nat)
  | system (addr : Nat)
deriving DecidableEq, Repr

/-- R115, checks 1 to 6: the code and TRAPINFO1 of the first that fails, or what the address names. -/
def State.locate (s : State) (reach : Reach) (n ea : Nat) : Except (Nat × Nat) Spot :=
  let sp := bits ea 40 8
  let l := bits ea 19 11
  let off := ea % 2 ^ 19
  let frame : Bool := decide (0x7C000 < off + n)
  if ea / 2 ^ 48 ≠ 0 then .error (cPROTECT, 1)
  else if sp < 0x80 then
    (match reach with
     | .loadStore | .control => .ok (.translated (ea % 2 ^ 47))
     | _ => .error (cPROTECT, 8))
  else if sp < 0xF0 then .error (cPROTECT, 2)
  else if sp = 0xF0 then
    (match reach with
     | .loadStore | .localAtomic | .ownTile =>
       if bits ea 19 21 ≠ 0 then .error (cPROTECT, 9) else if frame then .error (cPROTECT, 7) else .ok (.tile s.cur off)
     | _ => .error (cPROTECT, 8))
  else if sp = 0xF1 then
    (match reach with
     | .loadStore | .localAtomic | .ownTile =>
       if l ≠ s.ltileOf s.cur then .error (cPROTECT, 8)
       else if bits ea 30 10 ≠ 0 then .error (cPROTECT, 9)
       else if frame then .error (cPROTECT, 7) else .ok (.tile s.cur off)
     | .remote =>
       if bits ea 30 10 ≠ 0 then .error (cPROTECT, 9)
       else match (s.region (s.regionOf s.cur)).resolve l with
         | none => .error (cTILE_RANGE, l)
         | some p => if frame then .error (cPROTECT, 7) else .ok (.tile p off)
     | _ => .error (cPROTECT, 8))
  else if sp = 0xF2 then
    (match reach with
     | .group => if bits ea 29 11 ≠ 0 then .error (cPROTECT, 9) else .ok (.group (bits ea 19 10) off)
     | _ => .error (cPROTECT, 8))
  else if sp = 0xF4 then
    (match reach with
     | .control => .ok (.system ea)
     | .ownTile => .error (cPROTECT, 8)
     | _ => .error (cPRIV, 0))
  else .error (cPROTECT, 3)

/-- R115 whole, for an access of n bytes by the current core: where it lands. -/
def checkAccess (reach : Reach) (rw : Rw) (n : Nat) (align : Nat) (ea : Word) : M Place := do
  let s ← get
  let bad {α : Type} (code : Nat) (i1 i2 : Word) : M α := raiseTrap { code := code, i0 := ea, i1 := i1, i2 := i2, i3 := s.regionInfo }
  match s.locate reach n ea.toNat with
  | .error (c, i1) => bad c (word i1) 0
  | .ok spot =>
    if ea.toNat % align ≠ 0 then bad cMISALIGN (word align) 0
    else match spot with
      | .tile p off => pure (.mem (tileBase p + off))
      | .group _ off => pure (.mem off)
      | .system a => pure (.sys a)
      | .translated va =>
        let (r, s') := s.access s.cur (s.regionOf s.cur) va rw (!s.isFiring)
        set s'
        match r with
        | .ok pl => pure pl
        | .error (c, i1, i2) => bad c i1 i2

/-- ECC_UNCORR at an address with its TRAPINFO1 (R179, R468), counted. -/
def raiseEcc {α : Type} (ea : Word) (key i1 : Nat) : M α := do
  modify (fun s => s.countHard (dieOfKey key) (errClass key))
  let s ← get
  raiseTrap { code := cECC, i0 := ea, i1 := word i1, i3 := s.regionInfo }

/-- R42: the first write of a firing to each 64-byte line of its state area copies the old line into the journal. -/
def journal (key n : Nat) : M Unit := do
  let s ← get
  if s.isFiring then
    match s.myTile.firing with
    | none => pure ()
    | some f =>
      let lo := tileBase s.cur + s.myTile.privOff f.slot
      let len := s.myTile.stateLen f.slot
      let lines := (List.range ((n + 63) / 64 + 1)).map (fun i => (key + 64 * i, i))
      -- the lines the bytes key .. key + n − 1 touch, within the state area
      let touched := (lines.filterMap (fun (k, i) =>
        let k := if i = 0 then key else k / 64 * 64
        if lo ≤ k ∧ k < lo + len ∧ k < key + n then some ((k - lo) / 64) else none)).eraseDups
      let fresh := touched.filter (fun k => !f.journal.contains k)
      for k in fresh do
        modify (fun s => s.wrBlock (tileBase s.cur + 0x7E000 + 64 * k) (s.rdList (lo + 64 * k) 64))
      modify (fun s => s.mapFiring (fun f => { f with journal := f.journal ++ fresh }))
  else pure ()

end Sys2Proof.Machine
end

