-- ==== Sys2Proof/Machine/Resets.lean ====
section
/-! DEFINITION. Firmware slots, SHA-384, and the resets and boot steps of the control cores (R419, R436 to R440, R461 to R464). -/

namespace Sys2Proof.Machine

/-! ## SHA-384 -/

/-- The greatest x below 2^bits with x^k at most n: its bits decided from the top. -/
def rootBits (k n : Nat) : Nat → Nat → Nat
  | 0, x => x
  | b + 1, x => rootBits k n b (if (x + 2 ^ b) ^ k ≤ n then x + 2 ^ b else x)

/-- The first primes, in order. -/
def primes : List Nat := (List.range 410).filter (fun n => 2 ≤ n && (List.range n).all (fun d => d < 2 || n % d != 0))

/-- The first 64 bits of the fraction of a prime's square root and cube root: the constants of SHA-384. -/
def shaH (p : Nat) : Word := BitVec.ofNat 64 (rootBits 2 (p * 2 ^ 128) 70 0)
def shaK (p : Nat) : Word := BitVec.ofNat 64 (rootBits 3 (p * 2 ^ 192) 70 0)

def rotr (x : Word) (n : Nat) : Word := (x >>> n) ||| (x <<< (64 - n))

/-- A message padded to blocks of 128 bytes, as words. -/
def shaPad (m : List Byte) : List Byte :=
  let n := m.length
  m ++ [0x80] ++ List.replicate ((239 - n % 128) % 128) 0 ++ ((List.range 16).map (fun i => BitVec.ofNat 8 (8 * n / 2 ^ (8 * (15 - i)))))

/-- A big-endian word of 8 bytes. -/
def beWord (bs : List Byte) : Word := bs.foldl (fun (x : Word) b => (x <<< 8) ||| b.setWidth 64) 0

/-- The message schedule: w holds the words so far, latest first. -/
def shaSchedule : Nat → List Word → List Word
  | 0, w => w
  | n + 1, w =>
    let at_ (i : Nat) : Word := (w[i - 1]?).getD 0
    let s0 := rotr (at_ 15) 1 ^^^ rotr (at_ 15) 8 ^^^ (at_ 15 >>> 7)
    let s1 := rotr (at_ 2) 19 ^^^ rotr (at_ 2) 61 ^^^ (at_ 2 >>> 6)
    shaSchedule n ((at_ 16 + s0 + at_ 7 + s1) :: w)

/-- One round on the eight working words. -/
def shaRound (v : List Word) (kw : Word) : List Word :=
  match v with
  | [a, b, c, d, e, f, g, h] =>
    let t1 := h + (rotr e 14 ^^^ rotr e 18 ^^^ rotr e 41) + ((e &&& f) ^^^ (~~~e &&& g)) + kw
    let t2 := (rotr a 28 ^^^ rotr a 34 ^^^ rotr a 39) + ((a &&& b) ^^^ (a &&& c) ^^^ (b &&& c))
    [t1 + t2, a, b, c, d + t1, e, f, g]
  | _ => v

def shaBlock (h : List Word) (blk : List Byte) : List Word :=
  let w := (List.range 16).map (fun i => beWord ((blk.drop (8 * i)).take 8))
  let ws := (shaSchedule 64 w.reverse).reverse
  let v := (List.zipWith (· + ·) ((primes.take 80).map shaK) ws).foldl shaRound h
  List.zipWith (· + ·) h v

/-- SHA-384 of a message, as a number whose low byte is the digest's first. -/
def sha384 (m : List Byte) : Nat :=
  let p := shaPad m
  let h := (List.range (p.length / 128)).foldl (fun h i => shaBlock h ((p.drop (128 * i)).take 128)) (((primes.drop 8).take 8).map shaH)
  ofBytes ((h.take 6).flatMap (fun x => (toBytes x.toNat 8).reverse))

/-! ## Firmware slots (R436, R437) -/

def State.slotLen (s : State) (b : Nat) : Nat := s.rd (flashBase b + 4) 4
def State.slotVersion (s : State) (b : Nat) : Nat := s.rd (flashBase b + 8) 8
def State.slotEntry (s : State) (b : Nat) : Nat := s.rd (flashBase b + 16) 8

/-- R436: MAGIC, LENGTH and the zero bytes of a slot's header. -/
def State.slotForm (s : State) (b : Nat) : Bool :=
  s.rd (flashBase b) 4 == 0x4A465731 && decide (4096 ≤ s.slotLen b ∧ s.slotLen b ≤ 8371968) && s.slotLen b % 64 == 0 &&
    s.rd (flashBase b + 28) 228 == 0

/-- R436: the two signatures of a slot verify. -/
def State.slotRsa (s : State) (b : Nat) : Bool :=
  s.slotForm b && Config.rsaOk (s.rdList (flashBase b) (s.slotLen b)) (s.rdList (flashBase b + s.slotLen b) 384)
def State.slotSlh (s : State) (b : Nat) : Bool :=
  s.slotForm b && Config.slhOk (s.rdList (flashBase b) (s.slotLen b)) (s.rdList (flashBase b + s.slotLen b + 384) 16224)
def State.slotGood (s : State) (b : Nat) : Bool := s.slotRsa b && s.slotSlh b

/-- R438: the log entry of a slot: SHA-384 over its bytes 0 to LENGTH − 1. -/
def State.measure (s : State) (b : Nat) : LogEntry :=
  { slot := b, digest := sha384 (s.rdList (flashBase b) (min (s.slotLen b) (2 ^ 23))), version := s.slotVersion b }

/-- R437: FWSTAT. -/
def State.fwstat (s : State) : Nat :=
  let f := s.fw
  f.active % 2 + (if f.pending then 2 else 0) + (if f.rollback then 4 else 0) + (if f.valid[0] then 8 else 0) + (if f.valid[1] then 16 else 0) +
    s.slotVersion f.active % 2 ^ 32 * 2 ^ 16

/-! ## The proof plane (R349) -/

/-- R349: every proof field of a region, and every proof pair it owns, takes its active value. -/
def State.proofFromActive (s : State) (g : Nat) : State :=
  let s := (s.region g).tiles.foldl (fun s p => s.setTile p { s.tile p with proof := (s.tile p).plane }) s
  let s := s.mapTiles (fun t =>
    let keys := sortNats ((t.pairsProof.filter (fun e => pairOwned e.2 g)).map Prod.fst ++ (t.pairs.filter (fun e => pairOwned e.2 g)).map Prod.fst)
    { t with pairsProof := keys.foldl (fun m k => Sparse.set 0 m k (Sparse.get 0 t.pairs k)) t.pairsProof })
  s.mapRegion g (fun r => { r with groupsProof := r.groups, objProof := r.obj })

/-- R349: the proof plane holds nothing that a pull can take: state NONE, the pairs as the active plane has them. -/
def State.dropProof (s : State) (g : Nat) : State :=
  (s.proofFromActive g).mapRegion g (fun r => { r with proofSt := .none, auto := false, deferred := [] })

/-! ## Starting control cores (R462, R463) -/

/-- R463: the copy step: the image of a slot in HBM, and the boot tables. -/
def State.copyStep (s : State) (b : Nat) : State :=
  let s := s.zero (hbmBase + 0x7FFF000000) (2 ^ 24)
  let s := s.wrList (hbmBase + 0x7FFF800000) (s.rdList (flashBase b) (s.slotLen b))
  let s := s.wr (hbmBase + 0x7FFF000000) 8 0x7FFF001001
  let s := (List.range 512).foldl (fun s i => s.wr (hbmBase + 0x7FFF001000 + 8 * i) 8 (i * 2 ^ 30 + 0x7F)) s
  let s := { s with ccroots := 0x7FFF000001, ccrootm := 0x7FFF000001 }
  { s with tlb := (s.tlb.map (fun (k, l) => (k, l.filter (fun e => e.tag < 128)))).filter (fun e => e.2 ≠ []) }

/-- R349, R427: what a core that is reset was staging: the stream that it was etching, or the patch of a replay that waited, leaves its
region's proof plane in state NONE (assumption 91). -/
def State.abandonEtch (s : State) (n' : Nat) : State :=
  let etching : List Nat := match (s.coreAt n').holds with
    | some g => if (s.region g).proofSt = .etching then [g] else []
    | none => []
  let waiting := (s.regions.filter (fun e => e.2.next = some n')).map Prod.fst
  (etching ++ waiting).foldl (fun s g => (s.dropProof g).mapRegion g (fun r => { r with next := if r.next = some n' then none else r.next })) s

/-- R417, R419, R440, R446, R462 step 6: core n starts at level M at the entry of the active slot's copy; its doorbells stay, and so does a
store error that no core has read. -/
def State.startCore_ (s : State) (n : Nat) (s10 : Word) (s11 : Nat) : State :=
  let s := s.zero (privBase n) (2 ^ 19)
  let c : Core := { pc := word (0x7FFF800100 + s.slotEntry s.fw.active), running := true, dbell := (s.coreAt (2048 + n)).dbell,
                    storeErr := (s.coreAt (2048 + n)).storeErr }
  let c := (c.setS 10 s10).setS 11 (word s11)
  let n' := 2048 + n
  let s := s.abandonEtch n'
  let s := { s with
    live := s.live.map (fun (e : LiveOp) => if e.core = n' then { e with core := 1000000, eng := false } else e),
    hub := { s.hub with ops := s.hub.ops.map (fun (o : HubOp) => if o.core = n' then { o with orphan := true } else o) },
    ctxs := s.ctxs.map (fun ((c, x) : Nat × Ctx) => (c, { x with cmds := x.cmds.map (fun (m : StreamCmd) => if m.core = n' then { m with orphan := true } else m) })) }
  s.setCoreAt n' c

/-- All eight cores started. -/
def State.startCores (s : State) (s10 : Word) (s11 : Nat) : State :=
  (List.range 8).foldl (fun s n => s.startCore_ n s10 s11) s

/-- R419: RESET of CCRESET x, written by core n: ignored from core x itself and from a core at level S. -/
def State.ccreset (s : State) (n x : Nat) : State :=
  if n = x ∨ (s.coreAt (2048 + n)).lvl = 0 then s else s.startCore_ x 0 3

/-- R419: CCRESET of core n as it reads. -/
def State.ccresetWord (s : State) (n : Nat) : Nat :=
  let c := s.coreAt (2048 + n)
  (if c.halted then 1 else 0) + c.dbell % 4 * 2 ^ 8

end Sys2Proof.Machine
end

