-- ==== Sys2Proof/Machine/Hub.lean ====
section
/-! DEFINITION. The link hub (R371 to R382, R393, R396, R403): links, connections, the sending and the end of operations, and the hub's
registers as control cores read and write them (R378 to R381, R387, R395, R400, R401, R406). -/

namespace Sys2Proof.Machine

/-! ## Access -/

def State.mapHub (s : State) (f : Hub → Hub) : State := { s with hub := f s.hub }
def State.conn (s : State) (n : Nat) : Conn := Sparse.get {} s.hub.conns n
def State.setConn (s : State) (n : Nat) (c : Conn) : State := s.mapHub (fun h => { h with conns := Sparse.set {} h.conns n c })
def State.link (s : State) (n : Nat) : Link := Sparse.get {} s.hub.links n
def State.setLink (s : State) (n : Nat) (l : Link) : State := s.mapHub (fun h => { h with links := Sparse.set {} h.links n l })
def State.edition (s : State) (g : Nat) : Edition := Sparse.get {} s.hub.editions g
def State.setEdition (s : State) (g : Nat) (e : Edition) : State := s.mapHub (fun h => { h with editions := Sparse.set {} h.editions g e })
def State.source_ (s : State) (n : Nat) : Source := Sparse.get {} s.hub.sources n
def State.setSource (s : State) (n : Nat) (x : Source) : State := s.mapHub (fun h => { h with sources := Sparse.set {} h.sources n x })

/-- R381: the first link that is UP among those of a node's route mask, counted from link k on. -/
def State.routeFrom (s : State) (nd k : Nat) : Option Nat :=
  ((List.range 24).map (fun i => (k + i) % 24)).find? (fun l => (Sparse.get 0 s.hub.routes nd).testBit l && (s.link l).up)

/-- R381: the link by which a message for a node leaves a die: the lowest of that die's hub that is UP and in the mask, else the lowest of all
(assumption 92). -/
def State.routeVia (s : State) (nd die : Nat) : Option Nat :=
  ((List.range 12).map (12 * die + ·)).find? (fun l => (Sparse.get 0 s.hub.routes nd).testBit l && (s.link l).up) |>.or (s.routeFrom nd 0)

/-- The die of the core that issued an operation; an edition message of the home's own hub counts as of die 0. -/
def HubOp.die (op : HubOp) : Nat :=
  if op.core < 2048 then dieOf op.core else if op.core < 2056 then (op.core - 2048) / 4 else 0

/-- R402: a node is absent; the own node is reached by loopback. -/
def State.nodeAbsent (s : State) (nd : Nat) : Bool :=
  (nd != s.hub.node && (s.routeFrom nd 0).isNone) || (s.conn nd).st == 3

/-! ## Messages on links (R373, R374, R379) -/

/-- Message types of R374. -/
def tyOPEN : Nat := 0x01
def tyACCEPT : Nat := 0x02
def tyLD : Nat := 0x10
def tyST : Nat := 0x11
def tyAMO : Nat := 0x12
def tyEDST : Nat := 0x13
def tyEDAPPLY : Nat := 0x14
def tyDATA : Nat := 0x20
def tyACK : Nat := 0x21
def tyERR : Nat := 0x22
def tySTALE : Nat := 0x23
def tyEDNUM : Nat := 0x24

/-- The response class. -/
def Msg.resp (m : Msg) : Bool := m.ty == tyACCEPT || decide (0x20 ≤ m.ty)

/-- R374: the bytes of a message: its header and its body. -/
def Msg.len (m : Msg) : Nat :=
  16 + (match m.ty with
    | 0x10 => 20
    | 0x11 => 20 + (m.c + 3) / 4 * 4
    | 0x12 => 36
    | 0x13 => 16 + (m.c + 3) / 4 * 4
    | 0x14 => 24 + (m.c + 3) / 4 * 4
    | 0x20 | 0x24 => 8
    | 0x22 => 16
    | _ => 0)

/-- R374: the payload of a flit with room for n bytes: the messages that wait follow one another, and one that does not fit is continued in
the next; what is in the flit, and what still waits. -/
def fillFlit : Nat → List (Msg × Nat) → List (Msg × Nat × Nat) × List (Msg × Nat)
  | _, [] => ([], [])
  | n, (m, o) :: ms =>
    if n = 0 then ([], (m, o) :: ms)
    else if n < m.len - o then ([(m, o, n)], (m, o + n) :: ms)
    else
      let (x, r) := fillFlit (n - (m.len - o)) ms
      ((m, o, m.len - o) :: x, r)

/-- R373: flits of class c leave while messages of it wait, the link holds a credit of it and fewer than 128 flits; `fuel` bounds them. -/
def Link.flush (c : Nat) : Nat → Link → Link
  | 0, l => l
  | fuel + 1, l =>
    let w := (l.waiting[c]?).getD []
    let n := (l.credit[c]?).getD 0
    if w.isEmpty ∨ n = 0 ∨ 128 ≤ l.held.length then l
    else
      let (x, r) := fillFlit 244 w
      Link.flush c fuel { l with held := l.held ++ [(l.next, c, x)], next := (l.next + 1) % 4096,
                                 credit := l.credit.setIfInBounds c (n - 1), waiting := l.waiting.setIfInBounds c r }

/-- The messages that wait on a link tried again, responses first. -/
def Link.pump (l : Link) : Link := Link.flush 0 128 (Link.flush 1 128 l)

/-- A message is to go out on a link. -/
def Link.put (l : Link) (m : Msg) : Link :=
  let c := if m.resp then 1 else 0
  Link.flush c 128 { l with waiting := l.waiting.setIfInBounds c ((l.waiting[c]?).getD [] ++ [(m, 0)]) }

/-- The messages that a link holds, in whole or in part: those of the flits not released, and those that wait. -/
def Link.messages (l : Link) : List Msg :=
  (l.held.flatMap (fun e => e.2.2.map Prod.fst) ++ l.waiting.toList.flatMap (fun w => w.map Prod.fst)).eraseDups

/-- R380: the messages that wait on a link and of which nothing has left are dropped. -/
def Link.hush (l : Link) : Link := { l with waiting := l.waiting.map (fun (w : List (Msg × Nat)) => w.filter (fun e => Nat.blt 0 e.2)) }

/-- A counter of R379. -/
def Link.bump (l : Link) (i n : Nat) : Link := { l with count := l.count.setIfInBounds i (min ((l.count[i]?).getD 0 + n) (2 ^ 64 - 1)) }

/-- R381: a message leaves a die: by loopback to the own node, else on a link of the route mask that is UP; with none it is lost. A device
with NVALID = 0 sends none (R380). -/
def State.sendMsg (s : State) (die : Nat) (m : Msg) : State :=
  if !s.hub.nvalid then s
  else if m.dst = s.hub.node then s.mapHub (fun h => { h with loop := h.loop ++ [m] })
  else match s.routeVia m.dst die with
    | some l => s.setLink l ((s.link l).put m)
    | none => s

/-- R371, R372, R376: link n goes down: its messages go back to the connection layer, which sends them on other links. -/
def State.linkDown (s : State) (n : Nat) : State :=
  let l := s.link n
  let l' : Link := { dis := l.dis, peer := l.peer, plink := l.plink, expect := l.expect, next := l.next, count := l.count,
                     sentTrain := l.sentTrain }
  let s := s.setLink n (if l.up then l'.bump 3 1 else l')
  l.messages.foldl (State.sendMsg · (n / 12)) s

/-! ## The end of an operation (R392, R393, R396, R403) -/

def State.dropHub (s : State) (id : Nat) : State := s.mapHub (fun h => { h with ops := h.ops.filter (fun o => o.id ≠ id) })
def State.putHub (s : State) (op : HubOp) : State :=
  s.mapHub (fun h => { h with ops := h.ops.map (fun (o : HubOp) => if o.id = op.id then op else o) })
def State.hubOp (s : State) (id : Nat) : Option HubOp := s.hub.ops.find? (fun o => o.id = id)

/-- Parts of an operation not yet answered. -/
def State.hubParts (s : State) (id : Nat) : Bool := s.hub.ops.any (fun o => (o.fn == 16 || o.fn == 17) && o.parent == id)

/-- The result of an operation in its register. -/
def State.hubResult (s : State) (op : HubOp) (val flags : Nat) : State :=
  match op.fn with
  | 0 | 2 => s.setS op.d (extendVal op.n op.sx val)
  | 3 => s.setS op.x (word val)
  | 5 => (s.setV op.d (BitVec.ofNat 2048 val)).raise flags
  | _ => s

/-- R392: an operation is answered: its result, or its trap against the word that issued it (R186), go to the core unless its firing has
ended. An `edst` not yet performed at every member stays, answered: it is complete, so that `fend` does not wait for it (R396; assumption
56). -/
def State.hubDone (s : State) (op : HubOp) (trap : Option Trap) (val flags : Nat) : State :=
  let s := if s.hubParts op.id ∨ (op.fn = 3 ∧ trap.isNone ∧ op.node ≠ s.hub.node) then
      (s.putHub { op with fn := 18, node := 1024 }).engRelease op.id
    else (s.dropHub op.id).retire op.id
  if op.orphan then s
  else match trap with
    | some t => s.engineTrap op.core op.id op.pc t
    | none => s.resultTo op.core op.id (fun s => s.hubResult op val flags)

/-- LINK_UNKNOWN of R393: 0 not sent, 1 outcome unknown, 2 closed; an operation not sent has no sequence number. -/
def HubOp.unknown (op : HubOp) (i1 : Nat) : Trap :=
  { code := cLINK_UNKNOWN, i0 := word op.off, i1 := word i1, i2 := word op.target, i3 := word (op.seq.getD 0) }

/-- R266: GROUP_ABSENT: the count of absent members, their window, the least of them. -/
def absentTrap (ea : Word) (abs : List Nat) : Trap :=
  let first := (abs.head?).getD 0
  let base := first / 64 * 64
  { code := cGROUP_ABSENT, i0 := ea, i1 := word abs.length,
    i2 := word ((List.range 64).foldl (fun acc k => if abs.contains (base + k) then acc + 2 ^ k else acc) 0), i3 := word first }

/-- The least of a list of numbered entries. -/
def leastEntry {α : Type} : List (Nat × α) → Option (Nat × α)
  | [] => none
  | e :: es => match leastEntry es with
    | none => some e
    | some x => some (if e.1 < x.1 then e else x)

/-- R403: an `xovld` whose members have all answered: GROUP_FAULT, LINK_UNKNOWN, or the tree's results. -/
def State.settleXovld (s : State) (op : HubOp) : State :=
  match leastEntry op.bad, leastEntry op.lost with
  | some (m, code), _ => s.hubDone op (some { code := cGROUP_FAULT, i0 := word op.off, i1 := word m, i2 := word code }) 0 0
  | none, some (m, i1, sq) =>
    s.hubDone op (some { code := cLINK_UNKNOWN, i0 := word op.off, i1 := word i1, i2 := word m, i3 := word sq }) 0 0
  | none, none =>
    let (v, fl) := overResult op.o op.ty op.n ((List.range op.count).map (fun j => (op.got.find? (fun e => e.1 = j)).map Prod.snd))
    s.hubDone op none v fl

/-- A part of an operation has ended: `f` records a member's answer in its `xovld`; the whole ends with its last part. -/
def State.partDone (s : State) (op : HubOp) (f : HubOp → HubOp) : State :=
  let s := s.dropHub op.id
  match s.hubOp op.parent with
  | some p =>
    if p.fn = 5 then
      let s := s.putHub (f p)
      if s.hubParts p.id then s else s.settleXovld (f p)
    else if p.fn = 18 ∧ !s.hubParts p.id then (s.dropHub p.id).retire p.id
    else s
  | none => if s.hubParts op.parent then s else s.retire op.parent

/-- R382: an operation ends with LINK_UNKNOWN. -/
def State.hubFail (s : State) (op : HubOp) (i1 : Nat) : State :=
  if op.fn = 16 then s.partDone op id
  else if op.fn = 17 then s.partDone op (fun p => { p with lost := p.lost ++ [(op.member, i1, op.seq.getD 0)] })
  else s.hubDone op (some (op.unknown i1)) 0 0

/-- R382: the connection to a node goes DOWN. -/
def State.connDown (s : State) (nd : Nat) : State :=
  let s := s.setConn nd { s.conn nd with st := 3 }
  (s.hub.ops.filter (fun o => o.node == nd && o.seq.isSome)).foldl (fun s op => match s.hubOp op.id with
    | some op => s.hubFail op 1
    | none => s) s

/-! ## The sending of an operation (R382) -/

/-- The request of an operation (R374). -/
def HubOp.msg (op : HubOp) (src epoch : Nat) : Msg :=
  let key := op.target % 2 ^ 32
  let sq := op.seq.getD 0
  match op.fn with
  | 0 | 17 => { ty := tyLD, src := src, dst := op.node, epoch := epoch, seq := sq, a := key, b := op.off, c := op.n }
  | 1 => { ty := tyST, src := src, dst := op.node, epoch := epoch, seq := sq, a := key, b := op.off, c := op.n, data := op.data }
  | 2 => { ty := tyAMO, src := src, dst := op.node, epoch := epoch, seq := sq, a := key, b := op.off, c := op.n, d := op.o, e := op.cmp, data := op.data }
  | 3 => { ty := tyEDST, src := src, dst := op.node, epoch := epoch, seq := sq, a := op.target, b := op.off, c := op.n, data := op.data }
  | _ => { ty := tyEDAPPLY, src := src, dst := op.node, epoch := epoch, seq := sq, a := op.target, b := op.off, c := op.n, d := op.epoch,
           e := op.edition, data := op.data }

/-- An operation put on its UP connection: it takes NEXTSEQ and leaves. -/
def State.transmit (s : State) (op : HubOp) : State :=
  let c := s.conn op.node
  let op := { op with seq := some c.nextSeq, at_ := s.refClock }
  let s := s.putHub op
  let s := s.setConn op.node { c with nextSeq := (c.nextSeq + 1) % 2 ^ 32, link := (s.routeVia op.node op.die).getD c.link }
  s.sendMsg op.die (op.msg s.hub.node c.epoch)

/-- R382: the connection to the own node opens through the loopback at once. -/
def State.openOwn (s : State) : State :=
  let n := s.hub.node
  let ep := ((s.conn n).epoch + 1) % 2 ^ 16
  (s.setConn n { s.conn n with st := 1, epoch := ep, nextSeq := 0, hand := false }).setSource n { known := true, epoch := ep }

/-- R380, R382: operation `id`, not yet on its connection, is sent, waits for the handshake, or ends with LINK_UNKNOWN, not sent. -/
def State.hubSend (s : State) (id : Nat) : State :=
  match s.hubOp id with
  | none => s
  | some op =>
    let c := s.conn op.node
    if op.seq.isSome || op.fn == 5 || op.fn == 18 then s
    else if !s.hub.nvalid then s.hubFail op 0
    else if c.st = 1 ∨ c.st = 2 then s.transmit op
    else if op.node = s.hub.node then s.openOwn.transmit op
    else if c.hand then s
    else match s.routeFrom op.node 0 with
      | none => s.hubFail op 0
      | some _ =>
        (s.setConn op.node { c with hand := true, since := s.refClock }).sendMsg op.die
          { ty := tyOPEN, src := s.hub.node, dst := op.node, epoch := (c.epoch + 1) % 2 ^ 16, seq := 0 }

/-- Every operation that is not on its connection tried, oldest first. -/
def State.hubPump (s : State) : State := (s.hub.ops.map HubOp.id).foldl State.hubSend s

/-! ## Registers -/

/-- R379: the status word of a link. -/
def Link.word (l : Link) : Nat := (if l.up then 1 else 0) + (if l.dis then 2 else 0) + l.peer % 1024 * 2 ^ 2 + l.plink % 32 * 2 ^ 12

/-- R382: the status word of a connection. -/
def Conn.word (c : Conn) : Nat := c.st % 4 + c.epoch % 2 ^ 16 * 2 ^ 2 + c.nextSeq % 2 ^ 32 * 2 ^ 18

/-- R380: HUBCFG. -/
def Hub.cfg (h : Hub) : Nat := h.node % 1024 + (if h.nvalid then 2 ^ 10 else 0) + h.cto % 2 ^ 16 * 2 ^ 16 + h.rto % 2 ^ 16 * 2 ^ 32

/-- R387: word i of a key-table entry. -/
def Key.word (k : Key) (i : Nat) : Nat :=
  match i with
  | 0 => k.base
  | 1 => k.len
  | 2 => k.perm % 256 + k.space % 256 * 2 ^ 8 + k.region % 256 * 2 ^ 16 + (if k.live then 2 ^ 24 else 0) + k.gen % 2 ^ 20 * 2 ^ 32
  | _ => 0

/-- R395: word i of an edition entry. -/
def Edition.word (e : Edition) (i : Nat) : Nat :=
  if i = 0 then
    e.st % 4 + (if e.member then 4 else 0) + (if e.home then 8 else 0) + e.homeNode % 1024 * 2 ^ 4 + e.epoch % 2 ^ 16 * 2 ^ 14
  else if i = 1 then e.next
  else if i = 2 then e.applied
  else if i = 3 then e.copyBase.toNat
  else if i = 4 then e.edLen % 2 ^ 32 + e.copySpace % 256 * 2 ^ 32 + e.region % 256 * 2 ^ 40 + e.gapt % 2 ^ 16 * 2 ^ 48
  else if i = 5 then e.held.length % 2 ^ 32 + e.dropped % 2 ^ 32 * 2 ^ 32
  else if 8 ≤ i ∧ i < 24 then e.bitmap / 2 ^ (64 * (i - 8)) % 2 ^ 64
  else 0

/-- R406: GTSTAT. -/
def Ptp.word (p : Ptp) : Nat :=
  p.st % 4 + (if p.gm then 4 else 0) + (if p.ptpts then 8 else 0) + p.port % 32 * 2 ^ 4 +
    intBits 32 (max (-(2 ^ 31 - 1)) (min p.offset (2 ^ 31 - 1))) * 2 ^ 32

/-- R401: word i of a peer-member entry, whose stored form holds NODE, KEY and OFFSET at their places; ABS is computed. -/
def State.memberWord (s : State) (m i : Nat) : Nat :=
  let x := Sparse.get 0 s.hub.members m
  if i = 0 then x % 2 ^ 64 + (if s.nodeAbsent (x % 1024) then 2 ^ 10 else 0) else x / 2 ^ 64

/-- R378: a word of the hub's registers by its offset in system space; none where nothing lies. -/
def State.hubRead (s : State) (o : Nat) : Option Nat :=
  let h := s.hub
  if o = 0x400000 then some h.cfg
  else if 0x410000 ≤ o ∧ o < 0x410800 then some (Sparse.get 0 h.groups ((o - 0x410000) / 8))
  else if 0x420000 ≤ o ∧ o < 0x440000 then some (s.memberWord ((o - 0x420000) / 16) (o % 16 / 8))
  else if 0x440000 ≤ o ∧ o < 0x442000 then some (s.conn ((o - 0x440000) / 8)).word
  else if 0x460000 ≤ o ∧ o < 0x462000 then some (Sparse.get 0 h.routes ((o - 0x460000) / 8))
  else if 0x480000 ≤ o ∧ o < 0x480600 then
    let l := s.link ((o - 0x480000) / 64)
    let i := o % 64 / 8
    some (if i = 0 then l.word else (l.count[i - 1]?).getD 0)
  else if o = 0x490000 then some h.ptp.cfg
  else if o = 0x490008 then some h.ptp.word
  else if 0x500000 ≤ o ∧ o < 0x520000 then some ((Sparse.get {} h.keys ((o - 0x500000) / 32)).word (o % 32 / 8))
  else if 0x600000 ≤ o ∧ o < 0x700000 then some ((s.edition ((o - 0x600000) / 256)).word (o % 256 / 8))
  else none

/-- Bytes written into a register: the bits of `mask` replaced by those of v. -/
def mergeBits (old v mask : Nat) : Nat := Nat.lor (old - Nat.land old mask) (Nat.land v mask)

/-- R395, R400: word i of an edition entry becomes w; a new EPOCH discards the editions held. -/
def Edition.setWord (e : Edition) (i w : Nat) : Edition :=
  if i = 0 then
    let e' := { e with st := bits w 0 2, member := w.testBit 2, home := w.testBit 3, homeNode := bits w 4 10, epoch := bits w 14 16 }
    if e'.epoch = e.epoch then e' else { e' with held := [], gapFrom := none }
  else if i = 1 then { e with next := w }
  else if i = 2 then { e with applied := w }
  else if i = 3 then { e with copyBase := BitVec.ofNat 64 w }
  else if i = 4 then { e with edLen := bits w 0 32, copySpace := bits w 32 8, region := bits w 40 8, gapt := bits w 48 16 }
  else if 8 ≤ i ∧ i < 24 then
    let k := 64 * (i - 8)
    { e with bitmap := e.bitmap % 2 ^ k + w * 2 ^ k + e.bitmap / 2 ^ (k + 64) * 2 ^ (k + 64) }
  else e

/-- R379: DIS of a link written. -/
def State.linkDis (s : State) (n : Nat) (v : Bool) : State :=
  let s := s.setLink n { s.link n with dis := v }
  if v then s.linkDown n else s

/-- R381, R382: a route mask written; 0 takes a connection that is UP or RETRYING DOWN. -/
def State.routeSet (s : State) (nd v : Nat) : State :=
  let s := s.mapHub (fun h => { h with routes := Sparse.set 0 h.routes nd (v % 2 ^ 24) })
  if v % 2 ^ 24 = 0 ∧ ((s.conn nd).st = 1 ∨ (s.conn nd).st = 2) then s.connDown nd else s

/-- A write at level M of v under a mask to the hub's register word at an offset: the fields that R378 to R406 let it write. -/
def State.hubWrite (s : State) (o v mask : Nat) : State :=
  let new := mergeBits ((s.hubRead o).getD 0) v mask
  if o = 0x400000 then
    s.mapHub (fun h => { h with
      node := bits new 0 10, nvalid := new.testBit 10, cto := bits new 16 16, rto := bits new 32 16,
      links := if new.testBit 10 then h.links else h.links.foldl (fun m e => Sparse.set {} m e.1 e.2.hush) [] })
  else if 0x410000 ≤ o ∧ o < 0x410800 then
    s.mapHub (fun h => { h with groups := Sparse.set 0 h.groups ((o - 0x410000) / 8) (Nat.land new 0x3FFEFFF) })
  else if 0x420000 ≤ o ∧ o < 0x440000 then
    let m := (o - 0x420000) / 16
    let x := Sparse.get 0 s.hub.members m
    let x' := if o % 16 = 0 then x / 2 ^ 64 * 2 ^ 64 + Nat.land new 0xFFFFFFFF000003FF else x % 2 ^ 64 + new * 2 ^ 64
    s.mapHub (fun h => { h with members := Sparse.set 0 h.members m x' })
  else if 0x460000 ≤ o ∧ o < 0x462000 then s.routeSet ((o - 0x460000) / 8) new
  else if 0x480000 ≤ o ∧ o < 0x480600 then
    if o % 64 = 0 ∧ mask.testBit 1 then s.linkDis ((o - 0x480000) / 64) (v.testBit 1) else s
  else if o = 0x490000 then s.mapHub (fun h => { h with ptp := { h.ptp with cfg := new % 2 ^ 33 } })
  else if 0x600000 ≤ o ∧ o < 0x700000 then
    let g := (o - 0x600000) / 256
    s.setEdition g ((s.edition g).setWord (o % 256 / 8) new)
  else s

/-- R417: a read of GTSTAT clears interrupt source 9. -/
def State.hubReadEffect (s : State) (o : Nat) : State :=
  if o = 0x490008 then s.mapHub (fun h => { h with ptp := { h.ptp with changed := false } }) else s

end Sys2Proof.Machine
end

