-- ==== Sys2Proof/Machine/SystemSpace.lean ====
section
/-! DEFINITION. System space (R416, R457): what each address reads, and what a write to it does, by the access columns of R4. -/

namespace Sys2Proof.Machine

/-- Offset of system space. -/
def sysBase : Nat := 0xF40000000000

/-- The memories that system space reaches (R416): private memories and tile memories. -/
def sysMem (ccore o : Nat) : Option Nat :=
  if o < 0x80000 then some (privBase ccore + o)
  else if 0x1000000 ≤ o ∧ o < 0x1000000 + 8 * 0x80000 then some (privBase 0 + (o - 0x1000000))
  else if 0x80000000 ≤ o ∧ o < 0x80000000 + 2 ^ 30 then some (tileBase 0 + (o - 0x80000000))
  else none

/-- The descriptor as 256 bits (R229, R230). -/
def Desc.toBits (d : Desc) : Nat :=
  if d.kind = 1 then
    1 + d.slot * 2 ^ 2 + d.port * 2 ^ 5 + d.base * 2 ^ 8 + d.tsz * 2 ^ 27 + d.cap * 2 ^ 40 + d.etype * 2 ^ 56 + d.eround * 2 ^ 60 +
    d.rd * 2 ^ 64 + d.wr * 2 ^ 96 + d.rpos * 2 ^ 128 + d.init * 2 ^ 144 + d.depth * 2 ^ 160 + d.ovf * 2 ^ 176 + d.peerL * 2 ^ 208 +
    d.peerD * 2 ^ 219 + (if d.mark then 2 ^ 224 else 0) + d.mmode * 2 ^ 225 + (if d.mflt then 2 ^ 228 else 0)
  else if d.kind = 2 then
    2 + d.slot * 2 ^ 2 + d.port * 2 ^ 5 + d.tsz * 2 ^ 27 + d.cap * 2 ^ 40 + d.etype * 2 ^ 56 + (if d.side then 2 ^ 63 else 0) +
    d.mrd * 2 ^ 64 + d.wr * 2 ^ 96 + d.wpos * 2 ^ 128 + d.peerL * 2 ^ 144 + d.peerD * 2 ^ 155 + d.sideof * 2 ^ 160 + d.ctype * 2 ^ 163 +
    d.cround * 2 ^ 167
  else 0

/-- The two 4-KiB pages of the invalidation registers (R114). -/
def State.tinvs (s : State) (die : Nat) : Nat :=
  (if ((s.tinvBusy[die]?).getD none).isSome then 1 else 0) + (if (s.tinvErr[die]?).getD false then 2 else 0)

/-- R263: whether a logical tile of a region is absent. -/
def State.absentTile (s : State) (region l : Nat) : Bool :=
  match (s.region region).resolve l with
  | none => true
  | some p =>
    let t := s.tile p
    (Sparse.get {} s.plates (plateOf p)).fence || bits (t.record[7]).toNat 8 3 == 7 || t.slots.any (fun x => x.st == .stopped)

/-- Word i of a slot-tag and block-tag window of a tile (R280, R281): slot tags of 2 bytes, then from byte 128 block tags of 1 byte. -/
def Mat.tagWord (x : Mat) (i : Nat) : Nat :=
  if i < 16 then
    (List.range 4).foldl (fun acc k =>
      let t := Sparse.get {} x.slots (4 * i + k)
      acc + (t.tag % 4 + t.owner % 8 * 2 ^ 2 + (if t.keep then 2 ^ 5 else 0) + (if t.relp then 2 ^ 6 else 0)) * 2 ^ (16 * k)) 0
  else
    (List.range 8).foldl (fun acc k =>
      let t := Sparse.get {} x.blocks (8 * (i - 16) + k)
      acc + (t.tag % 4 + (if t.int then 4 else 0)) * 2 ^ (8 * k)) 0

/-- R261: a group slot's descriptor. -/
def Group.word (g : Group) : Nat :=
  1 + (if g.skip then 2 else 0) + g.members.length % 2 ^ 12 * 2 ^ 8 + g.lgroup % 2 ^ 10 * 2 ^ 20 + g.region % 128 * 2 ^ 30 + g.mbase % 2 ^ 18 * 2 ^ 37

/-- R262: a member entry: that of the group whose range holds it. -/
def State.memberEntry (s : State) (i : Nat) : Nat :=
  (s.groups.findSome? (fun (_, x) => x.bind (fun g =>
    if g.mbase ≤ i ∧ i < g.mbase + g.members.length then
      let l := (g.members[i - g.mbase]?).getD 0
      some (l % 2 ^ 11 + (if s.absentTile g.region l then 2 ^ 11 else 0))
    else none))).getD 0

/-- R353: a plate's status. -/
def Plate.word (p : Plate) : Nat :=
  p.st % 4 + (if p.fence then 4 else 0) + (if p.st = 1 then p.region % 128 * 2 ^ 3 else 0) + (if p.pfault then 2 ^ 10 else 0)

/-- Fields of a submission packet (R422). -/
def pktField (pkt off n : Nat) : Nat := bits pkt (8 * off) (8 * n)
def Binding.flags (b : Binding) : Nat := pktField b.pkt 3 1
def Binding.job (b : Binding) : Nat := pktField b.pkt 6 2
def Binding.gobj (b : Binding) : Nat := pktField b.pkt 16 8

/-- R428: the status word of a region's instance record. -/
def Region.status (r : Region) : Nat :=
  (r.ended.getD 0) % 256 + (if r.modeSplit then 2 ^ 8 else 0) + r.drainMode % 8 * 2 ^ 9 + (if r.replay then 2 ^ 12 else 0) +
    (if ((r.bound.map Binding.flags).getD 0).testBit 0 then 2 ^ 13 else 0)

/-- Word i of an instance record, in the layout of the completion record with TAG zero (R428). -/
def Region.recordWord (r : Region) (i : Nat) : Nat :=
  match i with
  | 1 => r.status + min r.faults (2 ^ 32 - 1) * 2 ^ 32
  | 2 => r.startG % 2 ^ 64
  | 3 => r.endG % 2 ^ 64
  | 4 => r.firings % 2 ^ 64
  | 5 => r.ffw.toNat
  | _ => 0

/-- R420: CTL of a queue. -/
def Queue.ctl (q : Queue) : Nat :=
  (if q.en then 1 else 0) + (if q.err then 2 else 0) + (if q.stopped then 4 else 0) + q.log2n % 32 * 2 ^ 3 + q.prio % 8 * 2 ^ 8 +
    q.pol4 % 4 * 2 ^ 11 + q.lim4 % 16 * 2 ^ 13

/-- R420: word i of a queue descriptor. -/
def Queue.word (q : Queue) (i : Nat) : Nat :=
  match i with
  | 0 => q.base.toNat
  | 1 => q.ctl
  | 2 => q.head
  | 3 => q.tail
  | 4 => q.nextSeq
  | 5 => q.qroot.toNat
  | _ => 0

def State.queue (s : State) (q : Nat) : Queue := Sparse.get {} s.queues q
def State.setQueue (s : State) (q : Nat) (x : Queue) : State := { s with queues := Sparse.set {} s.queues q x }

/-- R438: word j of entry i of the measurement log. -/
def State.logWord (s : State) (i j : Nat) : Nat :=
  match s.fw.log[i]? with
  | none => 0
  | some e => if j = 0 then i + e.slot % 256 * 2 ^ 16 else if j = 7 then e.version % 2 ^ 64 else bits e.digest (64 * (j - 1)) 64

/-- R310: entry c of a region's context map. -/
def Region.mapEntry (r : Region) (c : Nat) : Nat :=
  match r.ctx.find? (fun e => e.1 = c) with
  | some (_, k) => k / 16 % 128 + k % 16 * 2 ^ 7 + 2 ^ 11
  | none => 0

/-- R457 to R467: a word of the package block, by its offset there; none where the block names nothing. -/
def State.packageRead (s : State) (o : Nat) : Option Nat :=
  let p := s.pkg
  if o = 0 then
    some (p.fstep % 32 + (if p.tpow then 2 ^ 8 else 0) + (if p.ttherm then 2 ^ 9 else 0) + p.pwr % 2 ^ 12 * 2 ^ 16 + p.temp % 2 ^ 8 * 2 ^ 28)
  else if o = 8 then some (p.plim % 2 ^ 12)
  else if o = 0x10 then some (s.fw.wdogValue % 2 ^ 48 + s.fw.wdogCount % 2 ^ 16 * 2 ^ 48)
  else if o = 0x18 then some (p.step % 8 + (if p.alt then 8 else 0) + p.err % 4 * 2 ^ 4)
  else if o = 0x20 then some 0x0000000100007658
  else if o = 0x28 then some Config.serial.toNat
  else if 0x1000 ≤ o ∧ o < 0x1200 then
    let d := (o - 0x1000) / 0x100
    let i := o % 0x100 / 8
    if i < 8 then some (Sparse.get 0 s.softErr (16 * d + i))
    else if 16 ≤ i ∧ i < 24 then some (Sparse.get 0 s.hardErr (16 * d + (i - 16)))
    else if i = 31 then some ((s.lastSoft[d]?).getD 0).toNat
    else none
  else none

/-- A word of the registers of system space by its offset (R416, R457); none where nothing lies. -/
def State.regRead (s : State) (o : Nat) : Option Nat :=
  if o = 0x100000 ∨ o = 0x101000 then some 0
  else if o = 0x100008 then some (s.tinvs 0)
  else if o = 0x101008 then some (s.tinvs 1)
  else if 0x200000 ≤ o ∧ o < 0x200400 then some (Sparse.get 0 s.roots ((o - 0x200000) / 8)).toNat
  else if o = 0x200400 then some s.ccroots.toNat
  else if o = 0x200408 then some s.ccrootm.toNat
  else if 0x400000 ≤ o ∧ o < 0x700000 then s.hubRead o
  else if 0x10000000 ≤ o ∧ o < 0x10000000 + 64 * 2048 then
    let i := o - 0x10000000
    some (((s.tile (i / 64)).record[i % 64 / 8]?).getD 0).toNat
  else if 0x11000000 ≤ o ∧ o < 0x11000000 + 1024 * 2048 then
    let i := o - 0x11000000
    some (bits (s.desc (descKey (i / 1024) (i % 1024 / 32))).toBits (64 * (i % 32 / 8)) 64)
  else if 0x12000000 ≤ o ∧ o < 0x12000000 + 1024 * 2048 then
    let i := o - 0x12000000
    some ((Sparse.get {} s.mats (i / 1024)).tagWord (i % 1024 / 8))
  else if 0x13000000 ≤ o ∧ o < 0x13000000 + 0x2000 * 2048 then
    let i := o - 0x13000000
    let t := s.tile (i / 0x2000)
    let pairs := if i % 0x2000 / 0x1000 = 0 then t.pairs else t.pairsProof
    -- pair (s, o) at 16s + 2o, outputs 0 to 4
    let j := i % 0x1000 / 2
    some ((List.range 4).foldl (fun acc k => acc + (if (j + k) % 8 < 5 then Sparse.get 0 pairs (j + k) else 0) * 2 ^ (16 * k)) 0)
  else if 0x14000000 ≤ o ∧ o < 0x14002000 then some (((Sparse.get none s.groups ((o - 0x14000000) / 8)).map Group.word).getD 0)
  else if 0x14010000 ≤ o ∧ o < 0x14090000 then
    let i := (o - 0x14010000) / 2
    some ((List.range 4).foldl (fun acc k => acc + s.memberEntry (i + k) * 2 ^ (16 * k)) 0)
  else if 0x14100000 ≤ o ∧ o < 0x14100400 then some (Sparse.get {} s.plates ((o - 0x14100000) / 8)).word
  else if 0x14200000 ≤ o ∧ o < 0x14200000 + 64 * 2048 then
    let i := o - 0x14200000
    some (((s.ctxAt (i / 64)).record[i % 64 / 8]?).getD 0).toNat
  else if 0x14300000 ≤ o ∧ o < 0x14302000 then
    let i := o - 0x14300000
    some ((s.region (i / 64)).recordWord (i % 64 / 8))
  else if 0x14400000 ≤ o ∧ o < 0x14404000 then
    let i := o - 0x14400000
    some ((s.queue (i / 64)).word (i % 64 / 8))
  else if o = 0x14500000 then some s.fwstat
  else if 0x14600000 ≤ o ∧ o < 0x14604000 then
    let i := o - 0x14600000
    some (s.logWord (i / 64) (i % 64 / 8))
  else if 0x14700000 ≤ o ∧ o < 0x14700040 then some (s.ccresetWord ((o - 0x14700000) / 8))
  else if 0x14800000 ≤ o ∧ o < 0x14802000 then s.packageRead (o - 0x14800000)
  else if 0x14A00000 ≤ o ∧ o < 0x14A40000 then
    let i := o - 0x14A00000
    some ((s.region (i / 2048)).mapEntry (i % 2048 / 8))
  else none

/-- Removes the translations of a tag (R114, R418), whatever the core. A stream context of the firmware translates through the same root; R114
names the control cores' entries only, and the model removes the context's as well (DESIGN CHOICE, assumption 86). -/
def State.dropTag (s : State) (tag : Nat) : State :=
  { s with tlb := (s.tlb.map (fun (k, l) => (k, l.filter (fun e => e.tag ≠ tag)))).filter (fun e => e.2 ≠ []) }

/-- A write of TINV on a die (R114): stalls while BUSY, sets ERR when ill-formed, else starts the invalidation. -/
def tinvWrite (die v : Nat) : M Unit := do
  let s ← get
  if ((s.tinvBusy[die]?).getD none).isSome then waitHere
  else if bits v 7 1 ≠ 0 ∨ bits v 10 6 ≠ 0 ∨ bits v 47 17 ≠ 0 ∨ bits v 8 2 = 3 then
    set { s with tinvErr := s.tinvErr.setIfInBounds die true }
  else set { s with tinvBusy := s.tinvBusy.setIfInBounds die (some (word v)) }

/-- R418: a write of CCROOTS or CCROOTM, which removes the translations made through it. -/
def State.ccrootSet (s : State) (m : Bool) (v : Nat) : State :=
  let s := if m then { s with ccrootm := word v } else { s with ccroots := word v }
  s.dropTag (if m then 129 else 128)

/-- R353: a write of a plate's status: FENCE at level M, PFAULT cleared by 1. -/
def State.plateWrite (s : State) (pl v mask : Nat) (lvlM : Bool) : State :=
  let p := Sparse.get {} s.plates pl
  let p := if lvlM && mask.testBit 2 then { p with fence := v.testBit 2 } else p
  let p := if (Nat.land v mask).testBit 10 then { p with pfault := false } else p
  { s with plates := Sparse.set {} s.plates pl p }

/-- R419: a write of the doorbell bits of CCRESET x. -/
def State.dbellWrite (s : State) (x v mask : Nat) : State :=
  let c := s.coreAt (2048 + x)
  s.setCoreAt (2048 + x) { c with dbell := bits (mergeBits (c.dbell * 2 ^ 8) v mask) 8 2 }

/-- R466: a counter after a write of v in the present cycle: the increments of that cycle are applied after the write. -/
def State.countAfter (s : State) (k v : Nat) : Nat := min (v + countOf s.counted k s.cycle) (2 ^ 64 - 1)

/-- R459, R466: a write at level M to the package block. -/
def State.packageWrite (s : State) (o v mask : Nat) : State :=
  let new := mergeBits ((s.packageRead o).getD 0) v mask
  if o = 8 then { s with pkg := { s.pkg with plim := new % 2 ^ 12 } }
  else if 0x1000 ≤ o ∧ o < 0x1200 then
    let d := (o - 0x1000) / 0x100
    let i := o % 0x100 / 8
    if i < 8 then { s with softErr := Sparse.set 0 s.softErr (16 * d + i) (s.countAfter (32 + 16 * d + i) new) }
    else if 16 ≤ i ∧ i < 24 then { s with hardErr := Sparse.set 0 s.hardErr (16 * d + (i - 16)) (s.countAfter (16 * d + (i - 16)) new) }
    else s
  else s

/-- A write of v under a byte mask to the register word at an offset; false where nothing lies. `lvlM` is the writer's level. -/
def regWrite (o v mask : Nat) (lvlM : Bool) : M Bool := do
  let s ← get
  if o = 0x100000 then tinvWrite 0 (Nat.land v mask); pure true
  else if o = 0x101000 then tinvWrite 1 (Nat.land v mask); pure true
  else if o = 0x100008 ∨ o = 0x101008 then
    let die := if o = 0x100008 then 0 else 1
    if (Nat.land v mask).testBit 1 then set { s with tinvErr := s.tinvErr.setIfInBounds die false }
    pure true
  else if 0x200000 ≤ o ∧ o < 0x200400 then
    let g := (o - 0x200000) / 8
    set { s with roots := Sparse.set 0 s.roots g (word (mergeBits (Sparse.get 0 s.roots g).toNat v mask)) }
    pure true
  else if o = 0x200400 ∨ o = 0x200408 then
    let m := o == 0x200408
    if lvlM then set (s.ccrootSet m (mergeBits (if m then s.ccrootm else s.ccroots).toNat v mask))
    pure true
  else if 0x400000 ≤ o ∧ o < 0x700000 then
    if lvlM then set (s.hubWrite o v mask)
    pure (s.regRead o).isSome
  else if 0x14100000 ≤ o ∧ o < 0x14100400 then
    set (s.plateWrite ((o - 0x14100000) / 8) v mask lvlM)
    pure true
  else if 0x14700000 ≤ o ∧ o < 0x14700040 then
    let x := (o - 0x14700000) / 8
    let s := s.dbellWrite x v mask
    set (if (Nat.land v mask).testBit 1 then s.ccreset s.ccore x else s)
    pure true
  else if 0x14800000 ≤ o ∧ o < 0x14802000 then
    if lvlM then set (s.packageWrite (o - 0x14800000) v mask)
    pure (s.regRead o).isSome
  else pure (s.regRead o).isSome

/-- Whether a core is at level M; firing cores are not. -/
def State.atM (s : State) : Bool := !s.isFiring && s.core.lvl == 1

/-- PROTECT reason 3: no range of system space covers the address (R416). -/
def noRegister {α : Type} (ea : Word) : M α := do
  let s ← get
  raiseTrap { code := cPROTECT, i0 := ea, i1 := 3, i3 := s.regionInfo }

/-- Reads n bytes at a place (R178, R468). -/
def readPlace (ea : Word) (n : Nat) (pl : Place) : M Nat := do
  let s ← get
  match pl with
  | .mem k => if s.readBad k n then raiseEcc ea k 1 else pure (s.rd k n)
  | .sys a =>
    let o := a - sysBase
    match sysMem s.ccore o with
    | some k => if s.readBad k n then raiseEcc ea k 1 else pure (s.rd k n)
    | none =>
      match s.regRead (o / 8 * 8) with
      | some x =>
        set (s.hubReadEffect (o / 8 * 8))
        pure (bits x (8 * (o % 8)) (8 * n))
      | none => noRegister ea

/-- Writes the low n bytes of v at a place (R178, R468). -/
def writePlace (ea : Word) (n v : Nat) (pl : Place) : M Unit := do
  let s ← get
  let store (k : Nat) : M Unit := if s.writeBad k n then raiseEcc ea k 3 else set (s.wr k n v)
  match pl with
  | .mem k => store k
  | .sys a =>
    let o := a - sysBase
    match sysMem s.ccore o with
    | some k => store k
    | none =>
      if (s.regRead (o / 8 * 8)).isNone then noRegister ea
      else
        let _ ← regWrite (o / 8 * 8) (v % 2 ^ (8 * n) * 2 ^ (8 * (o % 8))) ((2 ^ (8 * n) - 1) * 2 ^ (8 * (o % 8))) s.atM
        pure ()

end Sys2Proof.Machine
end

