-- ==== Sys2Proof/Machine/Flags.lean ====
section
/-! DEFINITION. The flag computations of FSTAT (R83, R84): raising, reading and writing the sticky flags, and the control-core's pending
interrupt bits (R167, R417) as far as an instruction reads them. -/

namespace Sys2Proof.Machine

/-- R83: the value `sysw` leaves in FSTAT. -/
def fstatWritten (x : Word) : Word := x &&& 0x7F

end Sys2Proof.Machine
end

