-- ==== Sys2Proof/Machine/Interrupts.lean ====
section
/-! DEFINITION. The pending interrupt sources of a control core (R167, R417), computed from the state that raises them, with the
condition of a drain (R64, R366). -/

namespace Sys2Proof.Machine

/-- The bound contexts of a region, by region context number. -/
def State.boundCtxs (s : State) (g : Nat) : List Nat := (s.region g).ctx.map Prod.snd

/-- A flit is queued at, or in flight from, some descriptor of a kind. -/
def State.flitsOf (s : State) (f : Nat → Bool) : Bool :=
  s.queued.any (fun e => f e.1 && !e.2.isEmpty) || s.flight.any (fun e => f e.1 && !e.2.isEmpty)

/-- A tile of a region still works (R366): a slot neither QUIESCENT, STOPPED nor UNUSED, or a flit outstanding. -/
def State.tileBusy (s : State) (p : Nat) : Bool :=
  (s.tile p).slots.any (fun x => x.st != .quiescent && x.st != .stopped && x.st != .unused) ||
    s.flitsOf (fun k => decide (k < 65536 ∧ k / 32 = p))

/-- A SOURCE or SINK context of a region still works. -/
def State.ctxBusy (s : State) (c : Nat) : Bool :=
  let x := s.ctxAt c
  x.role != 2 && !x.quiescent || s.flitsOf (fun k => decide (65536 ≤ k ∧ ctxOf k = c))

/-- R64: the region is drained. -/
def State.drained (s : State) (g : Nat) : Bool :=
  (s.region g).tiles.all (fun p => !s.tileBusy p) && (s.boundCtxs g).all (fun c => !s.ctxBusy c)

/-- An operation that tile p issued and whose firing has ended is not yet performed: at a bank, at another device, or by a streamer. What a
FROZEN context holds is not waited for: a map change goes on, and a pull drops it (DESIGN CHOICE, assumption 105: R104, R134 and R335 give no
end of that wait). -/
def State.tilePending (s : State) (p : Nat) : Bool :=
  !(Sparse.get [] s.netOps p).isEmpty || s.hub.ops.any (fun (o : HubOp) => o.core == p) ||
    s.ctxs.any (fun e => e.2.st != .halted && e.2.st != .frozen && e.2.cmds.any (fun m => m.core == p && m.orphan))

/-- R104, R134, R277: some access issued by or to the tiles of a region has not been performed. A pull, a move and the freeing of the region's
plates wait for it. -/
def State.unperformed (s : State) (g : Nat) : Bool :=
  let ts := (s.region g).tiles
  ts.any s.tilePending || s.flitsOf (fun k => if k < 65536 then ts.contains (k / 32) else (s.ctxAt (ctxOf k)).region == some g)

/-- R428: the time of the drain of each region whose instance runs. -/
def State.noteDrains (s : State) : State :=
  { s with regions := s.regions.map (fun e =>
      (e.1, if e.2.started then { e.2 with drainAt := if s.drained e.1 then e.2.drainAt.or (some s.gtime) else none } else e.2)) }

/-- R417: the region awaits its `qdone`. -/
def State.awaitsDone (s : State) (g : Nat) : Bool :=
  let r := s.region g
  r.live && r.undone && (r.ended.isSome || (r.started && s.drained g))

/-- R417: whether a source is pending at control core n. -/
def State.pending (s : State) (n : Nat) (src : Nat) : Bool :=
  match src with
  | 0 => s.queues.any (fun e => e.2.en && !e.2.stopped && e.2.tail != e.2.head)
  | 1 => s.regions.any (fun e => s.awaitsDone e.1)
  | 2 => s.tiles.any (fun e => ((e.2.firing.bind Firing.decide).isSome))
  | 3 => s.ctxs.any (fun e => e.2.st == .frozen)
  | 4 => s.plates.any (fun e => e.2.pfault)
  | 5 => s.cores.any (fun e => e.2.storeErr.isSome)
  | 6 => !s.hub.reports.isEmpty
  | 7 => s.queues.any (fun e => e.2.err)
  | 8 => s.fw.pending
  | 9 => s.hub.ptp.changed
  | 10 => !s.cxlErr.isEmpty
  | 11 => (s.coreAt (2048 + n)).dbell.testBit 0
  | 12 => (s.coreAt (2048 + n)).dbell.testBit 1
  | _ => false

/-- IPEND of control core n (R167, R417). -/
def State.ipend (s : State) (n : Nat) : Nat :=
  (List.range 13).foldl (fun acc k => if s.pending n k then acc + 2 ^ k else acc) 0

/-- R196: the lowest-numbered enabled pending source of control core n. -/
def State.source (s : State) (n : Nat) : Option Nat :=
  (List.range 64).find? (fun k => (s.ipend n).testBit k && (s.coreAt (2048 + n)).ien.toNat.testBit k)

/-- R196: whether control core n takes an interrupt at this boundary. -/
def State.takesInterrupt (s : State) (n : Nat) : Bool :=
  let c := s.coreAt (2048 + n)
  c.running && !c.halted && !c.shut && c.waitOp.isNone && c.ie == 1 && c.inh == 0 && (s.source n).isSome

end Sys2Proof.Machine
end

