-- ==== Sys2Proof/Machine/Operands.lean ====
section
/-! DEFINITION. Operand forms shared by the families: immediates (R137), effective addresses, single accesses of n bytes (R178), and
the system registers as each core reads and writes them (R161, R162). -/

namespace Sys2Proof.Machine

/-- A 34-bit, 22-bit or 16-bit signed immediate (R137, R172, R183). -/
def imm34 (x : Nat) : Word := sxWord 34 x
def imm22 (x : Nat) : Word := sxWord 22 x
def imm16 (x : Nat) : Word := sxWord 16 x

/-- R178: the effective address of the M format. -/
def State.ea (s : State) (a imm : Nat) : Word := s.sreg a + imm16 imm

/-- The class of a core's loads and stores, and of its local atomics (R100). -/
def State.reach (s : State) : Reach := if s.isFiring then .loadStore else .control
def State.atomicReach (s : State) : Reach := if s.isFiring then .localAtomic else .control

/-- The low n bytes of a loaded value in a register, sign-extended when `sgn` (R178). -/
def extendLoad (n : Nat) (sgn : Bool) (v : Nat) : Word := if sgn then sxWord (8 * n) v else word v

/-- R178: a load of n bytes into s register d. -/
def loadOp (n : Nat) (sgn : Bool) (d a ow imm : Nat) : M Unit := do
  let s ← get
  let ea := s.ea a imm
  let pl ← checkAccess s.reach .read n n ea
  waitOw ow
  awaitPlace pl n
  let v ← readPlace ea n pl
  modify (fun s => s.setS d (extendLoad n sgn v))
  advanceM

/-- R178: a store of the low n bytes of s register d. -/
def storeOp (n d a ow imm : Nat) : M Unit := do
  let s ← get
  let ea := s.ea a imm
  let pl ← checkAccess s.reach .write n n ea
  waitOw ow
  awaitPlace pl n
  let v := (s.sreg d).toNat % 2 ^ (8 * n)
  match pl with
  | .mem k => if (← get).writeBad k n then raiseEcc ea k 3 else journal k n
  | .sys _ => pure ()
  writePlace ea n v pl
  advanceM

/-- R181: a local atomic: `f old b d` is the new value, none when nothing is written. -/
def atomicOp (f : Word → Word → Word → Option Word) (d a b ow imm : Nat) : M Unit := do
  let s ← get
  let ea := s.ea a imm
  let pl ← checkAccess s.atomicReach .atomic 8 8 ea
  waitOw ow
  awaitPlace pl 8
  let old ← readPlace ea 8 pl
  match pl with
  | .mem k => journal k 8
  | .sys _ => pure ()
  match f (word old) (s.sreg b) (s.sreg d) with
  | some x => writePlace ea 8 x.toNat pl
  | none => pure ()
  modify (fun s => s.setS d (word old))
  advanceM

/-! ## System registers -/

/-- R161: the access of a core to a system register: read-only, read-write, reads zero, or PRIV with the TRAPINFO1 of R162. -/
inductive SysAccess where
  | ro | rw | z | p (needed : Nat)
deriving DecidableEq, Repr

/-- The access columns F, S and M of R161. -/
def sysAccess (firing levelM : Bool) (n : Nat) : SysAccess :=
  let f := firing
  let m := levelM
  match n with
  | 0 | 1 | 21 | 22 => .ro
  | 2 | 3 | 4 | 5 | 6 | 7 | 8 | 9 | 12 => if f then .ro else .z
  | 10 => if !f && m then .rw else .ro
  | 11 => if f then .rw else .z
  | 13 => if f then .ro else .rw
  | 14 | 15 | 16 | 17 | 18 => if !f && m then .rw else .ro
  | 19 => if f then .ro else .rw
  | 23 => if f then .p 1 else if m then .rw else .ro
  | 24 => if f then .p 1 else if m then .ro else .p 2
  | 26 => if f then .z else .ro
  | _ => if f then .p 1 else if m then .rw else .p 2

/-- The value of a system register where the core may read it (R161, R165). -/
def State.sysValue (s : State) (n : Nat) : Word :=
  let c := s.core
  let t := s.myTile
  let a := s.firingNow.slot
  match n with
  | 0 => word s.cycle
  | 1 => word s.gtime
  | 2 => word (s.ltileOf s.cur)
  | 3 => word s.cur
  | 4 => word (s.regionOf s.cur)
  | 5 => word (a + t.aindex a * 2 ^ 8 + t.acopy a * 2 ^ 24)
  | 6 => word (t.phase a (s.modeOf s.cur))
  | 7 => word (t.slot a).firing
  | 8 => word ((t.slot a).firing / 2 ^ 64)
  | 9 => word (s.modeOf s.cur)
  | 10 => if s.isFiring then (s.region (s.regionOf s.cur)).seed else s.seedReg
  | 11 => c.fstat
  | 12 => word (t.fmax a)
  | 13 => c.rptst
  | 14 => c.trapcause
  | 15 => c.trapinfo0
  | 16 => c.trapinfo1
  | 17 => c.trapinfo2
  | 18 => c.trapinfo3
  | 19 => c.trappc
  | 20 => c.trapbase
  | 21 => 3
  | 22 => word Config.revision
  | 23 => c.cstat
  | 24 => word (s.ipend s.ccore)
  | 25 => c.ien
  | 26 => word s.ccore
  | 27 => c.hsave0
  | 28 => c.hsave1
  | 29 => c.hsave2
  | _ => c.hsave3

/-- R166: CSTAT as a `sysw` leaves it: LVL is read-only. -/
def cstatWritten (old x : Word) : Word := (old &&& 1) ||| (x &&& 0x3E)

/-- A write of a system register the core may write (R151, R161, R163, R166, R167). -/
def State.sysWritten (s : State) (n : Nat) (x : Word) : State :=
  match n with
  | 10 => { s with seedReg := x }
  | 11 => s.mapCore (fun c => { c with fstat := fstatWritten x })
  | 13 => s.mapCore (fun c => { c with rptst := x &&& 0x7F })
  | 14 => s.mapCore (fun c => { c with trapcause := x &&& 0x3FFFF })
  | 15 => s.mapCore (fun c => { c with trapinfo0 := x })
  | 16 => s.mapCore (fun c => { c with trapinfo1 := x })
  | 17 => s.mapCore (fun c => { c with trapinfo2 := x })
  | 18 => s.mapCore (fun c => { c with trapinfo3 := x })
  | 19 => s.mapCore (fun c => { c with trappc := x })
  | 20 => s.mapCore (fun c => { c with trapbase := x &&& 0xFFFFFFFFF000 })
  | 23 => s.mapCore (fun c => { c with cstat := cstatWritten c.cstat x })
  | 25 => s.mapCore (fun c => { c with ien := x })
  | 27 => s.mapCore (fun c => { c with hsave0 := x })
  | 28 => s.mapCore (fun c => { c with hsave1 := x })
  | 29 => s.mapCore (fun c => { c with hsave2 := x })
  | 30 => s.mapCore (fun c => { c with hsave3 := x })
  | _ => s

/-- R417: reading TRAPINFO after entry clears the store error that interrupt source 5 reported. -/
def State.sysReadEffect (s : State) (n : Nat) : State :=
  if !s.isFiring && decide (15 ≤ n ∧ n ≤ 18) && fieldOf s.core.trapcause 9 7 == 1 + 2 * 5 then
    if s.core.storeErr.isSome then s.mapCore (fun c => { c with storeErr := none })
    else match (List.range 8).find? (fun k => (s.coreAt (2048 + k)).storeErr.isSome) with
      | some k => s.setCoreAt (2048 + k) { s.coreAt (2048 + k) with storeErr := none }
      | none => s
  else s

/-- R125: the object that scope 6, 8 or 9 names is known to the device: a group of the firing's region, for a control core a package slot
that holds a group; a node that is the device's own or has a route; an edition group whose entry is in use (assumption 94). -/
def State.knownObject (s : State) (sc v : Nat) : Bool :=
  match sc with
  | 6 => decide (v < 1024) && s.groups.any (fun e => match e.2 with
    | some x => if s.isFiring then x.region == s.regionOf s.cur && x.lgroup == v else e.1 == v
    | none => false)
  | 8 => decide (v < 1024) && (v == s.hub.node || Sparse.get 0 s.hub.routes v != 0)
  | 9 => decide (v < 4096) && (Sparse.get {} s.hub.editions v).st != 0
  | _ => true

/-- PRIV of the word being executed (R162, R197). -/
def privTrap (s : State) (needed reg : Nat) : Trap :=
  { code := cPRIV, i0 := word s.core.ir, i1 := word needed, i3 := word reg }

end Sys2Proof.Machine
end

