-- ==== Sys2Proof/Machine/Arc.lean ====
section
/-! DEFINITION. The token instructions of the arc engine, MAJ 0x70 (R236 to R251). -/

namespace Sys2Proof.Machine

/-- CAP of R238 and R242 at a port: that of its segments' windows together (DESIGN CHOICE, assumption 108: the rules speak of one window). -/
def State.wCap (s : State) (ks : List Nat) : Nat := (ks.map (fun k => (s.desc k).cap)).sum

/-- The size of a token access, in bytes, and of its offset unit (R237). -/
def accessSize (vec : Bool) (sz : Nat) : Nat := if vec then 64 * 2 ^ sz else 2 ^ sz
def offsetUnit (vec : Bool) (sz : Nat) : Nat := if vec then 64 else 2 ^ sz

def tokenRange {α : Type} (w j bound : Nat) : M α :=
  raiseTrap { code := cTOKEN_RANGE, i0 := word w, i1 := word j, i2 := word bound }

/-- R238: the checks of a read of n bytes at offset o of token j: the token's segment, its place there, and its tile-memory offset. -/
def tokenAddr (j o n port : Nat) : M (Nat × Nat × Nat) := do
  let s ← get
  let ks := s.wDescs port
  if ks.isEmpty then tokenRange port j 0
  else if s.wCap ks ≤ j then tokenRange port j (s.wCap ks)
  else
    match s.wToken port j with
    | none => tokenRange port j 0
    | some (k, i) =>
      let d := s.desc k
      if d.cap ≤ i then tokenRange port j d.cap
      else if d.mark && decide (d.count ≤ i) then tokenRange port j d.count
      else if d.size < o + n then
        raiseTrap { code := cWINDOW_OVER, i0 := word port, i1 := word o, i2 := word n, i3 := word d.size }
      else
        let addr := d.base + (d.rpos + i) % d.cap * d.size + o
        if addr % (if n < 64 then n else 64) ≠ 0 then
          raiseTrap { code := cMISALIGN, i0 := word (0xF00000000000 + addr), i1 := word n }
        else pure (k, i, addr)

/-- R238: a token read: its bytes, as a number. It is a single access to own tile memory (R252), which waits for what it must follow (R121, R324). -/
def tokenRead (vec : Bool) (a b ow port sz imm : Nat) : M Nat := do
  let s ← get
  let j := (s.sreg a).toNat
  let n := accessSize vec sz
  let (k, i, addr) ← tokenAddr j ((s.sreg b).toNat + imm * offsetUnit vec sz) n port
  waitOw ow
  if s.aRate port ≤ j ∧ (s.desc k).count ≤ i then waitHere
  else
    awaitPlace (.mem (tileBase s.cur + addr)) n
    readPlace (word (0xF00000000000 + addr)) n (.mem (tileBase s.cur + addr))

/-- R238: `wld`. -/
def execWld (d a b ow _om _sc port sz imm : Nat) (s : State) : Out :=
  runM (do
    let v ← tokenRead true a b ow port sz imm
    modify (fun s => s.setV d (BitVec.ofNat 2048 v))
    advanceM) s

/-- R238: `wlds`. -/
def execWlds (d a b ow _om _sc port sz imm : Nat) (s : State) : Out :=
  runM (do
    let v ← tokenRead false a b ow port sz imm
    modify (fun s => s.setS d (word v))
    advanceM) s

/-- R239, R251: n bytes at offset o convert to whole bytes; wp and wc are the widths. -/
def convertible (wp wc o n : Nat) : Bool :=
  decide (8 * o % wp = 0 ∧ 8 * n % wp = 0 ∧ 8 * o / wp * wc % 8 = 0 ∧ 8 * n / wp * wc % 8 = 0)

/-- R234: whether flits fit in an injection buffer of 8. A write of more than 8 flits waits for an empty buffer (assumption 16). -/
def State.bufferFits (s : State) (k n : Nat) : Bool :=
  let q := (Sparse.get [] s.queued k).length
  decide (q + n ≤ 8) || decide (q = 0)

/-- R239: the checks of a write of n bytes at offset o of token j. -/
def writeCheck (n o j port : Nat) : M Unit := do
  let s ← get
  let ks := s.wDescs port
  let d0 := s.desc ((ks.head?).getD 0)
  if ks.isEmpty then tokenRange port j 0
  else if d0.side || decide (j < (s.firingNow.sent[port - 8]?).getD 0) || decide (65535 ≤ j) then tokenRange port j (s.aRate port)
  else if d0.size < o + n then
    raiseTrap { code := cWINDOW_OVER, i0 := word port, i1 := word o, i2 := word n, i3 := word d0.size }
  else if (d0.etype ≠ d0.ctype && !convertible (elemWidth d0.etype) (elemWidth d0.ctype) o n) ||
      decide (o % (if n < 64 then n else 64) ≠ 0) then
    raiseTrap { code := cMISALIGN, i0 := word o, i1 := word n }
  else pure ()

/-- R239: a token written raises its port's high mark. -/
def Firing.raised (f : Firing) (port j : Nat) : Firing :=
  { f with high := f.high.setIfInBounds (port - 8) (max ((f.high[port - 8]?).getD 0) (j + 1)) }

/-- R239, R251: the DATA flits of n bytes of data for place i of segment k, their last one carrying an operation, and the elements
counted as overflow. -/
def State.writeFlits (s : State) (k i n o data : Nat) (op : Option Nat) : State × Nat :=
  let d := s.desc k
  let (bs, cnt) := convertBytes d.etype d.ctype d.cround (toBytes data n)
  let o' := if d.etype = d.ctype then o else 8 * o / elemWidth d.etype * elemWidth d.ctype / 8
  (s.queueData k ((d.wpos + i) % max 1 d.cap) o' bs op, cnt)

/-- R239: a checked write is issued: its operation joins those of the port. -/
def State.sendWrite (s : State) (k i n o data j port id : Nat) : State :=
  let (s, cnt) := s.writeFlits k i n o data (some id)
  s.mapFiring (fun f => { (f.raised port j).addOvf k cnt with sends := f.sends ++ [(port, id)] })

/-- R298: the port and the token that a queued `mdrain` of the current tile writes, by its record as it stands; none where it writes tile
memory. -/
def State.drainTarget (s : State) (c : MatCmd) : Option (Nat × Nat) :=
  if c.fn ≠ 9 then none
  else match checkAccess .ownTile .read 64 64 (word c.av) s with
    | .ok (.mem k) _ => if bits (s.rd k 64) 72 8 < 8 then none else some (bits (s.rd k 64) 72 8, bits (s.rd k 64) 352 32)
    | _ => none

/-- R252, R303: one of the commands is an `mdrain` that has still to write token j of the port: a later write of that token follows it. -/
def State.drainAhead (s : State) (q : List MatCmd) (port j : Nat) : Bool :=
  q.any (fun c => !c.started && s.drainTarget c == some (port, j))

/-- R239: `wst` of n bytes of data. -/
def tokenWrite (n o data a ow om port : Nat) : M Unit := do
  let s ← get
  let j := (s.sreg a).toNat
  writeCheck n o j port
  if j < s.aRate port then
    match s.wToken port j with
    | none => tokenRange port j (s.aRate port)
    | some (k, i) =>
      waitOw ow
      let q := (s.writeFlits k i n o data none).1
      if s.drainAhead (s.mat s.cur).queue port j || !s.bufferFits k ((Sparse.get [] q.queued k).length - (Sparse.get [] s.queued k).length) then
        waitHere
      else
        let (id, s) := s.issueOp om false
        set (s.sendWrite k i n o data j port id)
        advanceM
  else
    modify (fun s => s.mapFiring (fun f => f.raised port j))
    advanceM

/-- R239: `wst`, its data an s or a v register. -/
def execWst (d a b ow om _sc port sz imm : Nat) (s : State) : Out :=
  let vec := decide (32 ≤ d)
  let n := accessSize vec sz
  let o := (s.sreg b).toNat + imm * offsetUnit vec sz
  runM (do
    if vec && s.core.badReg.contains d then
      modify (fun s => s.countHard (dieOf s.cur) 4)
      raiseTrap { code := cECC, i0 := word d, i1 := 4, i3 := s.regionInfo }
    tokenWrite n o (if vec then (s.vreg d).toNat % 2 ^ (8 * n) else (s.sreg d).toNat % 2 ^ (8 * n)) a ow om port) s

/-- R240, R246, R251: the POINTER flits of a port that commit its tokens up to n, of which `sent` are committed, behind its DATA flits. Each
carries its segment's overflow count, which starts again at 0. -/
def State.pointers (s : State) (w n sent : Nat) (op : Option Nat) : State :=
  (s.wShares w n).foldl (fun s (k, m) =>
    let before := ((s.wShares w sent).find? (fun e => e.1 = k)).map Prod.snd
    if m ≤ before.getD 0 then s
    else
      let d := k % 32
      let c := Sparse.get 0 s.firingNow.ovf d
      let s := s.queueFlit k (.pointer (((s.desc k).wr + m) % 2 ^ 32) c op)
      s.mapFiring (fun f => { f with ovf := Sparse.set 0 f.ovf d 0, ovfSent := Sparse.set 0 f.ovfSent d (Sparse.get 0 f.ovfSent d + c) })) s

/-- R240: `wsend`. -/
def execWsend (a ow om _sc port : Nat) (s : State) : Out :=
  runM (do
    let s ← get
    let ks := s.wDescs port
    let n := (s.sreg a).toNat
    let p := s.aRate port
    let sent := (s.firingNow.sent[port - 8]?).getD 0
    let side := (s.desc ((ks.head?).getD 0)).side
    if ks.isEmpty then tokenRange port n 0
    else if n ≤ sent then advanceM
    else if p < n ∨ side then tokenRange port n p
    else
      waitOw ow
      let (id, s) := s.issueOp om false
      let s := s.pointers port n sent (some id)
      set (s.mapFiring (fun f => { f with
        sent := f.sent.setIfInBounds (port - 8) n,
        high := f.high.setIfInBounds (port - 8) (max ((f.high[port - 8]?).getD 0) n),
        sends := f.sends ++ [(port, id)] }))
      markExt
      advanceM) s

/-- R241: a 32-bit value of a port into s register d; 0 where no arc joins it (R237). -/
def portValue (f : State → List Nat → Nat) (d port : Nat) (s : State) : Out :=
  let ks := s.wDescs port
  .next ((s.setS d (word (if ks.isEmpty then 0 else f s ks % 2 ^ 32))).advance)

/-- R241: `wavail`. -/
def execWavail (d port : Nat) (s : State) : Out := portValue (fun s _ => s.aRate port) d port s

/-- R241: `wfree`. -/
def execWfree (d port : Nat) (s : State) : Out :=
  portValue (fun s _ => s.aRate port - (s.firingNow.sent[port - 8]?).getD 0) d port s

/-- R241: `wovf`: the windows' counters, or the firing's count not yet carried. -/
def execWovf (d port : Nat) (s : State) : Out :=
  portValue (fun s ks =>
    if port < 8 then min (ks.map (fun k => (s.desc k).ovf)).sum (2 ^ 32 - 1)
    else (ks.map (fun k => Sparse.get 0 s.firingNow.ovf (k % 32))).sum) d port s

/-- R242: TRAPINFO0 of WAIT_LIMIT: port, descriptor, logical tile. -/
def State.waitInfo (s : State) (port k : Nat) : Word := word (port + 16 * (k % 32) + 2 ^ 16 * s.ltileOf s.cur)

/-- R242: `wwait`. -/
def execWwait (a b port : Nat) (s : State) : Out :=
  runM (do
    let s ← get
    let ks := s.wDescs port
    let n := (s.sreg a).toNat
    if n = 0 then advanceM
    else if ks.isEmpty then tokenRange port n 0
    else if s.wCap ks < n then tokenRange port n (s.wCap ks)
    else
      let sh := s.wShares port n
      match sh.find? (fun e => decide ((s.desc e.1).cap < e.2) || ((s.desc e.1).mark && decide ((s.desc e.1).count < e.2))) with
      | some (k, m) => tokenRange port n (if (s.desc k).cap < m then (s.desc k).cap else (s.desc k).count)
      | none =>
        match sh.find? (fun e => decide ((s.desc e.1).count < e.2)) with
        | none => advanceM
        | some (k, _) =>
          let d := s.desc k
          boundedWait (s.sreg b).toNat
            { code := cWAIT_LIMIT, i0 := s.waitInfo port k, i1 := word d.rd, i2 := word d.wr, i3 := word n }) s

/-- R242: `wwaito`. -/
def execWwaito (b port : Nat) (s : State) : Out :=
  runM (do
    let s ← get
    let f := s.firingNow
    if f.sends.all (fun e => e.1 != port || !s.isLive e.2) then advanceM
    else
      let k := ((s.wDescs port).head?).getD 0
      let d := s.desc k
      let sent := ((s.wShares port ((f.sent[port - 8]?).getD 0)).find? (fun e => e.1 = k)).map Prod.snd
      boundedWait (s.sreg b).toNat
        { code := cWAIT_LIMIT, i0 := s.waitInfo port k, i1 := word d.mrd, i2 := word ((d.wr + sent.getD 0) % 2 ^ 32) }) s

/-- R243: `wmode`. -/
def execWmode (d port : Nat) (s : State) : Out :=
  runM (do
    let s ← get
    let ks := s.wDescs port
    if ks.isEmpty then do
      modify (fun s => s.setS d 0)
      advanceM
    else
      match s.wToken port (s.aRate port) with
      | none => waitHere
      | some (k, i) =>
        let x := s.desc k
        if i < x.count then do
          modify (fun s => s.setS d 0)
          advanceM
        else if x.mark then do
          modify (fun s => s.setS d (word (0x100 + 8 * (if x.mflt then 1 else 0) + x.mmode)))
          advanceM
        else waitHere) s

/-- R244: `weos`. -/
def execWeos (a : Nat) (s : State) : Out :=
  .next ((s.mapFiring (fun f => { f with eos := some ((s.sreg a).toNat % 8) })).advance)

/-- R245: `fabort`. -/
def execFabort (a : Nat) (s : State) : Out := .next (s.takeTrap { code := 0, i0 := s.sreg a, sw := true })

/-- R246: the first port whose written tokens differ from its declared count. -/
def State.rateFault (s : State) : Option Nat :=
  (List.range 8).find? (fun k =>
    let ks := s.wDescs (k + 8)
    !ks.isEmpty && !(s.desc ((ks.head?).getD 0)).side && s.aRate (k + 8) != (s.firingNow.high[k]?).getD 0)

/-- R246, R244: a requested marker is refused in an actor with inputs, or before the copy's last firing of a period. -/
def State.eosFault (s : State) : Bool :=
  let t := s.myTile
  let a := s.aSlot
  let q := t.aq a (s.modeOf s.cur)
  s.firingNow.eos.isSome && (!(s.inDescs s.cur a).isEmpty || decide (s.aFiring % q < q - t.arep a))

/-- R97: the side token: the overflow count of the port it reports, its number, the firing number. -/
def State.sideToken (s : State) (k : Nat) : List Byte :=
  let w := (s.desc k).sideof
  let n := ((s.wDescs (w + 8)).map (fun k => Sparse.get 0 s.firingNow.ovf (k % 32) + Sparse.get 0 s.firingNow.ovfSent (k % 32))).sum
  toBytes (min n (2 ^ 32 - 1) + w * 2 ^ 32 + (s.myTile.slot s.aSlot).firing % 2 ^ 64 * 2 ^ 64) 16

/-- R97, R246: the side token of a side port, queued at the segment and place of the firing's token 0 there. -/
def State.queueSide (s : State) (w : Nat) : State :=
  match s.wToken w 0 with
  | some (k, i) =>
    let d := s.desc k
    if d.side then s.queueData k ((d.wpos + i) % max 1 d.cap) 0 (s.sideToken k) none else s
  | none => s

/-- R246: the production of a commit: side tokens, write pointers, POINTER and MARKER flits, port by port. -/
def State.commitOut (s : State) (eos : Option Nat) : State :=
  (List.range 8).foldl (fun s i =>
    let ks := s.wDescs (i + 8)
    if ks.isEmpty then s
    else
      let n := s.aRate (i + 8)
      let s := s.queueSide (i + 8)
      let sh := s.wShares (i + 8) n
      let s := s.pointers (i + 8) n ((s.firingNow.sent[i]?).getD 0) none
      let s := sh.foldl (fun s (k, m) =>
        let d := s.desc k
        s.setDesc k { d with wr := (d.wr + m) % 2 ^ 32, wpos := (d.wpos + m) % max 1 d.cap }) s
      match eos with
      | none => s
      | some m => ks.foldl (fun s k => s.queueFlit k (.marker m false)) s) s

/-- R246, R285: `fend`. -/
def execFend (s : State) : Out :=
  runM (do
    let s ← get
    let t := s.myTile
    let a := s.aSlot
    let ph := s.aPhase
    if !s.engDone then waitHere
    else match (s.mat s.cur).openBlock with
     | some (b, tag) => raiseTrap { code := cSLOT_STATE, i0 := word (0x100 + b), i1 := word tag, i2 := 1, i3 := 0x1C0A }
     | none => match s.rateFault with
      | some k =>
        raiseTrap { code := cRATE, i0 := word (8 + k), i1 := word (s.aRate (k + 8)), i2 := word ((s.firingNow.high[k]?).getD 0),
                    i3 := word (ph + 65536 * t.aindex a) }
      | none =>
        if s.eosFault then
          raiseTrap { code := cRATE, i1 := word (t.aq a (s.modeOf s.cur)), i2 := word (s.aFiring + 1),
                      i3 := word (ph + 16 + 65536 * t.aindex a) }
        else
          let eos := s.firingNow.eos
          let fr := s.aFiring
          let s := s.commitOut eos
          let s := s.consume s.cur a fr
          set (s.endFiring s.cur a (if eos.isSome then .quiescent else .waiting))) s

end Sys2Proof.Machine
end

