-- ==== Sys2Proof/Machine/FiringEvents.lean ====
section
/-! DEFINITION. The events of tiles, arcs, walkers and interrupt entry (R37, R40, R45 to R48, R61 to R63, R108, R114, R193, R196, R233,
R234, R248). An event whose condition does not hold leaves the state as it is. -/

namespace Sys2Proof.Machine

/-! ## The scheduler -/

/-- R45: the schedule position after entries that name QUIESCENT or STOPPED slots are passed over; `fuel` bounds the table. -/
def Tile.passOver (t : Tile) : Nat → Nat → Nat
  | 0, i => i
  | fuel + 1, i =>
    let st := (t.slot (t.schedEntry i)).st
    if st = .quiescent ∨ st = .stopped then t.passOver fuel ((i + 1) % max 1 t.schedLen) else i

/-- R46: the slot ready-first mode chooses: the lowest ready slot passed over 64 times, else the lowest ready slot. -/
def State.readyFirstSlot (s : State) (p : Nat) : Option Nat :=
  let ready := (List.range 8).filter (s.mayFire p)
  match ready.find? (fun a => decide (64 ≤ ((s.tile p).slot a).bypass)) with
  | some a => some a
  | none => ready.head?

/-- R45 to R47, R431: the scheduler of tile p starts a firing, where its region runs an instance that is not pre-empted and no firing is in
progress. -/
def State.schedule (s : State) (p : Nat) : State :=
  let t := s.tile p
  let r := s.region (s.regionOf p)
  if t.firing.isSome || (s.owner p).isNone || !r.started || r.halted then s
  else if t.readyFirst then
    match s.readyFirstSlot p with
    | some a => (s.countBypass p a).startFiring p a false
    | none => s
  else if t.schedLen = 0 then s
  else
    let i := t.passOver t.schedLen t.schedPos
    let s := s.setTile p { t with schedPos := i }
    let a := t.schedEntry i
    if s.mayFire p a then s.startFiring p a false else s

/-- R47: FIRING_START of tile t. -/
def execFiringStart (t : Nat) (s : State) : Out := .next (if t < 2048 then s.schedule t else s)

/-- R40: cycles counted for the firing in progress, the present cycle included. -/
def State.firingCount (s : State) (f : Firing) : Nat := f.count0 + (s.cycle - f.since) + 1

/-- R40: the firing's count has passed FMAX + 1 without `fend`. -/
def State.firingLate (s : State) (f : Firing) : Bool :=
  let m := s.myTile.fmax f.slot
  decide (m ≠ 0) && decide (m + 1 < s.firingCount f)

/-- R40: the trap of a firing past its limit. -/
def State.limitTrap (s : State) (f : Firing) : Trap := { code := cFIRING_LIMIT, i0 := word (s.myTile.fmax f.slot), i1 := s.core.pc }

/-- R40: the firing in progress takes FIRING_LIMIT, the instruction that waits abandoned. -/
def State.takeLimit (s : State) (f : Firing) : State := (s.abandonWait s.cur).takeTrap (s.limitTrap f)

/-- The firing of a tile runs: it has not trapped and is not halted. -/
def State.firingRuns (s : State) (f : Firing) : Bool := !f.trapped && (s.myTile.slot f.slot).st == .firing

/-- R40: FIRING_LIMIT of tile t. -/
def execFiringLimit (t : Nat) (s : State) : Out :=
  .next (if t < 2048 then s.asCore t (fun s =>
    match s.myTile.firing with
    | some f => if s.firingRuns f && s.firingLate f then s.takeLimit f else s
    | none => s) else s)

/-! ## Control cores -/

/-- The trap words of an interrupt (R194, R417): a store error gives its address and code (assumption 17); other sources give zeros. -/
def State.intTrap (s : State) (n src : Nat) : Trap :=
  if src = 5 then
    match ((s.coreAt (2048 + n)).storeErr).or ((List.range 8).findSome? (fun k => (s.coreAt (2048 + k)).storeErr)) with
    | some (a, c) => { code := 0, i0 := word a, i1 := word c }
    | none => { code := 0 }
  else { code := 0 }

/-- R196: INTERRUPT_ENTRY at control core n. -/
def execInterruptEntry (n : Nat) (s : State) : Out :=
  .next (if n < 8 && s.takesInterrupt n then
    match s.source n with
    | some src => s.setCoreAt (2048 + n) ((s.coreAt (2048 + n)).enter (s.intTrap n src) true src)
    | none => s
  else s)

/-- R193: STORE_ERROR_REPORT: the home of a completed store of core n reports an error; the oldest unreported one stands. -/
def execStoreErrorReport (n addr code : Nat) (s : State) : Out :=
  .next (if n < 8 then
    let c := s.coreAt (2048 + n)
    s.setCoreAt (2048 + n) { c with storeErr := c.storeErr.or (some (addr, code)) }
  else s)

/-! ## Translation -/

/-- The region through which an agent translates (R107, R319): a tile's, a stream context's, or 128 for agents that use the control cores'
root. -/
def State.agentRegion (s : State) (g : Nat) : Nat :=
  if g < 2048 then s.regionOf g else if 16384 ≤ g then ((s.ctxAt (g - 16384)).region).getD 128 else 128

/-- R108, R113: PAGE_WALK for agent g: the translation is installed in its caches, and D set for a write; a failed walk installs nothing,
and its fault is taken by the access that needs it. -/
def execPageWalk (g va wr : Nat) (s : State) : Out :=
  .next (if g < 2048 ∨ (2048 ≤ g ∧ g < 2056) ∨ (16384 ≤ g ∧ g < 18688) then
    (s.access g (s.agentRegion g) (va % 2 ^ 47) (if wr = 1 then .write else .read) (decide (2048 ≤ g ∧ g < 2056))).2
  else s)

/-- The die of a translation cache (R114). A stream context of the firmware lies outside every region, and the spec names no die for it: the
model puts it on die 0 (DESIGN CHOICE, assumption 83). -/
def cacheDie (k : Nat) : Nat :=
  if k < 4096 then k / 1024 else if k < 8192 then (k - 4096) / 64 else if k < 16384 then (k - 8192) / 4 else (k - 16384) / 1024 % 2

/-- R114: whether an invalidation, as written in TINV, matches an entry. -/
def tinvMatches (v : Nat) (e : TlbEntry) : Bool :=
  match bits v 8 2 with
  | 0 => e.tag == bits v 0 7 && decide (e.va ≤ bits v 16 31 * 2 ^ 16 ∧ bits v 16 31 * 2 ^ 16 < e.va + e.size)
  | 1 => e.tag == bits v 0 7
  | _ => true

/-- R114: the matching entries of a die's caches are removed. -/
def State.invalidate (s : State) (die v : Nat) : State :=
  { s with tlb := (s.tlb.map (fun (k, l) =>
      (k, if cacheDie k = die then l.filter (fun e => !tinvMatches v e) else l))).filter (fun e => e.2 ≠ []) }

/-- R114: TINV_COMPLETE on a die. -/
def execTinvComplete (die : Nat) (s : State) : Out :=
  .next (match (s.tinvBusy[die]?).getD none with
    | some v => { s.invalidate die v.toNat with tinvBusy := s.tinvBusy.setIfInBounds die none }
    | none => s)

/-- R114: TINV of a die written by an event: nothing happens while it is busy. -/
def tinvEvent (die v : Nat) (s : State) : Out :=
  .next (if die < 2 then (match tinvWrite die v s with
    | .ok _ s' => s'
    | .error _ _ => s) else s)

/-- R114: TINV_PAGE. -/
def execTinvPage (die r va : Nat) (s : State) : Out := tinvEvent die (r % 128 + va % 2 ^ 47 / 2 ^ 16 * 2 ^ 16) s

/-- R114: TINV_REGION. -/
def execTinvRegion (die r : Nat) (s : State) : Out := tinvEvent die (r % 128 + 2 ^ 8) s

/-- R114: TINV_ALL. -/
def execTinvAll (die : Nat) (s : State) : Out := tinvEvent die (2 ^ 9) s

/-! ## Flits -/

/-- R20, R21, R234: FLIT_INJECT: in a slot that its arc owns, the oldest flit of descriptor k's buffer leaves it; it arrives when its circuit's
links and bridge crossings have passed. A slot carries one flit, and a flit leaves in the cycle after it entered the buffer at the earliest
(R29). -/
def execFlitInject (k : Nat) (s : State) : Out :=
  .next (match Sparse.get [] s.queued k, s.leaves k s.cycle with
    | f :: fs, some d =>
      { s with queued := Sparse.set [] s.queued k fs,
               flight := Sparse.set [] s.flight k (Sparse.get [] s.flight k ++ [⟨s.cycle, s.cycle + d, f⟩]) }
    | _, _ => s)

/-- R20: the oldest flit in flight from descriptor k, once its cycle has come, and the descriptor at which it arrives. -/
def State.arriving (s : State) (k : Nat) : Option (Flit × Nat) :=
  match Sparse.get [] s.flight k with
  | [] => none
  | e :: _ => if e.due ≤ s.cycle then (s.peerKey k).map (fun q => (e.flit, q)) else none

/-- A flit that bears an operation is still on its way. -/
def State.bearsOp (s : State) (id : Nat) : Bool :=
  let has (f : Flit) : Bool := match f with
    | .data _ _ op => op == some id
    | .pointer _ _ op => op == some id
    | _ => false
  s.queued.any (fun e => e.2.any has) || s.flight.any (fun e => e.2.any (fun x => has x.flit))

/-- The oldest flit in flight from descriptor k has arrived. An operation is performed when the last flit that bears it arrives (R240,
R252). -/
def State.landed (s : State) (k : Nat) (op : Option Nat) : State :=
  let s := { s with flight := Sparse.set [] s.flight k ((Sparse.get [] s.flight k).drop 1) }
  match op with
  | some id => if s.bearsOp id then s else s.retire id
  | none => s

/-- Bytes a flit writes. A check word in error that the flit covers in part stays as it is (R468), and the error is counted; the arc engine's
chapter names no firing that would take the trap (assumption 37). -/
def State.flitWrite (s : State) (key : Nat) : List Byte → State
  | [] => s
  | b :: bs => State.flitWrite (if s.bad.contains (checkWord key) then s else s.wr key 1 b.toNat) (key + 1) bs

/-- R233: DATA_FLIT from descriptor k. -/
def execDataFlit (k : Nat) (s : State) : Out :=
  .next (match s.arriving k with
    | some (.data off bs op, q) =>
      let key := winBase q + off
      let s := s.landed k op
      let s := if s.writeBad key bs.length then s.countHard (dieOfKey key) (errClass key) else s
      let s := { s with bad := s.bad.filter (fun w => !decide (key ≤ w ∧ w + 8 ≤ key + bs.length)) }
      s.flitWrite key bs
    | _ => s)

/-- The slot that reads an input descriptor discards what arrives (R59, R63, R248). -/
def State.discards (s : State) (q : Nat) : Bool :=
  if q < 65536 then (let st := ((s.tile (q / 32)).slot (s.desc q).slot).st; st == .quiescent || st == .stopped)
  else (s.ctxAt (ctxOf q)).quiescent

/-- R63, R248: the tokens of an input descriptor are discarded, counted, and their space returned. Of a STOPPED copy, R59 discards the tokens
that arrive; the model discards those already in the window with the next that arrive (DESIGN CHOICE, assumption 79). -/
def State.dropTokens (s : State) (q : Nat) : State :=
  let d := s.desc q
  if d.count = 0 then s
  else
    let s := s.mapRegion (s.keyRegion q) (fun r => { r with discards := r.discards + d.count })
    (s.setDesc q { d with rd := d.wr, rpos := (d.rpos + d.count) % max 1 d.cap }).queueFlit q (.ret d.wr)

/-- R233: POINTER_FLIT from descriptor k. -/
def execPointerFlit (k : Nat) (s : State) : Out :=
  .next (match s.arriving k with
    | some (.pointer wr ovf op, q) =>
      let s := s.landed k op
      let d := s.desc q
      let s := s.setDesc q { d with wr := wr % 2 ^ 32, ovf := min (d.ovf + ovf) (2 ^ 32 - 1) }
      if s.discards q then s.dropTokens q else s
    | _ => s)

/-- R233: MARKER_FLIT from descriptor k; a QUIESCENT or STOPPED slot discards it (R63). -/
def execMarkerFlit (k : Nat) (s : State) : Out :=
  .next (match s.arriving k with
    | some (.marker mode flt, q) =>
      let s := s.landed k none
      if s.discards q then s else s.setDesc q { s.desc q with mark := true, mmode := mode % 8, mflt := flt }
    | _ => s)

/-- R233: RETURN_FLIT from descriptor k. -/
def execReturnFlit (k : Nat) (s : State) : Out :=
  .next (match s.arriving k with
    | some (.ret rd, q) => (s.landed k none).setDesc q { s.desc q with mrd := rd % 2 ^ 32 }
    | _ => s)

/-! ## Markers at a slot -/

/-- R248: every segment of an input port holds a marker with no token ahead of it. -/
def State.headMarker (s : State) (p a j : Nat) : Bool :=
  (s.portDescs p 1 a j).all (fun k => (s.desc k).mark && decide ((s.desc k).count = 0))

/-- R61, R62: the same for markers without the FAULTED flag. -/
def State.cleanMarker (s : State) (p a j : Nat) : Bool :=
  s.headMarker p a j && (s.portDescs p 1 a j).all (fun k => !(s.desc k).mflt)

/-- The joined input ports of a slot. -/
def State.inPorts (s : State) (p a : Nat) : List Nat := (List.range 8).filter (fun j => !(s.portDescs p 1 a j).isEmpty)

/-- The tile waits for the decision on a partial period of the slot (R61). -/
def Tile.undecided (t : Tile) (a : Nat) : Bool := (t.firing.map (fun f => f.partialPeriod && f.slot == a)).getD false

/-- R61: the port of a partial period, if the slot has met one: the head of an input it would consume from is a marker, and its phase is
not 0 or another input lacks both tokens and a marker. -/
def State.partialPort (s : State) (p a : Nat) : Option Nat :=
  let t := s.tile p
  let r := s.modeOf p
  let ph := t.phase a r
  let fr := (t.slot a).firing - (t.slot a).k0
  let short (j : Nat) : Bool :=
    decide (t.rate a r j ph ≠ 0) && !s.headMarker p a j &&
      (s.shares p 1 a j fr (t.rate a r j ph)).any (fun (k, m) => decide ((s.desc k).count < m))
  (s.inPorts p a).find? (fun j =>
    decide (t.rate a r j ph ≠ 0) && s.cleanMarker p a j && (decide (ph ≠ 0) || (s.inPorts p a).any (fun i => i != j && short i)))

/-- R61, R187: a partial period is recorded and presented to containment from level 1. -/
def State.partialPeriod (s : State) (p a port : Nat) : State :=
  let t := s.tile p
  let sl := t.slot a
  let ph := t.phase a (s.modeOf p)
  let rec_ : Vector Word 8 :=
    #v[word cRATE, 0, word port, word ph, 0, 0, word sl.firing, word (a + ph * 8 + 0x700 + sl.firing / 2 ^ 64 % 2 ^ 32 * 2 ^ 32)]
  (s.setTile p { t with record := rec_ }).contain p a cRATE 1 false

/-- R62, R64: the mode a slot forwards, and the modes its markers carry. -/
def State.markerModes (s : State) (p a : Nat) : List Nat := (s.inDescs p a).map (fun k => (s.desc k).mmode)

/-- R64: a sink's removed marker counts toward the mode carried to the sinks. -/
def Region.sinkMarker (r : Region) (m : Nat) : Region :=
  match r.sinkMode with
  | none => { r with sinkMode := some m }
  | some x => { r with sinkMode := some (max x m), modeSplit := r.modeSplit || x != m }

/-- R62: the markers at the inputs of slot a on tile p are removed, one is sent on every output, and the slot becomes QUIESCENT. -/
def State.forwardMarker (s : State) (p a : Nat) : State :=
  let ms := s.markerModes p a
  let m := ms.foldl max 0
  let split := ms.any (fun x => x != m)
  let s := (s.inDescs p a).foldl (fun s k => s.setDesc k { s.desc k with mark := false, mmode := 0, mflt := false }) s
  let s := s.sendMarkers p a m false
  let s := if (s.outDescs p a).isEmpty then s.mapRegion (s.regionOf p) (fun r => r.sinkMarker m) else s
  let s := if split then s.mapRegion (s.regionOf p) (fun r => { r with modeSplit := true }) else s
  let t := s.tile p
  s.setTile p (t.setSlot a { t.slot a with st := .quiescent })

/-- The segments of a stream context. -/
def State.ctxSegs (s : State) (c : Nat) : List Nat := (List.range (s.ctxAt c).segs).map (ctxKey c)

/-- R62, R317: a sink context whose segments hold a marker and no token removes it and becomes quiescent. -/
def State.sinkEnd (s : State) (c : Nat) : State :=
  let ks := s.ctxSegs c
  let ms := ks.map (fun k => (s.desc k).mmode)
  let m := ms.foldl max 0
  let g := ((s.ctxAt c).region).getD 0
  let s := ks.foldl (fun s k => s.setDesc k { s.desc k with mark := false, mmode := 0, mflt := false }) s
  let s := s.mapRegion g (fun r => { r.sinkMarker m with modeSplit := (r.sinkMarker m).modeSplit || ms.any (fun x => x != m) })
  s.mapCtx c (fun x => { x with quiescent := true })

/-- Whether a stream context is a sink that still consumes. -/
def State.sinkRuns (s : State) (c : Nat) : Bool :=
  let x := s.ctxAt c
  x.role == 1 && x.st == .idle && !x.quiescent && decide (0 < x.segs)

/-- R61, R62: MARKER_FORWARD of slot a mod 8 of tile a / 8, or of stream context a − 16,384: the markers are forwarded, or a partial
period is presented, once no firing is in progress on the tile and no fault of it awaits its decision (assumption 78). A slot of a pre-empted
region keeps its state (R48). -/
def execMarkerForward (a : Nat) (s : State) : Out :=
  let p := a / 8
  let i := a % 8
  let t := s.tile p
  .next (if 16384 ≤ a then
    let c := a - 16384
    if s.sinkRuns c && (s.ctxSegs c).all (fun k => (s.desc k).mark && !(s.desc k).mflt && decide ((s.desc k).count = 0)) then s.sinkEnd c
    else s
  else if (t.slot i).st == .waiting && !(s.region (s.regionOf p)).halted && !(s.inPorts p i).isEmpty &&
      !s.faultedMarker p i && !t.undecided i then
    if decide (t.phase i (s.modeOf p) = 0) && (s.inPorts p i).all (s.cleanMarker p i) then s.forwardMarker p i
    else match s.partialPort p i with
      | some j => if t.firing.isNone then s.partialPeriod p i j else s
      | none => s
  else s)

/-- R63, R317: a sink context some segment of which holds a faulted marker and too few tokens discards its tokens and becomes quiescent. R64
does not say whether a faulted marker counts among those the sinks remove: at a context it counts with mode 0 (DESIGN CHOICE, assumption
79). -/
def State.sinkFaulted (s : State) (c : Nat) : State :=
  let x := s.ctxAt c
  let sh := s.ctxDeal c x.fired x.p
  let hit := (List.range x.segs).any (fun i =>
    let d := s.desc (ctxKey c i)
    d.mark && d.mflt && decide (d.count < (sh.filter (· = i)).length))
  if s.sinkRuns c && hit then
    let s := s.mapRegion (x.region.getD 0) (fun r => r.sinkMarker 0)
    ((s.ctxSegs c).foldl (fun s k => s.dropTokens k) s).mapCtx c (fun x => { x with quiescent := true })
  else s

/-- R63: FAULTED_MARKER_EFFECT on slot a mod 8 of tile a / 8, or on stream context a − 16,384: it sends faulted markers, becomes QUIESCENT,
and discards its tokens. The markers carry mode 0, and a sink actor's faulted marker does not count among those the sinks remove (DESIGN
CHOICE, assumption 79). -/
def execFaultedMarkerEffect (a : Nat) (s : State) : Out :=
  let p := a / 8
  let i := a % 8
  let t := s.tile p
  .next (if 16384 ≤ a then s.sinkFaulted (a - 16384)
  else if (t.slot i).st == .waiting && !(s.region (s.regionOf p)).halted && s.faultedMarker p i && !t.undecided i then
    let s := s.sendMarkers p i 0 true
    let s := (s.inDescs p i).foldl (fun s k => s.dropTokens k) s
    let t := s.tile p
    s.setTile p (t.setSlot i { t.slot i with st := .quiescent })
  else s)

end Sys2Proof.Machine
end

