-- ==== Sys2Proof/Machine/VectorOps.lean ====
section
/-! DEFINITION. What the vector instructions share (R201 to R205, R224, R226): elements, masks, broadcast operands, the stipple generator
and its draws (R82, R300), and the writing of the active elements of a register. -/

namespace Sys2Proof.Machine

/-! ## The stipple generator -/

/-- One of the four rounds of R300. -/
def stippleRound (c x : Word) : Word :=
  let x := (x ^^^ (x >>> 31)) * c
  x ^^^ (x >>> 27)

/-- R300: the stipple generator. -/
def stipple (seed inst row col : Word) : Word :=
  let x := seed ^^^ 0x5C1F0B938E72D4A6
  let x := x ^^^ (inst * 0xD0E14C87A3B5962F)
  let x := x ^^^ (row * 0x83A5C2F17B09DE4B) ^^^ (col * 0xF1C359A72E86B0D3)
  stippleRound 0x9A3C5E71D2B48F0D (stippleRound 0x8F6CB3A15D27E0E9 (stippleRound 0xE4D28A6F3B19C705 (stippleRound 0xB7E151630F4A9C2B x)))

/-- R82: the draw of element e for the n-th RSS instruction of the firing of slot a on tile p. -/
def State.drawAt (s : State) (p a n e : Nat) : Nat :=
  let r := s.region (s.regionOf p)
  let f := ((s.tile p).slot a).firing
  (stipple r.seed r.instKey (word (f % 2 ^ 48 + n % 65536 * 2 ^ 48)) (word (2 ^ 32 + e))).toNat % 65536

/-- R82: the draw of element e of the vector instruction being executed; 0 where the rounding code takes none. -/
def State.draw (s : State) (rnd e : Nat) : Nat := if rnd = 5 then s.drawAt s.cur s.firingNow.slot s.core.draws e else 0

/-- R82, R203: an instruction that rounds under RSS counts as one. -/
def State.countDraw (s : State) (rnd : Nat) : State := if rnd = 5 then s.mapCore (fun c => { c with draws := c.draws + 1 }) else s

/-! ## Elements -/

/-- R202: element k of width w is active under a mask. -/
def active (m : MReg) (w k : Nat) : Bool :=
  m.getLsbD (if w = 32 then 2 * k else if w = 16 then k else if w = 8 then k / 2 else k / 4)

/-- Element k of width w (R142). -/
def laneOf (x : VReg) (w k : Nat) : Nat := bits x.toNat (w * k) w

/-- R204: element k of an S/V operand: of a v register, or the low bits of an s register for every k. -/
def State.svLane (s : State) (code w k : Nat) : Nat :=
  if code < 32 then (s.sreg code).toNat % 2 ^ w else laneOf (s.vreg code) w k

/-- R226: the register of a code that cannot be read, first of those an instruction reads. -/
def State.badRead (s : State) (codes : List Nat) : Option Nat := codes.find? (fun c => s.core.badReg.contains c)

/-- The registers a V-format instruction reads: its operands by code, and its mask. -/
def readsOf (m : Nat) (ops : List Nat) : List Nat := ops.filter (32 ≤ ·) ++ (if m = 0 then [] else [64 + m])

/-- R226: an instruction whose operands are registers: ECC_UNCORR where one cannot be read, else its effect, its draw counted. -/
def State.vecRun (s : State) (reads : List Nat) (rnd : Nat) (f : State → State) : Out :=
  match s.badRead reads with
  | some c =>
    .next ((s.countHard (dieOf s.cur) 4).takeTrap { code := cECC, i0 := word (if 64 ≤ c then c - 64 else c), i1 := 4, i3 := s.regionInfo })
  | none => .next (((f s).countDraw rnd).advance)

/-- Every element of width w is active, so that an instruction on all of them writes its register whole. -/
def fullMask (m : MReg) (w : Nat) : Bool := (List.range (2048 / w)).all (active m w)

/-- A register written in part keeps an uncorrectable error; written whole, it loses it (R226). -/
def Core.putV (c : Core) (code : Nat) (whole : Bool) (x : VReg) : Core :=
  let c' := c.setV code x
  if whole then c' else { c' with badReg := c.badReg }

/-- R203: the active elements of a register below n replaced, with the flags they raise: f gives value and flags of an element. -/
def State.putBelow (s : State) (d w m n : Nat) (f : Nat → Nat × Nat) : State :=
  let mk := s.mreg m
  let old := s.vreg d
  let rs := (List.range (2048 / w)).map (fun k => if k < n ∧ active mk w k then f k else (laneOf old w k, 0))
  (s.mapCore (fun c => c.putV d (fullMask mk w && decide (2048 / w ≤ n)) (BitVec.ofNat 2048 (packElems w (rs.map Prod.fst))))).raise
    (joinFlags (rs.map Prod.snd))

/-- R203: the active elements of a register replaced. -/
def State.putLanes (s : State) (d w m : Nat) (f : Nat → Nat × Nat) : State := s.putBelow d w m (2048 / w) f

/-- A vector instruction that writes each active element of D from elements of its operands. -/
def State.vecOp (s : State) (reads : List Nat) (d ty m rnd : Nat) (f : Nat → Nat × Nat) : Out :=
  s.vecRun (readsOf m reads) rnd (fun s => s.putLanes d (elemWidth ty) m f)

/-- The indices of the active elements. -/
def activeList (m : MReg) (w : Nat) : List Nat := (List.range (2048 / w)).filter (active m w)

end Sys2Proof.Machine
end

