-- ==== Sys2Proof/Machine/VectorMove.lean ====
section
/-! DEFINITION. Vector compares, mask instructions, lane movement, reductions and scans (R216 to R220). -/

namespace Sys2Proof.Machine

/-! ## Compares (R216) -/

/-- R216: a relation by its code, on the sign of x − y. -/
def relOf (rel : Nat) (c : Int) : Bool :=
  match rel with
  | 0 => decide (c = 0)
  | 1 => decide (c ≠ 0)
  | 2 => decide (c < 0)
  | 3 => decide (c ≤ 0)
  | 4 => decide (0 < c)
  | _ => decide (0 ≤ c)

/-- R85: a floating relation and its flags. -/
def frelOf (rel : Nat) (x y : Num) : Bool × Nat :=
  if x.isNan || y.isNan then (rel == 1, if rel ≤ 1 then 0 else fNV) else (relOf rel (x.cmp y), 0)

/-- R202: the mask bits of element k: bit k for width 16, bits 2k and 2k + 1 for width 32. -/
def setMaskBits (w k : Nat) (b : Bool) (x : Nat) : Nat :=
  let lo := if w = 32 then 2 * k else k
  let n := if w = 32 then 2 else 1
  mergeBits x (if b then (2 ^ n - 1) * 2 ^ lo else 0) ((2 ^ n - 1) * 2 ^ lo)

/-- R216: a compare: f gives each active element's truth and flags; other bits of D keep their value. -/
def State.maskOp (s : State) (reads : List Nat) (d ty m : Nat) (f : Nat → Bool × Nat) : Out :=
  let w := elemWidth ty
  s.vecRun (readsOf m reads) 0 (fun s =>
    let rs := (activeList (s.mreg m) w).map (fun k => (k, f k))
    let x := rs.foldl (fun acc r => setMaskBits w r.1 r.2.1 acc) (s.mreg d).toNat
    (s.mapCore (fun c =>
      let c' := c.setM d (BitVec.ofNat 128 x)
      if fullMask (s.mreg m) w then c' else { c' with badReg := c.badReg })).raise (joinFlags (rs.map (fun r => r.2.2))))

/-- R216: `vcmp`. -/
def execVcmp (d a b ty m _rnd rel : Nat) (s : State) : Out :=
  let w := elemWidth ty
  s.maskOp [a, b] d ty m (fun k => (relOf rel (intOf ty (laneOf (s.vreg a) w k) - intOf ty (s.svLane b w k)), 0))

/-- R216, R85: `vfcmp`. -/
def execVfcmp (d a b ty m _rnd rel : Nat) (s : State) : Out :=
  let w := elemWidth ty
  s.maskOp [a, b] d ty m (fun k => frelOf rel (decodeTy ty (laneOf (s.vreg a) w k)) (decodeTy ty (s.svLane b w k)))

/-! ## Mask instructions (R217) -/

/-- The codes of m registers as `vecRun` takes them: m0 is hard-wired. -/
def mCodes (l : List Nat) : List Nat := (l.filter (· ≠ 0)).map (64 + ·)

/-- R217: a mask from two masks. -/
def maskLogic (f : MReg → MReg → MReg) (d a b : Nat) (s : State) : Out :=
  s.vecRun (mCodes [a, b]) 0 (fun s => s.setM d (f (s.mreg a) (s.mreg b)))

/-- R217: `mand`. -/
def execMand (d a b : Nat) (s : State) : Out := maskLogic (fun x y => x &&& y) d a b s

/-- R217: `mor`. -/
def execMor (d a b : Nat) (s : State) : Out := maskLogic (fun x y => x ||| y) d a b s

/-- R217: `mxor`. -/
def execMxor (d a b : Nat) (s : State) : Out := maskLogic (fun x y => x ^^^ y) d a b s

/-- R217: `mnot`. -/
def execMnot (d a : Nat) (s : State) : Out := s.vecRun (mCodes [a]) 0 (fun s => s.setM d (~~~(s.mreg a)))

/-- One bits among the n low bits of a mask. -/
def onesOf (x : Nat) : Nat → Nat
  | 0 => 0
  | n + 1 => x % 2 + onesOf (x / 2) n

/-- The index of the lowest one bit among n, n where there is none. -/
def lowestOne (x : Nat) : Nat → Nat
  | 0 => 0
  | n + 1 => if x % 2 = 1 then 0 else 1 + lowestOne (x / 2) n

/-- R217: `mpop`. -/
def execMpop (d a : Nat) (s : State) : Out := s.vecRun (mCodes [a]) 0 (fun s => s.setS d (word (onesOf (s.mreg a).toNat 128)))

/-- R217: `mfirst`. -/
def execMfirst (d a : Nat) (s : State) : Out := s.vecRun (mCodes [a]) 0 (fun s => s.setS d (word (lowestOne (s.mreg a).toNat 128)))

/-- R217: `mmov`, its kinds by the selector. -/
def execMmov (d a sl : Nat) (s : State) : Out :=
  if sl = 0 then s.vecRun (mCodes [a]) 0 (fun s => s.setM d (s.mreg a))
  else if sl = 1 then s.vecRun [a] 0 (fun s => s.setM d ((s.vreg a).setWidth 128))
  else s.vecRun (mCodes [a]) 0 (fun s => s.setV d ((s.mreg a).setWidth 2048))

/-! ## Lane movement (R218) -/

/-- R218: `vperm`. -/
def execVperm (d a b ty m : Nat) (s : State) : Out :=
  let w := elemWidth ty
  s.vecOp [a, b] d ty m 0 (fun k => (laneOf (s.vreg a) w (s.svLane b w k % elems ty), 0))

/-- R218: `vbcast`. -/
def execVbcast (d a ty m i : Nat) (s : State) : Out :=
  s.vecOp [a] d ty m 0 (fun _ => (s.svLane a (elemWidth ty) i, 0))

/-- R218: the index of `vext` and `vins`. -/
def State.laneIndex (s : State) (b ty i : Nat) : Nat := ((s.sreg b).toNat + i) % elems ty

/-- R218: `vext`. -/
def execVext (d a b ty i : Nat) (s : State) : Out :=
  let w := elemWidth ty
  s.vecRun [a] 0 (fun s =>
    let x := laneOf (s.vreg a) w (s.laneIndex b ty i)
    s.setS d (if isSignedTy ty then sxWord w x else word x))

/-- R218: `vins`: one element, where it is active; D is written in part, and keeps an error of its stored word (R226). -/
def execVins (d a b ty m i : Nat) (s : State) : Out :=
  let w := elemWidth ty
  let j := s.laneIndex b ty i
  s.vecRun (readsOf m []) 0 (fun s =>
    let on (k : Nat) : Bool := k == j && active (s.mreg m) w k
    s.mapCore (fun c => c.putV d false (BitVec.ofNat 2048 (packElems w ((List.range (2048 / w)).map (fun k =>
      if on k then (s.sreg a).toNat % 2 ^ w else laneOf (s.vreg d) w k))))))

/-- R218: `vslide`. -/
def execVslide (d a b ty m i : Nat) (s : State) : Out :=
  let w := elemWidth ty
  let n := elems ty
  s.vecOp [a, b] d ty m 0 (fun k => (if k + i < n then laneOf (s.vreg a) w (k + i) else laneOf (s.vreg b) w (k + i - n), 0))

/-- R218: `vsel`: every element is written. -/
def execVsel (d a b ty m : Nat) (s : State) : Out :=
  let w := elemWidth ty
  s.vecRun (readsOf m [a, b]) 0 (fun s =>
    s.putLanes d w 0 (fun k => (if active (s.mreg m) w k then laneOf (s.vreg a) w k else s.svLane b w k, 0)))

/-- R218: `vmov`. -/
def execVmov (d a ty m : Nat) (s : State) : Out :=
  s.vecOp [a] d ty m 0 (fun k => (laneOf (s.vreg a) (elemWidth ty) k, 0))

/-- R218: `vcompress`: every element is written, those beyond the active ones with zero. -/
def execVcompress (d a ty m : Nat) (s : State) : Out :=
  let w := elemWidth ty
  s.vecRun (readsOf m [a]) 0 (fun s =>
    s.setV d (BitVec.ofNat 2048 (packElems w ((activeList (s.mreg m) w).map (laneOf (s.vreg a) w)))))

/-! ## Reductions and scans (R219, R220) -/

/-- R93: a node of the tree: the children combined, one alone passed up, none empty. -/
def joinNode (f : Nat → Nat → Nat × Nat) : Option (Nat × Nat) → Option (Nat × Nat) → Option (Nat × Nat)
  | none, y => y
  | x, none => x
  | some (x, fx), some (y, fy) => let (z, fz) := f x y; some (z, Nat.lor (Nat.lor fx fy) fz)

/-- R93: one level of the tree. -/
def treeLevel (f : Nat → Nat → Nat × Nat) : List (Option (Nat × Nat)) → List (Option (Nat × Nat))
  | x :: y :: l => joinNode f x y :: treeLevel f l
  | l => l

/-- R93: the tree of a number of levels; its root, with the flags of its nodes. -/
def treeOf (f : Nat → Nat → Nat × Nat) : Nat → List (Option (Nat × Nat)) → Option (Nat × Nat)
  | 0, l => (l.head?).getD none
  | n + 1, l => treeOf f n (treeLevel f l)

/-- R219: an integer reduction, exact. -/
def vecRed (f : List Int → Int) (d a ty m : Nat) (s : State) : Out :=
  let w := elemWidth ty
  s.vecRun (readsOf m [a]) 0 (fun s =>
    s.setS d (BitVec.ofInt 64 (f ((activeList (s.mreg m) w).map (fun k => intOf ty (laneOf (s.vreg a) w k))))))

/-- R219: `vredsum`. -/
def execVredsum (d a ty m _rnd : Nat) (s : State) : Out := vecRed List.sum d a ty m s

/-- R219: `vredmax`; the least value of the type where no element is active. -/
def execVredmax (d a ty m _rnd : Nat) (s : State) : Out := vecRed (fun l => l.foldl max (intLo ty)) d a ty m s

/-- R219: `vredmin`; the greatest value of the type where no element is active. -/
def execVredmin (d a ty m _rnd : Nat) (s : State) : Out := vecRed (fun l => l.foldl min (intHi ty)) d a ty m s

/-- R219: a floating reduction through the tree of R93. -/
def vecFred (op : Nat) (d a ty m rnd : Nat) (s : State) : Out :=
  let w := elemWidth ty
  s.vecRun (readsOf m [a]) 0 (fun s =>
    let leaves := (List.range (elems ty)).map (fun k =>
      if active (s.mreg m) w k then some (toF32 ty (laneOf (s.vreg a) w k), 0) else none)
    match treeOf (f32Node op rnd) (Nat.log2 (elems ty)) leaves with
    | none => s.setS d (word (f32Identity op))
    | some (x, fl) => (s.setS d (word x)).raise fl)

/-- R219: `vfredsum`. -/
def execVfredsum (d a ty m rnd : Nat) (s : State) : Out := vecFred 0 d a ty m rnd s

/-- R219: `vfredmax`. -/
def execVfredmax (d a ty m rnd : Nat) (s : State) : Out := vecFred 1 d a ty m rnd s

/-- R219: `vfredmin`. -/
def execVfredmin (d a ty m rnd : Nat) (s : State) : Out := vecFred 2 d a ty m rnd s

/-- R94, R220: the running values of a scan over (active, element) pairs: those of the active elements, and the flags of their steps. -/
def scanFrom (f : Nat → Nat → Nat × Nat) : Nat → List (Bool × Nat) → List (Nat × Nat)
  | _, [] => []
  | t, (false, x) :: l => (x, 0) :: scanFrom f t l
  | t, (true, x) :: l => let r := f t x; r :: scanFrom f r.1 l

/-- R220: a scan. -/
def vecScan (f : Nat → Nat → Nat × Nat) (identity : Nat) (d a ty m : Nat) (s : State) : Out :=
  let w := elemWidth ty
  let rs := scanFrom f identity ((List.range (elems ty)).map (fun k => (active (s.mreg m) w k, laneOf (s.vreg a) w k)))
  s.vecOp [a] d ty m 0 (fun k => rs[k]?.getD (0, 0))

/-- R93: the identity of an integer operation. -/
def intIdentity (op ty : Nat) : Nat :=
  if op = 0 then 0 else if op = 1 then intBits (elemWidth ty) (intLo ty) else intBits (elemWidth ty) (intHi ty)

/-- R220: `vscan`. -/
def execVscan (d a ty m _rnd o : Nat) (s : State) : Out := vecScan (intCombine o ty) (intIdentity o ty) d a ty m s

/-- R220: `vfscan`. -/
def execVfscan (d a ty m rnd o : Nat) (s : State) : Out := vecScan (f32Node o rnd) (f32Identity o) d a ty m s

end Sys2Proof.Machine
end

