-- ==== Sys2Proof/Machine/Network.lean ====
section
/-! DEFINITION. The network engine (spec/09): remote single accesses, overprint loads and stores, barriers, and the events by which their
requests are applied and answered. -/

namespace Sys2Proof.Machine

/-! ## Issue -/

/-- The network operations of the current core's tile. -/
def State.netList (s : State) (p : Nat) : List NetOp := Sparse.get [] s.netOps p

def State.setNet (s : State) (p : Nat) (l : List NetOp) : State := { s with netOps := Sparse.set [] s.netOps p l }

/-- R274: the network engine holds 32 operations; the issue of another waits. -/
def netRoom : M Unit := do
  let s ← get
  if 32 ≤ (s.netList s.cur).length then waitHere else pure ()

/-- An operation is sent; OM's set gains it (R122). -/
def sendNet (om : Nat) (op : NetOp) : M Nat := do
  let s ← get
  let (id, s) := s.issueOp om true
  set (s.setNet s.cur (s.netList s.cur ++ [{ op with id := id, pc := s.core.pc }]))
  pure id

/-- An instruction that writes a register when its operation completes: it issues once, then waits for it (assumption 9). -/
def blocking (issue : M Nat) : M Unit := do
  let s ← get
  match s.core.waitOp with
  | some id => if s.isLive id then waitHere else advanceM
  | none =>
    let id ← issue
    modify (fun s => s.mapCore (fun c => { c with waitOp := some id }))
    waitHere

/-- R259: the address of a remote access. -/
def State.remoteEa (s : State) (a imm : Nat) : Word := s.sreg a + sxWord 9 imm

/-- R259: the checks, the wait on OW and the room of a remote access of n bytes; the key of its bytes. -/
def remoteKey (rw : Rw) (n align : Nat) (ea : Word) (ow : Nat) : M Nat := do
  let pl ← checkAccess .remote rw n align ea
  waitOw ow
  netRoom
  match pl with
  | .mem k => pure k
  | .sys _ => noRegister ea

/-- R259: `rld`. -/
def execRld (d a ow om _sc sz sx imm : Nat) (s : State) : Out :=
  runM (blocking do
    let s ← get
    let ea := s.remoteEa a imm
    let k ← remoteKey .read (2 ^ sz) (2 ^ sz) ea ow
    sendNet om { id := 0, kind := .rld, pc := 0, d := d, n := 2 ^ sz, sx := sx == 1, key := k, ea := ea }) s

/-- R259: `rst`. -/
def execRst (d a ow om _sc sz imm : Nat) (s : State) : Out :=
  runM (do
    let s ← get
    let ea := s.remoteEa a imm
    let k ← remoteKey .write (2 ^ sz) (2 ^ sz) ea ow
    let _ ← sendNet om { id := 0, kind := .rst, pc := 0, d := d, n := 2 ^ sz, key := k, ea := ea, data := (s.sreg d).toNat % 2 ^ (8 * 2 ^ sz) }
    markExt
    advanceM) s

/-- R259: `ramo`. -/
def execRamo (d a b ow om _sc sz sx o imm : Nat) (s : State) : Out :=
  runM (blocking do
    let s ← get
    let ea := s.remoteEa a imm
    let n := 2 ^ sz
    let k ← remoteKey .atomic n n ea ow
    let id ← sendNet om { id := 0, kind := .ramo, pc := 0, d := d, n := n, sx := sx == 1, o := o, key := k, ea := ea,
                          data := (s.sreg d).toNat % 2 ^ (8 * n), b := (s.sreg b).toNat % 2 ^ (8 * n) }
    markExt
    pure id) s

/-! ## Groups -/

/-- The package slot and the record of a region's group (R261). -/
def State.groupOf (s : State) (region g : Nat) : Option (Nat × Group) :=
  s.groups.findSome? (fun (i, x) => x.bind (fun x => if x.region = region ∧ x.lgroup = g then some (i, x) else none))

/-- R263: the indices of a group's absent members. -/
def State.absentOf (s : State) (g : Group) : List Nat :=
  (List.range g.members.length).filter (fun i => s.absentTile g.region (g.members[i]?.getD 0))

/-- R266: the checks of a group window access: the package slot of its group. `n` is 0 where the offset is ignored (R269). -/
def groupAccess (ea : Word) (n : Nat) : M (Nat × Nat) := do
  let s ← get
  let bad {α : Type} (code i1 : Nat) : M α := raiseTrap { code := code, i0 := ea, i1 := word i1, i3 := s.regionInfo }
  match s.locate .group 0 ea.toNat with
  | .error (c, i1) => bad c i1
  | .ok (.group g off) =>
    match s.groupOf (s.regionOf s.cur) g with
    | none => bad cTILE_RANGE g
    | some (slot, _) =>
      if n = 0 then pure (slot, off)
      else if 0x7C000 < off + n then bad cPROTECT 7
      else if off % 4 ≠ 0 then bad cMISALIGN 4
      else pure (slot, off)
  | .ok _ => bad cPROTECT 8

/-- R266: `ovld`. -/
def execOvld (d a ow om _sc ty o cnt : Nat) (s : State) : Out :=
  runM (blocking do
    let s ← get
    let ea := s.sreg a
    let n := 4 * (cnt + 1)
    let (g, off) ← groupAccess ea n
    waitOw ow
    netRoom
    sendNet om { id := 0, kind := .ovld, pc := 0, d := d, n := n, o := o, ty := ty, key := g, off := off, ea := ea }) s

/-- R268: `ovst`. -/
def execOvst (d a ow om _sc _ty _o cnt : Nat) (s : State) : Out :=
  runM (do
    let s ← get
    let ea := s.sreg a
    let n := 4 * (cnt + 1)
    if 32 ≤ d && s.core.badReg.contains d then
      modify (fun s => s.countHard (dieOf s.cur) 4)
      raiseTrap { code := cECC, i0 := word d, i1 := 4, i3 := s.regionInfo }
    let (g, off) ← groupAccess ea n
    waitOw ow
    netRoom
    let data := (if 32 ≤ d then (s.vreg d).toNat else (s.sreg d).toNat) % 2 ^ (8 * n)
    let _ ← sendNet om { id := 0, kind := .ovst, pc := 0, d := d, n := n, key := g, off := off, ea := ea, data := data }
    markExt
    advanceM) s

/-- R269: `grpstat`; `o` and `ty` are zero fields. -/
def execGrpstat (d a ow om _sc _ty _o cnt : Nat) (s : State) : Out :=
  runM (blocking do
    let s ← get
    let ea := s.sreg a
    let (g, off) ← groupAccess ea 0
    waitOw ow
    netRoom
    sendNet om { id := 0, kind := .grpstat, pc := 0, d := d, n := cnt, key := g, off := off, ea := ea }) s

/-! ## Barriers -/

/-- R272: a barrier instruction's record is checked; the key of the record. -/
def barrierKey (a ow : Nat) : M Nat := do
  let s ← get
  remoteKey .atomic 32 32 (s.sreg a) ow

/-- R273: `barr`. -/
def execBarr (d a b ow om _sc : Nat) (s : State) : Out :=
  runM (blocking do
    let s ← get
    let k ← barrierKey a ow
    let id ← sendNet om { id := 0, kind := .barr, pc := 0, d := d, key := k, ea := s.sreg a, b := (s.sreg b).toNat }
    markExt
    pure id) s

/-- R273: `barx`. -/
def execBarx (a b ow om _sc : Nat) (s : State) : Out :=
  runM (do
    let s ← get
    let k ← barrierKey a ow
    let _ ← sendNet om { id := 0, kind := .barx, pc := 0, d := 0, key := k, ea := s.sreg a, b := (s.sreg b).toNat }
    markExt
    advanceM) s

/-- R273: the requests an atomic unit holds: the `barw` operations held at one bank of a tile (R16). -/
def State.heldAt (s : State) (key : Nat) : Nat :=
  (s.netOps.map (fun (_, l) => (l.filter (fun o => o.st == .held && o.key / 2 ^ 19 == key / 2 ^ 19 && bits o.key 6 4 == bits key 6 4)).length)).sum

/-- R273: `barw`: held at the atomic unit, or refused by one that holds 64. -/
def execBarw (d a b ow om _sc : Nat) (s : State) : Out :=
  runM (blocking do
    let s ← get
    let k ← barrierKey a ow
    sendNet om { id := 0, kind := .barw, pc := 0, st := if s.heldAt k < 64 then .held else .refused, d := d, key := k, ea := s.sreg a,
                 b := (s.sreg b).toNat }) s

/-! ## Completion -/

/-- Operation i of a tile. -/
def State.netAt (s : State) (t i : Nat) : Option NetOp := (s.netList t)[i]?

def State.putNet (s : State) (t i : Nat) (op : NetOp) : State := s.setNet t ((s.netList t).set i op)

/-- The result of an operation in its register (R259, R266, R269, R273). -/
def State.netResult (s : State) (op : NetOp) : State :=
  match op.kind with
  | .rld | .ramo => s.setS op.d (extendVal op.n op.sx op.val)
  | .ovld => s.setV op.d (BitVec.ofNat 2048 op.val)
  | .grpstat | .barr | .barw => s.setS op.d (word op.val)
  | .rst | .ovst | .barx => s

/-- R260, R266: operation i of tile t completes: its result, its flags (R84), or its trap against the word that issued it, go to the
firing that issued it if that firing has not ended. -/
def State.finishNet (s : State) (t i : Nat) (op : NetOp) (flags : Nat) : State :=
  let s := (s.setNet t ((s.netList t).eraseIdx i)).retire op.id
  if op.orphan then s
  else match op.trap with
    | some tr => s.engineTrap t op.id op.pc tr
    | none => s.resultTo t op.id (fun s => (s.netResult op).raise flags)

/-- The region in TRAPINFO3 of a trap of tile t (R115). -/
def State.tileInfo (s : State) (t : Nat) : Word := word (s.regionOf t)

/-- R259, R260: the effect of a remote access at its bank. -/
def State.applyRemote (s : State) (t : Nat) (op : NetOp) : NetOp × State :=
  let done := { op with st := .applied }
  let ecc (i1 : Nat) : NetOp × State :=
    ({ done with trap := some { code := cECC, i0 := op.ea, i1 := word i1, i3 := s.tileInfo t } }, s.countHard (dieOfKey op.key) (errClass op.key))
  match op.kind with
  | .rst => if s.writeBad op.key op.n then ecc 3 else (done, s.wr op.key op.n op.data)
  | .ramo =>
    if s.readBad op.key op.n then ecc 1
    else
      let old := s.rd op.key op.n
      ({ done with val := old }, s.wr op.key op.n (atomicVal op.o op.n old op.b op.data))
  | _ => if s.readBad op.key op.n then ecc 1 else ({ done with val := s.rd op.key op.n }, s)

/-- R121, R259: REMOTE_ACCESS_APPLY of request i of tile t, once those issued before it on a common byte are performed. -/
def execRemoteAccessApply (t i : Nat) (s : State) : Out :=
  .next (match s.netAt t i with
    | some op =>
      if op.st = .sent ∧ (op.kind = .rld ∨ op.kind = .rst ∨ op.kind = .ramo) ∧
          !s.precedes t ((s.netList t).take i) false op.key op.n then
        let (op, s) := s.applyRemote t op
        s.putNet t i op
      else s
    | none => s)

/-- R260: REMOTE_RESPONSE to request i of tile t. -/
def execRemoteResponse (t i : Nat) (s : State) : Out :=
  .next (match s.netAt t i with
    | some op => if op.st = .applied then s.finishNet t i op 0 else s
    | none => s)

/-! ## Barrier records -/

/-- R271: the fields of a barrier record. -/
structure BarRec where
  target : Nat
  arrived : Nat
  bytes : Nat
  phase : Nat
deriving DecidableEq, Repr

def State.barRec (s : State) (k : Nat) : BarRec :=
  { target := s.rd k 4, arrived := s.rd (k + 4) 4, bytes := s.rd (k + 8) 8, phase := s.rd (k + 16) 8 }

def State.putBar (s : State) (k : Nat) (r : BarRec) : State :=
  ((s.wr (k + 4) 4 r.arrived).wr (k + 8) 8 r.bytes).wr (k + 16) 8 r.phase

/-- R273: phases complete while the arrivals meet TARGET and the balance is zero. -/
def BarRec.settle (r : BarRec) : BarRec :=
  if r.bytes = 0 then
    { r with phase := (r.phase + r.arrived / r.target) % 2 ^ 64, arrived := r.arrived % r.target }
  else r

/-- R271: the trap of an ill-formed record; an uncorrectable error in one is reported as R260 lays down for a read. -/
def State.barTrap (s : State) (t : Nat) (op : NetOp) : Option Trap :=
  if s.readBad op.key 32 then some { code := cECC, i0 := op.ea, i1 := 1, i3 := s.tileInfo t }
  else if s.rd op.key 4 = 0 then some { code := cFORMAT }
  else if s.rd (op.key + 24) 8 ≠ 0 then some { code := cFORMAT, i0 := word (s.rd (op.key + 24) 8), i1 := 24 }
  else none

/-- R273: BARRIER_UPDATE of `barr` or `barx` i of tile t; its response follows. -/
def execBarrierUpdate (t i : Nat) (s : State) : Out :=
  .next (match s.netAt t i with
    | some op =>
      if op.st = .sent ∧ (op.kind = .barr ∨ op.kind = .barx) then
        match s.barTrap t op with
        | some tr => s.putNet t i { op with st := .applied, trap := some tr }
        | none =>
          let r := s.barRec op.key
          let r' := if op.kind = .barr then { r with arrived := (r.arrived + 1) % 2 ^ 32, bytes := (r.bytes + op.b) % 2 ^ 64 }
                    else { r with bytes := (r.bytes + 2 ^ 64 - op.b) % 2 ^ 64 }
          (s.putBar op.key r'.settle).putNet t i { op with st := .applied, val := (r.phase + r.arrived / r.target) % 2 ^ 64 }
      else s
    | none => s)

/-- R273: BARW_RELEASE: a held `barw` returns once its phase has passed; an ill-formed record answers FORMAT. -/
def execBarwRelease (t i : Nat) (s : State) : Out :=
  .next (match s.netAt t i with
    | some op =>
      if op.st = .held ∧ op.kind = .barw then
        match s.barTrap t op with
        | some tr => s.finishNet t i { op with trap := some tr } 0
        | none =>
          let ph := (s.barRec op.key).phase
          if op.b < ph then s.finishNet t i { op with val := ph } 0 else s
      else s
    | none => s)

/-- R273: BARW_RESEND: a refused `barw` is held where the unit has room. -/
def execBarwResend (t i : Nat) (s : State) : Out :=
  .next (match s.netAt t i with
    | some op => if op.st = .refused ∧ s.heldAt op.key < 64 then s.putNet t i { op with st := .held } else s
    | none => s)

/-! ## Overprint operations -/

/-- R269: the value of `grpstat`. -/
def State.grpVal (s : State) (g : Group) (sel : Nat) : Nat :=
  let abs := s.absentOf g
  if sel = 0 then g.members.length + (if g.skip then 2 ^ 12 else 0) + abs.length * 2 ^ 13
  else (List.range 64).foldl (fun acc k => if abs.contains (64 * (sel - 1) + k) then acc + 2 ^ k else acc) 0

/-- R263, R269: OVERPRINT_SAMPLE of operation i of tile t. -/
def execOverprintSample (t i : Nat) (s : State) : Out :=
  .next (match s.netAt t i with
    | some op =>
      match s.opGroup op with
      | some g =>
        if op.st = .sent ∧ op.abs = none ∧ (op.kind = .ovld ∨ op.kind = .ovst) then
          let abs := s.absentOf g
          s.putNet t i { op with abs := some abs, trap := if !abs.isEmpty && !g.skip then some (absentTrap op.ea abs) else none }
        else if op.st = .sent ∧ op.kind = .grpstat then
          s.putNet t i { op with st := .applied, abs := some [], val := s.grpVal g op.n }
        else s
      | none => s
    | none => s)

/-- R268: the writing of a member: 4-byte elements, one on a check word in error leaving the word unchanged; whether some element did. -/
def State.writeMember (s : State) (k n data : Nat) : Bool × State :=
  (s.readBad k n, (List.range (n / 4)).foldl (fun s e =>
    if s.readBad (k + 4 * e) 4 then s else s.wr (k + 4 * e) 4 (data / 2 ^ (32 * e) % 2 ^ 32)) s)

/-- R266, R268, R270: OVERPRINT_MEMBER_ACCESS of member j, once what the tile issued before it on a common byte is performed there. -/
def execOverprintMemberAccess (t i j : Nat) (s : State) : Out :=
  .next (match s.netAt t i with
    | some op =>
      match s.opGroup op, op.abs with
      | some g, some abs =>
        if op.st = .sent ∧ op.trap = none ∧ j < g.members.length ∧ !abs.contains j ∧ op.got.all (fun e => e.1 != j) then
          match s.memberKey g op j with
          | none => s
          | some k =>
            if s.precedes t ((s.netList t).take i) true k op.n then s
            else
            let count (s : State) (hit : Bool) : State := if hit then s.countHard (dieOfKey k) (errClass k) else s
            if op.kind = .ovld then
              let hit := s.readBad k op.n
              (count s hit).putNet t i { op with got := op.got ++ [(j, s.rd k op.n)], faulty := if hit then op.faulty ++ [j] else op.faulty }
            else
              let (hit, s) := s.writeMember k op.n op.data
              (count s hit).putNet t i { op with got := op.got ++ [(j, 0)], faulty := if hit then op.faulty ++ [j] else op.faulty }
        else s
      | _, _ => s
    | none => s)

/-- Whether every present member has been accessed. -/
def NetOp.allGot (op : NetOp) (abs : List Nat) (m : Nat) : Bool :=
  (List.range m).all (fun j => abs.contains j || op.got.any (fun e => e.1 == j))

/-- The least of a list of numbers. -/
def leastOf : List Nat → Nat
  | [] => 0
  | [x] => x
  | x :: xs => min x (leastOf xs)

/-- R266, R268, R269: OVERPRINT_COMPLETE of operation i of tile t. -/
def execOverprintComplete (t i : Nat) (s : State) : Out :=
  .next (match s.netAt t i with
    | some op =>
      match s.opGroup op, op.abs with
      | some g, some abs =>
        if op.kind = .grpstat ∨ op.trap ≠ none then s.finishNet t i op 0
        else if op.allGot abs g.members.length then
          if !op.faulty.isEmpty then
            s.finishNet t i { op with trap := some { code := cGROUP_FAULT, i0 := op.ea, i1 := word (leastOf op.faulty), i2 := word op.off } } 0
          else if op.kind = .ovld then
            let xs := (List.range g.members.length).map (fun j => (op.got.find? (fun e => e.1 = j)).map Prod.snd)
            let (v, fl) := overResult op.o op.ty op.n xs
            s.finishNet t i { op with val := v } fl
          else s.finishNet t i op (if abs.isEmpty then 0 else fSKIP)
        else s
      | _, _ => s
    | none => s)

end Sys2Proof.Machine
end

