-- ==== Sys2Proof/Machine/Streams.lean ====
section
/-! DEFINITION. The memory streamers (spec/11): the instructions of MAJ 0xA0 (R318 to R330) at their issue, and the acceptance of their
commands (R320). -/

namespace Sys2Proof.Machine

/-! ## Contexts -/

/-- The context a CTX field names for the current core: one of its region's, or the firmware's own (R310; assumption 20). -/
def State.ctxNamed (s : State) (n : Nat) : Option Nat :=
  if s.isFiring then ((s.region (s.regionOf s.cur)).ctx.find? (fun e => e.1 = n)).map Prod.snd else some (2048 + n)

/-- The role of a context: the firmware's are COMMAND contexts (R310). -/
def State.ctxRole (s : State) (c : Nat) : Nat := if 2048 ≤ c then 2 else (s.ctxAt c).role

/-- A context as software sees it: the firmware's are bound, and IDLE until they run (assumption 20). -/
def State.ctxHere (s : State) (c : Nat) : Ctx :=
  let x := s.ctxAt c
  if 2048 ≤ c ∧ x.st = .unbound then { x with st := .idle } else x

/-- R329: the context that CTX names, of an accepted role; else PROTECT with reason 11. -/
def ctxFor (n : Nat) (roles : List Nat) : M Nat := do
  let s ← get
  let bad (role : Nat) : M Nat := raiseTrap { code := cPROTECT, i0 := word n, i1 := 11, i2 := word role, i3 := s.regionInfo }
  match s.ctxNamed n with
  | none => bad 3
  | some c => if roles.contains (s.ctxRole c) then pure c else bad (s.ctxRole c)

/-- The class of a record's address: own tile memory for a firing core, any space of a control core (R319). -/
def State.recordReach (s : State) : Reach := if s.isFiring then .localAtomic else .control

/-- R319: the class of a counter's address: translated space, region tile memory of any tile, or any space of a control core. -/
def State.counterReach (s : State) (a : Word) : Reach :=
  if !s.isFiring then .control else if bits a.toNat 40 8 < 0x80 then .loadStore else .remote

/-- The commands of a core's present firing that are not performed, and those that await acceptance. -/
def State.myCmds (s : State) : List StreamCmd :=
  s.ctxs.flatMap (fun e => e.2.cmds.filter (fun m => m.core = s.cur ∧ !m.orphan))

/-- R332: a firing core holds at most 32 commands not performed and 8 not accepted. -/
def streamRoom : M Unit := do
  let s ← get
  let l := s.myCmds
  if s.isFiring && (decide (32 ≤ l.length) || decide (8 ≤ (l.filter (fun m => !m.accepted)).length)) then waitHere else pure ()

/-- A command is issued on a context: OM's set gains it, with the set of OW as it stood (R122, R331). -/
def issueStream (c fn d a b ow om sc ctx : Nat) (av bv : Word) : M Nat := do
  let s ← get
  let waits := s.core.oset ow
  let (id, s) := s.issueOp om true
  let w := engineWord 0xA0 fn d a b ow om sc (256 * ctx) + guardBits s.core
  let m : StreamCmd := { id := id, core := s.cur, fn := fn, word := w, pc := s.core.pc, ow := waits, d := d, av := av, bv := bv }
  set (s.mapCtx c (fun x => { x with cmds := x.cmds ++ [m] }))
  pure id

/-- The context that `sresume` names: a firing core's as every function's. A control core's is the firmware's context, or, where that one is
not FROZEN, the FROZEN context of that number in the lowest-numbered region that has one (R325; assumption 20). -/
def State.ctxToResume (s : State) (n : Nat) : Option Nat :=
  let stuck (c : Nat) : Bool := let x := s.ctxAt c; x.st == .frozen || (x.st == .halted && x.left == .frozen)
  if s.isFiring || stuck (2048 + n) then s.ctxNamed n
  else
    let found := (List.range 128).findSome? (fun g => ((s.region g).ctx.find? (fun e => e.1 = n && stuck e.2)).map Prod.snd)
    found.or (s.ctxNamed n)

/-- A command awaits acceptance. -/
def State.awaiting (s : State) (id : Nat) : Bool := s.ctxs.any (fun e => e.2.cmds.any (fun m => m.id == id && !m.accepted))

/-- R320: a control core waits for the command's acceptance. -/
def untilAccepted (issue : M Nat) : M Unit := do
  let s ← get
  match s.core.waitOp with
  | some id => if s.awaiting id then waitHere else advanceM
  | none =>
    let id ← issue
    modify (fun s => s.mapCore (fun c => { c with waitOp := some id }))
    waitHere

/-- A command that a firing core issues without waiting for its acceptance, and a control core waits for. -/
def streamIssue (issue : M Nat) : M Unit := do
  let s ← get
  if s.isFiring then
    let _ ← issue
    advanceM
  else untilAccepted issue

/-- R318: `sbind`. -/
def execSbind (a ow om sc ctx : Nat) (s : State) : Out :=
  runM (streamIssue do
    let s ← get
    let c ← ctxFor ctx [0, 1]
    let _ ← checkAccess s.recordReach .read 192 64 (s.sreg a)
    streamRoom
    issueStream c 0 0 a 0 ow om sc ctx (s.sreg a) 0) s

/-- R320: the issue of `scopy`, `sfetch` and `sput` (FN 1 to 3), an external effect (R43). -/
def streamCopy (fn d a b ow om sc ctx : Nat) : M Nat := do
  let s ← get
  let c ← ctxFor ctx [2]
  let _ ← checkAccess s.recordReach .read 192 64 (s.sreg a)
  let _ ← checkAccess s.recordReach .read 192 64 (s.sreg b)
  streamRoom
  let id ← issueStream c fn d a b ow om sc ctx (s.sreg a) (s.sreg b)
  markExt
  pure id

/-- R320: `scopy`. -/
def execScopy (a b ow om sc ctx : Nat) (s : State) : Out := runM (streamIssue (streamCopy 1 0 a b ow om sc ctx)) s

/-- R320, R324: `sfetch`: its D is written at acceptance. -/
def execSfetch (d a b ow om sc ctx : Nat) (s : State) : Out := runM (streamIssue (streamCopy 2 d a b ow om sc ctx)) s

/-- R320: `sput`. -/
def execSput (a b ow om sc ctx : Nat) (s : State) : Out := runM (streamIssue (streamCopy 3 0 a b ow om sc ctx)) s

/-- R323: `cwait`: a read of the counter that meets the target ends it. -/
def execCwait (d a b ow _om _sc : Nat) (s : State) : Out :=
  runM (do
    let s ← get
    let ea := s.sreg a
    let pl ← checkAccess (s.counterReach ea) .read 8 8 ea
    waitOw ow
    let v ← readPlace ea 8 pl
    let tgt := s.sreg b
    if tgt.toNat ≤ v then
      modify (fun s => s.setS d (word v))
      advanceM
    else
      boundedWait (s.sreg d).toNat { code := cWAIT_LIMIT, i0 := ea, i1 := word v, i2 := tgt, i3 := s.sreg d }) s

/-- R327: a FROZEN context becomes ACTIVE; one HALTED while FROZEN will. -/
def Ctx.resume (x : Ctx) : Ctx :=
  if x.st = .frozen then { x with st := .active }
  else if x.st = .halted ∧ x.left = .frozen then { x with left := .active }
  else x

/-- R327: `sresume`. -/
def execSresume (ctx : Nat) (s : State) : Out :=
  runM (do
    let _ ← ctxFor ctx [0, 1, 2]
    streamRoom
    modify (fun s => s.mapCtx ((s.ctxToResume ctx).getD 0) Ctx.resume)
    markExt
    advanceM) s

/-- The code of a context's state (R330). -/
def CtxSt.code : CtxSt → Nat
  | .unbound => 0
  | .idle => 1
  | .active => 2
  | .frozen => 3
  | .halted => 4

/-- R321: the accepted command that a context performs: the first in acceptance order. -/
def Ctx.front (x : Ctx) : Option StreamCmd :=
  (x.cmds.filter StreamCmd.accepted).foldl (fun (o : Option StreamCmd) m => match o with
    | some k => if m.seq < k.seq then some m else some k
    | none => some m) none

/-- R330: the value `sstat` reads: `role` is the context's role. SEL 1 of a COMMAND context without a command is 0 (DESIGN CHOICE, assumption
111). -/
def Ctx.stat (x : Ctx) (role sel : Nat) : Nat :=
  match sel with
  | 0 => x.st.code + role * 2 ^ 4 + (x.cmds.filter StreamCmd.accepted).length * 2 ^ 8
  | 1 => if role = 2 then (x.front.map StreamCmd.done).getD 0 else x.fired * x.per + x.pos
  | 2 => if role = 2 then x.performed else x.fired
  | _ => x.promise

/-- R330: `sstat`. -/
def execSstat (d ctx sl : Nat) (s : State) : Out :=
  runM (do
    let c ← ctxFor ctx [0, 1, 2]
    modify (fun s => s.setS d (word ((s.ctxHere c).stat (s.ctxRole c) sl)))
    advanceM) s

/-! ## Acceptance -/

/-- R314, R319: the bytes at an address must lie in the space a record's use requires: 0 translated, 1 own tile memory, 2 the core's
private memory. -/
def spaceCheck (space a : Nat) : M Unit := do
  let s ← get
  let bad (code i1 : Nat) : M Unit := raiseTrap { code := code, i0 := word a, i1 := word i1, i3 := s.regionInfo }
  let reach : Reach := if !s.isFiring then .control else if space = 0 then .loadStore else .localAtomic
  match s.locate reach 1 a with
  | .error (c, i1) => bad c i1
  | .ok (.translated _) => if space = 0 then pure () else bad cPROTECT 8
  | .ok (.tile _ _) => if space = 1 then pure () else bad cPROTECT 8
  | .ok (.system x) =>
    match sysMem s.ccore (x - sysBase) with
    | some k => if space = 2 ∧ k / 2 ^ 19 = privBase s.ccore / 2 ^ 19 then pure () else bad cPROTECT 8
    | none => bad cPROTECT 8
  | .ok (.group _ _) => bad cPROTECT 8

/-- R315: the 192 bytes of a record, read once, as the core that issued the command reads them; an uncorrectable error traps (R334). -/
def recordBytes (ea : Word) : M Nat := do
  let s ← get
  let x ← (List.range 3).foldlM (fun (acc : Nat) (i : Nat) => do
    let a := ea + word (64 * i)
    let pl ← checkAccess s.recordReach .read 64 64 a
    let v ← readPlace a 64 pl
    pure (acc + v * 2 ^ (512 * i))) 0
  pure x

/-- R314 whole: the record at an address, for a use. Bytes that begin and end in two windows of tile or private memory are not wholly in one
(assumption 89). -/
def readShape (ea : Word) (space : Nat) : M Shape := do
  let r ← recordBytes ea
  match shapeOf r ea.toNat with
  | .error t => raiseTrap t
  | .ok x =>
    spaceCheck space x.lo
    spaceCheck space x.hi
    if space ≠ 0 ∧ x.lo / 2 ^ 19 ≠ x.hi / 2 ^ 19 then
      raiseTrap { code := cPROTECT, i0 := word ((x.lo / 2 ^ 19 + 1) * 2 ^ 19), i1 := 8, i3 := (← get).regionInfo }
    pure { x with space := space }

/-- FORMAT of a streamer command (R320). -/
def streamFormat (v off : Nat) : M Unit := raiseTrap { code := cFORMAT, i0 := word v, i1 := word off }

/-- R319, R320: the counter that a record names, checked as an 8-byte write of the core that issued the command. -/
def counterCheck (x : Shape) : M Unit := do
  let s ← get
  if x.cinc ≠ 0 then
    let _ ← checkAccess (s.counterReach (word x.caddr)) .write 8 8 (word x.caddr)

/-- R320: the checks at acceptance of a copy: its records and its counter. Of two records that differ in ESZ or in N, FORMAT gives the
destination's field (DESIGN CHOICE, assumption 112). -/
def acceptShapes (m : StreamCmd) : M (Shape × Shape) := do
  let s ← get
  let own := if s.isFiring then 1 else 2
  let x ← readShape m.av (if m.fn = 3 then own else 0)
  let y ← readShape m.bv (if m.fn = 2 then own else 0)
  if x.esz ≠ y.esz then streamFormat (y.esz - 1) 8
  if x.n ≠ y.n then streamFormat y.dims.length 10
  if x.caddr ≠ 0 then streamFormat x.caddr 16
  if x.cinc ≠ 0 then streamFormat x.cinc 24
  counterCheck y
  pure (x, y)

/-- The command of an operation replaced, or removed. -/
def Ctx.putCmd (x : Ctx) (m : StreamCmd) : Ctx := { x with cmds := x.cmds.map (fun e => if e.id = m.id then m else e) }
def Ctx.dropCmd (x : Ctx) (id : Nat) : Ctx := { x with cmds := x.cmds.filter (fun e => e.id ≠ id) }

/-- R318, R320, R324: what acceptance does on context c. The promise of an `sfetch` is a free value, at least the cycle plus 4 and within the
64 bits of D. -/
def acceptCmd (c : Nat) (m : StreamCmd) : M Unit := do
  if m.fn = 0 then
    let x ← readShape m.av 0
    counterCheck x
    modify (fun s => (s.mapCtx c (fun y => { y.dropCmd m.id with staged := some x })).retire m.id)
  else
    let (x, y) ← acceptShapes m
    let s ← get
    let (f, s) := if m.fn = 2 then s.free else (0, s)
    let promise := s.cycle + 4 + f.toNat % (2 ^ 64 - (s.cycle % 2 ^ 64 + 4))
    let seq := (s.ctxAt c).seq + 1
    let s := s.mapCtx c (fun z =>
      { z.putCmd { m with accepted := true, seq := seq, src := x, dst := y, promise := promise } with
        seq := seq, promise := if m.fn = 2 then promise else z.promise, st := if z.st = .idle ∨ z.st = .unbound then .active else z.st })
    let s := s.engRelease m.id
    set (if m.fn = 2 ∧ !m.orphan ∧ !s.firingNow.silent m.id then s.setS m.d (word promise) else s)

/-- R320: a context's queue of accepted commands has room. -/
def Ctx.room (x : Ctx) : Bool := decide ((x.cmds.filter StreamCmd.accepted).length < 8)

/-- R320: STREAM_CMD_ACCEPT: the oldest command of context c whose OW set is performed is accepted, or its trap is delivered to the core
that issued it, at the word that issued it (R186). -/
def execStreamCmdAccept (c : Nat) (s : State) : Out :=
  let x := s.ctxAt c
  .next (match x.cmds.find? (fun m => !m.accepted && m.ow.all (s.performed (bits m.word 16 4))) with
    | none => s
    | some m =>
      if x.st = .halted ∨ (m.fn ≠ 0 ∧ !x.room) then s
      else
        match acceptCmd c m { s with cur := m.core } with
        | .ok _ t => ({ t with cur := s.cur }).settleTrap m.core
        | .error .wait _ => s
        | .error (.trap tr) t =>
          let t := (({ t with cur := s.cur }).mapCtx c (fun x => x.dropCmd m.id)).retire m.id
          if m.orphan then t else t.engineTrap m.core m.id m.pc tr)

end Sys2Proof.Machine
end

