-- ==== Sys2Proof/Machine/StreamEvents.lean ====
section
/-! DEFINITION. What stream contexts do on their own: the elements they move (R309, R313, R319), their faults (R325, R326), the firings of
sources and sinks (R317), and the performing of commands (R321). -/

namespace Sys2Proof.Machine

/-- A data access of a context that failed (R325, R326): code, reason, address, table entry, and whether it was a write. -/
structure CtxFault where
  code : Nat
  reason : Nat
  addr : Nat
  pte : Word := 0
  wr : Bool := false
deriving DecidableEq, Repr

/-- An operation of a stream context. -/
abbrev CM (α : Type) := EStateM CtxFault State α

/-- Who a context's access stands for: its translation agent and region (R319), and the core whose own memory a record may name. -/
structure CtxBy where
  agent : Nat
  region : Nat
  core : Nat
deriving DecidableEq, Repr

def State.ctxBy (s : State) (c core : Nat) : CtxBy := { agent := 16384 + c, region := ((s.ctxAt c).region).getD 128, core := core }

/-- R319, R325: the key of n bytes at an address of a space, within one page. -/
def ctxKeyOf (w : CtxBy) (space addr : Nat) (rw : Rw) : CM Nat := do
  let s ← get
  match space with
  | 0 =>
    let (r, s') := s.access w.agent w.region (addr % 2 ^ 47) rw false
    set s'
    match r with
    | .ok (.mem k) => pure k
    | .ok (.sys a) => throw { code := cPROTECT, reason := 8, addr := a, wr := rw != .read }
    | .error (c, i1, i2) => throw { code := c, reason := i1.toNat % 256, addr := addr, pte := i2, wr := rw != .read }
  | 1 => pure (tileBase w.core + addr % 2 ^ 19)
  | _ =>
    match sysMem (w.core - 2048) (addr - sysBase) with
    | some k => pure k
    | none => throw { code := cPROTECT, reason := 3, addr := addr, wr := rw != .read }

/-- An uncorrectable error met by a context, counted (R466). -/
def ctxEcc {α : Type} (key addr reason : Nat) (wr : Bool) : CM α := do
  modify (fun s => s.countHard (dieOfKey key) (errClass key))
  throw { code := cECC, reason := reason, addr := addr, wr := wr }

/-- The bytes of an element read, page by page; `fuel` bounds the pages. -/
def ctxRead (w : CtxBy) (space : Nat) : Nat → Nat → Nat → CM (List Byte)
  | 0, _, _ => pure []
  | fuel + 1, addr, n => do
    if n = 0 then pure []
    else
      let k := min n (65536 - addr % 65536)
      let key ← ctxKeyOf w space addr .read
      let s ← get
      if s.readBad key k then ctxEcc key addr 1 false
      else
        let rest ← ctxRead w space fuel (addr + k) (n - k)
        pure (s.rdList key k ++ rest)

/-- The bytes of an element written, page by page. -/
def ctxWrite (w : CtxBy) (space : Nat) : Nat → Nat → List Byte → CM Unit
  | 0, _, _ => pure ()
  | fuel + 1, addr, bs => do
    if bs.isEmpty then pure ()
    else
      let k := min bs.length (65536 - addr % 65536)
      let key ← ctxKeyOf w space addr .write
      let s ← get
      if s.writeBad key k then ctxEcc key addr 3 true
      else
        set (s.wrBlock key (bs.take k))
        ctxWrite w space fuel (addr + k) (bs.drop k)

/-- R313: element e of a walk read; a halo element is zero bytes. -/
def elemRead (w : CtxBy) (x : Shape) (e : Nat) : CM (List Byte) :=
  match x.addrOf e with
  | none => pure (List.replicate x.esz 0)
  | some a => ctxRead w x.space 3 a x.esz

/-- R313: element e of a walk written; a halo element is discarded. -/
def elemWrite (w : CtxBy) (x : Shape) (e : Nat) (bs : List Byte) : CM Unit :=
  match x.addrOf e with
  | none => pure ()
  | some a => ctxWrite w x.space 3 a bs

/-- R321, R322: the atomic add to a completion counter at its home (R319). -/
def counterAdd (w : CtxBy) (caddr inc : Nat) : CM Unit := do
  if inc = 0 then pure ()
  else
    let s ← get
    let key ← if bits caddr 40 8 = 0xF1 then
        (match (s.region w.region).resolve (bits caddr 19 11) with
         | some p =>
           if 0x7C000 < caddr % 2 ^ 19 + 8 then throw { code := cPROTECT, reason := 7, addr := caddr, wr := true }
           else pure (tileBase p + caddr % 2 ^ 19)
         | none => throw { code := cPROTECT, reason := 8, addr := caddr, wr := true })
      else if bits caddr 40 8 = 0xF4 then
        (if w.core < 2048 then throw { code := cPROTECT, reason := 8, addr := caddr, wr := true } else ctxKeyOf w 2 caddr .write)
      else ctxKeyOf w 0 caddr .write
    let s ← get
    if s.readBad key 8 then ctxEcc key caddr 1 true
    else set (s.wr key 8 ((s.rd key 8 + inc) % 2 ^ 64))

/-! ## Faults -/

/-- R325, R326, R428: context c freezes: its record, the instance's fault count and first-fault word. `info` are bytes 24 to 47 of the
record. -/
def State.freeze (s : State) (c : Nat) (f : CtxFault) (e n32 n40 : Nat) : State :=
  let x := s.ctxAt c
  let num := if 2048 ≤ c then c - 2048 else x.num
  let status := f.code + f.reason * 2 ^ 8 + num * 2 ^ 16 + s.ctxRole c * 2 ^ 24 + (if f.wr then 2 ^ 26 else 0)
  let rec_ : Vector Word 8 := #v[word status, word f.addr, f.pte, word e, word n32, word n40, word s.gtime, 0]
  let s := s.mapCtx c (fun x => { x with st := .frozen, record := rec_ })
  match x.region with
  | none => s
  | some g => s.mapRegion g (fun r =>
      { r with
        faults := r.faults + 1, reported := true,
        ffw := if r.reported then r.ffw else word (cSTREAM_FAULT + x.anchor * 2 ^ 16 + f.reason * 2 ^ 48) })

/-- A context's operation: carried out, or its fault handled. -/
def State.runCtx {α : Type} (s : State) (m : CM α) (ok : State → α → State) (bad : State → CtxFault → State) : State :=
  match m s with
  | .ok v t => ok t v
  | .error f t => bad t f

/-! ## Stretches of a walk -/

/-- R333: the elements of a walk from element e on, of at most n, up to the next 256-byte boundary of the bytes it moves: a context can halt
between two such stretches (assumption 90). -/
def stretch (esz e n : Nat) : Nat := min n (((e * esz / 256 + 1) * 256 - e * esz + (esz - 1)) / max 1 esz)

/-! ## Commands -/

/-- Moves elements of a command from element e on; `fuel` is their number. -/
def moveElems (w : CtxBy) (c id : Nat) (x y : Shape) : Nat → Nat → CM Unit
  | 0, _ => pure ()
  | fuel + 1, e => do
    let bs ← elemRead w x e
    elemWrite w y e bs
    modify (fun s => s.mapCtx c (fun z => { z with cmds := z.cmds.map (fun m => if m.id = id then { m with done := e + 1 } else m) }))
    moveElems w c id x y fuel (e + 1)

/-- R321: context c performs a stretch of a command: elements in order, and after the last of them its counter add. -/
def State.performCmd (s : State) (c : Nat) (m : StreamCmd) : State :=
  let w := s.ctxBy c m.core
  let n := stretch m.dst.esz m.done (m.src.n - m.done)
  let last := decide (m.src.n ≤ m.done + n)
  s.runCtx (do
      moveElems w c m.id m.src m.dst n m.done
      if last then counterAdd w m.dst.caddr m.dst.cinc)
    (fun t _ => if !last then t else
      (t.mapCtx c (fun x =>
        let y := x.dropCmd m.id
        { y with performed := y.performed + 1, st := if y.cmds.any StreamCmd.accepted then .active else .idle })).retire m.id)
    (fun t f =>
      let done := (((t.ctxAt c).cmds.find? (fun e => e.id = m.id)).map StreamCmd.done).getD 0
      t.freeze c f done done (m.word % 2 ^ 16 + m.seq * 2 ^ 32))

/-- R321: STREAM_CMD_PERFORM: context c performs a stretch of its accepted command that comes first. -/
def execStreamCmdPerform (c : Nat) (s : State) : Out :=
  let x := s.ctxAt c
  .next (if x.st = .active then
    match x.front with
    | some m => s.performCmd c m
    | none => s
  else s)

/-! ## Sources and sinks -/

/-- R316: elements to a token. -/
def Ctx.perToken (x : Ctx) : Nat := x.per / max 1 x.p

/-- R316: firings in the stream. -/
def Ctx.streamLen (x : Ctx) : Nat := x.shape.n / max 1 x.per

/-- The tokens of a firing of context c that fall to each segment (R232). -/
def State.ctxShares (s : State) (c : Nat) : List (Nat × Nat) :=
  let x := s.ctxAt c
  let ds := s.ctxDeal c x.fired x.p
  (List.range x.segs).map (fun i => (i, (ds.filter (· = i)).length))

/-- R317: the elements of a source's firing from the first not yet read on. -/
def sourceElems (w : CtxBy) (c : Nat) (x : Shape) (e0 : Nat) : Nat → Nat → CM Unit
  | 0, _ => pure ()
  | fuel + 1, i => do
    let bs ← elemRead w x (e0 + i)
    modify (fun s => s.mapCtx c (fun z => { z with pos := i + 1, buf := z.buf ++ bs }))
    sourceElems w c x e0 fuel (i + 1)

/-- R317: the tokens of a source's firing as DATA flits, with the overflow counts by segment. -/
def State.sourceTokens (s : State) (c : Nat) : State × Sparse Nat :=
  let x := s.ctxAt c
  let ds := s.ctxDeal c x.fired x.p
  let sz := x.perToken * x.shape.esz
  (List.range x.p).foldl (fun (s, ov) j =>
    let i := (ds[j]?).getD 0
    let k := ctxKey c i
    let d := s.desc k
    let (bs, cnt) := convertBytes d.etype d.ctype d.cround ((x.buf.drop (j * sz)).take sz)
    let m := ((ds.take j).filter (· = i)).length
    (s.queueData k ((d.wpos + m) % max 1 d.cap) 0 bs none, Sparse.set 0 ov i (Sparse.get 0 ov i + cnt))) (s, [])

/-- R317: a source's firing commits: POINTER flits, and after the last firing of the stream its marker. -/
def State.sourceCommit (s : State) (c : Nat) : State :=
  let sh := s.ctxShares c
  let (s, ov) := s.sourceTokens c
  let s := sh.foldl (fun s (i, m) =>
    if m = 0 then s
    else
      let k := ctxKey c i
      let d := s.desc k
      let d := { d with wr := (d.wr + m) % 2 ^ 32, wpos := (d.wpos + m) % max 1 d.cap }
      (s.setDesc k d).queueFlit k (.pointer d.wr (Sparse.get 0 ov i) none)) s
  let x := s.ctxAt c
  let last := decide (x.streamLen ≤ x.fired + 1)
  let s := if last then (s.ctxSegs c).foldl (fun s k => s.queueFlit k (.marker 0 false)) s else s
  let s := s.mapRegion (x.region.getD 0) (fun r => { r with firings := r.firings + 1 })
  s.mapCtx c (fun x => { x with st := .idle, fired := x.fired + 1, pos := 0, buf := [], quiescent := last })

/-- R317: STREAM_SOURCE_FIRING of context c: it fires when its port has room for p tokens. A firing begun goes on where it stopped, a stretch
at a time, and commits after its last element. -/
def execStreamSourceFiring (c : Nat) (s : State) : Out :=
  let x := s.ctxAt c
  let r := s.region (x.region.getD 0)
  .next (if x.role = 0 ∧ 0 < x.segs ∧ !x.quiescent ∧ r.started ∧ (x.st = .active ∨
      (x.st = .idle ∧ (s.ctxShares c).all (fun e => decide (e.2 ≤ (s.desc (ctxKey c e.1)).space)))) then
    let s := s.mapCtx c (fun x => { x with st := .active })
    let n := stretch x.shape.esz (x.fired * x.per + x.pos) (x.per - x.pos)
    s.runCtx (sourceElems (s.ctxBy c 0) c x.shape (x.fired * x.per) n x.pos)
      (fun t _ => if x.per ≤ x.pos + n then t.sourceCommit c else t)
      (fun t f => t.freeze c f (x.fired * x.per + (t.ctxAt c).pos) x.fired (t.desc (ctxKey c 0)).wr)
  else s)

/-- R317: the elements of a sink's firing from the first not yet written on: element i of the firing lies in token i / T. -/
def sinkElems (w : CtxBy) (c : Nat) (x : Ctx) (ds : List Nat) : Nat → Nat → CM Unit
  | 0, _ => pure ()
  | fuel + 1, i => do
    let s ← get
    let t := max 1 x.perToken
    let j := i / t
    let seg := (ds[j]?).getD 0
    let k := ctxKey c seg
    let d := s.desc k
    let m := ((ds.take j).filter (· = seg)).length
    let key := winBase k + d.base + (d.rpos + m) % max 1 d.cap * d.size + i % t * x.shape.esz
    elemWrite w x.shape (x.fired * x.per + i) (s.rdList key x.shape.esz)
    modify (fun s => s.mapCtx c (fun z => { z with pos := i + 1 }))
    sinkElems w c x ds fuel (i + 1)

/-- R317: a sink's firing commits: RETURN flits follow the data and the counter. -/
def State.sinkCommit (s : State) (c : Nat) : State :=
  let s := (s.ctxShares c).foldl (fun s (i, m) =>
    if m = 0 then s
    else
      let k := ctxKey c i
      let d := s.desc k
      let d := { d with rd := (d.rd + m) % 2 ^ 32, rpos := (d.rpos + m) % max 1 d.cap }
      (s.setDesc k d).queueFlit k (.ret d.rd)) s
  let g := ((s.ctxAt c).region).getD 0
  let s := s.mapRegion g (fun r => { r with firings := r.firings + 1 })
  s.mapCtx c (fun x => { x with st := .idle, fired := x.fired + 1, pos := 0 })

/-- R317: STREAM_SINK_FIRING of context c: it fires when its input holds p tokens, a stretch at a time; its counter add follows its last
element. -/
def execStreamSinkFiring (c : Nat) (s : State) : Out :=
  let x := s.ctxAt c
  let r := s.region (x.region.getD 0)
  .next (if x.role = 1 ∧ 0 < x.segs ∧ !x.quiescent ∧ r.started ∧ (x.st = .active ∨
      (x.st = .idle ∧ (s.ctxShares c).all (fun e => decide (e.2 ≤ (s.desc (ctxKey c e.1)).count)))) then
    let s := s.mapCtx c (fun x => { x with st := .active })
    let w := s.ctxBy c 0
    let n := stretch x.shape.esz (x.fired * x.per + x.pos) (x.per - x.pos)
    let last := decide (x.per ≤ x.pos + n)
    s.runCtx (do
        sinkElems w c x (s.ctxDeal c x.fired x.p) n x.pos
        if last then counterAdd w x.shape.caddr x.shape.cinc)
      (fun t _ => if last then t.sinkCommit c else t)
      (fun t f => t.freeze c f (x.fired * x.per + (t.ctxAt c).pos) x.fired (t.desc (ctxKey c 0)).rd)
  else s)

end Sys2Proof.Machine
end

