-- ==== Sys2Proof/Machine/Engine.lean ====
section
/-! DEFINITION. What the instructions of the configuration engine and of the control cores share (R362, R443): reads and writes of memory
as the issuing control core makes them, the status they write, and the region they hold while they run. -/

namespace Sys2Proof.Machine

/-! ## Statuses (R362, R443) -/

/-- A status of CONFIG_REJECT in the layout of R53. -/
def stReject (reason mode obj detail : Nat) : Nat :=
  cCONFIG_REJECT + reason % 256 * 2 ^ 8 + mode % 8 * 2 ^ 16 + obj % 65536 * 2 ^ 32 + detail % 65536 * 2 ^ 48

/-- Reasons of R53. -/
def rPHASES : Nat := 1
def rPORT_OPEN : Nat := 2
def rINCONSISTENT : Nat := 3
def rREPLICATION : Nat := 4
def rSCHEDULE : Nat := 5
def rINPUT_STARVED : Nat := 6
def rWINDOW_SHALLOW : Nat := 7
def rSLOT_SHARED : Nat := 8
def rSLOT_MISSING : Nat := 9
def rPERIOD_LONG : Nat := 10
def rPOLICY : Nat := 11
def rPLATES : Nat := 12

/-- PROTECT with reason 12: the operand names nothing live. -/
def stNone : Nat := cPROTECT + 12 * 2 ^ 8

def ProofSt.code : ProofSt → Nat
  | .none => 0
  | .etching => 1
  | .ready => 2
  | .pulling => 3

/-- SLOT_STATE with a region's proof state. -/
def stSlot (r : Region) : Nat := cSLOT_STATE + r.proofSt.code * 2 ^ 16

/-- R362, R443: the instruction completes: D takes its status, and OM's set the operation, performed. -/
def finish (d om st : Nat) : M Unit := do
  modify (fun s =>
    let (id, s) := s.issueOp om false
    (s.retire id).setS d (word st))
  advanceM

/-- R362: an operation on region g is in progress: another core's, or a pull that this core did not start, such as the engine's own. -/
def State.regionBusy (s : State) (g : Nat) : Bool :=
  s.cores.any (fun e => e.1 != s.cur && e.2.holds == some g) ||
    (Nat.blt g 128 && (s.region g).proofSt == .pulling && s.core.holds != some g)

/-- R362: operations on one region run one at a time: the instruction waits while one is in progress on region g, else it takes the region
until it completes or is abandoned. -/
def takeRegion (g : Nat) : M Unit := do
  let s ← get
  if s.regionBusy g then waitHere
  else modify (fun s => s.mapCore (fun c => { c with holds := some g }))

/-- A bounded wait whose limit ends it with a status. -/
def boundedStatus (d om limit st : Nat) : M Unit := do
  let s ← get
  match s.core.waitFrom with
  | none =>
    if limit = 0 then finish d om st
    else
      modify (fun s => s.mapCore (fun c => { c with waitFrom := some (s.cycle, s.gtime) }))
      waitHere
  | some (c0, _) => if limit ≤ s.cycle - c0 then finish d om st else waitHere

/-- A live region named by a register. -/
def State.liveRegion (s : State) (x : Word) : Option Nat := if x.toNat < 128 ∧ (s.region x.toNat).live then some x.toNat else none

/-! ## Memory as the issuing core reaches it -/

/-- Why a read or write by an engine failed: code and reason of R115 (or 1 and 3 of an uncorrectable error), and the index reached. -/
structure RdFail where
  code : Nat
  reason : Nat
  idx : Nat
deriving DecidableEq, Repr

/-- An engine's operation on memory. -/
abbrev RM (α : Type) := EStateM RdFail State α

/-- An access of the issuing core, whose fault is a failure and no trap. -/
def tryAccess {α : Type} (idx : Nat) (m : M α) : RM α := fun s =>
  match m s with
  | .ok a s => .ok a s
  | .error (.trap t) s => .error { code := t.code, reason := t.i1.toNat % 256, idx := idx } s
  | .error .wait s => .error { code := cPROTECT, reason := 3, idx := idx } s

/-- The bytes of a range, read in pieces within aligned 8 bytes; `fuel` is at least the number of pieces, `idx` the bytes read before. -/
def readRange (ea : Word) : Nat → Nat → Nat → RM (List Byte)
  | 0, _, _ => pure []
  | fuel + 1, idx, n => do
    if n = 0 then pure []
    else
      let a := ea + word idx
      let k := min n (8 - a.toNat % 8)
      let v ← tryAccess idx (do let pl ← checkAccess .control .read k 1 a; readPlace a k pl)
      let rest ← readRange ea fuel (idx + k) (n - k)
      pure (toBytes v k ++ rest)

/-- n bytes at an address. -/
def readBytes (ea : Word) (n : Nat) : RM (List Byte) := readRange ea (n / 8 + 2) 0 n

/-- n bytes at an address, as a number. -/
def readNum (ea : Word) (n : Nat) : RM Nat := do
  let bs ← readBytes ea n
  pure (ofBytes bs)

/-- Bytes written to a range, in pieces within aligned 8 bytes. -/
def writeRange (ea : Word) : Nat → Nat → List Byte → RM Unit
  | 0, _, _ => pure ()
  | fuel + 1, idx, bs => do
    if bs.isEmpty then pure ()
    else
      let a := ea + word idx
      let k := min bs.length (8 - a.toNat % 8)
      tryAccess idx (do let pl ← checkAccess .control .write k 1 a; writePlace a k (ofBytes (bs.take k)) pl)
      writeRange ea fuel (idx + k) (bs.drop k)

def writeBytes (ea : Word) (bs : List Byte) : RM Unit := writeRange ea (bs.length / 8 + 2) 0 bs

/-- R362: the status of a failed read. -/
def stFail (f : RdFail) : Nat := f.code + f.reason * 2 ^ 8 + f.idx % 2 ^ 32 * 2 ^ 32

/-- An engine's operation within an instruction, its failure handled. -/
def orElse {α : Type} (m : RM α) (bad : RdFail → M α) : M α := fun s =>
  match m s with
  | .ok a s => .ok a s
  | .error f s => bad f s

/-- R362, R443: an address operand checked at issue, once, as a read or write of n bytes with an alignment: every later outcome is a status. -/
def operandAddr (rw : Rw) (n align : Nat) (ea : Word) : M Unit := do
  let s ← get
  if s.core.checked then pure ()
  else
    let _ ← checkAccess .control rw n align ea
    modify (fun s => s.mapCore (fun c => { c with checked := true }))

end Sys2Proof.Machine
end

