-- ==== Sys2Proof/Machine/Etch.lean ====
section
/-! DEFINITION. Etch streams (R336 to R347): their words, fields, router pairs and transit legs, as they act on a region's proof plane. -/

namespace Sys2Proof.Machine

/-! ## Fields -/

/-- What R341 to R344 say of a field's value: its width, its values, and whether it is region-wide. -/
structure FieldSpec where
  w : Nat
  ok : Nat → Bool := fun _ => true
  wide : Bool := false

/-- The assigned fields of R341 to R344. -/
def etchField (f : Nat) : Option FieldSpec :=
  match f with
  | 0 => some { w := 3 }
  | 1 => some { w := 16 }
  | 2 => some { w := 13, ok := fun v => decide (1 ≤ bits v 6 7 ∧ bits v 6 7 ≤ 64) }
  | 3 => some { w := 11 }
  | 4 => some { w := 5, ok := fun v => decide (1 ≤ v ∧ v ≤ 16) }
  | 5 => some { w := 24 }
  | 6 => some { w := 32 }
  | 7 => some { w := 26, ok := fun v => decide (bits v 13 13 ≤ 4096) }
  | 8 => some { w := 8, ok := fun v => decide (v ≤ 128) }
  | 9 => some { w := 12 }
  | 10 => some { w := 17 }
  | 11 => some { w := 8 }
  | 12 => some { w := 16 }
  | 13 => some { w := 1 }
  | 48 => some { w := 5 }
  | 49 => some { w := 2, ok := fun v => decide (v ≤ 2) }
  | 50 => some { w := 6 }
  | 51 => some { w := 19, ok := fun v => decide (v % 64 = 0) }
  | 52 => some { w := 10 }
  | 53 => some { w := 16, ok := fun v => decide (1 ≤ v) }
  | 54 => some { w := 7 }
  | 55 => some { w := 16 }
  | 56 => some { w := 16 }
  | 57 => some { w := 16 }
  | 58 => some { w := 4 }
  | 59 => some { w := 7 }
  | 80 => some { w := 11, ok := fun v => decide (v / 256 < 5) }
  | 81 => some { w := 4, ok := fun v => decide (v % 8 < 5) }
  | 82 => some { w := 9, ok := fun v => decide (1 ≤ v ∧ v ≤ 256) }
  | 83 => some { w := 8 }
  | 112 => some { w := 3 }
  | 113 => some { w := 8, ok := fun v => decide (1 ≤ v / 2 ∧ v / 2 ≤ 64) }
  | 114 => some { w := 6 }
  | 115 => some { w := 3 }
  | 116 => some { w := 10, wide := true }
  | 117 => some { w := 13, wide := true }
  | 118 => some { w := 11, wide := true }
  | _ => none

/-- R340: the key under which a WRITE's value lies in a tile's proof plane: the selected object, rate set and running index. -/
def Tile.fieldKey (t : Tile) (f v : Nat) : Nat :=
  if f ≤ 13 then
    (if f = 10 then cfgKey 10 t.asel 0 (bits v 13 4)
     else if f = 12 then cfgKey 12 t.asel t.rsel (Sparse.get 0 t.proof (cfgKey 11 t.asel t.rsel 0))
     else cfgKey f t.asel (if f = 4 ∨ f = 5 ∨ f = 11 then t.rsel else 0) 0)
  else if f < 64 then cfgKey f t.dsel (if (51 ≤ f ∧ f ≤ 56) ∨ f = 59 then t.rsel else 0) 0
  else if f = 115 then cfgKey 115 0 0 t.sidx
  else cfgKey f 0 0 0

def Tile.setProof (t : Tile) (k v : Nat) : Tile := { t with proof := Sparse.set 0 t.proof k v }

/-- R341 to R344: a WRITE of a tile's field, router slots apart. -/
def Tile.etch (t : Tile) (f v : Nat) : Tile :=
  match f with
  | 0 => { t with asel := v }
  | 48 => { t with dsel := v }
  | 80 => { t with rslot := v }
  | 112 => { t with rsel := v }
  | 114 => { t with sidx := v }
  | 10 => t.setProof (t.fieldKey 10 v) (v % 2 ^ 13)
  | 12 =>
    let ik := cfgKey 11 t.asel t.rsel 0
    (t.setProof (t.fieldKey 12 v) v).setProof ik ((Sparse.get 0 t.proof ik + 1) % 256)
  | 115 => { t.setProof (t.fieldKey 115 v) v with sidx := (t.sidx + 1) % 64 }
  | _ => t.setProof (t.fieldKey f v) v

/-! ## Router pairs -/

/-- R346: a pair is owned by a region, or by another. -/
def pairForeign (x g : Nat) : Bool := x.testBit 3 && bits x 4 7 != g

/-- The pair a region writes, and its key. -/
def pairOf (inp g : Nat) (transit : Bool) : Nat := inp + 8 + g * 16 + (if transit then 2 ^ 11 else 0)

/-- R346: RSLOTDAT at a tile for region g; none when the word is refused. -/
def Tile.writePair (t : Tile) (g v : Nat) : Option Tile :=
  let k := 8 * (t.rslot % 256) + t.rslot / 256
  let act := Sparse.get 0 t.pairs k
  let pro := Sparse.get 0 t.pairsProof k
  let t' := { t with rslot := (t.rslot + 1) % 256 + t.rslot / 256 * 256 }
  if v.testBit 3 then
    if pairForeign act g || pairForeign pro g then none
    else some { t' with pairsProof := Sparse.set 0 t.pairsProof k (pairOf (v % 8) g false) }
  else if pairForeign pro g then none
  else some { t' with pairsProof := Sparse.set 0 t.pairsProof k 0 }

/-- R346: a router holds a pair of another region. -/
def Tile.sharedRouter (t : Tile) (g : Nat) : Bool := t.pairs.any (fun e => pairForeign e.2 g) || t.pairsProof.any (fun e => pairForeign e.2 g)

/-! ## Transit legs (R347) -/

/-- The tiles beyond a tile's port in a straight line to the edge, nearest first. -/
def rayFrom (o : Nat) : Nat → Nat → List Nat
  | 0, _ => []
  | fuel + 1, p =>
    match neighbour p o with
    | none => []
    | some q => q :: rayFrom o fuel q

/-- The period a router runs, where one is in force: its region's, or that of the legs in it. -/
def State.period (s : State) (q : Nat) : Option Nat :=
  let t := s.tile q
  if (s.owner q).isSome || !t.pairs.isEmpty || !t.pairsProof.isEmpty then some (t.cfg 82 0 0 0) else none

/-- Slot and output of hop k of a leg that meets its boundary tile in slot s0 through port o: outbound, or inbound. -/
def legPair (per s0 o k : Nat) (inbound : Bool) : Nat × Nat :=
  if inbound then ((s0 + per * k - k) % per, oppositePort o) else ((s0 + k) % per, o)

/-- R347: hop k of a leg at router q is free for region g under period per. -/
def State.hopFree (s : State) (g per s0 o k : Nat) (inbound : Bool) (q : Nat) : Bool :=
  let (sl, out) := legPair per s0 o k inbound
  let t := s.tile q
  (s.period q == none || s.period q == some per) && !pairForeign (Sparse.get 0 t.pairs (8 * sl + out)) g &&
    !(Sparse.get 0 t.pairsProof (8 * sl + out)).testBit 3

/-- R347: hop k of a leg written into router q's proof pairs; a router no region holds takes the period. -/
def State.writeHop (s : State) (g per s0 o k : Nat) (inbound : Bool) (q : Nat) : State :=
  let (sl, out) := legPair per s0 o k inbound
  let t := s.tile q
  let t := if s.period q = none then { t with plane := Sparse.set 0 t.plane (cfgKey 82 0 0 0) per } else t
  s.setTile q { t with pairsProof := Sparse.set 0 t.pairsProof (8 * sl + out) (pairOf (if inbound then o else oppositePort o) g true) }

/-- R347: a leg written whole; none when a hop is refused. -/
def State.writeLeg (s : State) (g per s0 o : Nat) (inbound : Bool) : Nat → List Nat → Option State
  | _, [] => some s
  | k, q :: qs => if s.hopFree g per s0 o k inbound q then (s.writeHop g per s0 o k inbound q).writeLeg g per s0 o inbound (k + 1) qs else none

/-- The legs that a tile's proof pairs call for: slot, port that faces outside, inbound. A port faces outside where the tile beyond it is
not the region's, or there is none. -/
def State.legsOf (s : State) (g p : Nat) : List (Nat × Nat × Bool) :=
  let faces (o : Nat) : Bool := decide (o < 4) && !(match neighbour p o with
    | some q => (s.owner q).map Prod.fst == some g
    | none => false)
  (s.tile p).pairsProof.flatMap (fun (k, x) =>
    if pairOwned x g && !x.testBit 11 then
      (if faces (k % 8) then [(k / 8, k % 8, false)] else []) ++ (if faces (x % 8) then [(k / 8, x % 8, true)] else [])
    else [])

/-- The period of a tile's router in the proof and in the active plane. -/
def Tile.proofPeriod (t : Tile) : Nat := Sparse.get 0 t.proof (cfgKey 82 0 0 0)
def Tile.activePeriod (t : Tile) : Nat := t.cfg 82 0 0 0

/-- The proof legs of a region removed from every router. -/
def State.clearLegs (s : State) (g : Nat) : State :=
  s.mapTiles (fun t => { t with pairsProof := t.pairsProof.filter (fun e => !(pairOwned e.2 g && e.2.testBit 11)) })

/-- R347: every leg of a region written into the proof pairs; none where a leg is refused. `perOf` is the period of a boundary router. -/
def State.writeLegs (s : State) (perOf : Tile → Nat) (g : Nat) : Option State :=
  let s := s.clearLegs g
  (s.region g).tiles.foldlM (fun s p =>
    (s.legsOf g p).foldlM (fun (s : State) (s0, o, inb) =>
      let per := max 1 (perOf (s.tile p))
      s.writeLeg g per s0 o inb 1 (rayFrom o 128 p)) s) s

/-! ## The proof plane (R349) -/

/-- R340: every selector and running index of a region returns to 0. -/
def State.clearSelectors (s : State) (g : Nat) : State :=
  let s := (s.region g).tiles.foldl (fun s p =>
    let t := s.tile p
    s.setTile p { t with asel := 0, dsel := 0, rsel := 0, rslot := 0, sidx := 0,
                         proof := t.proof.filter (fun e => decide (e.1 / 256 / 8 / 64 ≠ 11)) }) s
  s.mapRegion g (fun r => { r with gsel := 0 })

/-! ## Words -/

/-- The fields of an etch word (R336). -/
def etchKind (w : Nat) : Nat := bits w 30 2
def etchElem (w : Nat) : Nat := bits w 19 11
def etchSub (w : Nat) : Nat := bits w 26 4
def etchOper (w : Nat) : Nat := bits w 0 26

/-- The ELEMENT that a rejection names: of a WRITE; 0 for other words (R339). -/
def etchObj (w : Nat) : Nat := if etchKind w = 0 then etchElem w else 0

/-- R337 to R346: a WRITE of value v by region g; or the reason of its rejection. -/
def State.etchWrite (s : State) (g w v : Nat) : Except Nat State :=
  let f := bits w 12 7
  let l := etchElem w
  let r := s.region g
  match etchField f, r.resolve l with
  | some sp, some p =>
    if sp.wide ∧ l ≠ 0 then .error rPHASES
    else if 2 ^ sp.w ≤ v ∨ !sp.ok v then .error rPHASES
    else if f = 9 ∧ (bits v 2 4 = 0 ∨ bits v 8 4 = 0) then .error rPOLICY
    else if f = 116 then .ok (s.setRegion g { r with gsel := v })
    else if f = 117 then
      let d := GroupDef.mk (v.testBit 0) (v.testBit 1) (v / 4 + 1) []
      .ok (s.setRegion g { r with groupsProof := Sparse.set {} r.groupsProof r.gsel d })
    else if f = 118 then
      let d : GroupDef := Sparse.get {} r.groupsProof r.gsel
      let d := { d with members := d.members ++ [v] }
      .ok (s.setRegion g { r with groupsProof := Sparse.set {} r.groupsProof r.gsel d })
    else if f = 81 then
      match (s.tile p).writePair g v with
      | some t => .ok (s.setTile p t)
      | none => .error rSLOT_SHARED
    else if f = 82 ∧ v ≠ (s.tile p).cfg 82 0 0 0 ∧ (s.tile p).sharedRouter g then .error rSLOT_SHARED
    else .ok (s.setTile p ((s.tile p).etch f v))
  | _, _ => .error rPHASES

/-- R338, R339: a CONTROL word other than the first and the last: MARK anywhere, PULL directly before END. -/
def State.etchControl (s : State) (g w i n : Nat) : Except Nat State :=
  if etchSub w = 1 then .ok (s.mapRegion g (fun r => { r with markTag := etchOper w }))
  else if etchSub w = 2 ∧ etchOper w = 0 ∧ i + 2 = n then .ok (s.mapRegion g (fun r => { r with auto := true }))
  else .error rPHASES

/-- R336 to R339: word i of a stream of n, neither first nor last; `h` is the value of a HIGH before it. The state and the value of a HIGH
that it is. -/
def State.etchWord (s : State) (g n i : Nat) (h : Option Nat) (w : Nat) : Except Nat (State × Option Nat) :=
  match etchKind w with
  | 0 => (s.etchWrite g w (bits w 0 12 + h.getD 0 * 2 ^ 12)).map (fun s => (s, none))
  | 1 => if h.isSome then .error rPHASES else .ok (s, some (bits w 0 30))
  | 2 => if h.isSome then .error rPHASES else (s.etchControl g w i n).map (fun s => (s, none))
  | _ => .error rPHASES

/-- R338: the first word of a stream is a REGION word of the region's plate count. -/
def State.etchFirst (s : State) (g w : Nat) : Bool :=
  etchKind w == 2 && etchSub w == 0 && bits w 8 18 == 0 && (if bits w 0 7 = 0 then 128 else bits w 0 7) == (s.region g).npl

/-- R338: the last word is END with the number of words before it. -/
def etchLast (w i : Nat) : Bool := etchKind w == 2 && etchSub w == 3 && etchOper w == i % 2 ^ 26

/-- Why a stream ended: rejected with reason, OBJECT and index; or unread. -/
inductive EtchBad where
  | reject (reason obj idx : Nat)
  | unread (f : RdFail)
deriving DecidableEq, Repr

/-- An operation on a stream. -/
abbrev EM (α : Type) := EStateM EtchBad State α

/-- A reader of the words of a stream. -/
abbrev WordAt := Nat → RM Nat

def etchRead (rd : WordAt) (i : Nat) : EM Nat := fun s =>
  match rd i s with
  | .ok w s => .ok w s
  | .error f s => .error (.unread { f with idx := i }) s

def etchTry (idx w : Nat) (x : Except Nat State) : EM Unit :=
  match x with
  | .ok s => set s
  | .error r => throw (.reject r (etchObj w) idx)

/-- R336 to R347: words i on of a stream of n; `fuel` is the number of words left. The legs are written when END comes, and a refusal is END's
(R339). -/
def etchWords (rd : WordAt) (g n : Nat) : Nat → Nat → Option Nat → EM Unit
  | 0, _, _ => pure ()
  | fuel + 1, i, h => do
    let w ← etchRead rd i
    let s ← get
    if i + 1 = n then
      if h.isSome || !etchLast w i then throw (.reject rPHASES (etchObj w) i)
      else match s.writeLegs Tile.proofPeriod g with
        | some s => set s
        | none => throw (.reject rSLOT_SHARED (etchObj w) i)
    else match s.etchWord g n i h w with
      | .ok (s, h) =>
        set s
        etchWords rd g n fuel (i + 1) h
      | .error r => throw (.reject r (etchObj w) i)

/-- R349: an `etch` of region g starts. -/
def State.beginEtch (s : State) (g : Nat) : State :=
  s.mapRegion g (fun r => { r with staged := r.proofSt == .ready, proofSt := .etching })

/-- R338, R349: a stream of n words from its REGION word on: the starting values, then the words. -/
def etchStream (rd : WordAt) (g n : Nat) : EM Unit := do
  let w ← etchRead rd 0
  let s ← get
  if !s.etchFirst g w then throw (.reject rPHASES (etchObj w) 0)
  else
    if !(s.region g).staged ∨ w.testBit 7 then set (s.proofFromActive g)
    modify (fun s => (s.clearSelectors g).mapRegion g (fun r => { r with auto := false }))
    etchWords rd g n (n - 1) 1 none

end Sys2Proof.Machine
end

