-- ==== Sys2Proof/Machine/Install.lean ====
section
/-! DEFINITION. What a pull installs and a mode switch resets (R231, R310, R316, R345, R348, R350): descriptors, slots, sections, groups and
stream contexts, from the plane of the region's tiles and the object it belongs to. -/

namespace Sys2Proof.Machine

/-! ## Descriptors -/

/-- A descriptor as the fields of R342 give it for a rate set, with the pointers of R231. -/
def descOf (pl : Sparse Nat) (d r : Nat) : Desc :=
  let f (k : Nat) : Nat := Sparse.get 0 pl (cfgKey k d 0 0)
  let fr (k : Nat) : Nat := Sparse.get 0 pl (cfgKey k d r 0)
  if f 49 = 0 then {}
  else
    let base : Desc :=
      { kind := f 49, slot := bits (f 50) 0 3, port := bits (f 50) 3 3, tsz := fr 52, cap := fr 53, etype := bits (fr 54) 0 4,
        init := fr 55, wr := fr 55, peerL := bits (f 57) 0 11, peerD := bits (f 57) 11 5 }
    if f 49 = 1 then { base with base := fr 51, eround := bits (fr 54) 4 3, depth := fr 56 }
    else
      { base with wpos := fr 55 % max 1 (fr 53), side := (f 58).testBit 0, sideof := bits (f 58) 1 3, ctype := bits (fr 59) 0 4,
                  cround := bits (fr 59) 4 3 }

/-- R231: the descriptors of a region's tiles for a rate set. -/
def State.installDescs (s : State) (g r : Nat) : State :=
  (s.region g).tiles.foldl (fun s p => (List.range 32).foldl (fun s d => s.setDesc (descKey p d) (descOf (s.tile p).plane d r)) s) s

/-! ## Actors and arcs of a region -/

/-- The copies of an actor: copy number, tile, slot. -/
def State.copies (s : State) (g a : Nat) : List (Nat × Nat × Nat) :=
  (s.region g).tiles.flatMap (fun p =>
    ((List.range 8).filter (fun b => (s.tile p).avalid b && (s.tile p).aindex b == a)).map (fun b => ((s.tile p).acopy b, p, b)))

/-- The actors installed in a region, by index. -/
def State.actors (s : State) (g : Nat) : List Nat :=
  sortNats ((s.region g).tiles.flatMap (fun p => ((List.range 8).filter (s.tile p).avalid).map (s.tile p).aindex))

/-- An arc of a region: the input port, or the output port, of an actor by which it is known. -/
structure ArcRef where
  isIn : Bool
  actor : Nat
  port : Nat
deriving DecidableEq, Repr

/-- The descriptors of a region's tiles. -/
def State.regionDescs (s : State) (g : Nat) : List Nat := (s.region g).tiles.flatMap (fun p => (List.range 32).map (descKey p))

/-- The actor to which a tile's descriptor belongs, times 16, plus its port. -/
def State.portKey (s : State) (k : Nat) : Nat := (s.tile (k / 32)).aindex (s.desc k).slot * 16 + (s.desc k).port

/-- The descriptor that a tile's descriptor names as its peer. -/
def State.namedPeer (s : State) (g k : Nat) : Option Nat := ((s.region g).resolve (s.desc k).peerL).map (fun q => descKey q (s.desc k).peerD)

/-- A descriptor and the one it names name each other, as an output and an input. -/
def State.mutual (s : State) (g k : Nat) : Bool :=
  match s.namedPeer g k with
  | some q => (s.desc q).kind + (s.desc k).kind == 3 && (s.desc q).peerL == s.ltileOf (k / 32) && (s.desc q).peerD == k % 32
  | none => false

/-- The arcs of a region in graph-object order (assumption 12): the joined input ports, by actor and port, then the output ports that no
tile's input answers. -/
def State.arcs (s : State) (g : Nat) : List ArcRef :=
  let ks := s.regionDescs g
  let ins := sortNats ((ks.filter (fun k => (s.desc k).kind = 1)).map s.portKey)
  let outs := sortNats ((ks.filter (fun k => (s.desc k).kind = 2 ∧ s.mutual g k = false)).map s.portKey)
  ins.map (fun x => ⟨true, x / 16, x % 16⟩) ++ outs.map (fun x => ⟨false, x / 16, x % 16⟩)

/-- The descriptors of an arc's known port, with the copy that holds each. -/
def State.arcDescs (s : State) (g : Nat) (a : ArcRef) : List (Nat × Nat) :=
  (s.copies g a.actor).flatMap (fun (c, p, b) => (s.portDescs p (if a.isIn then 1 else 2) b a.port).map (fun k => (c, k)))

/-- R350: the segments of an arc, by number: producer copy × consumer copies + consumer copy, and the input descriptor of each. -/
def State.arcSegs (s : State) (g : Nat) (a : ArcRef) : List (Nat × Nat) :=
  let nc := ((s.copies g a.actor).head?.map (fun (_, p, b) => max 1 ((s.tile p).arep b))).getD 1
  let l := (s.arcDescs g a).filterMap (fun (c, k) =>
    if a.isIn then some ((s.peerCopy k).1 * nc + c, k) else (s.peerKey k).map (fun q => (c, q)))
  (sortNats (l.map Prod.fst)).filterMap (fun i => l.find? (fun e => e.1 = i))

/-! ## Stream contexts (R310, R316) -/

/-- The package streamer beyond an edge of a tile's column (R25). -/
def streamerOf (p edge : Nat) : Nat := p / 1024 * 64 + p % 32 + (if edge = 1 then 32 else 0)

/-- The window descriptors of a SOURCE or SINK context rebuilt for the rate set in force, its walk at element 0. -/
def State.ctxWindows (s : State) (g c : Nat) : State :=
  let x := s.ctxAt c
  if x.role = 2 then s
  else
    match (s.arcs g)[x.arc]? with
    | none => s
    | some a =>
      let w (t : Nat) : Nat := elemWidth t
      let ks := (s.arcDescs g a).map Prod.snd
      let ty := x.shape.ty
      -- bytes of a token in the record's type
      let bytes (k : Nat) : Nat := (s.desc k).size * w ty / max 1 (w (s.desc k).etype)
      let s := (List.range ks.length).foldl (fun s i =>
        let k := (ks[i]?).getD 0
        let e := s.desc k
        let size := bytes k
        let l := s.ltileOf (k / 32)
        if x.role = 0 then
          s.setDesc (ctxKey c i)
            { kind := 2, tsz := size / 4 - 1, cap := e.cap, etype := ty, init := e.init, wr := e.init, wpos := e.init % max 1 e.cap,
              ctype := e.etype, cround := e.eround, peerL := l, peerD := k % 32 }
        else
          let cap := min (2 * x.p) 65535
          let s := s.setDesc (ctxKey c i)
            { kind := 1, base := i * cap * size, tsz := size / 4 - 1, cap := cap, etype := ty, init := e.init, wr := e.init,
              peerL := l, peerD := k % 32 }
          s.setDesc k { e with cap := cap, ctype := ty, cround := 0, wpos := e.init % cap }) s
      let k := ks.headD 0
      -- R316: a token is whole elements, in whole words
      let whole := (s.desc k).size * w ty % max 1 (w (s.desc k).etype) = 0 ∧ bytes k % 4 = 0 ∧ bytes k % max 1 x.shape.esz = 0
      let per := if whole then bytes k / max 1 x.shape.esz * x.p else 0
      s.mapCtx c (fun x => { x with segs := ks.length, per := per, pos := 0, buf := [], fired := 0, quiescent := false, st := .idle })

/-- The other regions' records: what their pulls in progress have set aside is no free room (assumption 100). -/
def State.otherRegions (s : State) (g : Nat) : List Region := (s.regions.filter (fun e => e.1 != g)).map Prod.snd

/-- R310: the contexts of a streamer that a pull of region g may take, in ascending order: unbound or the region's own, and set aside by no
other pull. -/
def State.freeCtxs (s : State) (g st : Nat) : List Nat :=
  ((List.range 16).map (16 * st + ·)).filter (fun c =>
    ((s.ctxAt c).st == .unbound || (s.ctxAt c).region == some g) && (s.otherRegions g).all (fun r => r.ctxPlan.all (fun e => e.2 != c)))

/-- R310: the lowest unbound context of a streamer for region g. -/
def State.freeCtx (s : State) (g st : Nat) : Option Nat := (s.freeCtxs g st).find? (fun c => (s.ctxAt c).st = .unbound)

/-- R310: contexts for a region's declarations, in ascending region context number: of each streamer the lowest that is free. A declaration
that finds none has no entry. -/
def State.planCtxs (s : State) (g : Nat) (ds : List StreamDecl) : List (Nat × Nat) :=
  (List.range ds.length).foldl (fun acc i =>
    match (ds[i]?).bind (fun d => ((s.region g).resolve d.ltile).map (fun p => streamerOf p d.edge)) with
    | none => acc
    | some st =>
      match (s.freeCtxs g st).find? (fun c => acc.all (fun e => e.2 != c)) with
      | some c => acc ++ [(i, c)]
      | none => acc) []

/-- R310: the stream contexts that a region's object needs beyond those free. -/
def State.shortCtx (s : State) (g : Nat) (o : Object) : Nat := o.strs.length - (s.planCtxs g o.strs).length

/-- R310: declaration i bound to context c, with its shape record. -/
def State.bindCtx (s : State) (g i c : Nat) (d : StreamDecl) (x : Shape) : State :=
  let s := s.setCtx c
    { st := .idle, role := d.role, region := some g, num := i, anchor := d.ltile, edge := d.edge, p := d.p, arc := d.arc, shape := x }
  s.mapRegion g (fun r => { r with ctx := r.ctx ++ [(i, c)] })

/-- R311, R326, R335: the contexts of a region released, their translations removed; a fault record stays until a pull or the next fault. -/
def State.unbindCtxs (s : State) (g : Nat) : State :=
  let cs := (s.ctxs.filter (fun e => e.2.region = some g)).map Prod.fst
  let s := cs.foldl (fun s c =>
    let s := (List.range (s.ctxAt c).segs).foldl (fun s i => s.setDesc (ctxKey c i) {}) (s.endCtx c)
    let s := { s with tlb := Sparse.set [] s.tlb (ctxTlbKey c) [],
                      queued := s.queued.filter (fun e => e.1 < 65536 ∨ ctxOf e.1 ≠ c),
                      entered := s.entered.filter (fun e => e.1 < 65536 ∨ ctxOf e.1 ≠ c),
                      flight := s.flight.filter (fun e => e.1 < 65536 ∨ ctxOf e.1 ≠ c) }
    s.setCtx c { record := (s.ctxAt c).record }) s
  s.mapRegion g (fun r => { r with ctx := [] })

/-- R314, R315: the shape records of a region's stream declarations, as its pull read them: in the object. -/
def Object.shapes (o : Object) : List Shape := o.recs

/-- R350: the contexts of a region's object installed where its pull has set them aside; those it gives up have a clear fault record
(R335). -/
def State.installCtxs (s : State) (g : Nat) : State :=
  let o := (s.region g).obj
  let old := (s.ctxs.filter (fun e => e.2.region = some g)).map Prod.fst
  let s := old.foldl (fun s c => s.setCtx c {}) (s.unbindCtxs g)
  let s := (s.region g).ctxPlan.foldl (fun s (i, c) =>
    match o.strs[i]?, o.shapes[i]? with
    | some d, some x => s.bindCtx g i c d x
    | _, _ => s) s
  (s.boundCtxs g).foldl (fun s c => s.ctxWindows g c) s

/-! ## Groups (R261) -/

/-- The groups of a region unbound. -/
def State.unbindGroups (s : State) (g : Nat) : State :=
  { s with groups := s.groups.filter (fun e => (e.2.map Group.region) ≠ some g) }

/-- The group slots that are no free room for region g: those bound to other regions, and those their pulls have set aside. -/
def State.usedGroups (s : State) (g : Nat) : List (Nat × Group) :=
  s.groups.filterMap (fun e => e.2.bind (fun x => if x.region = g then none else some (e.1, x))) ++
    (s.otherRegions g).flatMap Region.groupPlan

/-- The first range of n free member entries among 262,144. -/
def freeMembers (used : List (Nat × Group)) (n : Nat) : Option Nat :=
  let rs := used.map (fun e => (e.2.mbase, e.2.members.length))
  ((0 :: rs.map (fun e => e.1 + e.2)).filter (fun b =>
    decide (b + n ≤ 262144) && rs.all (fun e => decide (e.1 + e.2 ≤ b ∨ b + n ≤ e.1)))).min?

/-- R261: free package slots for groups of region g, in ascending group number, each with a range of free member entries, beside those in
use; none where one finds no slot or range. -/
def groupRoom (used : List (Nat × Group)) (g : Nat) (ds : Sparse GroupDef) : Option (List (Nat × Group)) :=
  ds.foldlM (fun acc (n, d) =>
    if !d.defd then some acc
    else
      let taken := used ++ acc
      match (List.range 1024).find? (fun i => taken.all (fun e => e.1 != i)), freeMembers taken d.members.length with
      | some i, some b => some (acc ++ [(i, ⟨d.skip, g, n, b, d.members⟩)])
      | _, _ => none) []

/-- R261: the room that the groups of a region's proof plane find in the group store. -/
def State.planGroups (s : State) (g : Nat) : Option (List (Nat × Group)) := groupRoom (s.usedGroups g) g (s.region g).groupsProof

/-- R261: the groups of a region's proof plane find slots and member entries. -/
def State.groupsFit (s : State) (g : Nat) : Bool := (s.planGroups g).isSome

/-- R261: a region's groups bound to the package slots found for them; those it had are free. -/
def State.bindGroups (s : State) (g : Nat) (plan : List (Nat × Group)) : State :=
  plan.foldl (fun s e => { s with groups := Sparse.set none s.groups e.1 (some e.2) }) (s.unbindGroups g)

/-- R261, R310: the room for a region's groups and stream contexts set aside for its swap; none where the groups find none. -/
def State.setAside (s : State) (g : Nat) : Option State :=
  (s.planGroups g).map (fun gs =>
    s.mapRegion g (fun r => { r with ctxPlan := s.planCtxs g r.objProof.strs, groupPlan := gs }))

/-! ## Sections (R348) -/

/-- The key of a section's first byte on its tile. -/
def Sect.key (x : Sect) (p : Nat) : Nat := (if x.kind = 0 then imemBase p else tileBase p) + x.toff

/-- A section written. -/
def State.writeSect (s : State) (g : Nat) (x : Sect) : State :=
  match (s.region g).resolve x.ltile with
  | some p => s.wrBlock (x.key p) x.data
  | none => s

/-- R17, R348: the 64-byte lines of instruction memory that n bytes at a key touch: key and length. -/
def linesOf (k n : Nat) : Nat × Nat := (k / 64 * 64, (k + n + 63) / 64 * 64 - k / 64 * 64)

/-- R348: the ranges that the active configuration of tile p claims: key and length. Code claims whole lines (R17). -/
def State.claims (s : State) (g p : Nat) : List (Nat × Nat) :=
  let t := s.tile p
  let r := s.region g
  if (List.range 8).all (fun a => !t.avalid a) then []
  else
    (r.obj.sects.filter (fun x => x.kind = 0 ∧ r.resolve x.ltile = some p)).map (fun x => linesOf (x.key p) x.data.length) ++
    ((List.range 32).filter (fun d => (s.desc (descKey p d)).kind = 1)).map (fun d =>
      let e := s.desc (descKey p d)
      (tileBase p + e.base, e.cap * e.size)) ++
    ((List.range 8).filter t.avalid).map (fun a => (tileBase p + t.privOff a, max (t.privLen a) (t.stateLen a)))

/-- R348: a section overlaps a claimed range. -/
def State.claimed (s : State) (g : Nat) (x : Sect) : Bool :=
  match (s.region g).resolve x.ltile with
  | some p => (s.claims g p).any (fun (k, n) => decide (k < x.key p + x.data.length ∧ x.key p < k + n))
  | none => false

/-- Sections in the order in which they are written: window contents of rate sets other than 0 first, so that those of rate set 0, which the
swap puts in force (R231), stand where windows of two rate sets overlap. -/
def sectOrder (xs : List Sect) : List Sect :=
  xs.filter (fun x => x.kind = 1 ∧ x.rset ≠ 0) ++ xs.filter (fun x => x.kind ≠ 1 ∨ x.rset = 0)

/-- R348: the sections of the proof plane's object written, or deferred. -/
def State.stageSects (s : State) (g : Nat) : State :=
  let xs := sectOrder (s.region g).objProof.sects
  let later := xs.filter (s.claimed g)
  let s := (xs.filter (fun x => !s.claimed g x)).foldl (fun s x => s.writeSect g x) s
  s.mapRegion g (fun r => { r with deferred := later })

/-- R359: the largest count of deferred bytes on a tile. -/
def Region.deferredBytes (r : Region) : Nat :=
  (List.range (16 * r.npl)).foldl (fun m l => max m ((r.deferred.filter (fun x => x.ltile = l)).map (fun x => x.data.length)).sum) 0

/-- R135, R348: what no code section of its region's object covers of a tile's instruction memory is cleared: whole lines, and the words
beside the code in a line that it covers in part. -/
def State.clearCode (s : State) (g p : Nat) : State :=
  let r := s.region g
  let code := r.obj.sects.filter (fun x => x.kind = 0 ∧ r.resolve x.ltile = some p)
  let covered (o n : Nat) : Bool := code.any (fun x => decide (x.toff < o + n ∧ o < x.toff + x.data.length))
  (List.range 1024).foldl (fun s i =>
    if covered (64 * i) 64 then
      (List.range 8).foldl (fun s j =>
        if covered (64 * i + 8 * j) 8 then s else s.zero (imemBase p + 64 * i + 8 * j) 8) s
    else s.zero (imemBase p + 64 * i) 64) s

/-- The initial window contents of a rate set (R231, R348). -/
def State.writeWindows (s : State) (g r : Nat) : State :=
  ((s.region g).obj.sects.filter (fun x => x.kind = 1 ∧ x.rset = r)).foldl (fun s x => s.writeSect g x) s

/-! ## The swap (R350) -/

/-- A slot as the swap leaves it (R34, R48): installed, or unused. -/
def Tile.freshSlot (t : Tile) (a : Nat) : ActorSlot :=
  if t.avalid a then { st := .waiting, firing := t.acopy a } else {}

/-- R350: a tile's fields and pairs become active. -/
def Tile.swap (t : Tile) : Tile :=
  let t := { t with plane := t.proof, proof := [], asel := 0, dsel := 0, rsel := 0, rslot := 0, sidx := 0, schedPos := 0, firing := none }
  { t with slots := Vector.ofFn (fun i => t.freshSlot i.val) }

/-- R350, R351: every pair whose active or proof owner is the region becomes active; the others keep their values. -/
def Tile.swapPairs (t : Tile) (g : Nat) : Tile :=
  let keys := sortNats ((t.pairsProof.filter (fun e => pairOwned e.2 g)).map Prod.fst ++ (t.pairs.filter (fun e => pairOwned e.2 g)).map Prod.fst)
  { t with pairs := keys.foldl (fun m k => Sparse.set 0 m k (Sparse.get 0 t.pairsProof k)) t.pairs }

/-- R200, R350: the fields of a region's proof plane become active, the rest reset: planes, pairs, descriptors, slots, cores, tags, groups,
contexts. -/
def State.installPlane (s : State) (g : Nat) : State :=
  let s := s.mapRegion g (fun r => { r with groups := r.groupsProof, obj := r.objProof, mode := 0, sinkMode := none })
  let s := s.mapTiles (fun t => t.swapPairs g)
  let s := (s.region g).tiles.foldl (fun s p => ((s.setTile p (s.tile p).swap).setMat p {}).setCoreAt p {}) s
  ((s.installDescs g 0).bindGroups g (s.region g).groupPlan).installCtxs g

/-- R350, R364, R428: the swap of region g: the new graph instance starts. -/
def State.swapRegion (s : State) (g : Nat) : State :=
  let later := (s.region g).deferred
  let s := s.installPlane g
  let s := (later.foldl (fun s x => s.writeSect g x) s).writeWindows g 0
  let s := (s.region g).tiles.foldl (fun s p => s.clearCode g p) s
  s.mapRegion g (fun r =>
    { r with proofSt := .none, auto := false, deferred := [], pulls := r.pulls + 1, started := true, undone := true, ended := none,
             halted := false, modeSplit := false, drainMode := 0, drainAt := none, fresh := false,
             startG := if r.fresh then s.gtime else r.startG, ctxPlan := [], groupPlan := [] })

/-! ## Residue and drain (R64, R350, R365) -/

/-- R350: the first segment of a region that holds tokens beyond INIT: arc, segment, tokens. -/
def State.residue (s : State) (g : Nat) : Option (Nat × Nat × Nat) :=
  let as := s.arcs g
  (List.range as.length).findSome? (fun e =>
    match as[e]? with
    | none => none
    | some a => (s.arcSegs g a).findSome? (fun (i, k) =>
        let d := s.desc k
        if d.init < d.count then some (e, i, d.count - d.init) else none))

/-- A descriptor's region, for flits: a tile's or a context's. -/
def State.keyIn (s : State) (g k : Nat) : Bool :=
  if k < 65536 then (s.owner (k / 32)).map Prod.fst == some g else (s.ctxAt (ctxOf k)).region == some g

/-- R362: the tiles that fail the condition of a drain. -/
def State.busyTiles (s : State) (g : Nat) : Nat := ((s.region g).tiles.filter s.tileBusy).length

/-- R365: FLUSH: every input descriptor that holds tokens beyond INIT gives them up, and returns its RD. -/
def State.flush (s : State) (g : Nat) : State :=
  (s.arcs g).foldl (fun s a => (s.arcSegs g a).foldl (fun s (_, k) =>
    let d := s.desc k
    if d.count ≤ d.init then s
    else
      let x := d.count - d.init
      let d := { d with rd := (d.wr + 2 ^ 32 - d.init) % 2 ^ 32, rpos := (d.rpos + x) % max 1 d.cap }
      let s := s.mapRegion g (fun r => { r with discards := r.discards + x })
      (s.setDesc k d).queueFlit k (.ret d.rd)) s) s

/-! ## Mode switch (R64, R231) -/

/-- The rate set is declared: an installed actor of the region has a phase count in it. -/
def State.declared (s : State) (g m : Nat) : Bool :=
  (s.region g).tiles.any (fun p => (List.range 8).any (fun a => (s.tile p).avalid a && (s.tile p).phases a m != 0))

/-- R60, R64: the origin of a slot at a mode switch: the actor's count of logical firings; and the copy's next firing from there. R65 gives the
bypass counts no rule at a mode switch; the model sets them to 0 (DESIGN CHOICE, assumption 81). -/
def ActorSlot.restart (x : ActorSlot) (k0 : Nat) : ActorSlot :=
  { x with st := if x.st = .quiescent then .waiting else x.st, k0 := k0, bypass := 0 }

/-- R316: a stream's firings are a multiple of the context's repetition count in the rate set in force, where its record's elements divide
into whole firings. `q` is that count. -/
def Ctx.lengthOk (x : Ctx) (q : Nat) : Bool :=
  x.role == 2 || (decide (0 < x.per) && decide (x.shape.n % x.per = 0) && decide (x.shape.n / x.per % max 1 q = 0))

/-- R64: the region starts again in rate set m: windows, phase counters, slots, contexts with their staged records. -/
def State.switchMode (s : State) (g m : Nat) : State :=
  let s := s.mapRegion g (fun r => { r with mode := m, sinkMode := none, drainAt := none })
  let s := (s.region g).tiles.foldl (fun s p =>
    let t := s.tile p
    s.setTile p { t with slots := Vector.ofFn (fun (i : Fin 8) =>
      let x := t.slot i.val
      x.restart (x.firing - t.acopy i.val)) }) s
  let s := (s.installDescs g m).writeWindows g m
  (s.boundCtxs g).foldl (fun s c =>
    (s.mapCtx c (fun x => { x with shape := x.staged.getD x.shape, staged := none })).ctxWindows g c) s

end Sys2Proof.Machine
end

