-- ==== Sys2Proof/Machine/LoadChecks.lean ====
section
/-! DEFINITION. The checks of a configuration (R49 to R53, R96, R228, R232, R262, R316, R337), made on a state in which it is installed. -/

namespace Sys2Proof.Machine

/-- A rejection of R53, its rate set apart. -/
structure Reject where
  reason : Nat
  obj : Nat := 0
  detail : Nat := 0
deriving DecidableEq, Repr

/-! ## The finished plane (R96, R228, R337) -/

/-- No two ranges of a list overlap. -/
def disjoint : List (Nat × Nat) → Bool
  | [] => true
  | a :: l => l.all (fun b => !rangesMeet a b) && disjoint l

/-- The windows of a tile, and its state areas: the bytes they occupy. -/
def State.windowRanges (s : State) (p : Nat) : List (Nat × Nat) :=
  ((List.range 32).filter (fun d => (s.desc (descKey p d)).kind = 1)).map (fun d =>
    let e := s.desc (descKey p d)
    (e.base, e.cap * e.size))
def Tile.stateRanges (t : Tile) : List (Nat × Nat) :=
  ((List.range 8).filter (fun a => t.avalid a && t.stateLen a != 0)).map (fun a => (t.privOff a, t.stateLen a))

/-- R228: no window of a tile overlaps another, or a state area. -/
def State.windowsApart (s : State) (p : Nat) : Bool :=
  let ws := s.windowRanges p
  disjoint ws && ws.all (fun w => (s.tile p).stateRanges.all (fun x => !rangesMeet w x))

/-- R96, R342: the input of a tile that an output descriptor feeds; none where it feeds a stream context. -/
def State.consumer (s : State) (k : Nat) : Option Desc :=
  match s.peerKey k with
  | some q => if q < 65536 ∧ (s.desc q).kind = 1 then some (s.desc q) else none
  | none => none

/-- R228, R342: the fields that a descriptor of a kind does not have are zero in rate set r: DSIDE and DCTYPE of an input, DBASE and the
rounding code of DTYPE of an output. -/
def Tile.reservedOk (t : Tile) (d r : Nat) : Bool :=
  if t.cfg 49 d 0 0 = 1 then t.cfg 58 d 0 0 == 0 && t.cfg 59 d r 0 == 0 else t.cfg 51 d r 0 == 0 && bits (t.cfg 54 d r 0) 4 3 == 0

/-- R96, R228, R337: a descriptor is as the tables require in rate set r, its INIT apart; `g` is its region. -/
def State.descOk (s : State) (g r k : Nat) : Bool :=
  let d := s.desc k
  let t := s.tile (k / 32)
  let placed : Bool := t.avalid d.slot && t.reservedOk (k % 32) r && decide (1 ≤ d.cap) && decide (d.peerL < 16 * (s.region g).npl) &&
    decide (d.etype < 14) && decide (d.size * 8 % elemWidth d.etype = 0)
  if d.kind = 0 then true
  else if d.kind = 1 then
    placed && decide (d.base % 64 = 0) && decide (d.base + d.cap * d.size ≤ 0x7C000) && decide (d.eround < 5)
  else
    placed && decide (d.ctype < 14) && decide (d.cround < 5) && (d.etype == d.ctype || (d.etype != 13 && d.ctype != 13)) &&
      (match s.consumer k with
       | none => true
       | some c =>
         d.ctype == c.etype && d.cround == c.eround && d.cap == c.cap && d.init == c.init &&
           decide (d.size * 8 / elemWidth d.etype = c.size * 8 / elemWidth c.etype))

/-- R33, R228, R337: an installed slot's fields are within their ranges. -/
def State.slotOk (s : State) (r p a : Nat) : Bool :=
  let t := s.tile p
  !t.avalid a || (decide (t.phases a r ≤ 16) && decide (t.privOff a + t.privLen a ≤ 0x7C000) && decide (t.privOff a + t.stateLen a ≤ 0x7C000))

/-- R337: a tile's RPHASE lies below its period. -/
def Tile.phaseOk (t : Tile) : Bool := t.cfg 83 0 0 0 == 0 || decide (t.cfg 83 0 0 0 < t.cfg 82 0 0 0)

/-! ## Segments (R232) -/

/-- R36, R232: the copies at the far end with which a copy exchanges tokens on a port: the deal of a whole period of its firings. -/
def State.exchanges (s : State) (r p kind a port : Nat) : List Nat :=
  match s.portDescs p kind a port with
  | [] => []
  | k :: _ =>
    let t := s.tile p
    let far := s.farEnd k
    let own := t.counts a r (if kind = 1 then port else port + 8)
    let n := max 1 (t.arep a)
    if far.copies ≤ 1 ∨ far.counts.sum = 0 then [(s.peerCopy k).1]
    else
      sortNats ((List.range (own.length * far.counts.sum * far.copies)).flatMap (fun i =>
        let f := t.acopy a + n * i
        dealTokens far (kind == 1) (if kind = 1 then s.arcInit p a port else far.init)
          (tokensFrom (tokensBefore own f) ((own[f % max 1 own.length]?).getD 0))))

/-- R232: a slot's ports have a descriptor for each copy with which they exchange tokens. -/
def State.segmentsMet (s : State) (r p a : Nat) : Bool :=
  (List.range 16).all (fun w =>
    let kind := if w < 8 then 1 else 2
    let cs := (s.segments p kind a (w % 8)).map Prod.fst
    (s.exchanges r p kind a (w % 8)).all cs.contains)

/-- R228: a descriptor serves a segment in rate set r that no earlier descriptor of its port serves. -/
def State.descNeeded (s : State) (r k : Nat) : Bool :=
  let d := s.desc k
  let p := k / 32
  let c := (s.peerCopy k).1
  (s.exchanges r p d.kind d.slot d.port).contains c &&
    (s.portDescs p d.kind d.slot d.port).all (fun j => decide (k ≤ j) || (s.peerCopy j).1 != c)

/-- The arc of a descriptor, by number. -/
def State.arcOf (s : State) (g k : Nat) : Nat :=
  let as := s.arcs g
  ((List.range as.length).find? (fun i =>
    match as[i]? with
    | some a => (s.arcDescs g a).any (fun e => e.2 = k || s.peerKey e.2 == some k)
    | none => false)).getD 0

/-- R96, R316: the tokens that a SOURCE or SINK context exchanges with descriptor k: as many elements of the record's TYPE as of the
descriptor's, in whole words, and no conversion from or to e8m0. -/
def State.ctxTokenOk (s : State) (c k : Nat) : Bool :=
  let d := s.desc k
  let ty := (s.ctxAt c).shape.ty
  let bits_ := d.size * 8 / max 1 (elemWidth d.etype) * elemWidth ty
  decide (d.size * 8 % max 1 (elemWidth d.etype) = 0 ∧ bits_ % 32 = 0) && (d.etype == ty || (d.etype != 13 && ty != 13))

/-- The arc that a SOURCE or SINK context joins, where its tokens break R96. -/
def State.ctxFault (s : State) (g c : Nat) : Option Reject :=
  let x := s.ctxAt c
  match (s.arcs g)[x.arc]? with
  | none => none
  | some a =>
    if x.role = 2 ∨ (s.arcDescs g a).all (fun e => s.ctxTokenOk c e.2) then none else some { reason := rPHASES, obj := x.arc }

/-- R53, R228, R337: the checks of the finished plane in rate set r of a region installed for it: the first that fails, with the arc, actor
or tile it names. A capacity below the initial tokens is WINDOW_SHALLOW, the rest PHASES. -/
def State.planeReject (s : State) (g r : Nat) : Option Reject :=
  let tiles := (s.region g).tiles
  let keys := tiles.flatMap (fun p => ((List.range 32).map (descKey p)).filter (fun k => (s.desc k).kind != 0))
  let slots := tiles.flatMap (fun p => ((List.range 8).filter (s.tile p).avalid).map (fun b => (p, b)))
  let arcFault (k : Nat) : Option Reject :=
    if !s.descOk g r k then some { reason := rPHASES, obj := s.arcOf g k }
    else if (s.desc k).cap < (s.desc k).init then some { reason := rWINDOW_SHALLOW, obj := s.arcOf g k, detail := (s.desc k).init }
    else none
  let slotFault (e : Nat × Nat) : Option Reject :=
    if s.slotOk r e.1 e.2 && s.segmentsMet r e.1 e.2 then none else some { reason := rPHASES, obj := (s.tile e.1).aindex e.2 }
  let tileFault (p : Nat) : Option Reject :=
    if (s.tile p).phaseOk && s.windowsApart p then none else some { reason := rPHASES, obj := s.ltileOf p }
  (((keys.findSome? arcFault).or ((s.boundCtxs g).findSome? (s.ctxFault g))).or (slots.findSome? slotFault)).or ((tiles.findSome? tileFault).or
    (((s.region g).groups.find? (fun e => e.2.defd && e.2.members.length != e.2.count)).map (fun _ => { reason := rPHASES })))

/-- The state in which a region's proof plane is installed in rate set r, for checks: the region has every group slot and stream context. -/
def State.trial (s : State) (g r : Nat) : State :=
  let alone : State := { s with ctxs := [], groups := [], regions := s.regions.filter (fun e => e.1 = g) }
  let s := ((alone.setAside g).getD alone).installPlane g
  if r = 0 then s
  else
    let s := (s.mapRegion g (fun x => { x with mode := r })).installDescs g r
    (s.boundCtxs g).foldl (fun s c => s.ctxWindows g c) s

/-- The declared rate sets of a region's proof plane: rate set 0, and those with a phase count. -/
def State.rateSets (s : State) (g : Nat) : List Nat :=
  let t := s.installPlane g
  (List.range 8).filter (fun m => m = 0 || t.declared g m)

/-! ## Ports and replication (R33, R232, R262) -/

/-- The far end of an arc from a descriptor of its known end: actor (stream contexts from 65,536) and port. -/
def State.farPort (s : State) (k : Nat) : Option Nat :=
  (s.peerKey k).map (fun q => if q < 65536 then s.portKey q else 16 * (65536 + (s.ctxAt (ctxOf q)).num))

/-- R31: the arcs that a tile's descriptor ends: those of the stream contexts joined to it, and the one of a descriptor that names it back. -/
def State.joins (s : State) (g k : Nat) : Nat :=
  (s.ctxs.map (fun (c, x) =>
    if x.region = some g then
      ((List.range x.segs).filter (fun i => let e := s.desc (ctxKey c i); e.peerL == s.ltileOf (k / 32) && e.peerD == k % 32)).length
    else 0)).sum + (if s.mutual g k then 1 else 0)

/-- R35: the declared counts of a port in the phases that the copy of slot b executes. -/
def Tile.copyCounts (t : Tile) (b r w : Nat) : List Nat :=
  let n := t.phases b r
  (List.range n).map (fun i => t.rate b r w ((t.acopy b + max 1 (t.arep b) * i) % n))

/-- R31, R33, R232, R262: ports of slot b on tile p joined to two arcs, or with counts in a phase of the copy and no arc: a copy that exchanges
no token of a joined port has no segment of its arc, and needs no descriptor. A descriptor whose peer names another, so that the peer is fed by
two arcs or by none, joins its port to no arc of its own. -/
def State.portBad (s : State) (g r p b : Nat) : Bool :=
  let t := s.tile p
  (List.range 16).any (fun w =>
    let ks := s.portDescs p (if w < 8 then 1 else 2) b (w % 8)
    let fars := ks.filterMap s.farPort
    (ks.isEmpty && (t.copyCounts b r w).any (fun n => n != 0)) || fars.any (fun x => some x != fars.head?) || ks.any (fun k => s.joins g k != 1))

/-- R35: the copies of an actor lie on consecutive logical tiles, copy c of 0 to n − 1 on the tile AFIRST + c. -/
def State.copiesOk (s : State) (g a : Nat) : Bool :=
  let cs := s.copies g a
  match cs.head? with
  | none => false
  | some (_, p, b) =>
    let n := (s.tile p).arep b
    decide (1 ≤ n ∧ n ≤ 64) && cs.length == n && cs.all (fun (c, q, b') =>
      decide (c < n) && (s.tile q).arep b' == n && (s.tile q).afirst b' == (s.tile p).afirst b && s.ltileOf q == (s.tile q).afirst b' + c) &&
      (sortNats (cs.map (fun e => e.1))).length == n

/-! ## The repetition vector (R49, R316) -/

/-- An arc's balance: producer and its tokens for a cycle of phases, consumer and its tokens. -/
structure Balance where
  prod : Nat
  x : Nat
  cons : Nat
  y : Nat
deriving DecidableEq, Repr

/-- The tokens of a port of an actor over a cycle of phases. -/
def State.portTotal (s : State) (g a r w : Nat) : Nat :=
  match (s.copies g a).head? with
  | some (_, p, b) => ((s.tile p).counts b r w).sum
  | none => 0

/-- The balances of a region's arcs; nodes are actors by index, and stream contexts from 65,536. -/
def State.balances (s : State) (g r : Nat) : List Balance :=
  (s.arcs g).map (fun a =>
    let own := s.portTotal g a.actor r (a.port + if a.isIn then 0 else 8)
    let far := (((s.arcDescs g a).map Prod.snd).findSome? s.farPort).getD (16 * 131072)
    let fn := far / 16
    let ft := if 65536 ≤ fn then
        ((s.boundCtxs g).findSome? (fun c => if (s.ctxAt c).num + 65536 = fn then some (s.ctxAt c).p else none)).getD 0
      else s.portTotal g fn r (far % 16 + if a.isIn then 8 else 0)
    if a.isIn then { prod := fn, x := ft, cons := a.actor, y := own } else { prod := a.actor, x := own, cons := fn, y := ft })

/-- A rate as a fraction in least terms. -/
def reduceFrac (n d : Nat) : Nat × Nat := (n / max 1 (Nat.gcd n d), d / max 1 (Nat.gcd n d))

/-- Rates spread once over the arcs: a node whose partner has a rate takes its own; the number of the first arc they break, if any. -/
def spreadRates (bs : List Balance) (m : Sparse (Nat × Nat)) : Except Nat (Sparse (Nat × Nat)) :=
  (List.range bs.length).foldlM (fun m i =>
    match bs[i]? with
    | none => .ok m
    | some b =>
      if b.x = 0 ∧ b.y = 0 then .ok m
      else if b.x = 0 ∨ b.y = 0 then .error i
      else
        let p := Sparse.get (0, 0) m b.prod
        let c := Sparse.get (0, 0) m b.cons
        if p.2 ≠ 0 ∧ c.2 ≠ 0 then (if p.1 * b.x * c.2 = c.1 * b.y * p.2 then .ok m else .error i)
        else if p.2 ≠ 0 then .ok (Sparse.set (0, 0) m b.cons (reduceFrac (p.1 * b.x) (p.2 * b.y)))
        else if c.2 ≠ 0 then .ok (Sparse.set (0, 0) m b.prod (reduceFrac (c.1 * b.y) (c.2 * b.x)))
        else .ok m) m

/-- Rates spread to every node of a connected part. -/
def spreadAll (bs : List Balance) : Nat → Sparse (Nat × Nat) → Except Nat (Sparse (Nat × Nat))
  | 0, m => .ok m
  | n + 1, m => do
    let m ← spreadRates bs m
    spreadAll bs n m

/-- The least whole numbers in proportion to a part's rates. -/
def wholeRates (m : Sparse (Nat × Nat)) : Sparse Nat :=
  let l := m.foldl (fun l e => Nat.lcm l e.2.2) 1
  let vs := m.map (fun e => (e.1, e.2.1 * l / max 1 e.2.2))
  let q := vs.foldl (fun x e => Nat.gcd x e.2) 0
  vs.map (fun e => (e.1, e.2 / max 1 q))

/-- R49: the numbers of phase cycles per period: part by part; or the number of the arc that has none. -/
def solveRates (bs : List Balance) : List Nat → Sparse Nat → Except Nat (Sparse Nat)
  | [], done => .ok done
  | a :: as, done =>
    if Sparse.get 0 done a ≠ 0 then solveRates bs as done
    else do
      let m ← spreadAll bs (bs.length + 1) [(a, (1, 1))]
      solveRates bs as ((wholeRates m).foldl (fun d e => Sparse.set 0 d e.1 e.2) done)

/-- R49: the repetition counts of a region in rate set r: of actors, and of stream contexts from 65,536. -/
def State.repetitions (s : State) (g r : Nat) : Except Nat (Sparse Nat) :=
  let ctxs := (s.boundCtxs g).filter (fun c => (s.ctxAt c).role ≠ 2)
  (solveRates (s.balances g r) (s.actors g ++ ctxs.map (fun c => 65536 + (s.ctxAt c).num)) []).map (fun m =>
    m.map (fun e => (e.1, if 65536 ≤ e.1 then e.2 else
      e.2 * (((s.copies g e.1).head?.map (fun (_, p, b) => (s.tile p).phases b r)).getD 1))))

/-! ## Schedules (R50) -/

/-- R50: a static-order tile's table; q are the repetition counts. A tile without installed slots passes with no entry. -/
def State.scheduleOk (s : State) (q : Sparse Nat) (p : Nat) : Bool :=
  let t := s.tile p
  let used := (List.range 8).filter t.avalid
  let es := (List.range t.schedLen).map t.schedEntry
  let share (a : Nat) : Nat := Sparse.get 0 q (t.aindex a) / max 1 (t.arep a)
  let e (a : Nat) : Nat := (es.filter (· = a)).length
  t.readyFirst ||
    (es.all t.avalid && used.all (fun a => decide (0 < e a) && decide (share a % max 1 (e a) = 0)) &&
      used.all (fun a => share a / max 1 (e a) == (used.head?.map (fun b => share b / max 1 (e b))).getD 0))

/-! ## The period simulation (R51) -/

/-- What stands in a simulation: a slot of a tile, or a stream context. -/
inductive SimUnit where
  | slot (p a : Nat)
  | ctx (c : Nat)
deriving DecidableEq, Repr

/-- Firings of a unit in the simulated period, and the number it makes. -/
def State.simDone (s : State) (u : SimUnit) : Nat :=
  match u with
  | .slot p a => let t := s.tile p; ((t.slot a).firing - t.acopy a) / max 1 (t.arep a)
  | .ctx c => (s.ctxAt c).fired

def State.simGoal (s : State) (q : Sparse Nat) (u : SimUnit) : Nat :=
  match u with
  | .slot p a => let t := s.tile p; Sparse.get 0 q (t.aindex a) / max 1 (t.arep a)
  | .ctx c => Sparse.get 0 q (65536 + (s.ctxAt c).num)

/-- The tokens a unit's next firing takes from each input descriptor and gives to each output descriptor. -/
def State.simTakes (s : State) (u : SimUnit) : List (Nat × Nat) :=
  match u with
  | .slot p a =>
    let t := s.tile p
    let r := s.modeOf p
    (List.range 8).flatMap (fun j => s.shares p 1 a j (t.slot a).firing (t.rate a r j (t.phase a r)))
  | .ctx c => if (s.ctxAt c).role = 1 then (s.ctxShares c).map (fun e => (ctxKey c e.1, e.2)) else []

def State.simGives (s : State) (u : SimUnit) : List (Nat × Nat) :=
  match u with
  | .slot p a =>
    let t := s.tile p
    let r := s.modeOf p
    (List.range 8).flatMap (fun j => s.shares p 2 a j (t.slot a).firing (t.rate a r (j + 8) (t.phase a r)))
  | .ctx c => if (s.ctxAt c).role = 0 then (s.ctxShares c).map (fun e => (ctxKey c e.1, e.2)) else []

/-- R51: the input descriptors that lack tokens; the outputs that lack space, with the tokens they are to take. -/
def State.simShort (s : State) (u : SimUnit) : List Nat := ((s.simTakes u).filter (fun e => decide ((s.desc e.1).count < e.2))).map Prod.fst
def State.simFull (s : State) (u : SimUnit) : List (Nat × Nat) := (s.simGives u).filter (fun e => decide ((s.desc e.1).space < e.2))
def State.simReady (s : State) (u : SimUnit) : Bool := (s.simShort u).isEmpty && (s.simFull u).isEmpty

/-- The units examined on a tile in a round: the entry at the schedule position, once finished slots are passed, or every slot not done. -/
def State.simSkip (s : State) (q : Sparse Nat) (p : Nat) : Nat → Nat → Nat
  | 0, i => i
  | n + 1, i =>
    let u := SimUnit.slot p ((s.tile p).schedEntry i)
    if s.simDone u = s.simGoal q u then s.simSkip q p n ((i + 1) % max 1 (s.tile p).schedLen) else i

def State.simExamined (s : State) (q : Sparse Nat) (p : Nat) : List SimUnit :=
  let t := s.tile p
  let left := ((List.range 8).filter t.avalid).map (SimUnit.slot p) |>.filter (fun u => decide (s.simDone u < s.simGoal q u))
  if left.isEmpty then []
  else if t.readyFirst then left
  else [SimUnit.slot p (t.schedEntry (s.simSkip q p t.schedLen t.schedPos))]

/-- A unit's firing applied: tokens taken, returned and given at once. -/
def State.simFire (s : State) (q : Sparse Nat) (u : SimUnit) (takes gives : List (Nat × Nat)) : State :=
  let s := takes.foldl (fun s (k, n) =>
    let d := s.desc k
    let s := s.setDesc k { d with rd := (d.rd + n) % 2 ^ 32 }
    match s.peerKey k with
    | some o => s.setDesc o { s.desc o with mrd := (d.rd + n) % 2 ^ 32 }
    | none => s) s
  let s := gives.foldl (fun s (k, n) =>
    let d := s.desc k
    let s := s.setDesc k { d with wr := (d.wr + n) % 2 ^ 32 }
    match s.peerKey k with
    | some i => s.setDesc i { s.desc i with wr := (d.wr + n) % 2 ^ 32 }
    | none => s) s
  match u with
  | .slot p a =>
    let t := s.tile p
    let i := s.simSkip q p t.schedLen t.schedPos
    let t := t.setSlot a { t.slot a with firing := (t.slot a).firing + max 1 (t.arep a) }
    s.setTile p (if t.readyFirst then t else { t with schedPos := (i + 1) % max 1 t.schedLen })
  | .ctx c => s.mapCtx c (fun x => { x with fired := x.fired + 1 })

/-- The least of a list of numbers with its companion. -/
def leastPair : List (Nat × Nat) → Option (Nat × Nat)
  | [] => none
  | x :: xs => match leastPair xs with
    | some y => some (if x.1 ≤ y.1 then x else y)
    | none => some x

/-- R51: what a stalled simulation is rejected with. An occupancy of more than 16 bits does not fit DETAIL, which then holds 65,535 (DESIGN
CHOICE, assumption 82). -/
def State.simStall (s : State) (g : Nat) (us : List SimUnit) : Reject :=
  let full := us.flatMap (fun u => if (s.simShort u).isEmpty then (s.simFull u).map (fun e =>
    (s.arcOf g e.1, (s.desc e.1).used + e.2)) else [])
  match leastPair full with
  | some (a, n) => { reason := rWINDOW_SHALLOW, obj := a, detail := min n 65535 }
  | none =>
    match leastPair (us.flatMap (fun u => (s.simShort u).map (fun k => (s.arcOf g k, 0)))) with
    | some (a, _) => { reason := rINPUT_STARVED, obj := a }
    | none => { reason := rINPUT_STARVED }

/-- The input descriptors of a region's segments. -/
def State.segKeys (s : State) (g : Nat) : List Nat := (s.arcs g).flatMap (fun a => (s.arcSegs g a).map Prod.snd)

/-- R51: the depths of a round: of each segment, by its input descriptor, the tokens it holds at the round's start with those reserved on it in
the round. A depth is kept with 1 added to it, so that a depth of 0 stands in the table too. -/
def State.simDepths (s : State) (segs : List Nat) (gives : List (Nat × Nat)) (depth : Sparse Nat) : Sparse Nat :=
  segs.foldl (fun m i =>
    let n := ((gives.filter (fun e => s.peerKey e.1 == some i)).map Prod.snd).sum
    Sparse.set 0 m i (max (Sparse.get 0 m i) ((s.desc i).count + n + 1))) depth

/-- R51: the rounds of the simulation of a region with segments `segs`; each round that goes on fires at least one unit, so `fuel` bounds the
rounds. A completed simulation answers the computed depths. -/
def simRounds (g : Nat) (segs : List Nat) (q : Sparse Nat) : Nat → Nat → Sparse Nat → State → Except Reject (Sparse Nat)
  | 0, _, _, _ => .error { reason := rPERIOD_LONG }
  | fuel + 1, fires, depth, s =>
    let tiles := (s.region g).tiles
    let ctxs := ((s.boundCtxs g).filter (fun c => (s.ctxAt c).role ≠ 2)).map SimUnit.ctx |>.filter (fun u => decide (s.simDone u < s.simGoal q u))
    let groups := tiles.map (s.simExamined q) ++ ctxs.map (fun u => [u])
    if groups.all List.isEmpty then
      match segs.find? (fun k => (s.desc k).count != (s.desc k).init) with
      | some k => .error { reason := rINCONSISTENT, obj := s.arcOf g k }
      | none => .ok depth
    else
      let chosen := groups.filterMap (fun us => us.find? s.simReady)
      if chosen.isEmpty then .error (s.simStall g groups.flatten)
      else
        let moves := chosen.map (fun u => (u, s.simTakes u, s.simGives u))
        let s' := moves.foldl (fun s (u, t, v) => s.simFire q u t v) s
        let fires := fires + chosen.length
        if 16777216 < fires then .error { reason := rPERIOD_LONG }
        else simRounds g segs q fuel fires (s.simDepths segs (moves.flatMap (fun (_, _, v) => v)) depth) s'

/-! ## Circuits (R52) -/

/-- A way that an arc of a region needs: the arc's number, the descriptor that sends, and the ends of its circuit. -/
structure Way where
  arc : Nat
  key : Nat
  src : CircuitEnd
  dst : CircuitEnd
deriving DecidableEq, Repr

/-- The ways that the arcs of a region need: of each segment, its forward and its reverse circuit. -/
def State.ways (s : State) (g : Nat) : List Way :=
  let as := s.arcs g
  let segs := (List.range as.length).flatMap (fun i =>
    match as[i]? with
    | none => []
    | some a => (s.arcSegs g a).filterMap (fun (_, k) => (s.peerKey k).map (fun o => (i, o, k))))
  segs.flatMap (fun (i, o, k) => if endOf o = endOf k then [] else [⟨i, o, endOf o, endOf k⟩, ⟨i, k, endOf k, endOf o⟩])

/-- The slot-table entries that the circuits of a way cross (R21). -/
def State.crossings (s : State) (w : Way) : List (Nat × Nat) := (s.ownRoutes w.key w.src w.dst).flatMap Route.crossed

/-- R52: the first way whose circuits cross an entry that those of another arc cross too. -/
def State.clash (s : State) (g : Nat) : Option Way :=
  let cs := (s.ways g).map (fun w => (w, s.crossings w))
  (cs.find? (fun c => cs.any (fun d => d.1.arc != c.1.arc && c.2.any d.2.contains))).map Prod.fst

/-- R52: a router of the region forks: in some slot one input of the region's drives two outputs, so that two arcs claim the pairs before. -/
def State.forks (s : State) (g p : Nat) : Bool :=
  let ps := (s.tile p).pairs.filter (fun e => pairOwned e.2 g)
  ps.any (fun e => ps.any (fun e' => e.1 / 8 == e'.1 / 8 && e.1 != e'.1 && e.2 % 8 == e'.2 % 8))

/-- R52: the circuits of a region's arcs: SLOT_SHARED where a link-slot pair serves two arcs, SLOT_MISSING where an arc has none. Arcs between
the same two ends share the circuits there, and fewer circuits than such arcs leave some pair to two of them (assumption 53). -/
def State.slotReject (s : State) (g : Nat) : Option Reject :=
  let ws := s.ways g
  let short (w : Way) : Bool :=
    let n := (s.circuits g w.src w.dst).length
    n != 0 && decide (n < (ws.filter (fun v => v.src == w.src && v.dst == w.dst)).length)
  let missing (w : Way) : Bool := (s.circuits g w.src w.dst).isEmpty
  let fork := (s.region g).tiles.find? (s.forks g)
  let leaving (p : Nat) : Option Way := ws.find? (fun w => w.src.router.1 == p)
  match fork, (ws.find? short).or (s.clash g), ws.find? missing with
  | some p, _, _ => some { reason := rSLOT_SHARED, obj := ((leaving p).map Way.arc).getD 0 }
  | none, some w, _ => some { reason := rSLOT_SHARED, obj := w.arc }
  | none, none, some w => some { reason := rSLOT_MISSING, obj := w.arc }
  | none, none, none => none

/-! ## All checks of a rate set -/

/-- A check that rejects, or goes on. -/
def rejectIf (x : Option Reject) : Except Reject Unit :=
  match x with
  | some r => .error r
  | none => .ok ()

/-- R49 to R53, R316 in one rate set of a region installed for it: the first rejection, or the computed depths of its segments. -/
def State.checkSet (s : State) (g r : Nat) : Except Reject (Sparse Nat) := do
  let as := s.actors g
  let tiles := (s.region g).tiles
  let slots := tiles.flatMap (fun p => ((List.range 8).filter (s.tile p).avalid).map (fun b => (p, b)))
  let atSlot (reason : Nat) (f : Nat × Nat → Bool) : Option Reject :=
    (slots.find? f).map (fun (p, b) => { reason := reason, obj := (s.tile p).aindex b })
  let rep (a : Nat) : Nat := ((s.copies g a).head?.map (fun (_, p, b) => (s.tile p).arep b)).getD 1
  rejectIf (s.planeReject g r)
  rejectIf (atSlot rPHASES (fun (p, b) => (s.tile p).phases b r == 0))
  rejectIf (atSlot rPORT_OPEN (fun (p, b) => s.portBad g r p b))
  rejectIf (((s.region g).groups.find? (fun e => e.2.defd && (sortNats e.2.members).length != e.2.members.length)).map
    (fun e => { reason := rPORT_OPEN, obj := e.1 }))
  rejectIf ((as.find? (fun a => !s.copiesOk g a)).map (fun a => { reason := rREPLICATION, obj := a }))
  let q ← (s.repetitions g r).mapError (fun i => { reason := rINCONSISTENT, obj := i })
  rejectIf ((as.find? (fun a => Sparse.get 0 q a % max 1 (rep a) != 0)).map (fun a => { reason := rREPLICATION, obj := a }))
  rejectIf (((s.boundCtxs g).find? (fun c => !(s.ctxAt c).lengthOk (Sparse.get 0 q (65536 + (s.ctxAt c).num)))).map
    (fun c => { reason := rINCONSISTENT, obj := (s.ctxAt c).num }))
  rejectIf ((tiles.find? (fun p => !s.scheduleOk q p)).map (fun p => { reason := rSCHEDULE, obj := s.ltileOf p }))
  let depth ← simRounds g (s.segKeys g) q 16777218 0 [] s
  rejectIf (s.slotReject g)
  pure depth

/-- R49 to R53: every declared rate set of a region's proof plane in turn: the status of the first rejection, or the computed depths, by rate
set. A descriptor that no segment of any rate set needs is surplus (R228). -/
def State.loadStatus (s : State) (g : Nat) : Except Nat (List (Nat × Sparse Nat)) := do
  let rs := s.rateSets g
  let ds ← rs.mapM (fun r => ((s.trial g r).checkSet g r).map (fun d => (r, d))
    |>.mapError (fun x => stReject x.reason r x.obj x.detail))
  let t := s.trial g 0
  let spare := (s.regionDescs g).find? (fun k => (t.desc k).kind != 0 && !rs.any (fun r => (s.trial g r).descNeeded r k))
  match spare with
  | some k => .error (stReject rPHASES 0 (t.arcOf g k) 0)
  | none => .ok ds

/-- R228, R337: the finished proof plane of a region is as the tables require in every declared rate set, with no surplus descriptor. -/
def State.proofOk (s : State) (g : Nat) : Bool :=
  let rs := s.rateSets g
  rs.all (fun r => ((s.trial g r).planeReject g r).isNone) &&
    (s.regionDescs g).all (fun k => ((s.trial g 0).desc k).kind == 0 || rs.any (fun r => (s.trial g r).descNeeded r k))

/-- The computed depths of a region's segments that end at its tiles, by logical tile and descriptor (32 × tile + descriptor). -/
def State.depthsOf (s : State) (m : Sparse Nat) : List (Nat × Nat) :=
  (m.filter (fun e => e.1 < 65536)).map (fun e => (32 * s.ltileOf (e.1 / 32) + e.1 % 32, e.2 - 1))

/-- R51, R229: the computed depths of a load, by rate set, written into DEPTH of the region's input descriptors. A capacity bounds them. -/
def State.writeDepths (s : State) (g : Nat) (ds : List (Nat × List (Nat × Nat))) : State :=
  ds.foldl (fun s (r, m) => m.foldl (fun s (k, n) =>
    match (s.region g).resolve (k / 32) with
    | some p => s.setTile p ((s.tile p).setProof (cfgKey 56 (k % 32) r 0) n)
    | none => s) s) s

end Sys2Proof.Machine
end

