-- ==== Sys2Proof/Machine/Plates.lean ====
section
/-! DEFINITION. Plates and regions (R102, R112, R353 to R358): the placement record, the allocator, the move and the end of a region. -/

namespace Sys2Proof.Machine

/-! ## The placement record (R354, R355) -/

structure Placing where
  pw : Nat
  ph : Nat
  edge : Nat
  tcount : Nat
  taddr : Nat
deriving DecidableEq, Repr

/-- R355: the 16 bytes of a record; none when a field lies outside its values. -/
def placeOf (x : Nat) : Option Placing :=
  let p : Placing := { pw := bits x 0 8, ph := bits x 8 8, edge := bits x 16 8, tcount := bits x 32 32, taddr := bits x 64 64 }
  if 1 ≤ p.pw ∧ p.pw ≤ 16 ∧ 1 ≤ p.ph ∧ p.ph ≤ 8 ∧ p.edge < 32 ∧ bits x 24 8 = 0 ∧ p.tcount ≤ 4096 ∧ p.taddr % 4 = 0 ∧
      (p.tcount = 0 → p.taddr = 0) then some p else none

def Placing.npl (p : Placing) : Nat := p.pw * p.ph

/-- A transit leg of R355: boundary tile, port, slot, inbound. -/
structure Leg where
  ltile : Nat
  port : Nat
  slot : Nat
  inbound : Bool
deriving DecidableEq, Repr

def legOf (x : Nat) : Leg := { ltile := bits x 0 11, port := bits x 11 2, slot := bits x 13 8, inbound := x.testBit 21 }

/-- R355: the words of a leg list are as it requires. -/
def legsOk (npl : Nat) (ws : List Nat) : Bool := ws.all (fun w => decide (w < 2 ^ 22) && decide ((legOf w).ltile < 16 * npl))

/-- R354: the physical plate of a place on the grid. -/
def gridPlate (x y : Nat) : Nat := x / 8 * 64 + y * 8 + x % 8

/-- R354: the plates of a set at an origin, in logical order. -/
def Placing.plates (p : Placing) (x y : Nat) : List Nat :=
  (List.range p.npl).map (fun i => gridPlate (x + i % p.pw) (y + i / p.pw))

/-- R356: the grid, EDGE and the bridge allow an origin. -/
def Placing.fits (p : Placing) (x y : Nat) : Bool :=
  decide (x + p.pw ≤ 16 ∧ y + p.ph ≤ 8) && (!p.edge.testBit 0 || y == 0) && (!p.edge.testBit 1 || y + p.ph == 8) &&
    (!p.edge.testBit 2 || x == 0) && (!p.edge.testBit 3 || x + p.pw == 16) && (p.edge.testBit 4 || x / 8 == (x + p.pw - 1) / 8)

def State.plate (s : State) (n : Nat) : Plate := Sparse.get {} s.plates n
def State.setPlate (s : State) (n : Nat) (p : Plate) : State := { s with plates := Sparse.set {} s.plates n p }

/-- R353, R356: a plate may be allocated. -/
def State.plateFree (s : State) (n : Nat) : Bool := (s.plate n).st == 0 && !(s.plate n).fence

/-- R347, R356: a declared leg finds its pairs free and its periods equal, for a set on the given plates. -/
def State.legFree (s : State) (map : List Nat) (w : Nat) : Bool :=
  let l := legOf w
  match map[l.ltile / 16]? with
  | none => false
  | some pp =>
    let ray := rayFrom l.port 128 (tileOf pp (l.ltile % 16))
    let pers := ray.filterMap s.period
    let per := pers.headD 256
    decide (l.slot < per) && pers.all (· = per) &&
      (List.range ray.length).all (fun k => s.hopFree 128 per l.slot l.port (k + 1) l.inbound ((ray[k]?).getD 0))

/-- R356: the first origin, in ascending order of Y × 16 + X, that a set may take. -/
def State.findOrigin (s : State) (p : Placing) (legs : List Nat) : Option (Nat × Nat) :=
  ((List.range 128).map (fun i => (i % 16, i / 16))).find? (fun (x, y) =>
    p.fits x y && (p.plates x y).all s.plateFree && legs.all (s.legFree (p.plates x y)))

/-- R356: a region number is free when no plate belongs to it. -/
def State.regionFree (s : State) (g : Nat) : Bool := !(s.region g).live && s.plates.all (fun e => e.2.st == 0 || e.2.region != g)

/-- R112: every translation of a plate and of its tiles is removed. -/
def State.dropPlateTlb (s : State) (pl : Nat) : State :=
  { s with tlb := s.tlb.filter (fun e => e.1 ≠ l2Key pl ∧ !((List.range 16).any (fun i => e.1 = l1Key (tileOf pl i)))) }

/-- R356: the plates of a set become region g's. -/
def State.takePlates (s : State) (g : Nat) (pls : List Nat) : State :=
  pls.foldl (fun s pl => (s.setPlate pl { s.plate pl with st := 1, region := g }).dropPlateTlb pl) s

/-- R356: `palloc` of a record (its 16 bytes) with its leg words: the region and the state, or the shortfall of plates. -/
def State.alloc (s : State) (rec_ : Nat) (p : Placing) (legs : List Nat) : Except Nat (Nat × State) :=
  match s.findOrigin p legs, (List.range 128).find? s.regionFree with
  | some (x, y), some g =>
    let pls := p.plates x y
    let s := s.takePlates g pls
    let s := s.setRegion g
      { live := true, npl := p.npl, map := pls, origin := x + 16 * y, pw := p.pw, place := rec_, legs := legs, seed := s.seedReg }
    .ok (g, { s with roots := Sparse.set 0 s.roots g 0 })
  | _, _ => .error (p.npl - ((List.range 128).filter s.plateFree).length)

/-! ## The end of a region (R358) -/

/-- The pairs of a region released on every router. -/
def State.releasePairs (s : State) (g : Nat) : State :=
  s.mapTiles (fun t => { t with pairs := t.pairs.filter (fun e => !pairOwned e.2 g), pairsProof := t.pairsProof.filter (fun e => !pairOwned e.2 g) })

/-- R387, R389: the keys of a region are revoked. -/
def State.revokeRegion (s : State) (g : Nat) : State :=
  { s with hub := { s.hub with keys := s.hub.keys.map (fun (i, k) =>
      (i, if k.live ∧ k.space ≤ 1 ∧ k.region = g then { k with live := false } else k)) } }

/-- R347: a router keeps its period while another region's transit pair remains in it; the other fields of its plane go. -/
def Tile.keptPlane (t : Tile) (g : Nat) : Sparse Nat :=
  if t.sharedRouter g then t.plane.filter (fun e => e.1 = cfgKey 82 0 0 0) else []

/-- A tile leaves its region: what its configuration and its firings left there is gone; the fault record and pairs of others stay
(assumption 21). -/
def State.clearTile (s : State) (p : Nat) : State :=
  let s := s.endTile p
  let t := s.tile p
  let s := s.setTile p { record := t.record, pairs := t.pairs, pairsProof := t.pairsProof, plane := t.keptPlane (s.regionOf p) }
  let s := (List.range 32).foldl (fun s d =>
    let k := descKey p d
    { s.setDesc k {} with queued := Sparse.set [] s.queued k [], entered := Sparse.set (0, 0) s.entered k (0, 0),
                          flight := Sparse.set [] s.flight k [] }) s
  s.setCoreAt p {}

/-- R358: the plates of a region go to SCRUB. -/
def State.scrubPlates (s : State) (pls : List Nat) : State :=
  pls.foldl (fun s pl => (s.setPlate pl { s.plate pl with st := 2 }).dropPlateTlb pl) s

/-- R358: `pfree` of a region. -/
def State.freeRegion (s : State) (g : Nat) : State :=
  let r := s.region g
  let s := r.tiles.foldl (fun s p => s.clearTile p) s
  let s := (((s.unbindCtxs g).unbindGroups g).releasePairs g).revokeRegion g
  (s.scrubPlates r.map).setRegion g {}

/-- R431, R432: every FIRING slot of a pre-empted region is HALTED; one that waits for containment counts as halted. -/
def State.resting (s : State) (g : Nat) : Bool :=
  (s.region g).halted && (s.region g).tiles.all (fun p => match (s.tile p).firing with
    | some f => (f.trapped && f.fault.isNone) || ((s.tile p).slot f.slot).st == .halted
    | none => true)

/-- R357, R367: every firing of the region is HALTED, or it is drained; for `pfree`, or its instance has ended. -/
def State.atRest (s : State) (g : Nat) : Bool := s.drained g || s.resting g

/-- R358: SCRUB_COMPLETE: a plate's memories are zero, its tags free, and it is FREE. -/
def State.scrubbed (s : State) (pl : Nat) : State :=
  let s := (List.range 16).foldl (fun s i =>
    let p := tileOf pl i
    let s := s.zero (tileBase p) (2 ^ 19)
    let s := s.zero (opndBase p) (2 ^ 17)
    let s := s.zero (scaleBase p) (2 ^ 13)
    let s := s.zero (accBase p) (2 ^ 18)
    let s := s.zero (imemBase p) (2 ^ 16)
    s.setMat p {}) s
  s.setPlate pl { s.plate pl with st := 0, region := 0 }

/-! ## The move of a region (R357) -/

/-- Keys of a sparse map of descriptor keys renamed, tile by tile. -/
def renameKeys {α : Type} [DecidableEq α] (d : α) (f : Nat → Nat) (m : Sparse α) : Sparse α :=
  m.foldl (fun acc e => Sparse.set d acc (f e.1) e.2) []

/-- R357, step 1: tile p's memories, planes, slots and core go to tile q, with the record of a fault that awaits its decision (R187). A word in
error is copied with fresh check bits (DESIGN CHOICE, assumption 102). -/
def State.moveTile (s : State) (g p q : Nat) : State :=
  let s := s.copyMem (tileBase p) (tileBase q) (2 ^ 19)
  let s := s.copyMem (opndBase p) (opndBase q) (2 ^ 17)
  let s := s.copyMem (scaleBase p) (scaleBase q) (2 ^ 13)
  let s := s.copyMem (accBase p) (accBase q) (2 ^ 18)
  let s := s.copyMem (imemBase p) (imemBase q) (2 ^ 16)
  let a := s.tile p
  let b := s.tile q
  let own (m : Sparse Nat) : Sparse Nat := m.filter (fun e => pairOwned e.2 g && !e.2.testBit 11)
  let rest (m : Sparse Nat) : Sparse Nat := m.filter (fun e => !pairOwned e.2 g)
  let join (m n : Sparse Nat) : Sparse Nat := n.foldl (fun acc e => Sparse.set 0 acc e.1 e.2) m
  let s := s.setTile q { a with record := if a.firing.any Firing.trapped then a.record else b.record, pairs := join b.pairs (own a.pairs), pairsProof := join b.pairsProof (own a.pairsProof) }
  let s := s.setTile p { record := a.record, pairs := rest a.pairs, pairsProof := rest a.pairsProof, plane := a.keptPlane g }
  let s := (s.setMat q (s.mat p)).setMat p {}
  let s := (s.setCoreAt q (s.coreAt p)).setCoreAt p {}
  let f (k : Nat) : Nat := if k < 65536 ∧ k / 32 = p then descKey q (k % 32) else k
  let s := (List.range 32).foldl (fun s d => (s.setDesc (descKey q d) (s.desc (descKey p d))).setDesc (descKey p d) {}) s
  { s with
    queued := renameKeys [] f s.queued, entered := renameKeys (0, 0) f s.entered, flight := renameKeys [] f s.flight,
    live := s.live.map (fun e => if e.core = p then { e with core := q } else e),
    hub := { s.hub with ops := s.hub.ops.map (fun (o : HubOp) => if o.core = p then { o with core := q } else o) },
    ctxs := s.ctxs.map (fun e => (e.1, { e.2 with cmds := e.2.cmds.map (fun m => if m.core = p then { m with core := q } else m) })) }

/-- R347, R357: a moved pair meets no pair of another region, and a router with others' legs runs the same period. -/
def State.moveFits (s : State) (g p q : Nat) : Bool :=
  let a := s.tile p
  let b := s.tile q
  let meets (m n : Sparse Nat) : Bool := m.any (fun e => pairOwned e.2 g && !e.2.testBit 11 && pairForeign (Sparse.get 0 n e.1) g)
  !meets a.pairs b.pairs && !meets a.pairsProof b.pairsProof && !meets a.pairs b.pairsProof && !meets a.pairsProof b.pairs &&
    (s.period q == none || s.period q == some a.activePeriod)

/-- R310: context c of a region goes to the streamer of its anchor's new column; none when that has no free context. -/
def State.moveCtx (s : State) (g c : Nat) : Option State :=
  let x := s.ctxAt c
  let r := s.region g
  match r.resolve x.anchor with
  | none => none
  | some p =>
    let st := streamerOf p x.edge
    if c / 16 = st then some s
    else match s.freeCtx g st with
    | none => none
    | some c' =>
      let s := (s.setCtx c' x).setCtx c {}
      let s := (List.range x.segs).foldl (fun s i =>
        let s := s.copyMem (winBase (ctxKey c i)) (winBase (ctxKey c' i)) ((s.desc (ctxKey c i)).base + (s.desc (ctxKey c i)).cap * (s.desc (ctxKey c i)).size)
        let s := (s.setDesc (ctxKey c' i) (s.desc (ctxKey c i))).setDesc (ctxKey c i) {}
        let f (k : Nat) : Nat := if k = ctxKey c i then ctxKey c' i else k
        { s with queued := renameKeys [] f s.queued, entered := renameKeys (0, 0) f s.entered, flight := renameKeys [] f s.flight }) s
      let s := { s with tlb := Sparse.set [] s.tlb (ctxTlbKey c) [] }
      some (s.mapRegion g (fun r => { r with ctx := r.ctx.map (fun e => if e.2 = c then (e.1, c') else e) }))

/-- The active and proof pairs of every router exchanged, so that one definition writes the legs of either. -/
def State.exchangePairs (s : State) : State := s.mapTiles (fun t => { t with pairs := t.pairsProof, pairsProof := t.pairs })

/-- R357, step 2: the transit legs claimed afresh for both planes; a proof plane in state NONE has the active periods (R349). -/
def State.moveLegs (s : State) (g : Nat) : Option State :=
  ((s.exchangePairs).writeLegs Tile.activePeriod g).bind (fun s =>
    s.exchangePairs.writeLegs (if (s.region g).proofSt = .none then Tile.activePeriod else Tile.proofPeriod) g)

/-- R357: region g at a new origin; none when the origin breaks a condition. -/
def State.moveRegion (s : State) (g x y : Nat) : Option State :=
  let r := s.region g
  match placeOf r.place with
  | none => none
  | some pl =>
    let pls := pl.plates x y
    let s := s.mapTiles (fun t =>
      { t with pairs := t.pairs.filter (fun e => !(pairOwned e.2 g && e.2.testBit 11)),
               pairsProof := t.pairsProof.filter (fun e => !(pairOwned e.2 g && e.2.testBit 11)) })
    if !pl.fits x y || !pls.all s.plateFree || !r.legs.all (s.legFree pls) then none
    else
      let moves := (List.range (16 * r.npl)).filterMap (fun l =>
        match (r.map[l / 16]?), (pls[l / 16]?) with
        | some a, some b => some (tileOf a (l % 16), tileOf b (l % 16))
        | _, _ => none)
      if !moves.all (fun (p, q) => s.moveFits g p q) then none
      else
        let s := moves.foldl (fun s (p, q) => s.moveTile g p q) s
        let s := (s.takePlates g pls).scrubPlates r.map
        let s := s.setRegion g { r with map := pls, origin := x + 16 * y }
        (s.moveLegs g).bind (fun s => (s.boundCtxs g).foldlM (fun s c => s.moveCtx g c) s)

end Sys2Proof.Machine
end

