-- ==== Sys2Proof/Machine/Objects.lean ====
section
/-! DEFINITION. Graph objects (R424, R451, R452, R469): the header, the section table and the stream table as an engine reads them, and the
staging of a stream with its sections (R349, R363). -/

namespace Sys2Proof.Machine

/-- The header of R424. -/
structure Header where
  magic : Nat
  profile : Nat
  pol2 : Nat
  zeros : Bool
  place : Nat
  etch : Nat
  etchLen : Nat
  sect : Nat
  nsect : Nat
  nstr : Nat
  strtab : Nat
deriving DecidableEq, Repr

def headerOf (x : Nat) : Header :=
  { magic := byteField x 0 4, profile := byteField x 4 1, pol2 := byteField x 5 1, zeros := byteField x 6 2 = 0 ∧ byteField x 54 2 = 0,
    place := byteField x 8 16, etch := byteField x 24 8, etchLen := byteField x 32 4, sect := byteField x 40 8, nsect := byteField x 48 4,
    nstr := byteField x 52 2, strtab := byteField x 56 8 }

def objMagic : Nat := 0x4A47424F

/-- R424: MAGIC, zero fields, PROFILE and the limits of the stream table. -/
def Header.ok (h : Header) : Bool :=
  h.magic == objMagic && h.zeros && h.profile != 0 && decide (h.nstr ≤ 256) && decide (h.strtab % 8 = 0) && (h.nstr != 0 || h.strtab == 0)

/-- A section as its entry declares it: its place, with zeros for its bytes, and the offset at which these stand in the object (R451). -/
structure SectDecl where
  sect : Sect
  src : Nat
deriving DecidableEq, Repr

/-- R451: a section entry (32 bytes); none when a field breaks the table. -/
def sectOf (npl x : Nat) : Option SectDecl :=
  let k := byteField x 0 1
  let len := byteField x 8 4
  let toff := byteField x 4 4
  let unit := if k = 0 then 8 else 4
  if k ≤ 3 ∧ byteField x 1 1 < 8 ∧ (k = 1 ∨ byteField x 1 1 = 0) ∧ byteField x 2 2 < 16 * npl ∧ toff % unit = 0 ∧ unit ≤ len ∧
      len ≤ 0x80000 ∧ len % unit = 0 ∧ byteField x 12 4 = 0 ∧ byteField x 16 8 % 8 = 0 ∧ byteField x 24 8 = 0 ∧
      toff + len ≤ (if k = 0 then 0x10000 else 0x7C000) then
    some { sect := { kind := k, rset := byteField x 1 1, ltile := byteField x 2 2, toff := toff, data := List.replicate len 0 },
           src := byteField x 16 8 }
  else none

/-- R469: a stream declaration (32 bytes); none when it breaks the table. -/
def streamDeclOf (npl x : Nat) : Option StreamDecl :=
  let role := byteField x 0 1
  let p := byteField x 4 2
  let rec_ := byteField x 8 8
  if role ≤ 2 ∧ byteField x 1 1 ≤ 1 ∧ byteField x 2 2 < 16 * npl ∧ rec_ % 64 = 0 ∧ byteField x 16 16 = 0 ∧
      (if role = 2 then p = 0 ∧ byteField x 6 2 = 0 ∧ rec_ = 0 else 1 ≤ p) then
    some { role := role, edge := byteField x 1 1, ltile := byteField x 2 2, p := p, arc := byteField x 6 2, record := rec_ }
  else none

/-- R452: section x overlaps an earlier section y of the same memory, rate sets considered. -/
def sectsMeet (x y : Sect) : Bool :=
  x.ltile == y.ltile && (x.kind == 0) == (y.kind == 0) && rangesMeet (x.toff, x.data.length) (y.toff, y.data.length) &&
    (x.kind != 1 || y.kind != 1 || x.rset == y.rset)

/-- The entries of a table read in turn, checked by `f`: those before the first that is refused, and its index. -/
def readEntries {α : Type} (base : Word) (f : Nat → List α → RM (Option α)) : Nat → Nat → List α → RM (List α × Option Nat)
  | 0, _, acc => pure (acc, none)
  | fuel + 1, i, acc => do
    let x ← readNum (base + word (32 * i)) 32
    match ← f x acc with
    | some a => readEntries base f fuel (i + 1) (acc ++ [a])
    | none => pure (acc, some i)

/-- R451, R452: the section table of an object. -/
def readSects (gobj : Word) (h : Header) (npl : Nat) : RM (List SectDecl × Option Nat) :=
  readEntries (gobj + word h.sect) (fun x acc =>
    pure ((sectOf npl x).bind (fun z => if acc.any (fun y => sectsMeet z.sect y.sect) then none else some z))) h.nsect 0 []

/-- R348, R363: the bytes of an object's sections read, in the order of its table. -/
def readData (gobj : Word) (ds : List SectDecl) : RM (List Sect) :=
  ds.mapM (fun z => do
    let bs ← readBytes (gobj + word z.src) z.sect.data.length
    pure { z.sect with data := bs })

/-- R469: the stream declarations of an object. -/
def readStreams (gobj : Word) (h : Header) (npl : Nat) : RM (List StreamDecl × Option Nat) :=
  readEntries (gobj + word h.strtab) (fun x _ => pure (streamDeclOf npl x)) h.nstr 0 []

/-- R319: a declared record's counter lies in the translated space, or in region tile memory of one of the region's plates, below the save
frame; 8 bytes, aligned. -/
def counterFits (npl : Nat) (x : Shape) : Bool :=
  x.cinc == 0 || (x.caddr % 8 == 0 && (decide (x.caddr < 2 ^ 47) ||
    (x.caddr / 2 ^ 30 == 0xF10000000000 / 2 ^ 30 && decide (bits x.caddr 19 11 < 16 * npl) && decide (x.caddr % 2 ^ 19 + 8 ≤ 0x7C000))))

/-- R314, R315, R319: the shape records of declarations, read from the object; the index of the first that fails. A record's bytes lie in
the translated space. -/
def readRecs (gobj : Word) (npl : Nat) : List StreamDecl → Nat → List Shape → RM (Except Nat (List Shape))
  | [], _, acc => pure (.ok acc)
  | d :: ds, i, acc => do
    if d.role = 2 then readRecs gobj npl ds (i + 1) (acc ++ [{}])
    else
      let a := gobj + word d.record
      let x ← readNum a 192
      match shapeOf x a.toNat with
      | .ok sh => if sh.lo < 2 ^ 47 ∧ sh.hi < 2 ^ 47 ∧ counterFits npl sh then readRecs gobj npl ds (i + 1) (acc ++ [sh]) else pure (.error i)
      | .error _ => pure (.error i)

/-- The two tables of an object (R451, R469), each up to its first entry that breaks a field or overlaps an earlier one. -/
structure Tables where
  sects : List SectDecl
  badSect : Option Nat
  strs : List StreamDecl
  badStr : Option Nat
deriving DecidableEq, Repr

def readTables (gobj : Word) (h : Header) (npl : Nat) : RM Tables := do
  let (sects, badSect) ← readSects gobj h npl
  let (strs, badStr) ← readStreams gobj h npl
  pure { sects := sects, badSect := badSect, strs := strs, badStr := badStr }

/-- An object whose tables and records are read, with the declarations of its sections; and one whose tables alone are. -/
structure Staged where
  obj : Object
  sects : List SectDecl
deriving DecidableEq, Repr

def Tables.staged (t : Tables) (gobj : Word) (recs : List Shape) : Staged :=
  { obj := { addr := gobj.toNat, sects := t.sects.map SectDecl.sect, strs := t.strs, recs := recs }, sects := t.sects }

/-- R451, R452, R469: the tables and records of the object whose header stands at an address, or the index of the entry for which it is
refused. -/
def readObject (gobj : Word) (npl : Nat) : RM (Except Nat Staged) := do
  let t ← readTables gobj (headerOf (← readNum gobj 64)) npl
  match t.badSect.or t.badStr with
  | some i => pure (.error i)
  | none => pure ((← readRecs gobj npl t.strs 0 []).map (t.staged gobj))

/-- R452: KIND 1 sections lie in one window of their tile and rate set, KIND 2 sections in one private data area; `s` has the configuration
installed. The index of the first that does not. -/
def State.sectsOutside (s : State) (g : Nat) (xs : List Sect) : Option Nat :=
  (List.range xs.length).find? (fun i =>
    match xs[i]? with
    | none => false
    | some x =>
      match (s.region g).resolve x.ltile with
      | none => true
      | some p =>
        let t := s.tile p
        let within (b n : Nat) : Bool := decide (b ≤ x.toff ∧ x.toff + x.data.length ≤ b + n)
        if x.kind = 1 then
          !(List.range 32).any (fun d => let e := descOf t.plane d x.rset; e.kind == 1 && within e.base (e.cap * e.size))
        else if x.kind = 2 then !(List.range 8).any (fun a => t.avalid a && within (t.privOff a) (t.privLen a))
        else false)

/-! ## Staging (R349, R363) -/

/-- A read within the staging of a stream. -/
def etchDo {α : Type} (m : RM α) : EM α := fun s =>
  match m s with
  | .ok a s => .ok a s
  | .error f s => .error (.unread f) s

/-- The object of a region's proof plane. -/
def State.setObject (s : State) (g : Nat) (o : Object) : State := s.mapRegion g (fun r => { r with objProof := o })

/-- R363: a stream of n words staged for a region: its words; the tables and records of the object whose stream it is, if it has one; the
checks of the finished plane; and the sections, of that object or of the configuration the stream changes. -/
def etchRegion (rd : WordAt) (g n : Nat) (obj : Option (RM (Except Nat Staged))) : EM Unit := do
  etchStream rd g n
  let x ← match obj with
    | none => pure none
    | some m =>
      match ← etchDo m with
      | .error i => throw (.reject rPHASES i 0)
      | .ok x => do
        modify (fun s => s.setObject g x.obj)
        pure (some x)
  if !(← get).proofOk g then throw (.reject rPHASES 0 (n - 1))
  match x with
  | none => pure ()
  | some x =>
    let sects ← etchDo (readData (word x.obj.addr) x.sects)
    modify (fun s => s.setObject g { x.obj with sects := sects })
  modify (fun s => (s.stageSects g).mapRegion g (fun r => { r with proofSt := .ready }))

/-- R362: the status of a stream that ended badly. -/
def EtchBad.status : EtchBad → Nat
  | .reject reason obj idx => stReject reason 0 obj idx
  | .unread f => stFail f

/-- R363: the staging carried out: the status, and the state, the proof plane dropped on a failure. -/
def State.stage (s : State) (rd : WordAt) (g n : Nat) (obj : Option (RM (Except Nat Staged))) : Nat × State :=
  if n < 2 ∨ 2 ^ 26 < n then (stReject rPHASES 0 0 0, s.dropProof g)
  else match etchRegion rd g n obj s with
  | .ok _ s => (0, s)
  | .error b s => (b.status, s.dropProof g)

/-- The words of a stream at an address. -/
def wordsAt (a : Word) : WordAt := fun i => readNum (a + word (4 * i)) 4

/-- A stream read whole. -/
def readWords (a : Word) : Nat → Nat → List Nat → RM (List Nat)
  | 0, _, acc => pure acc
  | fuel + 1, i, acc => do
    let w ← fun s => match readNum (a + word (4 * i)) 4 s with
      | .ok w s => .ok w s
      | .error f s => .error { f with idx := i } s
    readWords a fuel (i + 1) (acc ++ [w])

/-- The words of a stream already read. -/
def wordsOf (ws : List Nat) : WordAt := fun i => pure ((ws[i]?).getD 0)

/-- A number read without an effect on the state. -/
def State.peek (s : State) (a : Word) (n : Nat) : Option Nat :=
  match readNum a n s with
  | .ok v _ => some v
  | .error _ _ => none

/-- The graph object whose etch stream stands at an address: the nearest header below it, at a multiple of 64 bytes, that names it
(assumption 22). -/
def State.objectOf (s : State) (a : Word) : Option Word :=
  ((List.range 4096).map (fun k => a - word (64 * (k + 1)))).find? (fun o =>
    s.peek o 4 == some objMagic && (s.peek (o + 24) 8).map (fun e => o + word e) == some a)

/-- R363: `etch` of region g from address a: with the object to which the stream belongs. -/
def State.etchAt (s : State) (g : Nat) (a : Word) (n : Nat) : Nat × State :=
  s.stage (wordsAt a) g n ((s.objectOf a).map (fun o => readObject o (s.region g).npl))

/-! ## The checks of a launch (R53, R425) -/

/-- The module with every plate free, on which an object is checked before any plate is allocated. -/
def State.blank (s : State) : State :=
  { s with regions := [], tiles := [], descs := [], queued := [], entered := [], flight := [], mats := [], ctxs := [], plates := [], groups := [], roots := [] }

/-- R53, R341: word i of a stream writes ACOPY with a replication outside 1 to 64. -/
def copyFault (ws : List Nat) (i : Nat) : Bool :=
  let w := (ws[i]?).getD 0
  let h := (ws[i - 1]?).getD 0
  let v := bits w 0 12 + (if etchKind h = 1 then bits h 0 30 * 2 ^ 12 else 0)
  etchKind w == 0 && bits w 12 7 == 2 && decide (v < 2 ^ 13) && !decide (1 ≤ bits v 6 7 ∧ bits v 6 7 ≤ 64)

/-- R53: the status of an object's stream that is rejected at a launch: a replication outside 1 to 64 is REPLICATION, of the actor that the
stream has selected; the rest is as R339 has it (assumption 53). -/
def launchReject (ws : List Nat) (b : EtchBad) (t : State) (g : Nat) : Nat :=
  match b with
  | .reject _ l i =>
    match if copyFault ws i then (t.region g).resolve l else none with
    | some p => let t := t.tile p; stReject rREPLICATION 0 (Sparse.get 0 t.proof (cfgKey 1 t.asel 0 0)) 0
    | none => b.status
  | .unread _ => b.status

/-- R425, step 5, and what the check of step 3 needs: an object's stream in the proof plane of a region on the blank module; or the status of
its rejection. -/
def State.sketch (s : State) (rec_ : Nat) (p : Placing) (ws : List Nat) (o : Object) : Except Nat (Nat × State) :=
  match s.blank.alloc rec_ p [] with
  | .error n => .error (stReject rPLATES 0 0 n)
  | .ok (g, t) =>
    match etchStream (wordsOf ws) g ws.length t with
    | .error b t => .error (launchReject ws b t g)
    | .ok _ t => .ok (g, t.setObject g o)

/-- R469: a SOURCE or SINK declaration joins an arc that the graph has; the index of the first that does not. -/
def State.strayArc (s : State) (g : Nat) (strs : List StreamDecl) : Option Nat :=
  (List.range strs.length).find? (fun i => (strs[i]?).any (fun d => d.role != 2 && decide ((s.arcs g).length ≤ d.arc)))

/-- R452, R469: the index of the first section entry that breaks its table, else of the first stream entry that does. A stream that is
rejected leaves what needs the finished plane to its own status. -/
def Tables.bad (x : Tables) (sk : Except Nat (Nat × State)) : Option Nat :=
  match sk with
  | .error _ => x.badSect.or x.badStr
  | .ok (g, t) =>
    let u := t.trial g 0
    ((u.sectsOutside g (x.sects.map SectDecl.sect)).or x.badSect).or ((u.strayArc g x.strs).or x.badStr)

end Sys2Proof.Machine
end

