-- ==== Sys2Proof/Machine/Configuration.lean ====
section
/-! DEFINITION. The instructions of the configuration engine (R360 to R367), and its events: the swap of a pull, what a drain does, and the
end of a scrub (R64, R350, R358). -/

namespace Sys2Proof.Machine

/-! ## Pulls -/

/-- R315: the shape records of a region's proof object read again, at the pull, as a control core reads them. -/
def State.rereadRecs (s : State) (core g : Nat) : State :=
  let o := (s.region g).objProof
  match readRecs (word o.addr) (s.region g).npl o.strs 0 [] { s with cur := core } with
  | .ok (.ok recs) t => ({ t with cur := s.cur }).mapRegion g (fun r => { r with objProof := { o with recs := recs } })
  | .ok (.error _) t => { t with cur := s.cur }
  | .error _ t => { t with cur := s.cur }

/-- R362: RESIDUE. -/
def stResidue (arc seg x : Nat) : Nat := cRESIDUE + arc % 65536 * 2 ^ 16 + seg % 65536 * 2 ^ 32 + min x 65535 * 2 ^ 48

/-- R261, R310, R350: the pull of a drained region starts: PULLING, the room for its groups and stream contexts set aside; or the status of
the residue it finds, or of too few free contexts, or of groups that find no room in the group store (assumption 100). -/
def State.startPull (s : State) (core g : Nat) : Except Nat State :=
  match s.residue g with
  | some (e, i, x) => .error (stResidue e i x)
  | none =>
    let short := s.shortCtx g (s.region g).objProof
    if short ≠ 0 then .error (stReject rPLATES 0 0 short)
    else match s.setAside g with
    | none => .error (stReject rPLATES 0 0 0)
    | some s =>
      let s := s.rereadRecs core g
      let d := (s.region g).deferredBytes
      .ok (s.mapRegion g (fun r => { r with proofSt := .pulling, swapAt := s.cycle + 128 + (d + 63) / 64 }))

/-- WAIT_LIMIT of R362. -/
def State.stLimit (s : State) (g : Nat) : Nat := cWAIT_LIMIT + s.busyTiles g * 2 ^ 16

/-- The instruction has passed its point of no return: interrupts wait for its end. -/
def shutCore : M Unit := modify (fun s => s.mapCore (fun c => { c with shut := true }))

/-- A function on a live region: the region is held, or PROTECT reason 12. -/
def onRegion (d om a : Nat) (f : Nat → M Unit) : M Unit := do
  let s ← get
  match s.liveRegion (s.sreg a) with
  | none => finish d om stNone
  | some g =>
    takeRegion g
    f g

/-! ## The instructions -/

/-- R363: `etch`. -/
def execEtch (d a b ow om : Nat) (s : State) : Out :=
  runM (do
    let s ← get
    operandAddr .read 4 4 (s.sreg a)
    waitOw ow
    onRegion d om d (fun g => do
      let s ← get
      if (s.region g).proofSt = .pulling then waitHere
      else if !s.core.shut then
        set (s.beginEtch g)
        shutCore
        waitHere
      else
        let (st, s) := s.etchAt g (s.sreg a) (s.sreg b).toNat
        set s
        finish d om st)) s

/-- R364: `pull`. -/
def execPull (d a b ow om : Nat) (s : State) : Out :=
  runM (do
    waitOw ow
    onRegion d om a (fun g => do
      let s ← get
      let r := s.region g
      if s.core.shut then (if r.proofSt = .pulling then waitHere else finish d om 0)
      else if r.proofSt ≠ .ready then finish d om (stSlot r)
      else if !s.drained g || s.unperformed g then boundedStatus d om (s.sreg b).toNat (s.stLimit g)
      else
        match s.startPull s.cur g with
        | .error st => finish d om st
        | .ok s =>
          set s
          shutCore
          waitHere)) s

/-- R365: `drain`, and with `fl` `drain.flush`. -/
def drainOp (fl : Bool) (d a b ow om : Nat) : M Unit := do
  waitOw ow
  onRegion d om a (fun g => do
    let s ← get
    if s.core.shut then (if s.drained g then finish d om 0 else waitHere)
    else if !s.drained g then boundedStatus d om (s.sreg b).toNat (s.stLimit g)
    else if fl then
      set (s.flush g)
      shutCore
      waitHere
    else finish d om 0)

/-- R365: `drain`. -/
def execDrain (d a b ow om : Nat) (s : State) : Out := runM (drainOp false d a b ow om) s

/-- R365: `drain.flush`. -/
def execDrainFlush (d a b ow om : Nat) (s : State) : Out := runM (drainOp true d a b ow om) s

/-- R366: the value that `qstat` reads of region g. -/
def State.qstat (s : State) (g sl : Nat) : Nat :=
  let r := s.region g
  match sl with
  | 0 => r.proofSt.code + (if r.auto then 4 else 0) + (if s.drained g then 8 else 0) + r.npl % 128 * 2 ^ 4 + r.markTag * 2 ^ 11
  | 1 => r.pulls
  | 2 => r.discards
  | n =>
    (List.range 64).foldl (fun acc t =>
      match r.resolve (64 * (n - 3) + t) with
      | some p => if s.tileBusy p then acc + 2 ^ t else acc
      | none => acc) 0

/-- R366: `qstat`. -/
def execQstat (d a ow om sl : Nat) (s : State) : Out :=
  runM (do
    waitOw ow
    onRegion d om a (fun g => do
      let s ← get
      finish d om (s.qstat g sl))) s

/-- R355, R356: the record at an address, with its leg list; none where it breaks R355. -/
def readPlacing (a : Word) (base : Word) : RM (Option (Nat × Placing × List Nat)) := do
  let x ← readNum a 16
  match placeOf x with
  | none => pure none
  | some p =>
    let ws ← readWords (base + word p.taddr) p.tcount 0 []
    pure (if legsOk p.npl ws then some (x, p, ws) else none)

/-- R367: `palloc`. -/
def execPalloc (d a ow om : Nat) (s : State) : Out :=
  runM (do
    let s ← get
    operandAddr .read 16 16 (s.sreg a)
    waitOw ow
    orElse (do
      let s ← get
      match ← readPlacing (s.sreg a) 0 with
      | none => pure (stReject rPHASES 0 0 0)
      | some (x, p, ws) =>
        let s ← get
        match s.alloc x p ws with
        | .error n => pure (stReject rPLATES 0 0 n)
        | .ok (g, s) =>
          set s
          pure (g * 2 ^ 16)) (fun f => pure (stFail f)) >>= finish d om) s

/-- R357, R367: `pmove`. -/
def execPmove (d a b ow om : Nat) (s : State) : Out :=
  runM (do
    waitOw ow
    onRegion d om a (fun g => do
      let s ← get
      let o := (s.sreg b).toNat
      if !s.atRest g then finish d om (stSlot (s.region g))
      else if s.unperformed g then waitHere
      else if 128 ≤ o then finish d om (stReject rPLATES 0 0 0)
      else match s.moveRegion g (o % 16) (o / 16) with
      | none => finish d om (stReject rPLATES 0 0 0)
      | some s =>
        set s
        finish d om 0)) s

/-- R358, R367: `pfree`. -/
def execPfree (d a ow om : Nat) (s : State) : Out :=
  runM (do
    waitOw ow
    onRegion d om a (fun g => do
      let s ← get
      if !s.atRest g && (s.region g).ended.isNone then finish d om (stSlot (s.region g))
      else if s.unperformed g then waitHere
      else
        set (s.freeRegion g)
        finish d om 0)) s

/-! ## Events -/

/-- R350: PULL_SWAP of region r. -/
def execPullSwap (r : Nat) (s : State) : Out :=
  .next (if r < 128 ∧ (s.region r).proofSt = .pulling ∧ (s.region r).swapAt ≤ s.cycle then s.swapRegion r else s)

/-- R358: SCRUB_COMPLETE of plate pl. -/
def execScrubComplete (pl : Nat) (s : State) : Out := .next (if pl < 128 ∧ (s.plate pl).st = 2 then s.scrubbed pl else s)

/-- R59, R64: some slot of a region is STOPPED. -/
def State.anyStopped (s : State) (g : Nat) : Bool := (s.region g).tiles.any (fun p => (s.tile p).slots.any (fun x => x.st == .stopped))

/-- R64: the instance of a region starts again in rate set m, or ends with INCONSISTENT where m is not declared or a stream does not fit. -/
def State.toMode (s : State) (g m : Nat) : State :=
  let t := s.switchMode g m
  let q := match t.repetitions g m with
    | .ok q => q
    | .error _ => []
  if s.declared g m && (t.boundCtxs g).all (fun c => (t.ctxAt c).lengthOk (Sparse.get 0 q (65536 + (t.ctxAt c).num))) then t
  else (s.mapRegion g (fun r => { r with ffw := word (stReject rINCONSISTENT m 0 0), reported := true })).endInstance g cCONFIG_REJECT

/-- R64: what a drained region does. -/
def State.onDrain (s : State) (g : Nat) : State :=
  let r := s.region g
  if r.proofSt = .ready ∧ r.auto ∧ s.unperformed g then s
  else if r.proofSt = .ready ∧ r.auto then
    match s.startPull 2048 g with
    | .ok s => s
    | .error _ => s
  else if r.proofSt ≠ .none then s
  else
    let m := r.sinkMode.getD 0
    let s := s.mapRegion g (fun r => { r with drainMode := m })
    if m = 0 ∨ s.anyStopped g then s.endInstance g 0 else s.toMode g m

/-- R64: REGION_DRAINED of region r. -/
def execRegionDrained (r : Nat) (s : State) : Out :=
  .next (if r < 128 ∧ (s.region r).live ∧ (s.region r).started ∧ !(s.region r).halted ∧ s.drained r then s.onDrain r else s)

end Sys2Proof.Machine
end

