-- ==== Sys2Proof/Machine/Scalar.lean ====
section
/-! DEFINITION. The scalar engine's meanings (spec/06): integer arithmetic, logic, bit manipulation, addresses, immediates, compares,
predicates and branches. -/

namespace Sys2Proof.Machine

/-- A register-only instruction that writes s register d. -/
def State.putS (s : State) (d : Nat) (x : Word) : Out := .next ((s.setS d x).advance)

/-- A register-only instruction that writes predicate d. -/
def State.putP (s : State) (d : Nat) (x : Bool) : Out := .next ((s.setP d x).advance)

/-- Bits [127:64] of a 128-bit product (R168). -/
def mulHigh (a b : Word) : Word := word ((a.toInt * b.toInt / 2 ^ 64) % 2 ^ 64).toNat
def mulHighN (a b : Word) : Word := word (a.toNat * b.toNat / 2 ^ 64)

/-- Leading zero bits among the n low bits of x (R170). -/
def leadZeros (x : Nat) : Nat → Nat
  | 0 => 0
  | n + 1 => if x.testBit n then 0 else 1 + leadZeros x n

/-- Trailing zero bits of x, at most n (R170). -/
def trailZeros (x : Nat) : Nat → Nat
  | 0 => 0
  | n + 1 => if x % 2 = 1 then 0 else 1 + trailZeros (x / 2) n

/-- One bits among the n low bits of x (R170). -/
def popCount (x : Nat) : Nat → Nat
  | 0 => 0
  | n + 1 => x % 2 + popCount (x / 2) n

/-- R170: `bext`: the bits of a at b's one bits, packed, over the n low positions. -/
def bitExtract (a b : Nat) : Nat → Nat
  | 0 => 0
  | n + 1 => if b % 2 = 1 then a % 2 + 2 * bitExtract (a / 2) (b / 2) n else bitExtract (a / 2) (b / 2) n

/-- R170: `bdep`: the low bits of a placed at b's one bits. -/
def bitDeposit (a b : Nat) : Nat → Nat
  | 0 => 0
  | n + 1 => if b % 2 = 1 then a % 2 + 2 * bitDeposit (a / 2) (b / 2) n else 2 * bitDeposit a (b / 2) n

/-- R170: byte k moved to byte 7 − k. -/
def byteSwap (x : Word) : Word :=
  word ((List.range 8).foldl (fun acc k => acc + bits x.toNat (8 * k) 8 * 2 ^ (8 * (7 - k))) 0)

/-- R177: a branch to a target: MISALIGN when its low bits are set, else the next fetch is made there, the link written first. -/
def branchTo (link : Option Nat) (target : Word) (s : State) : Out :=
  if target.toNat % 8 ≠ 0 then
    .next (s.takeTrap { code := cMISALIGN, i0 := target, i1 := 8, i3 := s.regionInfo })
  else
    let ret := s.core.pc + 8
    let s := match link with
      | some d => s.setS d ret
      | none => s
    .next (s.mapCore (fun c => c.goto target))


/-- R168: `add`. -/
def execAdd (d a b : Nat) (s : State) : Out := s.putS d (s.sreg a + s.sreg b)

/-- R168: `sub`. -/
def execSub (d a b : Nat) (s : State) : Out := s.putS d (s.sreg a - s.sreg b)

/-- R168: `mul`. -/
def execMul (d a b : Nat) (s : State) : Out := s.putS d (s.sreg a * s.sreg b)

/-- R168: `mulh`. -/
def execMulh (d a b : Nat) (s : State) : Out := s.putS d (mulHigh (s.sreg a) (s.sreg b))

/-- R168: `mulhn`. -/
def execMulhn (d a b : Nat) (s : State) : Out := s.putS d (mulHighN (s.sreg a) (s.sreg b))

/-- R168: `div`. -/
def execDiv (d a b : Nat) (s : State) : Out := s.putS d (BitVec.ofInt 64 (divS 64 (s.sreg a).toInt (s.sreg b).toInt))

/-- R168: `divn`. -/
def execDivn (d a b : Nat) (s : State) : Out := s.putS d (word (divU 64 (s.sreg a).toNat (s.sreg b).toNat))

/-- R168: `rem`. -/
def execRem (d a b : Nat) (s : State) : Out := s.putS d (BitVec.ofInt 64 (remS (s.sreg a).toInt (s.sreg b).toInt))

/-- R168: `remn`. -/
def execRemn (d a b : Nat) (s : State) : Out := s.putS d (word (remU (s.sreg a).toNat (s.sreg b).toNat))

/-- R168: `madd`. -/
def execMadd (d a b c : Nat) (s : State) : Out := s.putS d (s.sreg a * s.sreg b + s.sreg c)

/-- R168: `msub`. -/
def execMsub (d a b c : Nat) (s : State) : Out := s.putS d (s.sreg c - s.sreg a * s.sreg b)

/-- R168: `min`. -/
def execMin (d a b : Nat) (s : State) : Out := s.putS d (if (s.sreg b).slt (s.sreg a) then s.sreg b else s.sreg a)

/-- R168: `max`. -/
def execMax (d a b : Nat) (s : State) : Out := s.putS d (if (s.sreg a).slt (s.sreg b) then s.sreg b else s.sreg a)

/-- R168: `minn`. -/
def execMinn (d a b : Nat) (s : State) : Out := s.putS d (if s.sreg b < s.sreg a then s.sreg b else s.sreg a)

/-- R168: `maxn`. -/
def execMaxn (d a b : Nat) (s : State) : Out := s.putS d (if s.sreg a < s.sreg b then s.sreg b else s.sreg a)

/-- R168: `abs`; −2^63 stays. -/
def execAbs (d a : Nat) (s : State) : Out := s.putS d (if (s.sreg a).msb then -(s.sreg a) else s.sreg a)

/-- R169: `and`. -/
def execAnd (d a b : Nat) (s : State) : Out := s.putS d (s.sreg a &&& s.sreg b)

/-- R169: `or`. -/
def execOr (d a b : Nat) (s : State) : Out := s.putS d (s.sreg a ||| s.sreg b)

/-- R169: `xor`. -/
def execXor (d a b : Nat) (s : State) : Out := s.putS d (s.sreg a ^^^ s.sreg b)

/-- R169: `andn`. -/
def execAndn (d a b : Nat) (s : State) : Out := s.putS d (s.sreg a &&& ~~~(s.sreg b))

/-- R169: `orn`. -/
def execOrn (d a b : Nat) (s : State) : Out := s.putS d (s.sreg a ||| ~~~(s.sreg b))

/-- R169: `xnor`. -/
def execXnor (d a b : Nat) (s : State) : Out := s.putS d (~~~(s.sreg a ^^^ s.sreg b))

/-- R169: `sll`. -/
def execSll (d a b : Nat) (s : State) : Out := s.putS d (s.sreg a <<< ((s.sreg b).toNat % 64))

/-- R169: `srl`. -/
def execSrl (d a b : Nat) (s : State) : Out := s.putS d (s.sreg a >>> ((s.sreg b).toNat % 64))

/-- R169: `sra`. -/
def execSra (d a b : Nat) (s : State) : Out := s.putS d ((s.sreg a).sshiftRight ((s.sreg b).toNat % 64))

/-- R169: `rol`. -/
def execRol (d a b : Nat) (s : State) : Out := s.putS d ((s.sreg a).rotateLeft ((s.sreg b).toNat % 64))

/-- R169: `ror`. -/
def execRor (d a b : Nat) (s : State) : Out := s.putS d ((s.sreg a).rotateRight ((s.sreg b).toNat % 64))

/-- R169: `sel`. -/
def execSel (d a b c : Nat) (s : State) : Out := s.putS d ((s.sreg c &&& s.sreg a) ||| (~~~(s.sreg c) &&& s.sreg b))

/-- R170: `clz`. -/
def execClz (d a : Nat) (s : State) : Out := s.putS d (word (leadZeros (s.sreg a).toNat 64))

/-- R170: `ctz`. -/
def execCtz (d a : Nat) (s : State) : Out := s.putS d (word (trailZeros (s.sreg a).toNat 64))

/-- R170: `popc`. -/
def execPopc (d a : Nat) (s : State) : Out := s.putS d (word (popCount (s.sreg a).toNat 64))

/-- R170: `bswap`. -/
def execBswap (d a : Nat) (s : State) : Out := s.putS d (byteSwap (s.sreg a))

/-- R170: `bext`. -/
def execBext (d a b : Nat) (s : State) : Out := s.putS d (word (bitExtract (s.sreg a).toNat (s.sreg b).toNat 64))

/-- R170: `bdep`. -/
def execBdep (d a b : Nat) (s : State) : Out := s.putS d (word (bitDeposit (s.sreg a).toNat (s.sreg b).toNat 64))

/-- R170: `bfx`. -/
def execBfx (d a pos len : Nat) (s : State) : Out := s.putS d (sxWord len (fieldOf (s.sreg a) pos len))

/-- R170: `bfxn`. -/
def execBfxn (d a pos len : Nat) (s : State) : Out := s.putS d (word (fieldOf (s.sreg a) pos len))

/-- R170: `bfi`. -/
def execBfi (d a pos len : Nat) (s : State) : Out := s.putS d (word (mergeBits (s.sreg d).toNat ((s.sreg a).toNat % 2 ^ len * 2 ^ pos) ((2 ^ len - 1) * 2 ^ pos)))

/-- R172: `lea`. -/
def execLea (d a b off sh : Nat) (s : State) : Out := s.putS d (s.sreg a + (s.sreg b <<< sh) + sxWord 19 off)

/-- R172: an address of a tile or group window: the number, held to its bound, and the offset modulo 2^19. -/
def windowAddr (base bound : Nat) (n off : Word) : Word := word (base + min n.toNat bound * 2 ^ 19 + off.toNat % 2 ^ 19)


/-- R172: `tla`. -/
def execTla (d a b off : Nat) (s : State) : Out := s.putS d (windowAddr 0xF10000000000 2048 (s.sreg a) (s.sreg b + imm22 off))

/-- R172: `gla`. -/
def execGla (d a b off : Nat) (s : State) : Out := s.putS d (windowAddr 0xF20000000000 1024 (s.sreg a) (s.sreg b + imm22 off))

/-- R173: `addi`. -/
def execAddi (d a imm : Nat) (s : State) : Out := s.putS d (s.sreg a + imm34 imm)

/-- R173: `muli`. -/
def execMuli (d a imm : Nat) (s : State) : Out := s.putS d (s.sreg a * imm34 imm)

/-- R173: `andi`. -/
def execAndi (d a imm : Nat) (s : State) : Out := s.putS d (s.sreg a &&& imm34 imm)

/-- R173: `ori`. -/
def execOri (d a imm : Nat) (s : State) : Out := s.putS d (s.sreg a ||| imm34 imm)

/-- R173: `xori`. -/
def execXori (d a imm : Nat) (s : State) : Out := s.putS d (s.sreg a ^^^ imm34 imm)

/-- R173: `slli`. -/
def execSlli (d a imm : Nat) (s : State) : Out := s.putS d (s.sreg a <<< imm)

/-- R173: `srli`. -/
def execSrli (d a imm : Nat) (s : State) : Out := s.putS d (s.sreg a >>> imm)

/-- R173: `srai`. -/
def execSrai (d a imm : Nat) (s : State) : Out := s.putS d ((s.sreg a).sshiftRight imm)

/-- R173: `li`. -/
def execLi (d imm : Nat) (s : State) : Out := s.putS d (imm34 imm)

/-- R173: `lih`: the low 34 bits of a below the unsigned immediate. -/
def execLih (d a imm : Nat) (s : State) : Out := s.putS d (word ((s.sreg a).toNat % 2 ^ 34 + imm * 2 ^ 34))

/-- R174: `ceq`. -/
def execCeq (d a b : Nat) (s : State) : Out := s.putP d (s.sreg a == s.sreg b)

/-- R174: `cne`. -/
def execCne (d a b : Nat) (s : State) : Out := s.putP d (s.sreg a != s.sreg b)

/-- R174: `clt`. -/
def execClt (d a b : Nat) (s : State) : Out := s.putP d ((s.sreg a).slt (s.sreg b))

/-- R174: `cle`. -/
def execCle (d a b : Nat) (s : State) : Out := s.putP d ((s.sreg a).sle (s.sreg b))

/-- R174: `cltn`. -/
def execCltn (d a b : Nat) (s : State) : Out := s.putP d ((s.sreg a).ult (s.sreg b))

/-- R174: `clen`. -/
def execClen (d a b : Nat) (s : State) : Out := s.putP d ((s.sreg a).ule (s.sreg b))

/-- R174: `ceqi`. -/
def execCeqi (d a imm : Nat) (s : State) : Out := s.putP d (s.sreg a == (imm34 imm))

/-- R174: `cnei`. -/
def execCnei (d a imm : Nat) (s : State) : Out := s.putP d (s.sreg a != (imm34 imm))

/-- R174: `clti`. -/
def execClti (d a imm : Nat) (s : State) : Out := s.putP d ((s.sreg a).slt (imm34 imm))

/-- R174: `clei`. -/
def execClei (d a imm : Nat) (s : State) : Out := s.putP d ((s.sreg a).sle (imm34 imm))

/-- R174: `cltni`. -/
def execCltni (d a imm : Nat) (s : State) : Out := s.putP d ((s.sreg a).ult (imm34 imm))

/-- R174: `cleni`. -/
def execCleni (d a imm : Nat) (s : State) : Out := s.putP d ((s.sreg a).ule (imm34 imm))

/-- R175: `pand`. -/
def execPand (d a b : Nat) (s : State) : Out := s.putP d (s.preg a && s.preg b)

/-- R175: `por`. -/
def execPor (d a b : Nat) (s : State) : Out := s.putP d (s.preg a || s.preg b)

/-- R175: `pxor`. -/
def execPxor (d a b : Nat) (s : State) : Out := s.putP d (s.preg a != s.preg b)

/-- R175: `pandn`. -/
def execPandn (d a b : Nat) (s : State) : Out := s.putP d (s.preg a && !s.preg b)

/-- R175: `pmov`. -/
def execPmov (d a : Nat) (s : State) : Out := s.putP d (s.preg a)

/-- R175: `pset`. -/
def execPset (d imm : Nat) (s : State) : Out := s.putP d (imm == 1)

/-- R176: `br`. -/
def execBr (imm : Nat) (s : State) : Out := branchTo none (s.core.pc + 8 * imm34 imm) s

/-- R176: `brl`. -/
def execBrl (d imm : Nat) (s : State) : Out := branchTo (some d) (s.core.pc + 8 * imm34 imm) s

/-- R176: `jr`. -/
def execJr (a imm : Nat) (s : State) : Out := branchTo none (s.sreg a + 8 * imm34 imm) s

/-- R176: `jrl`; the target is read before the link is written. -/
def execJrl (d a imm : Nat) (s : State) : Out := branchTo (some d) (s.sreg a + 8 * imm34 imm) s

/-- R143: `nop`. -/
def execNop (s : State) : Out := .next s.advance


end Sys2Proof.Machine
end

