-- ==== Sys2Proof/Machine/ScalarMemory.lean ====
section
/-! DEFINITION. Loads, stores and local atomics of the scalar engine (R178 to R182). -/

namespace Sys2Proof.Machine


/-- R178: `ldb`. -/
def execLdb (d a ow _om _sc imm : Nat) (s : State) : Out := runM (loadOp 1 true d a ow imm) s

/-- R178: `ldbn`. -/
def execLdbn (d a ow _om _sc imm : Nat) (s : State) : Out := runM (loadOp 1 false d a ow imm) s

/-- R178: `ldh`. -/
def execLdh (d a ow _om _sc imm : Nat) (s : State) : Out := runM (loadOp 2 true d a ow imm) s

/-- R178: `ldhn`. -/
def execLdhn (d a ow _om _sc imm : Nat) (s : State) : Out := runM (loadOp 2 false d a ow imm) s

/-- R178: `ldw`. -/
def execLdw (d a ow _om _sc imm : Nat) (s : State) : Out := runM (loadOp 4 true d a ow imm) s

/-- R178: `ldwn`. -/
def execLdwn (d a ow _om _sc imm : Nat) (s : State) : Out := runM (loadOp 4 false d a ow imm) s

/-- R178: `ldd`. -/
def execLdd (d a ow _om _sc imm : Nat) (s : State) : Out := runM (loadOp 8 false d a ow imm) s

/-- R178: `stb`. -/
def execStb (d a ow _om _sc imm : Nat) (s : State) : Out := runM (storeOp 1 d a ow imm) s

/-- R178: `sth`. -/
def execSth (d a ow _om _sc imm : Nat) (s : State) : Out := runM (storeOp 2 d a ow imm) s

/-- R178: `stw`. -/
def execStw (d a ow _om _sc imm : Nat) (s : State) : Out := runM (storeOp 4 d a ow imm) s

/-- R178: `std`. -/
def execStd (d a ow _om _sc imm : Nat) (s : State) : Out := runM (storeOp 8 d a ow imm) s

/-- R181: `aadd`. -/
def execAadd (d a b ow _om _sc imm : Nat) (s : State) : Out := runM (atomicOp (fun old b _ => some (old + b)) d a b ow imm) s

/-- R181: `aand`. -/
def execAand (d a b ow _om _sc imm : Nat) (s : State) : Out := runM (atomicOp (fun old b _ => some (old &&& b)) d a b ow imm) s

/-- R181: `aor`. -/
def execAor (d a b ow _om _sc imm : Nat) (s : State) : Out := runM (atomicOp (fun old b _ => some (old ||| b)) d a b ow imm) s

/-- R181: `axor`. -/
def execAxor (d a b ow _om _sc imm : Nat) (s : State) : Out := runM (atomicOp (fun old b _ => some (old ^^^ b)) d a b ow imm) s

/-- R181: `amin`. -/
def execAmin (d a b ow _om _sc imm : Nat) (s : State) : Out := runM (atomicOp (fun old b _ => some (if b.slt old then b else old)) d a b ow imm) s

/-- R181: `amax`. -/
def execAmax (d a b ow _om _sc imm : Nat) (s : State) : Out := runM (atomicOp (fun old b _ => some (if old.slt b then b else old)) d a b ow imm) s

/-- R181: `aminn`. -/
def execAminn (d a b ow _om _sc imm : Nat) (s : State) : Out := runM (atomicOp (fun old b _ => some (if b < old then b else old)) d a b ow imm) s

/-- R181: `amaxn`. -/
def execAmaxn (d a b ow _om _sc imm : Nat) (s : State) : Out := runM (atomicOp (fun old b _ => some (if old < b then b else old)) d a b ow imm) s

/-- R181: `aswap`. -/
def execAswap (d a b ow _om _sc imm : Nat) (s : State) : Out := runM (atomicOp (fun _ b _ => some b) d a b ow imm) s

/-- R181: `acas`; nothing is written when the comparison fails. -/
def execAcas (d a b ow _om _sc imm : Nat) (s : State) : Out := runM (atomicOp (fun old b x => if old = x then some b else none) d a b ow imm) s


end Sys2Proof.Machine
end

