-- ==== Sys2Proof/Machine/ScalarSystem.lean ====
section
/-! DEFINITION. Fences, order registers and system instructions of the scalar engine (R124, R125, R183 to R185, R197). -/

namespace Sys2Proof.Machine

/-- R125: PROTECT of a fence whose object the device does not know. -/
def fenceObject (a sc : Nat) : M Unit := do
  let s ← get
  let v := s.sreg a
  if s.knownObject sc v.toNat then pure ()
  else raiseTrap { code := cPROTECT, i1 := 10, i2 := v, i3 := s.regionInfo }

/-- R125: a fence waits until every engine operation the core issued before it is performed; single accesses are performed as they
issue (assumption 9). -/
def fenceOp (a sc : Nat) : M Unit := do
  fenceObject a sc
  let s ← get
  if s.noneLive sc then advanceM else waitHere

/-- R125: `fence.acq`. -/
def execFenceAcq (a sc : Nat) (s : State) : Out := runM (fenceOp a sc) s

/-- R125: `fence.rel`. -/
def execFenceRel (a sc : Nat) (s : State) : Out := runM (fenceOp a sc) s

/-- R125: `fence.full`. -/
def execFenceFull (a sc : Nat) (s : State) : Out := runM (fenceOp a sc) s

/-- R125: `ojoin`: the union of two sets. -/
def execOjoin (d a b : Nat) (s : State) : Out :=
  .next ((s.mapCore (fun c => c.setO d (unionSorted (c.oset a) (c.oset b)))).advance)

/-- R125: `owait`. -/
def execOwait (ow _sc : Nat) (s : State) : Out := runM (do waitOw ow; advanceM) s

/-- R125: `oclr`. -/
def execOclr (om : Nat) (s : State) : Out := .next ((s.mapCore (fun c => c.setO om [])).advance)

/-- R184: `trap`. -/
def execTrap (a b imm : Nat) (s : State) : Out :=
  .next (s.takeTrap { code := imm, i0 := s.sreg a, i1 := s.sreg b, sw := true })

/-- R184: `brk`. -/
def execBrk (imm : Nat) (s : State) : Out := .next (s.takeTrap { code := cBREAK, i0 := word imm })

/-- R197: `tret`. -/
def execTret (s : State) : Out :=
  if s.core.lvl = 0 ∧ s.core.plv = 1 then .next (s.takeTrap (privTrap s 2 0)) else .next (s.mapCore Core.leave)

/-- R162, R184: `sysr`. -/
def execSysr (d imm : Nat) (s : State) : Out :=
  match sysAccess s.isFiring s.atM imm with
  | .p n => .next (s.takeTrap (privTrap s n imm))
  | .z => s.putS d 0
  | _ => .next (((s.setS d (s.sysValue imm)).sysReadEffect imm).advance)

/-- R162, R184: `sysw`; a write to a read-only register is ignored. -/
def execSysw (a imm : Nat) (s : State) : Out :=
  match sysAccess s.isFiring s.atM imm with
  | .p n => .next (s.takeTrap (privTrap s n imm))
  | .rw => .next ((s.sysWritten imm (s.sreg a)).advance)
  | _ => .next s.advance

/-- R185: the instruction waits for its target; the core keeps the cycle at which it began. -/
def State.sleep (s : State) (done : Bool) : State :=
  if done then s.advance
  else s.mapCore (fun c => { c with waitFrom := c.waitFrom.or (some (s.cycle, s.gtime)) })

/-- R185: `sleepc`: waits until CYCLE reaches its target. -/
def execSleepc (a imm : Nat) (s : State) : Out := .next (s.sleep (decide ((s.sreg a + imm22 imm).toNat ≤ s.cycle)))

/-- R185: `waittick`: waits until GTIME reaches its target. -/
def execWaittick (a imm : Nat) (s : State) : Out := .next (s.sleep (decide ((s.sreg a + imm22 imm).toNat ≤ s.gtime)))

end Sys2Proof.Machine
end

