-- ==== Sys2Proof/Machine/HubOps.lean ====
section
/-! DEFINITION. The instructions of MAJ 0xB8 (R390 to R404): remote accesses, edition stores and waits, cross-device overprint loads,
registration and the cross-device fence. -/

namespace Sys2Proof.Machine

/-! ## Issue -/

/-- R391: the checks of a target word and an offset. -/
def hubChecks (a b : Word) (n : Nat) : M Unit :=
  if b.toNat / 2 ^ 42 ≠ 0 then raiseTrap { code := cPROTECT, i0 := a, i1 := 13, i2 := b }
  else if a.toNat % n ≠ 0 then raiseTrap { code := cMISALIGN, i0 := a, i1 := word n }
  else pure ()

/-- An operation of the hub enters its list, OM's set gains it (R122); `parts` are the member reads it consists of. -/
def enterHub (om : Nat) (op : HubOp) (parts : List HubOp) : M Nat := do
  let s ← get
  let (id, s) := s.issueOp om true
  let op := { op with id := id, core := s.cur, pc := s.core.pc }
  let ps := (List.range parts.length).filterMap (fun i => parts[i]?.map (fun (p : HubOp) =>
    { p with id := s.nextId + i, core := s.cur, pc := s.core.pc, parent := id }))
  set { s with nextId := s.nextId + parts.length, hub := { s.hub with ops := s.hub.ops ++ op :: ps } }
  pure id

/-- R392: an operation issues once; where `block` holds the instruction completes when it is answered, else it completes at once and the
answer comes later. -/
def hubInstr (om : Nat) (block ext : Bool) (mk : M (HubOp × List HubOp)) : M Unit := do
  let s ← get
  match s.core.waitOp with
  | some id => if (s.hubOp id).any (fun o => o.fn != 18) then waitHere else advanceM
  | none =>
    let (op, ps) ← mk
    let id ← enterHub om op ps
    if ext then markExt
    let send (s : State) : State := match s.hubOp id with
      | some op => if op.fn = 5 ∧ !s.hubParts id then s.settleXovld op else s.hubPump
      | none => s
    if block then
      modify (fun s => send (s.mapCore (fun c => { c with waitOp := some id })))
      waitHere
    else
      advanceM
      modify send

/-! ## Remote single access (R393) -/

/-- What `xld`, `xst` and `xamo` share: the checks, the wait on OW, and the request. -/
def remoteHub (fn d a b ow sz sx o e : Nat) : M (HubOp × List HubOp) := do
  let s ← get
  let n := 2 ^ sz
  let w := (s.sreg b).toNat
  hubChecks (s.sreg a) (s.sreg b) n
  waitOw ow
  pure ({ id := 0, fn := fn, core := 0, pc := 0, node := bits w 32 10, d := d, n := n, sx := sx == 1, o := o, off := (s.sreg a).toNat,
          target := w, data := (s.sreg e).toNat % 2 ^ (8 * n), cmp := (s.sreg d).toNat % 2 ^ (8 * n) }, [])

/-- R393: `xld`. -/
def execXld (d a b ow om _sc sz sx : Nat) (s : State) : Out := runM (hubInstr om true false (remoteHub 0 d a b ow sz sx 0 0)) s

/-- R393: `xst`. -/
def execXst (d a b ow om _sc sz : Nat) (s : State) : Out := runM (hubInstr om (!s.isFiring) true (remoteHub 1 d a b ow sz 0 0 d)) s

/-- R393: `xamo`. -/
def execXamo (d a b ow om _sc sz sx o e : Nat) (s : State) : Out := runM (hubInstr om true true (remoteHub 2 d a b ow sz sx o e)) s

/-! ## Editions (R396, R398) -/

/-- R226: the v register of an S/V operand can be read. -/
def readableSV (d : Nat) : M Unit := do
  let s ← get
  if 32 ≤ d && s.core.badReg.contains d then
    modify (fun s => s.countHard (dieOf s.cur) 4)
    raiseTrap { code := cECC, i0 := word d, i1 := 4, i3 := s.regionInfo }

/-- R396: `edst`; `e` receives the edition number. -/
def execEdst (d a b ow om _sc e cnt : Nat) (s : State) : Out :=
  runM (hubInstr om (!s.isFiring || e != 0) true (do
    let s ← get
    let g := (s.sreg b).toNat
    let o := s.sreg a
    readableSV d
    if 4095 < g then raiseTrap { code := cPROTECT, i0 := o, i1 := 14, i2 := word g }
    if o.toNat % 4 ≠ 0 then raiseTrap { code := cMISALIGN, i0 := o, i1 := 4 }
    if (s.edition g).st = 0 then raiseTrap { code := cPROTECT, i0 := o, i1 := 14, i2 := word g }
    waitOw ow
    let n := 4 * (cnt + 1)
    let data := (if 32 ≤ d then (s.vreg d).toNat else (s.sreg d).toNat) % 2 ^ (8 * n)
    pure ({ id := 0, fn := 3, core := 0, pc := 0, node := (s.edition g).homeNode, d := d, x := e, n := n, off := o.toNat, target := g,
            data := data }, []))) s

/-- R398: `edwait`. -/
def execEdwait (d a b ow _om _sc : Nat) (s : State) : Out :=
  runM (do
    waitOw ow
    let s ← get
    let g := s.sreg a
    let tgt := s.sreg b
    let e := if g.toNat < 4096 then s.edition g.toNat else {}
    let gap (i1 i2 : Nat) : M Unit := raiseTrap { code := cEDITION_GAP, i0 := g, i1 := word i1, i2 := word i2, i3 := tgt }
    if tgt.toNat ≤ e.applied then
      modify (fun s => s.setS d (word e.applied))
      advanceM
    else if e.st = 2 then gap 1 e.applied
    else if e.st = 3 then gap 2 e.applied
    else if e.st = 0 ∨ !e.member then gap 4 0
    else boundedWait (s.sreg d).toNat { code := cWAIT_LIMIT, i0 := g, i1 := word e.applied, i2 := tgt, i3 := s.sreg d }) s

/-! ## Cross-device overprint loads (R401 to R403) -/

/-- R401: the descriptor of peer group p: POLICY is SKIP, member count, first entry; none where it holds no group. -/
def State.peerGroup (s : State) (p : Nat) : Option (Bool × Nat × Nat) :=
  let x := if p < 256 then Sparse.get 0 s.hub.groups p else 0
  if x.testBit 0 then some (x.testBit 1, bits x 2 10 + 1, bits x 13 13) else none

/-- R403: `xovld`: the absent members are sampled as it issues; under FAIL one of them makes it fail, else each present one is read. -/
def execXovld (d a b ow om _sc ty o cnt : Nat) (s : State) : Out :=
  runM (hubInstr om true false (do
    let s ← get
    let off := s.sreg a
    match s.peerGroup (s.sreg b).toNat with
    | none => raiseTrap { code := cTILE_RANGE, i0 := off, i1 := s.sreg b }
    | some (skip, n, base) =>
      if off.toNat % 4 ≠ 0 then raiseTrap { code := cMISALIGN, i0 := off, i1 := 4 }
      waitOw ow
      let mem (i : Nat) : Nat := Sparse.get 0 s.hub.members (base + i)
      let abs := (List.range n).filter (fun i => s.nodeAbsent (mem i % 1024))
      if !skip && !abs.isEmpty then raiseTrap (absentTrap off abs)
      let len := 4 * (cnt + 1)
      let parts := ((List.range n).filter (fun i => !abs.contains i)).map (fun i =>
        let x := mem i
        let p : HubOp := { id := 0, fn := 17, core := 0, pc := 0, node := x % 1024, n := len, off := (bits x 64 64 + off.toNat) % 2 ^ 64,
                           target := bits x 32 32, member := i }
        p)
      pure ({ id := 0, fn := 5, core := 0, pc := 0, node := s.hub.node, d := d, n := len, o := o, ty := ty, off := off.toNat,
              target := (s.sreg b).toNat, count := n }, parts))) s

/-! ## The fence (R394) -/

/-- R394: the hub operations that `xfence` waits for: those not yet answered, an answered `edst` being completed (R392). -/
def State.fencedHub (s : State) (sc a : Nat) : Bool :=
  let nd := a % 1024
  if sc = 8 ∧ (Sparse.get 0 s.hub.routes nd = 0 ∨ (s.conn nd).st = 0) then false
  else s.hub.ops.any (fun o => o.core == s.cur && o.fn != 18 && (sc != 8 || o.node == nd))

/-- R394: `xfence`. -/
def execXfence (a ow _om sc : Nat) (s : State) : Out :=
  runM (do
    waitOw ow
    let s ← get
    if s.fencedHub sc (s.sreg a).toNat then waitHere
    fenceOp a sc) s

/-! ## Registration (R385, R386, R389, R404) -/

/-- Bytes of a record as a number. -/
def byteAt (x i n : Nat) : Nat := bits x (8 * i) (8 * n)

/-- R386: the entry of a registration record; none when it is refused. `m` marks level M. -/
def keyOf (x : Nat) (m : Bool) : Option Key :=
  let k : Key := { base := byteAt x 0 8, len := byteAt x 8 8, perm := byteAt x 16 1, space := byteAt x 17 1, region := byteAt x 18 1,
                   index := byteAt x 20 2 }
  let zeros := byteAt x 19 1 = 0 ∧ byteAt x 22 10 = 0
  let place : Bool :=
    if k.space = 1 then
      decide (k.base / 2 ^ 40 = 0xF1 ∧ bits k.base 30 10 = 0 ∧ k.base % 2 ^ 19 + k.len ≤ 0x7C000)
    else decide (k.base + k.len ≤ 2 ^ 47)
  if zeros ∧ k.base % 64 = 0 ∧ 1 ≤ k.len ∧ k.len ≤ 2 ^ 40 ∧ k.perm < 8 ∧ k.space < 4 ∧ (k.space = 3 → m) ∧ k.region < 128 ∧
      (2 ≤ k.space → k.region = 0) ∧ k.index < 4096 ∧ place then some k else none

/-- R404: `rkreg` of a checked record. -/
def State.register (s : State) (d om : Nat) (k : Key) : State :=
  let old := Sparse.get {} s.hub.keys k.index
  let (id, s) := s.issueOp om false
  let s := s.retire id
  if old.live then s.setS d (word (2 ^ 63 + cSLOT_STATE))
  else
    let g := if old.gen + 1 = 2 ^ 20 then 1 else old.gen + 1
    let s := s.mapHub (fun h => { h with keys := Sparse.set {} h.keys k.index { k with live := true, gen := g } })
    s.setS d (word (k.index * 2 ^ 20 + g))

/-- R404: the check of a record's address, aligned to 32. R411 gives its MISALIGN with TRAPINFO2 and TRAPINFO3 zero. -/
def recordCheck (a : Word) : M Unit := fun s =>
  match checkAccess .control .read 32 32 a s with
  | .ok _ s => .ok () s
  | .error (.trap t) s => .error (.trap (if t.code = cMISALIGN then { t with i2 := 0, i3 := 0 } else t)) s
  | .error .wait s => .error .wait s

/-- R404: the 32 bytes of a record, read as a control core reads them. -/
def recordAt (a : Word) : M Nat := do
  recordCheck a
  let mut x := 0
  for i in [0, 1, 2, 3] do
    let ea := a + word (8 * i)
    let pl ← checkAccess .control .read 8 8 ea
    let v ← readPlace ea 8 pl
    x := x + v * 2 ^ (64 * i)
  pure x

/-- R404: `rkreg`. -/
def execRkreg (d a ow om _sc : Nat) (s : State) : Out :=
  runM (do
    let s ← get
    recordCheck (s.sreg a)
    waitOw ow
    let x ← recordAt (s.sreg a)
    let s ← get
    match keyOf x s.atM with
    | none =>
      let (id, s) := s.issueOp om false
      set ((s.retire id).setS d (word (2 ^ 63 + cCONFIG_REJECT)))
    | some k => set (s.register d om k)
    advanceM) s

/-- R389, R404: `rkrev`: a request is performed in the step that checks its key, so none is outstanding. -/
def execRkrev (d a ow om _sc : Nat) (s : State) : Out :=
  runM (do
    waitOw ow
    let s ← get
    let x := (s.sreg a).toNat
    let i := bits x 20 12
    let k := Sparse.get {} s.hub.keys i
    let (id, s) := s.issueOp om false
    let s := s.retire id
    if x / 2 ^ 32 ≠ 0 ∨ !k.live ∨ k.gen ≠ x % 2 ^ 20 then set (s.setS d (word (2 ^ 63 + cRKEY)))
    else set ((s.mapHub (fun h => { h with keys := Sparse.set {} h.keys i { k with live := false } })).setS d 0)
    advanceM) s

end Sys2Proof.Machine
end

