-- ==== Sys2Proof/Machine/HubMessages.lean ====
section
/-! DEFINITION. The messages that arrive at the link hub (R374, R382 to R384, R388, R396, R397) and the timeouts of its connections and
editions. A message of the own node is one that waits in the loopback. -/

namespace Sys2Proof.Machine

/-! ## Memory behind a key (R386, R388) -/

/-- The hub as an agent of the walker. -/
def hubAgent : Nat := 18689

/-- Why a target refuses: code, reason and the PTE examined (R374, R388). -/
structure Refused where
  code : Nat
  reason : Nat
  pte : Nat := 0
deriving DecidableEq, Repr

/-- An operation at a home. -/
abbrev HM (α : Type) := EStateM Refused State α

/-- R386, R388: the key of the byte at an address of a space. -/
def homeKey (space region addr : Nat) (rw : Rw) : HM Nat := do
  let s ← get
  if space = 1 then
    match (s.region region).resolve (bits addr 19 11) with
    | some p => pure (tileBase p + addr % 2 ^ 19)
    | none => throw { code := cTILE_RANGE, reason := bits addr 19 11 % 256 }
  else
    let g := if space = 0 then region else if space = 2 then 128 else 129
    let (r, s) := s.access hubAgent g addr rw false
    set s
    match r with
    | .ok (.mem k) => pure k
    | .ok (.sys _) => throw { code := cPROTECT, reason := 8 }
    | .error (c, i1, i2) => throw { code := c, reason := i1.toNat % 256, pte := i2.toNat }

/-- The keys of n bytes, in pieces within aligned 8 bytes: key and length of each. -/
def homeKeys (space region addr : Nat) (rw : Rw) : Nat → Nat → HM (List (Nat × Nat))
  | 0, _ => pure []
  | fuel + 1, n => do
    if n = 0 then pure []
    else
      let l := min n (8 - addr % 8)
      let k ← homeKey space region addr rw
      let rest ← homeKeys space region (addr + l) rw fuel (n - l)
      pure ((k, l) :: rest)

/-- An uncorrectable error at a home, counted (R466). -/
def homeEcc {α : Type} (key reason : Nat) : HM α := do
  modify (fun s => s.countHard (dieOfKey key) (errClass key))
  throw { code := cECC, reason := reason }

/-- The bytes of pieces. -/
def homeRead : List (Nat × Nat) → HM Nat
  | [] => pure 0
  | (k, l) :: ps => do
    let s ← get
    if s.readBad k l then homeEcc k 1
    else
      let v ← homeRead ps
      pure (s.rd k l + v * 2 ^ (8 * l))

/-- Bytes written to pieces. -/
def homeWrite : List (Nat × Nat) → Nat → HM Unit
  | [], _ => pure ()
  | (k, l) :: ps, v => do
    modify (fun s => s.wr k l (v % 2 ^ (8 * l)))
    homeWrite ps (v / 2 ^ (8 * l))

/-- No piece lies in part on a check word in error. -/
def homeClean : List (Nat × Nat) → HM Unit
  | [] => pure ()
  | (k, l) :: ps => do
    if (← get).writeBad k l then homeEcc k 3
    homeClean ps

/-- R388: the checks of a request that bears a key, and the pieces of its bytes. -/
def keyed (key off n : Nat) (rd wr amo : Bool) : HM (List (Nat × Nat)) := do
  let s ← get
  let e := Sparse.get {} s.hub.keys (bits key 20 12)
  let bad (r : Nat) : HM (List (Nat × Nat)) := throw { code := cRKEY, reason := r }
  if !e.live ∨ e.gen ≠ key % 2 ^ 20 then bad 1
  else if e.len < off + n then bad 2
  else if rd && !e.perm.testBit 0 then bad 3
  else if wr && !e.perm.testBit 1 then bad 4
  else if amo && !e.perm.testBit 2 then bad 5
  else if e.space ≤ 1 ∧ !(s.region e.region).live then bad 6
  else homeKeys e.space e.region (e.base + off) (if amo then .atomic else if wr then .write else .read) (n / 8 + 2) n

/-! ## Editions (R396, R397) -/

/-- R397: a message of edition k written at a member. -/
def editionWrite (e : Edition) (m : Msg) : HM Unit := do
  let ps ← homeKeys e.copySpace e.region (e.copyBase.toNat + m.b) .write (m.c / 8 + 2) m.c
  homeClean ps
  homeWrite ps m.data

/-- R397: a member applies a message, the next of its group; a fault freezes the group and is reported. -/
def State.applyOne (s : State) (g : Nat) (m : Msg) : State :=
  match editionWrite (s.edition g) m s with
  | .ok _ s => s.setEdition g { s.edition g with applied := m.e, gapFrom := some s.refClock }
  | .error f s =>
    let s := s.setEdition g { s.edition g with st := 3 }
    s.mapHub (fun h => { h with reports := h.reports ++ [(f.code, f.reason, g, m.e, 0)] })

/-- The response to a request. -/
def State.reply (s : State) (m : Msg) (ty a b c data : Nat) : State :=
  s.sendMsg 0 { ty := ty, src := s.hub.node, dst := m.src, epoch := m.epoch, seq := m.seq, a := a, b := b, c := c, data := data }

/-- An edition message is acknowledged: it has been applied, or never will be (assumption 56). -/
def State.ackEdition (s : State) (m : Msg) : State := s.reply m tyACK 0 0 0 0

/-- R397: the held editions that have become next, in turn; each is acknowledged once applied. -/
def State.applyHeld (s : State) (g : Nat) : Nat → State
  | 0 => s
  | fuel + 1 =>
    let e := s.edition g
    let held := e.held.filter (fun m => decide (e.applied < m.e))
    let s := s.setEdition g { e with held := held }
    match held.find? (fun m => m.e = e.applied + 1) with
    | some m => if e.st = 3 then s else ((s.applyOne g m).ackEdition m).applyHeld g fuel
    | none => s

/-- R397: an edition message at a member; none where it is refused. One that is held is acknowledged when it is applied (R374). -/
def State.onEdition (s : State) (m : Msg) : Option State :=
  let g := m.a
  let e := s.edition g
  if 4096 ≤ g then some (s.ackEdition m)
  else if m.d ≠ e.epoch ∨ e.st = 0 ∨ e.st = 3 then some ((s.setEdition g { e with dropped := min (e.dropped + 1) (2 ^ 32 - 1) }).ackEdition m)
  else if m.e ≤ e.applied then some (s.ackEdition m)
  else if e.applied + 1 < m.e then
    if e.held.any (fun x => x.e = m.e) then some s
    else if 64 ≤ e.held.length then none
    else some (s.setEdition g { e with held := e.held ++ [m], gapFrom := e.gapFrom.or (some s.refClock) })
  else
    let s := ((s.applyOne g m).ackEdition m).applyHeld g 65
    let e := s.edition g
    some (if e.held.isEmpty then s.setEdition g { e with gapFrom := none, st := if e.st = 2 then 1 else e.st } else s)

/-- R396: the home stamps a store and sends it to every member, in ascending order: the edition number. -/
def State.stamp (s : State) (m : Msg) (parent : Nat) : Nat × State :=
  let g := m.a
  let e := s.edition g
  let k := e.next
  let s := s.setEdition g { e with next := k + 1 }
  let ms := (List.range 1024).filter (fun n => e.bitmap.testBit n)
  let ops := (List.range ms.length).filterMap (fun i => ms[i]?.map (fun n =>
    let op : HubOp := { id := s.nextId + i, fn := 16, core := 1000000, pc := 0, node := n, n := m.c, off := m.b, target := g, data := m.data,
                        epoch := e.epoch, edition := k, parent := parent }
    op))
  (k, { s with nextId := s.nextId + ops.length, hub := { s.hub with ops := s.hub.ops ++ ops } })

/-! ## Requests at the target (R383, R384, R388) -/

/-- R383: a request is refused with a code, a reason and a table entry; one that comes again is answered so again, for it has not been
performed (assumption 93). -/
def State.refuse (s : State) (m : Msg) (code reason pte : Nat) : State :=
  let x := s.source_ m.src
  let s := if x.refused.any (fun e => e.1 = m.seq) then s else s.setSource m.src { x with refused := x.refused ++ [(m.seq, code, reason, pte)] }
  s.reply m tyERR code reason pte 0

/-- The answer to a keyed request: `f` gives the response of one that is performed. -/
def State.answerHM {α : Type} (s : State) (m : Msg) (x : HM α) (f : α → State → State) : State :=
  match x s with
  | .ok v s => f v s
  | .error r s => s.refuse m r.code r.reason r.pte

/-- R384, R388: a read. -/
def State.onLd (s : State) (m : Msg) : State :=
  s.answerHM m (do homeRead (← keyed m.a m.b m.c true false false)) (fun v s => s.reply m tyDATA 0 0 0 v)

/-- The parent of the edition messages that a store causes: the own `edst`, or nothing. -/
def State.parentOf (s : State) (m : Msg) : Nat :=
  if m.src = s.hub.node then
    ((s.hub.ops.find? (fun (o : HubOp) => o.fn = 3 ∧ o.node = m.src ∧ o.seq = some m.seq)).map HubOp.id).getD (2 ^ 64)
  else 2 ^ 64

/-- A request performed for the first time; none where it is refused. -/
def State.onRequest (s : State) (m : Msg) : Option State :=
  if m.ty = tyLD then some (s.onLd m)
  else if m.ty = tyST then
    some (s.answerHM m (do
      let ps ← keyed m.a m.b m.c false true false
      homeClean ps
      homeWrite ps m.data) (fun _ s => s.reply m tyACK 0 0 0 0))
  else if m.ty = tyAMO then
    some (s.answerHM m (do
      let ps ← keyed m.a m.b m.c true true true
      let old ← homeRead ps
      homeWrite ps (atomicVal m.d m.c old m.data m.e)
      pure old) (fun old s =>
        let s := s.mapHub (fun h => { h with replies := h.replies ++ [{ src := m.src, epoch := m.epoch, seq := m.seq, val := old, at_ := s.gtime }] })
        s.reply m tyDATA 0 0 0 old))
  else if m.ty = tyEDST then
    let e := if m.a < 4096 then s.edition m.a else {}
    if e.st ≠ 1 ∨ !e.home then some (s.refuse m cEDITION_GAP 3 0)
    else if e.edLen < m.b + m.c then some (s.refuse m cPROTECT 14 0)
    else
      let (k, s) := s.stamp m (s.parentOf m)
      some ((s.reply m tyEDNUM 0 0 0 k).hubPump)
  else s.onEdition m

/-- R383, R384: a request that comes again: a duplicate of one performed, or one that was refused or is still held (R397). -/
def State.onDuplicate (s : State) (m : Msg) : State :=
  if m.ty = tyLD then s.onLd m
  else match (s.source_ m.src).refused.find? (fun e => e.1 = m.seq) with
  | some (_, code, reason, pte) => s.reply m tyERR code reason pte 0
  | none =>
  if m.ty = tyAMO then
    match s.hub.replies.find? (fun r => r.src = m.src ∧ r.epoch = m.epoch ∧ r.seq = m.seq ∧ s.gtime - r.at_ ≤ 1000000) with
    | some r => s.reply m tyDATA 0 0 0 r.val
    | none => s.reply m tySTALE 0 0 0 0
  else if m.ty = tyEDAPPLY ∧ (s.edition m.a).held.any (fun x => x.src = m.src ∧ x.epoch = m.epoch ∧ x.seq = m.seq) then s
  else s.reply m tyACK 0 0 0 0

/-- The held requests of a source that have become next, in turn. -/
def State.drainSource (s : State) (src : Nat) : Nat → State
  | 0 => s
  | fuel + 1 =>
    let x := s.source_ src
    match x.held.find? (fun m => m.seq = x.expect) with
    | none => s
    | some m =>
      let s := s.setSource src { x with held := x.held.filter (fun y => y.seq ≠ m.seq) }
      match s.onRequest m with
      | none => s
      | some s => (s.setSource src { s.source_ src with expect := (x.expect + 1) % 2 ^ 32 }).drainSource src fuel

/-- A message of the own node leaves the loopback; none where none such waits there, or the device has no number (R380, R381). -/
def State.receive (s : State) (m : Msg) : Option State :=
  if !s.hub.nvalid then none
  else if m.src = s.hub.node then
    if s.hub.loop.contains m then some (s.mapHub (fun h => { h with loop := h.loop.erase m })) else none
  else some s

/-- R383: a request arrives. -/
def State.request (s : State) (m : Msg) : State :=
  match s.receive m with
  | none => s
  | some s =>
    let x := s.source_ m.src
    let ahead := (m.seq + 2 ^ 32 - x.expect) % 2 ^ 32
    if !x.known ∨ x.epoch ≠ m.epoch then s
    else if ahead = 0 then
      match s.onRequest m with
      | none => s
      | some s => (s.setSource m.src { s.source_ m.src with expect := (x.expect + 1) % 2 ^ 32 }).drainSource m.src (x.held.length + 1)
    else if ahead < 2 ^ 31 then
      if x.held.any (fun y => y.seq = m.seq) then s else s.setSource m.src { x with held := x.held ++ [m] }
    else s.onDuplicate m

/-- R388: LD: a read of n bytes. -/
def execLd (src ep sq key off n : Nat) (s : State) : Out :=
  .next (s.request { ty := tyLD, src := src, dst := s.hub.node, epoch := ep, seq := sq, a := key, b := off, c := n })

/-- R388: ST. -/
def execSt (src ep sq key off sz val : Nat) (s : State) : Out :=
  .next (s.request { ty := tyST, src := src, dst := s.hub.node, epoch := ep, seq := sq, a := key, b := off, c := 2 ^ sz, data := val })

/-- R384: AMO. -/
def execAmo (src ep sq key off sz o val cmp : Nat) (s : State) : Out :=
  .next (s.request { ty := tyAMO, src := src, dst := s.hub.node, epoch := ep, seq := sq, a := key, b := off, c := 2 ^ sz, d := o, e := cmp, data := val })

/-- R396: EDST at the home. -/
def execEdstMessage (src ep sq g len off val : Nat) (s : State) : Out :=
  .next (s.request { ty := tyEDST, src := src, dst := s.hub.node, epoch := ep, seq := sq, a := g, b := off, c := len, data := val })

/-- R397: EDAPPLY at a member. -/
def execEdApply (src ep sq g len ge ed off val : Nat) (s : State) : Out :=
  .next (s.request { ty := tyEDAPPLY, src := src, dst := s.hub.node, epoch := ep, seq := sq, a := g, b := off, c := len, d := ge, e := ed, data := val })

/-! ## Responses -/

/-- R382, R383: a response arrives for an operation still outstanding; `f` ends it, where the response is of a kind that answers it. -/
def State.response (s : State) (m : Msg) (f : HubOp → State → Option State) : State :=
  match s.receive m with
  | none => s
  | some s =>
    let c := s.conn m.src
    match s.hub.ops.find? (fun (o : HubOp) => o.node = m.src ∧ o.seq = some m.seq) with
    | some op =>
      if c.epoch ≠ m.epoch ∨ (c.st ≠ 1 ∧ c.st ≠ 2) then s
      else (f op (s.setConn m.src { c with st := 1 })).getD s
    | none => s

/-- R393: DATA. -/
def execDataMsg (src ep sq val : Nat) (s : State) : Out :=
  .next (s.response { ty := tyDATA, src := src, dst := s.hub.node, epoch := ep, seq := sq, data := val } (fun op s =>
    let v := val % 2 ^ (8 * op.n)
    if op.fn = 0 ∨ op.fn = 2 then some (s.hubDone op none v 0)
    else if op.fn = 17 then some (s.partDone op (fun p => { p with got := p.got ++ [(op.member, v)] }))
    else none))

/-- R383: ACK; for an `edst` it tells of a duplicate, and its edition number is not known (assumption 24). -/
def execAckMsg (src ep sq : Nat) (s : State) : Out :=
  .next (s.response { ty := tyACK, src := src, dst := s.hub.node, epoch := ep, seq := sq } (fun op s =>
    if op.fn = 1 then some (s.hubDone op none 0 0)
    else if op.fn = 16 then some (s.partDone op id)
    else if op.fn = 3 then
      let (v, s) := s.free
      some (s.hubDone op none v.toNat 0)
    else none))

/-- R388: ERR: the issuer takes the code it is answered with. -/
def execErrMsg (src ep sq code rsn pte : Nat) (s : State) : Out :=
  .next (s.response { ty := tyERR, src := src, dst := s.hub.node, epoch := ep, seq := sq, a := code, b := rsn, c := pte } (fun op s =>
    if op.fn = 16 then some (s.partDone op id)
    else if op.fn = 17 then some (s.partDone op (fun p => { p with bad := p.bad ++ [(op.member, code)] }))
    else some (s.hubDone op (some { code := code, i0 := word op.off, i1 := word rsn, i2 := word op.target,
                                    i3 := if code = cRKEY then 0 else word pte }) 0 0)))

/-- R384: STALE. -/
def execStaleMsg (src ep sq : Nat) (s : State) : Out :=
  .next (s.response { ty := tySTALE, src := src, dst := s.hub.node, epoch := ep, seq := sq } (fun op s =>
    if op.fn = 2 then some (s.hubDone op (some { code := cSTALE, i0 := word op.off, i2 := word op.target, i3 := word sq }) 0 0) else none))

/-- R396: EDNUM. -/
def execEdNum (src ep sq ed : Nat) (s : State) : Out :=
  .next (s.response { ty := tyEDNUM, src := src, dst := s.hub.node, epoch := ep, seq := sq, data := ed } (fun op s =>
    if op.fn = 3 then some (s.hubDone { op with edition := ed } none ed 0) else none))

/-! ## Connections (R382, R384) -/

/-- R382, R383: OPEN: a new epoch discards what was held of the old one; the connection is accepted. -/
def execOpenMsg (src ep : Nat) (s : State) : Out :=
  .next (if !s.hub.nvalid ∨ src = s.hub.node then s
  else
    let x := s.source_ src
    let s := if x.known ∧ x.epoch = ep then s else s.setSource src { known := true, epoch := ep }
    s.sendMsg 0 { ty := tyACCEPT, src := s.hub.node, dst := src, epoch := ep, seq := 0 })

/-- R382: ACCEPT of the handshake in progress: UP, with EPOCH + 1 and NEXTSEQ 0. -/
def execAcceptMsg (src ep : Nat) (s : State) : Out :=
  .next (let c := s.conn src
  if s.hub.nvalid ∧ c.hand ∧ ep = (c.epoch + 1) % 2 ^ 16 then
    (s.setConn src { c with st := 1, epoch := ep, nextSeq := 0, hand := false }).hubPump
  else s)

/-- R380: RTO and CTO in ns. -/
def Hub.rtoNs (h : Hub) : Nat := max 2 h.rto * 1000
def Hub.ctoNs (h : Hub) : Nat := max 10 h.cto * 1000

/-- The requests of a connection not yet acknowledged. -/
def State.unacked (s : State) (nd : Nat) : List HubOp := s.hub.ops.filter (fun o => o.node == nd && o.seq.isSome)

/-- R396: the store of an answered `edst` has been applied at every member that is not left out; this device is one of them unless it is
`out`: the home's connection to it has gone DOWN. -/
def State.editionPerformed (s : State) (id : Nat) (out : Bool) : State :=
  match s.hubOp id with
  | some op =>
    let e := s.edition op.target
    if op.fn = 18 ∧ !s.hubParts id ∧ (out ∨ !e.member ∨ op.edition ≤ e.applied) then (s.dropHub id).retire id else s
  | none => s

/-- R382: RETRANSMIT_TIMEOUT: a request unacknowledged for RTO: RETRYING, and every such request resent on the next link that is UP. A device
with NVALID = 0 sends none (R380). -/
def execRetransmitTimeout (nd : Nat) (s : State) : Out :=
  .next (let c := s.conn nd
  let t := s.hub.rtoNs
  if s.hub.nvalid ∧ c.st = 1 ∧ (s.unacked nd).any (fun o => decide (o.at_ + t ≤ s.refClock)) ∧ c.sentAt + t ≤ s.refClock then
    let l := s.routeFrom nd (c.link + 1)
    let s := s.setConn nd { c with st := 2, sentAt := s.refClock, link := l.getD c.link }
    (s.unacked nd).foldl (fun s op =>
      let m := op.msg s.hub.node c.epoch
      match l with
      | some l => if nd = s.hub.node then s.sendMsg op.die m else s.setLink l ((s.link l).put m)
      | none => s.sendMsg op.die m) s
  else s)

/-- R382: CONNECTION_TIMEOUT: CTO has passed in the handshake, or with no acknowledgement of the oldest request. -/
def execConnectionTimeout (nd : Nat) (s : State) : Out :=
  .next (let c := s.conn nd
  let t := s.hub.ctoNs
  if c.hand then
    if c.since + t ≤ s.refClock then
      let s := s.setConn nd { c with hand := false }
      (s.hub.ops.filter (fun o => o.node == nd && o.seq.isNone && o.fn != 5)).foldl (fun s op => s.hubFail op 0) s
    else s
  else if (c.st = 1 ∨ c.st = 2) ∧ (s.unacked nd).any (fun o => decide (o.at_ + t ≤ s.refClock)) then s.connDown nd
  else s)

/-- R384: REPLY_CACHE_EXPIRY. -/
def execReplyCacheExpiry (src ep sq : Nat) (s : State) : Out :=
  .next (s.mapHub (fun h => { h with replies := h.replies.filter (fun r =>
    !(r.src == src && r.epoch == ep && r.seq == sq && decide (1000000 ≤ s.gtime - r.at_))) }))

/-- R397: EDITION_GAP_TIMEOUT of group g. -/
def execEditionGapTimeout (g : Nat) (s : State) : Out :=
  .next (let e := s.edition g
  match e.gapFrom with
  | some t =>
    if e.st = 1 ∧ t + e.gapt * 1000 ≤ s.refClock then
      let least := e.held.foldl (fun k m => min k m.e) (2 ^ 64 - 1)
      (s.setEdition g { e with st := 2 }).mapHub (fun h => { h with reports := h.reports ++ [(cEDITION_GAP, 0, g, e.applied, least)] })
    else s
  | none => s)

/-- R417: EDITION_REPORT_READ: the oldest report is read. -/
def execEditionReportRead (s : State) : Out := .next (s.mapHub (fun h => { h with reports := h.reports.drop 1 }))

end Sys2Proof.Machine
end

