-- ==== Sys2Proof/Machine/HubLinks.lean ====
section
/-! DEFINITION. The hatch links: lanes, training, flits, replay (R371 to R376, R379); and the time service that runs over them (R405 to R407)
with the passing of time (R13, R14). -/

namespace Sys2Proof.Machine

/-! ## Training (R376) -/

/-- A link that is UP at its own end: it has sent and received CREDIT_INIT. -/
def State.linkRaise (s : State) (n : Nat) : State :=
  let l := s.link n
  if l.locked && l.initSent && l.initRecv && !l.up && !l.dis then
    (s.setLink n ({ l with up := true, flitAt := s.refClock }.pump)).hubPump
  else s

/-- A link at lane lock: it begins to train. -/
def Link.lock (l : Link) (now : Nat) : Link :=
  { l with locked := true, trained := none, trains := 0, initSent := false, initRecv := false, lockAt := now, fails := 0, asks := false,
           credit := #v[0, 0], inbuf := #v[0, 0], returned := #v[0, 0] }

/-- R376: LANE_LOCK of link n. -/
def execLaneLock (n : Nat) (s : State) : Out :=
  .next (let l := s.link n
  if l.dis || l.up then s else s.setLink n (l.lock s.refClock))

/-- R371: LANE_FAILURE: the link goes down as a whole. -/
def execLaneFailure (n : Nat) (s : State) : Out := .next (if (s.link n).locked then s.linkDown n else s)

/-- R376: TRAIN_SEND. -/
def execTrainSend (n : Nat) (s : State) : Out :=
  .next (let l := s.link n
  if l.locked && !l.up && !l.dis then s.setLink n { l with sentTrain := l.sentTrain + 1 } else s)

/-- R376: TRAINING_TIMEOUT: 100 ms after lane lock without UP, training starts again from there. -/
def execTrainingTimeout (n : Nat) (s : State) : Out :=
  .next (let l := s.link n
  if l.locked && !l.up && decide (l.lockAt + 100000000 ≤ s.refClock) then s.linkDown n else s)

/-- R376: TRAIN: the second of equal contents with NVALID set gives PEER, PLINK and the next sequence number; CREDIT_INIT is sent where this
device has a number. -/
def execTrain (n peer nv pl sq : Nat) (s : State) : Out :=
  .next (let l := s.link n
  if !l.locked || l.up || l.dis then s
  else
    let x := (peer, nv, pl, sq)
    let l := { l with trained := some x, trains := if l.trained = some x then l.trains + 1 else 1 }
    if 2 ≤ l.trains ∧ nv = 1 then
      (s.setLink n { l with peer := peer % 1024, plink := pl % 32, next := if l.initSent then l.next else sq % 4096,
                            initSent := l.initSent || s.hub.nvalid }).linkRaise n
    else s.setLink n l)

/-- R373, R375, R376: CREDIT_INIT: 64 credits of each class. -/
def execCreditInit (n : Nat) (s : State) : Out :=
  .next (let l := s.link n
  if !l.locked || l.dis || l.initRecv then s else (s.setLink n { l with initRecv := true, credit := #v[64, 64] }).linkRaise n)

/-! ## Flits (R372, R373) -/

/-- R372: REPLAY: flits from sequence number sq on are sent again; those before it have been delivered. -/
def execReplay (n sq : Nat) (s : State) : Out :=
  .next (let l := s.link n
  if !l.up then s
  else
    let held := if l.held.any (fun e => e.1 = sq) then l.held.dropWhile (fun e => e.1 ≠ sq) else l.held
    s.setLink n (({ l with held := held }.bump 2 1).pump))

/-- R373: the flits that an acknowledged sequence number releases. -/
def Link.release (l : Link) (ack : Nat) : Link :=
  if l.held.any (fun e => e.1 = ack) then { l with held := (l.held.dropWhile (fun e => e.1 ≠ ack)).drop 1 } else l

/-- R372: the flit of sequence number sq is not delivered: a replay is asked for from the flit expected. Where that flit fails again, its
replay has failed, and the eighth replay to fail in succession takes the link down; the flits behind it come again with it. -/
def State.flitBad (s : State) (n sq : Nat) : State :=
  let l := s.link n
  if !l.asks then s.setLink n { l with asks := true, fails := 0 }
  else if sq = l.expect then
    let s := s.setLink n { l with fails := l.fails + 1 }
    if 8 ≤ l.fails + 1 then s.linkDown n else s
  else s

/-- R373: the flit received in order of class c takes its place in this end's buffer. -/
def Link.deliver (l : Link) (c sq disc : Nat) : Link :=
  { l with expect := (sq + 1) % 4096, fails := 0, asks := false, inbuf := l.inbuf.setIfInBounds c ((l.inbuf[c]?).getD 0 + 1) }.bump 4 disc

/-- R373: the oldest flit of class c leaves this end's buffer, and a credit is returned for it. -/
def State.bufferFree (s : State) (n c : Nat) : State :=
  let l := s.link n
  let k := (l.inbuf[c]?).getD 0
  if k = 0 then s
  else s.setLink n { l with inbuf := l.inbuf.setIfInBounds c (k - 1), returned := l.returned.setIfInBounds c ((l.returned[c]?).getD 0 + 1) }

/-- R373, R379: FLIT_RECEIVE: `cr` holds the class of the credits returned in bit 3 and their number below; `ok` is 0 for a codeword that
cannot be corrected, 1 for a good flit, 2 for a wrong CRC; `disc` messages of the flit are discarded under R374 or R377. A flit beyond the 64
that a buffer holds, for which its sender has no credit, does not come. -/
def execFlitReceive (n kind sq ack cr ok corr disc : Nat) (s : State) : Out :=
  .next (let l := s.link n
  if !l.up then s
  else
    let l := { l with flitAt := s.refClock }
    let l := if corr = 1 then l.bump 0 1 else l
    if ok = 0 then (s.setLink n (l.bump 1 1)).flitBad n sq
    else if ok = 2 ∨ 4 ≤ kind then (s.setLink n l).flitBad n sq
    else
      let l := l.release ack
      let c := cr / 8
      let l := { l with credit := l.credit.setIfInBounds c (min 64 ((l.credit[c]?).getD 0 + cr % 8)) }
      let fresh : Bool := kind == 1 || kind == 2
      if fresh && sq == l.expect then
        (if 64 ≤ (l.inbuf[kind - 1]?).getD 0 then s else s.setLink n ((l.deliver (kind - 1) sq disc).pump))
      else if fresh && decide ((sq + 4096 - l.expect) % 4096 < 2048) then ((s.setLink n l.pump).flitBad n sq)
      else if !fresh && (sq + 1) % 4096 == l.expect then s.setLink n ({ l with asks := false, fails := 0 }.pump)
      else s.setLink n l.pump)

/-- R372: LINK_SILENCE_TIMEOUT: no flit for 1,000 ns. -/
def execLinkSilenceTimeout (n : Nat) (s : State) : Out :=
  .next (let l := s.link n
  if l.up && decide (l.flitAt + 1000 ≤ s.refClock) then s.linkDown n else s)

/-! ## The time service (R405 to R407) -/

def State.mapPtp (s : State) (f : Ptp → Ptp) : State := s.mapHub (fun h => { h with ptp := f h.ptp })

/-- PTPCFG fields (R406). -/
def Ptp.domain (p : Ptp) : Nat := bits p.cfg 0 8
def Ptp.gmOnly (p : Ptp) : Bool := p.cfg.testBit 32

/-- A clock's dataset as the default algorithm compares it: priority1, class, accuracy, variance, priority2, identity; the lesser is the
better (assumption 59). -/
def dataset (p1 quality p2 id : Nat) : Nat := ((p1 % 256 * 2 ^ 32 + quality % 2 ^ 32) * 256 + p2 % 256) * 2 ^ 64 + id % 2 ^ 64

/-- The own clock's dataset, from PTPCFG. -/
def Ptp.own (p : Ptp) : Nat :=
  dataset (bits p.cfg 8 8) (bits p.cfg 24 8 * 2 ^ 24 + Config.clockAccuracy % 256 * 2 ^ 16 + Config.clockVariance % 65536) (bits p.cfg 16 8)
    Config.clockId.toNat

/-- Of two announcements, the first is the better: by their datasets, or for one grandmaster by steps removed and the sender. -/
def Announced.beats (a b : Announced) : Bool :=
  if a.gm = b.gm then Nat.blt a.steps b.steps || (a.steps == b.steps && Nat.blt a.src b.src) else Nat.blt a.rank b.rank

/-- The best of the announcements heard, with its link. -/
def Ptp.best (p : Ptp) : Option (Nat × Announced) :=
  p.heard.foldl (fun (o : Option (Nat × Announced)) e => match o with
    | some b => if e.2.beats b.2 then some e else some b
    | none => some e) none

/-- The better master that the device follows: none where its own clock is the best, takes no master (GMONLY), or is of a class below 128. -/
def Ptp.choice (p : Ptp) : Option (Nat × Announced) :=
  p.best.bind (fun b => if p.gmOnly ∨ bits p.cfg 24 8 < 128 ∨ p.own ≤ b.2.rank then none else some b)

/-- R405: a port is passive: another port leads to the same grandmaster by a path no longer, or a clock that takes no master hears a better. -/
def Ptp.passive (p : Ptp) (n : Nat) : Bool :=
  match p.heard.find? (fun e => e.1 = n) with
  | none => false
  | some (_, a) =>
    match p.choice with
    | some (l, b) => l != n && a.gm == b.gm &&
        (a.steps == b.steps || (a.steps == b.steps + 1 && Nat.blt a.src (Config.clockId.toNat * 65536 + n + 1)))
    | none => !p.gmOnly && Nat.blt (bits p.cfg 24 8) 128 && Nat.ble a.rank p.own

/-- STATE changes. -/
def Ptp.toState (p : Ptp) (st : Nat) : Ptp := if p.st = st then p else { p with st := st, changed := true }

/-- A link carries time messages once its lanes have locked (R376). -/
def State.ptpPort (s : State) (n : Nat) : Bool := (s.link n).locked && !(s.link n).dis

/-- The clock begins with a master, or with none, at a time of the reference clock: nothing is measured of it yet. -/
def Ptp.follow (p : Ptp) (m : Option (Nat × Announced)) (now : Nat) : Ptp :=
  { p with master := m, gm := m.isNone, since := now, stepped := false, delay := none, ms := none, sync := none, req := none }

/-- R405: the best master clock algorithm after an announcement: the slave port and its master, or this device as grandmaster. -/
def Ptp.elect (p : Ptp) (now : Nat) : Ptp :=
  match p.choice with
  | some (n, a) => if (p.master.map Prod.fst) = some n then { p with master := some (n, a), since := a.heard }
    else { p.follow (some (n, a)) now with port := n }.toState 1
  | none => if p.master.isSome ∨ !p.gm then p.follow none now else p

/-- R405: ANNOUNCE on link n. -/
def execAnnounce (n dom p1 quality p2 id path : Nat) (s : State) : Out :=
  .next (s.mapPtp (fun p =>
    if !s.ptpPort n || dom != p.domain then p
    else
      let a : Announced := { rank := dataset p1 quality p2 id, gm := id % 2 ^ 64, steps := bits path 1 16, src := path / 2 ^ 17, ptp := path.testBit 0,
                             heard := s.refClock }
      { p with heard := (n, a) :: p.heard.filter (fun e => e.1 ≠ n) }.elect s.refClock))

/-- The message comes from the master, on the slave port, in the domain. -/
def State.fromMaster (s : State) (n dom : Nat) : Bool :=
  let p := s.hub.ptp
  s.ptpPort n && dom == p.domain && (p.master.map (fun m => m.1)) == some n

/-- R405: SYNC: its arrival is timed. -/
def execSyncMsg (n dom sq : Nat) (s : State) : Out :=
  .next (if s.fromMaster n dom then s.mapPtp (fun p => { p with sync := some (sq, s.gtime) }) else s)

/-- R407: a measured offset, positive with the master ahead: the first of more than 1,000 ns steps GTIME; STATE follows its size. -/
def State.discipline (s : State) (off : Int) : State :=
  let p := s.hub.ptp
  let step : Bool := p.st == 1 && !p.stepped && decide (1000 < off)
  let s := if step then { s with gtime := (s.gtime + off.toNat) % 2 ^ 64 } else s
  s.mapPtp (fun p =>
    let p := { p with offset := off, stepped := true, ptpts := (p.master.map (fun m => m.2.ptp)).getD p.ptpts }
    if step then p
    else if off.natAbs ≤ 50 then p.toState 2
    else if 1000 < off.natAbs then p.toState 1
    else if p.st = 2 then p else p.toState 1)

/-- R407: FOLLOW_UP with the master's time t1 of the Sync it names. -/
def execFollowUp (n dom sq t1 : Nat) (s : State) : Out :=
  .next (if s.fromMaster n dom then
    match s.hub.ptp.sync with
    | some (q, t2) =>
      if q = sq then
        let ms : Int := (t2 : Int) - t1
        let s := s.mapPtp (fun p => { p with ms := some ms, sync := none })
        match s.hub.ptp.delay with
        | some d => s.discipline (d - ms)
        | none => s
      else s
    | none => s
  else s)

/-- R405: DELAY_REQ on a master port: timed and answered. -/
def execDelayReq (n dom sq : Nat) (s : State) : Out :=
  .next (let p := s.hub.ptp
  if s.ptpPort n && dom == p.domain && (p.master.map (fun m => m.1)) != some n && !p.passive n then
    s.mapPtp (fun p => { p with sent := p.sent ++ [(n, 4, sq, s.gtime)] })
  else s)

/-- R405: DELAY_RESP with the master's time t4: the path delay is half the sum of both ways. -/
def execDelayResp (n dom sq t4 : Nat) (s : State) : Out :=
  .next (if s.fromMaster n dom then
    match s.hub.ptp.req, s.hub.ptp.ms with
    | some (q, t3), some ms =>
      if q = sq then s.mapPtp (fun p => { p with delay := some ((ms + ((t4 : Int) - t3)) / 2), req := none }) else s
    | _, _ => s
  else s)

/-- R405: PTP_INTERVAL: Sync with its Follow_Up, or Announce, on a master port; Delay_Req on the slave port; a passive port sends nothing. -/
def execPtpInterval (n kind : Nat) (s : State) : Out :=
  .next (let p := s.hub.ptp
  let slave : Bool := (p.master.map (fun m => m.1)) == some n
  if !s.ptpPort n then s
  else if kind = 2 then
    if slave then
      s.mapPtp (fun p => { p with req := some (p.reqSeq, s.gtime), reqSeq := (p.reqSeq + 1) % 2 ^ 16, sent := p.sent ++ [(n, 2, p.reqSeq, s.gtime)] })
    else s
  else if slave || p.passive n then s
  else if kind = 0 then
    s.mapPtp (fun p => { p with syncSeq := (p.syncSeq + 1) % 2 ^ 16, sent := p.sent ++ [(n, 0, p.syncSeq, s.gtime), (n, 3, p.syncSeq, s.gtime)] })
  else s.mapPtp (fun p => { p with sent := p.sent ++ [(n, 1, 0, s.gtime)] }))

/-- R405: the announce receipt timeout: 3 intervals of 2^-3 s, in ns. -/
def announceTimeout : Nat := 375000000

/-- R405, R407: ANNOUNCE_RECEIPT_TIMEOUT: what any port heard that long ago no longer counts; with no master for that long, HOLDOVER. -/
def execAnnounceReceiptTimeout (s : State) : Out :=
  .next (s.mapPtp (fun p =>
    let heard := p.heard.filter (fun e => decide (s.refClock < e.2.heard + announceTimeout))
    let late : Bool := decide (p.since + announceTimeout ≤ s.refClock)
    if !late && heard.length == p.heard.length then p
    else
      let q := { p with heard := heard }.elect s.refClock
      if !late || q.master.isSome then q else q.toState 3))

/-- R417: GTSTAT_READ. -/
def execGtstatRead (s : State) : Out := .next (s.hubReadEffect 0x490008)

/-! ## Time (R13, R14, R407, R458) -/

/-- R458: units of 1 / 2,162,160 ns in a cycle at an FSTEP, for fclk of 187.5 MHz × FSTEP; a whole number for 8 to 16. -/
def cycleUnits (fstep : Nat) : Nat := 11531520 / fstep

/-- R407: the rate of GTIME: nominal while FREE, in LOCKING and LOCKED a free one within 500 ppm, in HOLDOVER the last (assumption 25). -/
def State.slew (s : State) : State :=
  if s.hub.ptp.st = 1 ∨ s.hub.ptp.st = 2 then
    let (v, s) := s.free
    s.mapPtp (fun p => { p with rate := (v.toNat % 1000001 : Nat) - 500000 })
  else s

/-- Time passes, by at most n cycles: no further than the cycle in which a flit must leave or arrives (R20). CYCLE, the reference clock and
GTIME count. -/
def State.pass (s : State) (n : Nat) : State :=
  let c := if s.flight.isEmpty && s.queued.isEmpty then n else s.mayPass n 0
  let s := s.slew
  let u := c * cycleUnits s.pkg.fstep
  let r := s.subNs + u
  let g := s.subG + u * (1000000000 + s.hub.ptp.rate).toNat
  { s with cycle := (s.cycle + c) % 2 ^ 64, refClock := s.refClock + r / 2162160, subNs := r % 2162160,
           gtime := (s.gtime + g / 2162160000000000) % 2 ^ 64, subG := g % 2162160000000000 }

end Sys2Proof.Machine
end

