-- ==== Sys2Proof/Machine/Queues.lean ====
section
/-! DEFINITION. Submission queues and completion (R415, R420 to R423, R429): the host's writes, `qpop` and `qdone`. -/

namespace Sys2Proof.Machine

/-! ## The host's writes (R415, R420, R421) -/

/-- R421: a kick register written. -/
def Queue.kick (q : Queue) (t : Nat) : Queue :=
  if !q.en then { q with err := true }
  else if t = q.tail then q
  else if (t + 2 ^ 32 - q.tail) % 2 ^ 32 ≤ 2 ^ q.log2n ∧ (t + 2 ^ 32 - q.head) % 2 ^ 32 ≤ 2 ^ q.log2n then { q with tail := t }
  else { q with err := true }

/-- R421: KICK. -/
def execKick (q v : Nat) (s : State) : Out := .next (s.setQueue q ((s.queue q).kick (v % 2 ^ 32)))

/-- R420: CTL written by the host. -/
def Queue.setCtl (q : Queue) (v : Nat) : Queue :=
  let log2n := if q.en then q.log2n else bits v 3 5
  let lim4 := bits v 13 4
  { q with
    err := q.err && !v.testBit 1, log2n := log2n, prio := bits v 8 3, pol4 := bits v 11 2, lim4 := lim4,
    en := v.testBit 0 && decide (1 ≤ log2n ∧ log2n ≤ 16) && lim4 != 0,
    stopped := q.stopped && !v.testBit 0 }

/-- R420: QUEUE_CTL_WRITE. -/
def execQueueCtlWrite (q v : Nat) (s : State) : Out := .next (s.setQueue q ((s.queue q).setCtl v))

/-- A register's value with its bytes from byte k on replaced by the low bytes of v. -/
def mergeFrom (old k v : Nat) : Nat := old % 2 ^ (8 * k) + v % 2 ^ (64 - 8 * k) * 2 ^ (8 * k)

/-- R415: a host write at an offset of BAR0. R415 gives no access size: a write writes the register that holds the offset from there to its
end (DESIGN CHOICE, assumption 104). Of CTL, ERR is cleared only by a write that holds it. -/
def State.hostWrite (s : State) (o v : Nat) : State :=
  if 0x1000 ≤ o ∧ o < 0x1800 then if o % 8 ≠ 0 then s else s.setQueue ((o - 0x1000) / 8) ((s.queue ((o - 0x1000) / 8)).kick (v % 2 ^ 32))
  else if 0x4000 ≤ o ∧ o < 0x8000 then
    let n := (o - 0x4000) / 64
    let q := s.queue n
    match o % 64 / 8 with
    | 0 => if q.en then s else s.setQueue n { q with base := word (mergeFrom q.base.toNat (o % 8) v) }
    | 1 => s.setQueue n (q.setCtl (mergeFrom { q with err := false }.ctl (o % 8) v))
    | 5 => if q.en then s else s.setQueue n { q with qroot := word (mergeFrom q.qroot.toNat (o % 8) v) }
    | _ => s
  else s

/-- R415: the register of BAR0 that holds an offset: PROFILE, REVISION, FWSTAT or a queue's descriptor; elsewhere zero. -/
def State.hostWord (s : State) (o : Nat) : Nat :=
  if o < 8 then 3
  else if o < 0x10 then Config.revision
  else if o < 0x18 then s.fwstat
  else if 0x4000 ≤ o ∧ o < 0x8000 then (s.queue ((o - 0x4000) / 64)).word (o % 64 / 8)
  else 0

/-- R415: what the host reads at an offset of BAR0: the register that holds it, from there to its end (assumption 104). -/
def State.hostRead (s : State) (o : Nat) : Word := word (s.hostWord o % 2 ^ 64 / 2 ^ (8 * (o % 8)))

/-! ## `qpop` (R423) -/

/-- The 64 bytes at an address under CCROOTS. -/
def ringRead (addr : Nat) : HM Nat := do homeRead (← homeKeys 2 0 addr .read 10 64)

/-- R423: one read of the packet at HEAD: popped, awaited, or torn. -/
def qpopTry (d om q : Nat) (dst : Word) : M Unit := do
  let s ← get
  let x := s.queue q
  let rest (s : State) : State := s.setQueue q { x with tries := 0 }
  match ringRead (x.base.toNat + 64 * (x.head % 2 ^ x.log2n)) s with
  | .error r s =>
    set (rest s)
    finish d om (stFail { code := r.code, reason := r.reason, idx := 0 })
  | .ok p s =>
    if pktField p 0 2 = x.nextSeq then
      match writeBytes dst (toBytes p 64) s with
      | .error f s =>
        set (rest s)
        finish d om (stFail f)
      | .ok _ s =>
        let s := s.setQueue q { x with head := (x.head + 1) % 2 ^ 32, nextSeq := (x.nextSeq + 1) % 2 ^ 16, tries := 0 }
        set { s with pops := Sparse.set 0 s.pops dst.toNat (q + 1) }
        finish d om 0
    else if x.tries < 1024 then
      set (s.setQueue q { x with tries := x.tries + 1, readAt := s.cycle })
      shutCore
      waitHere
    else
      set { s.setQueue q { x with stopped := true, tries := 0 } with msix := s.msix ++ [63] }
      finish d om cQUEUE_TORN

/-- R423: `qpop`. -/
def execQpop (d a b ow om : Nat) (s : State) : Out :=
  runM (do
    let s ← get
    operandAddr .write 64 64 (s.sreg b)
    waitOw ow
    let q := (s.sreg a).toNat
    if 256 ≤ q then finish d om stNone
    else
      takeRegion (512 + q)
      let x := s.queue q
      if s.core.shut then (if s.cycle < x.readAt + 64 then waitHere else qpopTry d om q (s.sreg b))
      else if !x.en || x.stopped || x.head == x.tail then finish d om 0x100
      else
        set ((← get).setQueue q { x with tries := 0 })
        qpopTry d om q (s.sreg b)) s

/-! ## `qdone` (R428, R429) -/

/-- R64, R428: a drained region's instance has ended, or another follows it; none follows in a pre-empted region. -/
def State.settleDrain (s : State) (g : Nat) : State :=
  if (s.region g).started ∧ s.drained g then
    let s := if (s.region g).halted then s else s.onDrain g
    if (s.region g).started ∧ s.drained g ∧ (s.region g).proofSt ≠ .pulling then
      (s.mapRegion g (fun r => { r with drainMode := r.sinkMode.getD 0 })).endInstance g 0
    else s
  else s

/-- R428, R429: the words of a completion record: of region a, or of a launch that failed with status st. -/
def State.completion (s : State) (a st pkt : Nat) : List Nat :=
  let tag := pktField pkt 8 8
  if a < 128 then (List.range 8).map (fun i => if i = 0 then tag else (s.region a).recordWord i)
  else [tag, st % 256, 0, 0, 0, if st % 256 = cCONFIG_REJECT then st else 0, 0, 0]

/-- R429: the record written, the signal sent, the region freed. -/
def qdoneWrite (d om a pkt : Nat) : M Unit := do
  let s ← get
  let crec := pktField pkt 32 8
  let bs := (s.completion a (s.sreg d).toNat pkt).flatMap (fun w => toBytes w 8)
  match (if crec = 0 then pure () else writeBytes (word crec) bs : RM Unit) s with
  | .error f _ => finish d om (stFail f)
  | .ok _ s =>
    let fl := pktField pkt 3 1
    let s := if fl.testBit 1 then { s with msix := s.msix ++ [pktField pkt 60 2 % 64] } else s
    set (if 128 ≤ a then s else if fl.testBit 0 then s.mapRegion a (fun r => { r with undone := false }) else s.freeRegion a)
    finish d om 0

/-- R104, R429: `qdone`. Where it frees the region, it waits first for what the region's tiles have outstanding, as `pfree` does. -/
def execQdone (d a b ow om : Nat) (s : State) : Out :=
  runM (do
    let s ← get
    operandAddr .read 64 64 (s.sreg b)
    waitOw ow
    let g := (s.sreg a).toNat
    match readNum (s.sreg b) 64 (← get) with
    | .error f s =>
      set s
      finish d om (stFail f)
    | .ok pkt s =>
      set s
      if 128 ≤ g then qdoneWrite d om g pkt
      else if !(s.region g).live then finish d om stNone
      else
        takeRegion g
        modify (fun s => s.settleDrain g)
        let s ← get
        if (s.region g).ended.isNone then finish d om cSLOT_STATE
        else if !(pktField pkt 3 1).testBit 0 && s.unperformed g then waitHere
        else qdoneWrite d om g pkt) s

end Sys2Proof.Machine
end

