-- ==== Sys2Proof/Machine/Launch.lean ====
section
/-! DEFINITION. Launch, replay and cancel (R424 to R427, R430), and the decisions of containment above level 1 (R57, R59, R325). -/

namespace Sys2Proof.Machine

/-! ## Steps 3 to 5 (R425) -/

/-- A part of a launch: it ends early with a status. -/
abbrev LM (α : Type) := EStateM Nat State α

/-- An engine's read within a launch: a failure is the launch's status. -/
def launchDo {α : Type} (m : RM α) : LM α := fun s =>
  match m s with
  | .ok a s => .ok a s
  | .error f s => .error (stFail f) s

/-- What the object of a launch gives: placement record, its fields, legs, the words of the stream, the object, POL2, the computed depths
of its segments by rate set. -/
structure Checked where
  rec_ : Nat
  place : Placing
  legs : List Nat
  words : List Nat
  obj : Staged
  pol2 : Nat
  depths : List (Nat × List (Nat × Nat))
deriving DecidableEq, Repr

/-- A check of a launch answers with a status. -/
def launchOk {α : Type} (x : Except Nat α) : LM α :=
  match x with
  | .ok a => pure a
  | .error st => throw st

/-- What steps 5 to 7 need of an object's placement record and stream. -/
structure Plan where
  rec_ : Nat
  place : Placing
  legs : List Nat
  words : List Nat
deriving DecidableEq, Repr

/-- R355, R363, R425: the placement record with its legs, and the words of the stream; or the status that their step ends with. -/
def readPlan (gobj : Word) (h : Header) : LM Plan := do
  match ← launchDo (readPlacing (gobj + 8) gobj) with
  | none => throw (stReject rPHASES 0 0 0)
  | some (x, p, legs) =>
    if h.etchLen < 2 ∨ 2 ^ 26 < h.etchLen then throw (stReject rPHASES 0 0 0)
    let words ← launchDo (readWords (gobj + word h.etch) h.etchLen 0 [])
    pure { rec_ := x, place := p, legs := legs, words := words }

/-- A part of a launch whose status stands for a later step. -/
def later {α : Type} (m : LM α) : LM (Except Nat α) := fun s =>
  match m s with
  | .ok a s => .ok (.ok a) s
  | .error st s => .ok (.error st) s

/-- R425, steps 3 to 5. The tables are judged at step 3, before PROFILE; what they need of the stream fails with its own step. An object whose
contexts no module has room for is rejected at step 6 (R310). -/
def launchCheck (pkt : Nat) : LM Checked := do
  let gobj := word (pktField pkt 16 8)
  let h := headerOf (← launchDo (readNum gobj 64))
  if !h.ok then throw (stReject rPHASES 0 0 0)
  if h.pol2 / 64 ≠ 0 ∨ bits h.pol2 2 4 = 0 ∨ bits (pktField pkt 3 1) 4 4 = 0 then throw (stReject rPOLICY 0 0 0)
  let npl := bits h.place 0 8 * bits h.place 8 8
  let tabs ← launchDo (readTables gobj h npl)
  let plan ← later (readPlan gobj h)
  let s ← get
  match tabs.bad (plan.bind (fun x => s.sketch x.rec_ x.place x.words (tabs.staged gobj []).obj)) with
  | some i => throw (stReject rPHASES 0 i 0)
  | none =>
    if 3 < h.profile then throw cPROFILE
    let x ← launchOk plan
    match ← launchDo (readRecs gobj npl tabs.strs 0 []) with
    | .error i => throw (stReject rPHASES 0 i 0)
    | .ok recs =>
      let obj := tabs.staged gobj recs
      let (g, t) ← launchOk ((← get).sketch x.rec_ x.place x.words obj.obj)
      let ds ← if t.shortCtx g obj.obj = 0 then launchOk (t.loadStatus g) else pure []
      pure { rec_ := x.rec_, place := x.place, legs := x.legs, words := x.words, obj := obj, pol2 := h.pol2,
             depths := ds.map (fun (r, m) => (r, t.depthsOf m)) }

/-! ## Steps 6 and 7 -/

/-- R107, R425: the region's root entry written and its translations removed on both dies. -/
def State.setRoot (s : State) (g : Nat) (root : Word) : State := ({ s with roots := Sparse.set 0 s.roots g root }).dropTag g

/-- R363, R425: a stream staged for a region. -/
def stageOrFail (rd : WordAt) (g n : Nat) (obj : Option (RM (Except Nat Staged))) : LM Unit := do
  let (st, s) := ((← get).beginEtch g).stage rd g n obj
  set s
  if st ≠ 0 then throw st

/-- R425: the packet's patch, whose REGION word has FRESH = 0, layered on what is staged. -/
def stagePatch (pkt g : Nat) : LM Unit := do
  let n := pktField pkt 4 2
  let a := word (pktField pkt 24 8)
  if n ≠ 0 then
    let w ← launchDo (readNum a 4)
    if w.testBit 7 then throw (stReject rPHASES 0 0 0)
    stageOrFail (wordsAt a) g n none

/-- R56: the policies of levels 2, 3 and 4: of the object, the packet, and the queue it came from. -/
def State.policies (s : State) (pol2 pkt : Nat) (queue : Option Nat) : List (Nat × Nat) :=
  let fl := pktField pkt 3 1
  [(bits pol2 0 2, bits pol2 2 4), (bits fl 2 2, bits fl 4 4),
   match queue with
   | some q => ((s.queue q).pol4, (s.queue q).lim4)
   | none => (2, 1)]

/-- R56, R300, R425: what a region latches before its swap; its instance record is clear. -/
def State.latch (s : State) (g pkt adm : Nat) (queue : Option Nat) (pol : List (Nat × Nat)) (replay : Bool) : State :=
  s.mapRegion g (fun r =>
    { r with seed := s.seedReg, instKey := word (pktField pkt 56 4), startG := 0, endG := 0, firings := 0, faults := 0, ffw := 0,
             reported := false, discards := 0, fresh := true, ended := none, modeSplit := false, drainMode := 0, pol := pol, replay := replay,
             bound := some { pkt := pkt, queue := queue, adm := adm } })

/-- R364: the pull of a launch starts. -/
def startOrFail (core g : Nat) : LM Unit := do
  match (← get).startPull core g with
  | .error st => throw st
  | .ok s => set s

/-- R425, steps 6 and 7, of a launch that is no replay: the region. -/
def launchPlace (c : Checked) (pkt adm : Nat) (queue : Option Nat) (root : Word) : LM Nat := do
  let s ← get
  match s.alloc c.rec_ c.place c.legs with
  | .error n => throw (stReject rPLATES 0 0 n)
  | .ok (g, s) =>
    set (s.setRoot g root)
    let short := s.shortCtx g c.obj.obj
    if short ≠ 0 then throw (stReject rPLATES 0 0 short)
    stageOrFail (wordsOf c.words) g c.words.length (some (pure (.ok c.obj)))
    modify (fun s => s.writeDepths g c.depths)
    stagePatch pkt g
    let s ← get
    set (s.latch g pkt adm queue (s.policies c.pol2 pkt queue) false)
    startOrFail s.cur g
    pure g

/-- A launch that ends: with a status. -/
def launchEnd (d om st : Nat) (s : State) : M Unit := do
  set s
  finish d om st

/-- The core works on region g from here on, and waits for its swap. -/
def launchWait (g : Nat) (s : State) : M Unit := do
  set (s.mapCore (fun c => { c with holds := some g, want := none }))
  waitHere

/-- R425: the queue from which the packet copy at an address was popped. -/
def State.queueOf (s : State) (a : Word) : Option Nat :=
  let q := Sparse.get 0 s.pops a.toNat
  if q = 0 then none else some (q - 1)

/-! ## Replay (R427) -/

/-- R427: the region that an instance of a graph object keeps, or in which its replay still runs. -/
def State.heldRegion (s : State) (gobj : Nat) : Option Nat :=
  (s.regions.find? (fun e => e.2.live && (match e.2.bound with
    | some b => b.gobj == gobj && (b.flags.testBit 0 || e.2.replay)
    | none => false))).map Prod.fst

/-- R430: the job of a launch has been cancelled since it was admitted. -/
def State.cancelled (s : State) (job adm : Nat) : Bool := decide (adm < Sparse.get 0 s.cancels job)

/-- R427: an earlier launch waits for the same object's region. -/
def State.earlierWaits (s : State) (gobj adm : Nat) : Bool :=
  s.cores.any (fun e => e.1 != s.cur && e.2.want == some gobj && (match e.2.adm with
    | some a => decide (a < adm)
    | none => false))

/-- R427: what a replay stages: the patch, or the configuration as it is. -/
def replayStage (pkt g : Nat) : LM Unit := do
  if pktField pkt 4 2 ≠ 0 then stagePatch pkt g
  else
    let s ← get
    if (s.region g).proofSt = .none then
      set (((s.proofFromActive g).stageSects g).mapRegion g (fun r => { r with proofSt := .ready, auto := false }))

/-- R427: a replay in region g: it reserves the region in admission order, stages its patch, and pulls once the earlier one has had its
`qdone` and is drained. One that fails leaves nothing staged (R425). -/
def replayTurn (d om pkt adm g : Nat) (a : Word) (root : Word) (pol2 : Nat) : M Unit := do
  let s ← get
  let r := s.region g
  let free (s : State) : State := s.mapRegion g (fun r => { r with next := none })
  if s.cancelled (pktField pkt 6 2) adm then launchEnd d om cCANCELLED (if r.next = some s.cur then free (s.dropProof g) else s)
  else if !((r.bound.map Binding.flags).getD 0).testBit 0 then waitHere
  else match r.next with
  | none =>
    if s.earlierWaits (pktField pkt 16 8) adm ∨ r.proofSt = .etching ∨ r.proofSt = .pulling then waitHere
    else match replayStage pkt g s with
      | .error st _ => launchEnd d om st s
      | .ok _ s =>
        set (s.mapRegion g (fun r => { r with next := some s.cur }))
        waitHere
  | some n =>
    if n ≠ s.cur ∨ r.undone ∨ !s.drained g ∨ s.unperformed g ∨ r.proofSt ≠ .ready then waitHere
    else
      let q := s.queueOf a
      match startOrFail s.cur g (((s.setRoot g root).latch g pkt adm q (s.policies pol2 pkt q) true)) with
      | .error st _ => launchEnd d om st (free (s.dropProof g))
      | .ok _ s => launchWait g (free s)

/-! ## `launch` -/

/-- R425: steps 3 on of a launch that has its admission number. -/
def launchGo (d om : Nat) (a root : Word) : M Unit := do
  let s ← get
  let c := s.core
  let pkt := c.pkt
  let adm := c.adm.getD 0
  let gobj := pktField pkt 16 8
  match c.holds with
  | some g => if (s.region g).proofSt = .pulling then waitHere else finish d om (g * 2 ^ 16)
  | none =>
    let pol2 := byteField ((s.peek (word gobj) 8).getD 0) 5 1
    match s.heldRegion gobj with
    | some g =>
      if c.want.isSome then replayTurn d om pkt adm g a root pol2
      else
        match launchCheck pkt s with
        | .error st s => launchEnd d om st s
        | .ok _ s =>
          set (s.mapCore (fun c => { c with want := some gobj }))
          replayTurn d om pkt adm g a root pol2
    | none =>
      match launchCheck pkt s with
      | .error st s => launchEnd d om st s
      | .ok x s =>
        match launchPlace x pkt adm (s.queueOf a) root s with
        | .error st _ => launchEnd d om st s
        | .ok g s => launchWait g s

/-- R425, step 1: the dependence counter has reached its value, or none is named; a failed read is a status. -/
def depReached (pkt : Nat) : RM Bool := do
  let dep := pktField pkt 40 8
  if dep = 0 then pure true
  else if dep % 8 ≠ 0 then throw { code := cMISALIGN, reason := 8, idx := 0 }
  else
    let v ← readNum (word dep) 8
    pure (decide (pktField pkt 48 8 ≤ v))

/-- R425, R426: steps 1 and 2 on a packet. -/
def launchDep (d om pkt : Nat) (a root : Word) : M Unit := do
  let s ← get
  if Sparse.get 0 s.cancels (pktField pkt 6 2) ≠ 0 then finish d om cCANCELLED
  else
    let due : Bool := match s.core.waitFrom with
      | some (c0, _) => decide (c0 + 256 ≤ s.cycle)
      | none => true
    if !due then waitHere
    else match depReached pkt s with
      | .error f s => launchEnd d om (stFail f) s
      | .ok false s =>
        set (s.mapCore (fun c => { c with waitFrom := some (s.cycle, s.gtime), pkt := pkt }))
        waitHere
      | .ok true s =>
        let n := s.admission + 1
        set ({ s with admission := n }.mapCore (fun c => { c with waitFrom := none, pkt := pkt, adm := some n, shut := true }))
        launchGo d om a root

/-- R443: a launch waits on OW, and no interrupt abandons it there: only at step 1. -/
def launchOw (ow : Nat) : M Unit := do
  let s ← get
  if s.setDone ow then (if s.core.adm.isSome then pure () else set (s.mapCore (fun c => { c with shut := false })))
  else
    shutCore
    waitHere

/-- R425: `launch`. -/
def execLaunch (d a b ow om : Nat) (s : State) : Out :=
  runM (do
    let s ← get
    operandAddr .read 64 64 (s.sreg a)
    launchOw ow
    let s ← get
    if s.core.adm.isSome then launchGo d om (s.sreg a) (s.sreg b)
    else if s.core.waitFrom.isSome then launchDep d om s.core.pkt (s.sreg a) (s.sreg b)
    else
      match readNum (s.sreg a) 64 (← get) with
      | .error f s => launchEnd d om (stFail f) s
      | .ok pkt s =>
        set s
        if pktField pkt 2 1 ≠ 1 then finish d om (stReject rPHASES 0 0 0)
        else launchDep d om pkt (s.sreg a) (s.sreg b)) s

/-! ## `cancel` (R430) -/

/-- The instances of a job admitted before a cancel point and not yet ended. -/
def State.toSweep (s : State) (job adm : Nat) : List Nat :=
  (s.regions.filter (fun e => e.2.live && e.2.started && e.2.ended.isNone && (match e.2.bound with
    | some b => b.job == job && decide (b.adm < adm)
    | none => false))).map Prod.fst

/-- A launch of a job admitted before a cancel point is in progress on another core. -/
def State.launching (s : State) (job adm : Nat) : Bool :=
  s.cores.any (fun e => e.1 != s.cur && pktField e.2.pkt 6 2 == job && pktField e.2.pkt 2 1 == 1 && (match e.2.adm with
    | some a => decide (a < adm)
    | none => false))

/-- R430: `cancel`: the number swept stands in the core's packet field until it completes. -/
def execCancel (d a ow om : Nat) (s : State) : Out :=
  runM (do
    waitOw ow
    let s ← get
    let job := (s.sreg a).toNat
    if 65536 ≤ job then finish d om stNone
    else
      let c := s.core
      let n := if c.shut then c.adm.getD 0 else s.admission + 1
      let s := if c.shut then s else { s with admission := n, cancels := Sparse.set 0 s.cancels job n }
      let gs := s.toSweep job n
      let s := gs.foldl (fun s g => s.endInstance g cCANCELLED) s
      let swept := (if c.shut then c.pkt / 2 ^ 512 else 0) + gs.length
      set (s.mapCore (fun c => { c with shut := true, adm := some n, pkt := swept * 2 ^ 512 }))
      if s.launching job n then waitHere else finish d om (swept % 2 ^ 16 * 2 ^ 16)) s

/-! ## Containment above level 1 (R57, R59) -/

/-- R59: stop(l) of a fault of region g for levels 2 to 4: the instance, the job's instances, those of every job of the queue, which
stops. Of a launch whose packet came from no queue, level 4 ends the instances of every job launched so: the rule names no unit for it (DESIGN
CHOICE, assumption 54). -/
def State.stopLevel (s : State) (g l code : Nat) : State :=
  let jobs : List Nat := match (s.region g).bound with
    | none => []
    | some b =>
      if l = 3 then [b.job]
      else if l = 4 then s.regions.filterMap (fun e => if e.2.live then e.2.bound.bind (fun x => if x.queue = b.queue then some x.job else none) else none)
      else []
  let gs := s.regions.filterMap (fun e => if e.2.live && (match e.2.bound with
    | some b => jobs.contains b.job
    | none => false) then some e.1 else none)
  let s := gs.foldl (fun s k => s.endInstance k code) (s.endInstance g code)
  match if l = 4 then ((s.region g).bound.bind Binding.queue) else none with
  | some q => s.setQueue q { s.queue q with stopped := true }
  | none => s

/-- R57: the levels from `lvl` on; `fuel` counts the levels left. Past level 4 the queue stops and the host is told. -/
def State.settleFault (s : State) (t : Nat) (f : Firing) (code : Nat) : Nat → Nat → State
  | 0, _ => s
  | fuel + 1, lvl =>
    let g := s.regionOf t
    match (s.region g).pol[lvl - 2]? with
    | none =>
      let s := (s.recordDecision t 5 3 0).reportFault t f.slot code 5 3
      let s := s.stopLevel g 4 code
      { s with msix := s.msix ++ [63] }
    | some (pol0, lim) =>
      let pol := if pol0 ≤ 1 ∧ (f.partialPeriod ∨ f.ext ∨ f.noRetry) then 3 else pol0
      let tries := (((s.tile t).slot f.slot).tries[lvl]?).getD 0
      let done (policy tr : Nat) : State := (s.recordDecision t lvl policy tr).reportFault t f.slot code lvl policy
      match pol with
      | 0 => ((done 0 tries).discard t).nullFiring t f.slot
      | 1 =>
        if tries < lim then
          let s := (done 1 (tries + 1)).discard t
          let tl := s.tile t
          let sl := tl.slot f.slot
          ((s.setTile t (tl.setSlot f.slot { sl with tries := sl.tries.setIfInBounds lvl (tries + 1) })).countBypass t f.slot).startFiring t f.slot true
        else s.settleFault t f code fuel (lvl + 1)
      | 2 => (done 2 tries).stopLevel g lvl code
      | _ => s.settleFault t f code fuel (lvl + 1)

/-- R325: the firmware ends the instance of a frozen context whose anchor is tile t. -/
def State.endFrozen (s : State) (t : Nat) : State :=
  match s.ctxs.find? (fun e => e.2.st == .frozen && (match e.2.region with
    | some g => (s.region g).resolve e.2.anchor == some t
    | none => false)) with
  | some (_, x) => s.endInstance (x.region.getD 0) cSTREAM_FAULT
  | none => s

/-- R57, R325: CONTAINMENT_DECISION on tile t: of the fault that waits there, else of a frozen stream context anchored there. -/
def execContainmentDecision (t : Nat) (s : State) : Out :=
  .next (match (s.tile t).firing with
    | some f =>
      match f.decide with
      | some lvl => s.settleFault t f (bits ((s.tile t).record[0]).toNat 0 8) 4 lvl
      | none => s.endFrozen t
    | none => s.endFrozen t)

end Sys2Proof.Machine
end

