-- ==== Sys2Proof/Machine/Preempt.lean ====
section
/-! DEFINITION. Pre-emption (R431, R432): the halt of a firing core and its core record (R189, R190), the halt records of the arc, matrix
and streamer engines (R254, R275, R305, R333, R410), and resumption (R191). -/

namespace Sys2Proof.Machine

/-! ## The halt of a firing core -/

/-- The matrix commands of tile p that have not started, in queue order (R305). -/
def State.savedMat (s : State) (p : Nat) : List MatCmd := (s.mat p).queue.filter (fun c => !c.started)

/-- The commands of tile p's firing that are not performed, with their contexts, in issue order (R333). -/
def State.savedCmds (s : State) (p : Nat) : List (Nat × StreamCmd) :=
  let all := s.ctxs.flatMap (fun (c, x) => (x.cmds.filter (fun m => m.core = p ∧ !m.orphan)).map (fun m => (c, m)))
  (sortNats (all.map (fun e => e.2.id))).filterMap (fun i => all.find? (fun e => e.2.id = i))

/-- A `barw` request of a firing that has not ended. -/
def NetOp.waitsBar (o : NetOp) : Bool := o.kind == .barw && !o.orphan

/-- R185, R273, R275: the `barw` that the firing of tile p waits in is abandoned and its request withdrawn (assumption 27). -/
def State.withdraw (s : State) (p : Nat) : State :=
  let ops := Sparse.get [] s.netOps p
  let ids := (ops.filter NetOp.waitsBar).map NetOp.id
  if ids.isEmpty then s
  else
    let c := s.coreAt p
    { s with netOps := Sparse.set [] s.netOps p (ops.filter (fun o => !o.waitsBar)),
             live := s.live.filter (fun e => !ids.contains e.id) }.setCoreAt p
      { c with waitOp := c.waitOp.filter (fun i => !ids.contains i),
               o := c.o.map (fun (l : List Nat) => l.filter (fun i => !ids.contains i)) }

/-- R133, R189: the firing of tile p may halt: its core is at a boundary, and nothing it issued is outstanding but what the engines save. -/
def State.mayHalt (s : State) (p a : Nat) : Bool :=
  let kept := (s.savedMat p).map MatCmd.id ++ (s.savedCmds p).map (fun e => e.2.id)
  (s.coreAt p).waitOp.isNone && s.live.all (fun e => e.core != p || kept.contains e.id) &&
    (s.mat p).queue.all (fun c => !c.started) &&
    (s.outDescs p a).all (fun k => (Sparse.get [] s.queued k).isEmpty && (Sparse.get [] s.flight k).isEmpty)

/-- The saved numbers of R190: the matrix engine's from 0, the streamer's from 32. -/
def State.savedOps (s : State) (p : Nat) : List (Nat × Nat) :=
  let ms := (s.savedMat p).map MatCmd.id
  let cs := (s.savedCmds p).map (fun e => e.2.id)
  (List.range ms.length).map (fun i => (i, (ms[i]?).getD 0)) ++ (List.range cs.length).map (fun i => (32 + i, (cs[i]?).getD 0))

/-- Writes a list of fields of the save frame of tile p: offset, size, value. -/
def State.wrFrame (s : State) (p : Nat) (fs : List (Nat × Nat × Nat)) : State :=
  fs.foldl (fun s (o, n, v) => s.wr (tileBase p + o) n (v % 2 ^ (8 * n))) s

/-- A field of the save frame. -/
def State.rdFrame (s : State) (p o n : Nat) : Nat := s.rd (tileBase p + o) n

/-- R190: the core record of a firing f. -/
def State.coreFields (s : State) (p : Nat) (f : Firing) : List (Nat × Nat × Nat) :=
  let c := s.coreAt p
  let ops := s.savedOps p
  [(0x7C000, 8, c.pc.toNat), (0x7C008, 8, c.rptst.toNat), (0x7C010, 8, c.fstat.toNat),
   (0x7C018, 8, (List.range 8).foldl (fun acc i => if c.preg i then acc + 2 ^ i else acc) 0),
   (0x7C020, 8, s.firingCount f), (0x7C028, 8, f.journal.length),
   (0x7C030, 16, f.journal.foldl (fun acc k => Nat.lor acc (2 ^ k)) 0)] ++
  (List.range f.journal.length).map (fun i => (0x7C040 + i, 1, (f.journal[i]?).getD 0)) ++
  (List.range 16).map (fun i =>
    (0x7C0C0 + 8 * i, 8, ops.foldl (fun acc e => if (c.oset i).contains e.2 then acc + 2 ^ e.1 else acc) 0)) ++
  (List.range 8).map (fun i => (0x7C140 + 16 * i, 16, (c.mreg i).toNat)) ++
  (List.range 32).map (fun i => (0x7C1C0 + 8 * i, 8, (c.sreg i).toNat)) ++
  [(0x7C2C0, 8, c.trapcause.toNat), (0x7C2C8, 8, c.trappc.toNat), (0x7C2D0, 8, c.trapinfo0.toNat), (0x7C2D8, 8, c.trapinfo1.toNat),
   (0x7C2E0, 8, c.trapinfo2.toNat), (0x7C2E8, 8, c.trapinfo3.toNat)]

/-- R254: the arc engine's halt record. -/
def State.arcFields (s : State) (p : Nat) (f : Firing) : List (Nat × Nat × Nat) :=
  ((List.range 8).flatMap (fun k =>
    [(0x7C400 + 16 * k, 4, (f.high[k]?).getD 0), (0x7C404 + 16 * k, 4, (f.sent[k]?).getD 0),
     (0x7C408 + 16 * k, 4, ((s.portDescs p 2 f.slot k).map (fun d => Sparse.get 0 f.ovf (d % 32))).sum)])) ++
  [(0x7C480, 8, match f.eos with
    | some m => 1 + m % 8 * 2
    | none => 0)]

/-- R305: the matrix engine's halt record. -/
def State.matFields (s : State) (p : Nat) : List (Nat × Nat × Nat) :=
  let cs := s.savedMat p
  ((List.range cs.length).flatMap (fun e => match cs[e]? with
    | some c => [(0x7C800 + 32 * e, 8, c.word), (0x7C808 + 32 * e, 8, c.av), (0x7C810 + 32 * e, 8, c.bv), (0x7C818 + 32 * e, 4, c.draw)]
    | none => [])) ++
  [(0x7CC00, 4, cs.length), (0x7CC04, 4, (s.mat p).gang)]

/-- R333: the streamer's halt record. -/
def State.streamFields (s : State) (p : Nat) : List (Nat × Nat × Nat) :=
  let cs := s.savedCmds p
  ((List.range cs.length).flatMap (fun e => match cs[e]? with
    | some (_, m) =>
      [(0x7D000 + 32 * e, 8, m.word), (0x7D008 + 32 * e, 8, m.av.toNat), (0x7D010 + 32 * e, 8, m.bv.toNat),
       (0x7D018 + 32 * e, 8, if m.accepted then 1 + m.seq % 2 ^ 32 * 2 ^ 32 else 0)]
    | none => [])) ++
  [(0x7D400, 4, cs.length)]

/-- R189, R190: the firing of tile p halts: the lower half of its save frame is written, and its slot is HALTED. -/
def State.haltTile (s : State) (p : Nat) (f : Firing) : State :=
  let fields := s.coreFields p f ++ s.arcFields p f ++ s.matFields p ++ s.streamFields p
  let s := (s.zero (tileBase p + 0x7C000) 0x2000).wrFrame p fields
  let t := s.tile p
  let s := s.setTile p { t.setSlot f.slot { t.slot f.slot with st := .halted } with firing := some { f with count0 := s.firingCount f } }
  s.setCoreAt p (s.coreAt p).settle

/-- R189: FIRING_HALT of tile t. A firing that has trapped counts as halted (R432); a `barw` request it left held is withdrawn (R277). -/
def execFiringHalt (t : Nat) (s : State) : Out :=
  .next (if (s.region (s.regionOf t)).halted then
    match (s.tile t).firing with
    | none => s
    | some f =>
      let u := s.withdraw t
      if f.trapped then u
      else if ((s.tile t).slot f.slot).st == .firing && u.mayHalt t f.slot then u.haltTile t f
      else s
  else s)

/-- R410: the hub operations that tile t's halting firing has outstanding, in program order. -/
def State.openHub (s : State) (t : Nat) : List HubOp :=
  s.hub.ops.filter (fun o => Nat.blt o.fn 16 && o.core == t && !o.orphan)

/-- R410, R411: the LINK_UNKNOWN of a closed operation; of an `xovld` it names the least member not answered and that read's sequence
number. -/
def State.closedTrap (s : State) (op : HubOp) : Trap :=
  if op.fn = 5 then
    match leastEntry ((s.hub.ops.filter (fun o => o.fn == 17 && o.parent == op.id)).map (fun (o : HubOp) => (o.member, o.seq.getD 0))) with
    | some (m, sq) => { op.unknown 2 with i2 := word m, i3 := word sq }
    | none => op.unknown 2
  else op.unknown 2

/-- R410: an operation is closed: its mark leaves every order register, and its answer will be discarded. -/
def State.closeHub (s : State) (op : HubOp) : State :=
  let s := s.mapHub (fun h => { h with ops := h.ops.map (fun (o : HubOp) =>
    if o.id = op.id ∨ (o.fn = 17 ∧ o.parent = op.id) then { o with orphan := true, core := 1000000 } else o) })
  s.retire op.id

/-- R410: the operations of tile t's halting firing that are answered and not yet performed: only their marks go. -/
def State.answeredHub (s : State) (t : Nat) : List HubOp := s.hub.ops.filter (fun o => o.fn == 18 && o.core == t && !o.orphan)

/-- R410: HUB_CLOSE_TIMEOUT of tile t, 12,000 cycles after the pre-emption request. -/
def execHubCloseTimeout (t : Nat) (s : State) : Out :=
  let r := s.region (s.regionOf t)
  .next (match (s.tile t).firing with
    | some f =>
      if r.halted && !f.trapped && ((s.tile t).slot f.slot).st == .firing && decide (r.haltFrom + 12000 ≤ s.cycle) then
        let s := (s.answeredHub t).foldl State.closeHub s
        match s.openHub t with
        | op :: ops =>
          let tr := s.closedTrap op
          let s := (op :: ops).foldl State.closeHub s
          let tl := s.tile t
          let s := s.setTile t { tl with firing := some { f with closed := f.closed.or (some (op.pc, tr)) } }
          s.setCoreAt t { s.coreAt t with waitOp := none }
        | [] => s
      else s
    | none => s)

/-! ## Resumption (R191) -/

/-- R191: the core of tile p reloaded from its record; its order registers hold the operations that are still saved. -/
def State.loadCore (s : State) (p : Nat) : Core :=
  let w (o : Nat) : Word := word (s.rdFrame p o 8)
  let ops := s.savedOps p
  let o (i : Nat) : List Nat := (ops.filter (fun e => (s.rdFrame p (0x7C0C0 + 8 * i) 8).testBit e.1)).map Prod.snd
  let c := s.coreAt p
  { c.settle with
    pc := w 0x7C000 &&& ~~~7#64, rptst := word (s.rdFrame p 0x7C008 8 % 128), pair := none, fstat := w 0x7C010,
    p := Vector.ofFn (fun i => (s.rdFrame p 0x7C018 1).testBit i.val),
    o := Vector.ofFn (fun i => o i.val),
    m := Vector.ofFn (fun i => BitVec.ofNat 128 (s.rdFrame p (0x7C140 + 16 * i.val) 16)),
    s := Vector.ofFn (fun i => w (0x7C1C0 + 8 * i.val)),
    trapcause := w 0x7C2C0, trappc := w 0x7C2C8, trapinfo0 := w 0x7C2D0, trapinfo1 := w 0x7C2D8, trapinfo2 := w 0x7C2E0,
    trapinfo3 := w 0x7C2E8 }

/-- R191, R254: the firing reloaded from its records. -/
def State.loadFiring (s : State) (p : Nat) (f : Firing) : Firing :=
  let n := min 128 (s.rdFrame p 0x7C028 8)
  let eos := s.rdFrame p 0x7C480 1
  { f with
    count0 := s.rdFrame p 0x7C020 8, since := s.cycle,
    journal := (List.range n).map (fun i => s.rdFrame p (0x7C040 + i) 1),
    high := Vector.ofFn (fun k => s.rdFrame p (0x7C400 + 16 * k.val) 4),
    sent := Vector.ofFn (fun k => s.rdFrame p (0x7C404 + 16 * k.val) 4),
    eos := if eos.testBit 0 then some (bits eos 1 3) else none,
    closed := none }

/-- R305: the saved matrix commands queued again, from their record. -/
def State.loadMat (s : State) (p : Nat) : Mat :=
  let x := s.mat p
  let q := x.queue
  { x with
    gang := s.rdFrame p 0x7CC04 4,
    queue := ((List.range (min q.length (s.rdFrame p 0x7CC00 4))).filterMap (fun e => (q[e]?).map (fun (c : MatCmd) =>
      { c with word := s.rdFrame p (0x7C800 + 32 * e) 8, av := s.rdFrame p (0x7C808 + 32 * e) 8, bv := s.rdFrame p (0x7C810 + 32 * e) 8,
               draw := s.rdFrame p (0x7C818 + 32 * e) 4, since := none }))) }

/-- R191: tile p's halted firing goes on; one whose hub operation was closed takes its LINK_UNKNOWN first (R410). -/
def State.resumeTile (s : State) (p : Nat) : State :=
  let t := s.tile p
  match t.firing with
  | none => s
  | some f =>
    if (t.slot f.slot).st ≠ .halted then s
    else
      let c := s.loadCore p
      let s := s.setTile p { t.setSlot f.slot { t.slot f.slot with st := .firing } with firing := some (s.loadFiring p f) }
      let s := (s.setMat p (s.loadMat p)).setCoreAt p c
      match f.closed with
      | none => s
      | some (pc, tr) => s.engineTrap p 0 pc tr

/-- R311, R431: a pre-empted region goes on. -/
def State.resume (s : State) (g : Nat) : State :=
  let r := s.region g
  let s := s.mapRegion g (fun r => { r with halted := false })
  let s := (s.boundCtxs g).foldl (fun s c => s.mapCtx c (fun x => if x.st = .halted then { x with st := x.left } else x)) s
  r.tiles.foldl (fun s p => s.resumeTile p) s

/-! ## The instructions -/

/-- R311, R333: a context of a pre-empted region. -/
def Ctx.halt (x : Ctx) : Ctx := if x.st = .idle ∨ x.st = .active ∨ x.st = .frozen then { x with st := .halted, left := x.st } else x

/-- R311, R431: the request: no new firing of the region starts, and its contexts are HALTED, their translations removed (R335). -/
def State.halt (s : State) (g : Nat) : State :=
  let s := s.mapRegion g (fun r => { r with halted := true, haltFrom := s.cycle })
  let s := (s.boundCtxs g).foldl (fun s c =>
    ({ s with tlb := Sparse.set [] s.tlb (ctxTlbKey c) [] }).mapCtx c Ctx.halt) s
  (s.region g).tiles.foldl State.settleTrap s

/-- R431: `preempt`. A region that runs no instance, or is pre-empted already, gives SLOT_STATE (assumption 28). -/
def execPreempt (d a ow om : Nat) (s : State) : Out :=
  runM (do
    waitOw ow
    onRegion d om a (fun g => do
      let s ← get
      let r := s.region g
      if s.core.shut then (if s.resting g || !(s.region g).halted then finish d om 0 else waitHere)
      else if !r.started || r.halted then finish d om (stSlot r)
      else
        set (s.halt g)
        shutCore
        waitHere)) s

/-- R431: `preempt.resume`. -/
def execPreemptResume (d a ow om : Nat) (s : State) : Out :=
  runM (do
    waitOw ow
    onRegion d om a (fun g => do
      let s ← get
      if s.resting g then
        set (s.resume g)
        finish d om 0
      else finish d om (stSlot (s.region g)))) s

end Sys2Proof.Machine
end

