-- ==== Sys2Proof/Machine/Codec.lean ====
section
/-! DEFINITION. How the parts of a region's state stand in the body of a context image (R433): each part as a list of numbers. The spec gives
the body's contents and their order, and no layout within them (assumption 29). -/

namespace Sys2Proof.Machine

/-- A writing of values as numbers, and the reading of them from the front of a list. -/
structure Codec (α : Type) where
  enc : α → List Nat
  dec : List Nat → α × List Nat

/-- A value of n numbers. -/
def Codec.nums {α : Type} (n : Nat) (nums_ : α → List Nat) (of_ : (Nat → Nat) → α) : Codec α :=
  { enc := fun x => (List.range n).map (fun i => ((nums_ x)[i]?).getD 0), dec := fun l => (of_ (fun i => (l[i]?).getD 0), l.drop n) }

/-- n values in succession. -/
def Codec.times {α : Type} (dec : List Nat → α × List Nat) : Nat → List Nat → List α × List Nat
  | 0, l => ([], l)
  | n + 1, l =>
    let (x, l) := dec l
    let (xs, l) := Codec.times dec n l
    (x :: xs, l)

def Codec.list {α : Type} (c : Codec α) : Codec (List α) :=
  { enc := fun xs => xs.length :: xs.flatMap c.enc,
    dec := fun l => match l with
      | [] => ([], [])
      | n :: l => Codec.times c.dec (min n l.length) l }

def Codec.pair {α β : Type} (a : Codec α) (b : Codec β) : Codec (α × β) :=
  { enc := fun x => a.enc x.1 ++ b.enc x.2,
    dec := fun l =>
      let (x, l) := a.dec l
      let (y, l) := b.dec l
      ((x, y), l) }

def Codec.map {α β : Type} (c : Codec α) (f : β → α) (g : α → β) : Codec β :=
  { enc := fun x => c.enc (f x),
    dec := fun l =>
      let (x, l) := c.dec l
      (g x, l) }

def codecNat : Codec Nat := Codec.nums 1 (fun x => [x]) (fun f => f 0)
def codecPair : Codec (Nat × Nat) := codecNat.pair codecNat

/-- A sparse map, rebuilt in its canonical form. -/
def Codec.sparse {α : Type} [DecidableEq α] (c : Codec α) (d : α) : Codec (Sparse α) :=
  ((codecNat.pair c).list).map (fun m => m) (fun l => l.foldl (fun m e => Sparse.set d m e.1 e.2) [])

/-- Bytes, sixteen to a number. -/
def codecBytes : Codec (List Byte) :=
  { enc := fun bs => bs.length :: (List.range ((bs.length + 15) / 16)).map (fun i => ofBytes ((bs.drop (16 * i)).take 16)),
    dec := fun l => match l with
      | [] => ([], [])
      | n :: l =>
        let k := min ((n + 15) / 16) l.length
        (((l.take k).flatMap (fun x => toBytes x 16)).take n, l.drop k) }

def natOfBool (b : Bool) : Nat := if b then 1 else 0
def natOfOpt : Option Nat → Nat
  | none => 0
  | some x => x + 1
def optOfNat (x : Nat) : Option Nat := if x = 0 then none else some (x - 1)
def natOfInt (x : Int) : Nat := 2 * x.natAbs + (if x < 0 then 1 else 0)
def intOfNat (x : Nat) : Int := if x % 2 = 1 then -(x / 2 : Nat) else (x / 2 : Nat)

def SlotSt.num : SlotSt → Nat
  | .unused => 0
  | .waiting => 1
  | .firing => 2
  | .halted => 3
  | .quiescent => 4
  | .stopped => 5

def slotStOf (x : Nat) : SlotSt := ([SlotSt.unused, .waiting, .firing, .halted, .quiescent, .stopped][x]?).getD .unused
def ctxStOf (x : Nat) : CtxSt := ([CtxSt.unbound, .idle, .active, .frozen, .halted][x]?).getD .unbound
def proofStOf (x : Nat) : ProofSt := ([ProofSt.none, .etching, .ready, .pulling][x]?).getD .none

def codecSlot : Codec ActorSlot :=
  Codec.nums 9 (fun x => [x.st.num, x.firing, x.k0, x.bypass] ++ x.tries.toList)
    (fun f => { st := slotStOf (f 0), firing := f 1, k0 := f 2, bypass := f 3, tries := Vector.ofFn (fun i => f (4 + i.val)) })

def codecDesc : Codec Desc :=
  Codec.nums 25
    (fun d => [d.kind, d.slot, d.port, d.base, d.tsz, d.cap, d.etype, d.eround, d.rd, d.wr, d.rpos, d.init, d.depth, d.ovf, d.peerL, d.peerD,
      natOfBool d.mark, d.mmode, natOfBool d.mflt, natOfBool d.side, d.mrd, d.wpos, d.sideof, d.ctype, d.cround])
    (fun f =>
      { kind := f 0, slot := f 1, port := f 2, base := f 3, tsz := f 4, cap := f 5, etype := f 6, eround := f 7, rd := f 8, wr := f 9,
        rpos := f 10, init := f 11, depth := f 12, ovf := f 13, peerL := f 14, peerD := f 15, mark := f 16 == 1, mmode := f 17,
        mflt := f 18 == 1, side := f 19 == 1, mrd := f 20, wpos := f 21, sideof := f 22, ctype := f 23, cround := f 24 })

def Flit.enc : Flit → List Nat
  | .data off bs op => [0, off, natOfOpt op] ++ codecBytes.enc bs
  | .pointer wr ovf op => [1, wr, ovf, natOfOpt op]
  | .marker m f => [2, m, natOfBool f]
  | .ret rd => [3, rd]

def codecFlit : Codec Flit :=
  { enc := Flit.enc,
    dec := fun l => match l with
      | 0 :: off :: op :: l =>
        let (bs, l) := codecBytes.dec l
        (.data off bs (optOfNat op), l)
      | 1 :: wr :: ovf :: op :: l => (.pointer wr ovf (optOfNat op), l)
      | 2 :: m :: f :: l => (.marker m (f == 1), l)
      | _ :: rd :: l => (.ret rd, l)
      | _ => (.ret 0, []) }

/-- Descriptor and its buffer. -/
def codecEnd : Codec (Desc × List Flit) := codecDesc.pair codecFlit.list

def codecTrap : Codec Trap :=
  Codec.nums 6 (fun t => [t.code, t.i0.toNat, t.i1.toNat, t.i2.toNat, t.i3.toNat, natOfBool t.sw])
    (fun f => { code := f 0, i0 := word (f 1), i1 := word (f 2), i2 := word (f 3), i3 := word (f 4), sw := f 5 == 1 })

def codecFiring : Codec Firing :=
  ((Codec.nums 24
      (fun (f : Firing) => [f.slot, f.count0, natOfBool f.ext, natOfBool f.noRetry, natOfOpt f.eos, natOfBool f.trapped, natOfOpt f.decide,
        natOfBool f.partialPeriod] ++ f.high.toList ++ f.sent.toList)
      (fun f =>
        { slot := f 0, count0 := f 1, ext := f 2 == 1, noRetry := f 3 == 1, eos := optOfNat (f 4), trapped := f 5 == 1,
          decide := optOfNat (f 6), partialPeriod := f 7 == 1, high := Vector.ofFn (fun i => f (8 + i.val)),
          sent := Vector.ofFn (fun i => f (16 + i.val)) })).pair
    ((codecNat.list.pair (codecPair.list.pair ((codecNat.pair codecTrap).list))).pair
      ((codecNat.sparse 0).pair (codecNat.sparse 0)))).map
    (fun f => (f, (f.journal, f.sends, (f.closed.map (fun e => (e.1.toNat, e.2))).toList), f.ovf, f.ovfSent))
    (fun x =>
      { x.1 with journal := x.2.1.1, sends := x.2.1.2.1, closed := x.2.1.2.2.head?.map (fun e => (word e.1, e.2)), ovf := x.2.2.1,
                 ovfSent := x.2.2.2 })

/-- A core, but for what an instruction in progress holds: a halted core has none. -/
def codecCore : Codec Core :=
  ((Codec.nums 563
      (fun (c : Core) =>
        [c.pc.toNat, (List.range 8).foldl (fun acc i => if (c.p[i]?).getD false then acc + 2 ^ i else acc) 0, c.rptst.toNat, c.fstat.toNat,
         c.trapcause.toNat, c.trapinfo0.toNat, c.trapinfo1.toNat, c.trapinfo2.toNat, c.trapinfo3.toNat, c.trappc.toNat, c.draws] ++
        c.s.toList.map BitVec.toNat ++ c.m.toList.map BitVec.toNat ++
        c.v.toList.flatMap (fun x => (List.range 16).map (fun i => bits x.toNat (128 * i) 128)))
      (fun f =>
        { pc := word (f 0), p := Vector.ofFn (fun i => (f 1).testBit i.val), rptst := word (f 2), fstat := word (f 3),
          trapcause := word (f 4), trapinfo0 := word (f 5), trapinfo1 := word (f 6), trapinfo2 := word (f 7), trapinfo3 := word (f 8),
          trappc := word (f 9), draws := f 10, s := Vector.ofFn (fun i => word (f (11 + i.val))),
          m := Vector.ofFn (fun i => BitVec.ofNat 128 (f (43 + i.val))),
          v := Vector.ofFn (fun i => BitVec.ofNat 2048
            ((List.range 16).foldl (fun acc k => acc + f (51 + 16 * i.val + k) % 2 ^ 128 * 2 ^ (128 * k)) 0)) })).pair
    (codecNat.list.list.pair codecNat.list)).map
    (fun c => (c, c.o.toList, c.badReg))
    (fun x => { x.1 with o := Vector.ofFn (fun i => (x.2.1[i.val]?).getD []), badReg := x.2.2 })

def codecSlotTag : Codec SlotTag :=
  Codec.nums 4 (fun t => [t.tag, t.owner, natOfBool t.keep, natOfBool t.relp])
    (fun f => { tag := f 0, owner := f 1, keep := f 2 == 1, relp := f 3 == 1 })

def codecBlockTag : Codec BlockTag := Codec.nums 2 (fun t => [t.tag, natOfBool t.int]) (fun f => { tag := f 0, int := f 1 == 1 })

def codecMatCmd : Codec MatCmd :=
  ((Codec.nums 9
      (fun (c : MatCmd) => [c.id, c.word, c.av, c.bv, c.draw, c.pc.toNat, c.gang, natOfBool c.started, c.flags])
      (fun f =>
        let c : MatCmd := { id := f 0, word := f 1, av := f 2, bv := f 3, draw := f 4, pc := word (f 5), waits := [], gang := f 6,
                            started := f 7 == 1, flags := f 8 }
        c)).pair (codecNat.list.pair codecNat.list)).map
    (fun c => (c, c.waits, c.flits)) (fun x => { x.1 with waits := x.2.1, flits := x.2.2 })

def codecMat : Codec Mat :=
  (((codecSlotTag.sparse {}).pair (codecBlockTag.sparse {})).pair
    (((codecSlotTag.sparse {}).pair (codecBlockTag.sparse {})).pair ((codecSlotTag.sparse {}).pair (codecMatCmd.list.pair codecNat)))).map
    (fun x => ((x.slots, x.blocks), (x.pslots, x.pblocks), x.snap, x.queue, x.gang))
    (fun y => { slots := y.1.1, blocks := y.1.2, pslots := y.2.1.1, pblocks := y.2.1.2, snap := y.2.2.1, queue := y.2.2.2.1, gang := y.2.2.2.2 })

def codecSect : Codec Sect :=
  ((Codec.nums 4 (fun (x : Sect) => [x.kind, x.rset, x.ltile, x.toff])
      (fun f => { kind := f 0, rset := f 1, ltile := f 2, toff := f 3, data := [] })).pair codecBytes).map
    (fun x => (x, x.data)) (fun y => { y.1 with data := y.2 })

def codecGroupDef : Codec GroupDef :=
  ((Codec.nums 3 (fun (x : GroupDef) => [natOfBool x.defd, natOfBool x.skip, x.count])
      (fun f => { defd := f 0 == 1, skip := f 1 == 1, count := f 2 })).pair codecNat.list).map
    (fun x => (x, x.members)) (fun y => { y.1 with members := y.2 })

def codecStreamDecl : Codec StreamDecl :=
  Codec.nums 6 (fun d => [d.role, d.edge, d.ltile, d.p, d.arc, d.record])
    (fun f => { role := f 0, edge := f 1, ltile := f 2, p := f 3, arc := f 4, record := f 5 })

def codecDim : Codec Dim :=
  Codec.nums 6 (fun d => [d.size, d.lim, d.hlo, d.hhi, natOfInt d.start, natOfInt d.stride])
    (fun f => { size := f 0, lim := f 1, hlo := f 2, hhi := f 3, start := intOfNat (f 4), stride := intOfNat (f 5) })

def codecShape : Codec Shape :=
  ((Codec.nums 10
      (fun (x : Shape) => [natOfInt x.base, x.esz, x.ty, x.cscope, x.caddr, x.cinc, x.n, x.lo, x.hi, x.space])
      (fun f =>
        { base := intOfNat (f 0), esz := f 1, ty := f 2, cscope := f 3, caddr := f 4, cinc := f 5, n := f 6, lo := f 7, hi := f 8,
          space := f 9 })).pair codecDim.list).map
    (fun x => (x, x.dims)) (fun y => { y.1 with dims := y.2 })

def codecObject : Codec Object :=
  ((codecNat.pair codecSect.list).pair (codecStreamDecl.list.pair codecShape.list)).map
    (fun o => ((o.addr, o.sects), o.strs, o.recs)) (fun y => { addr := y.1.1, sects := y.1.2, strs := y.2.1, recs := y.2.2 })

def codecStreamCmd : Codec StreamCmd :=
  ((Codec.nums 13
      (fun (m : StreamCmd) => [m.id, m.core, m.fn, m.word, m.pc.toNat, m.d, m.av.toNat, m.bv.toNat, natOfBool m.orphan, natOfBool m.accepted,
        m.seq, m.done, m.promise])
      (fun f =>
        let m : StreamCmd := { id := f 0, core := f 1, fn := f 2, word := f 3, pc := word (f 4), ow := [], d := f 5, av := word (f 6),
                               bv := word (f 7), orphan := f 8 == 1, accepted := f 9 == 1, seq := f 10, done := f 11, promise := f 12 }
        m)).pair (codecNat.list.pair (codecShape.pair codecShape))).map
    (fun m => (m, m.ow, m.src, m.dst)) (fun y => { y.1 with ow := y.2.1, src := y.2.2.1, dst := y.2.2.2 })

def codecCtx : Codec Ctx :=
  ((Codec.nums 24
      (fun (x : Ctx) => [x.st.code, x.left.code, x.role, x.num, x.anchor, x.edge, x.p, x.arc, x.segs, x.per, x.seq, x.pos, x.fired,
        x.performed, x.promise, natOfBool x.quiescent] ++ x.record.toList.map BitVec.toNat)
      (fun f =>
        { st := ctxStOf (f 0), left := ctxStOf (f 1), role := f 2, num := f 3, anchor := f 4, edge := f 5, p := f 6, arc := f 7,
          segs := f 8, per := f 9, seq := f 10, pos := f 11, fired := f 12, performed := f 13, promise := f 14, quiescent := f 15 == 1,
          record := Vector.ofFn (fun i => word (f (16 + i.val))) })).pair
    ((codecShape.pair codecShape.list).pair (codecStreamCmd.list.pair codecBytes))).map
    (fun x => (x, (x.shape, x.staged.toList), x.cmds, x.buf))
    (fun y => { y.1 with shape := y.2.1.1, staged := y.2.1.2.head?, cmds := y.2.2.1, buf := y.2.2.2 })

/-- What a region holds beside what the header and the placement give. -/
def codecRegion : Codec Region :=
  ((Codec.nums 26
      (fun (r : Region) => [r.proofSt.code, natOfBool r.auto, r.markTag, r.pulls, r.discards, natOfBool r.fresh, r.swapAt, natOfBool r.staged,
        natOfBool r.modeSplit, r.gsel, natOfOpt r.sinkMode, r.mode, natOfBool r.started, natOfBool r.undone, natOfOpt r.ended, r.startG,
        r.endG, r.firings, r.faults, r.ffw.toNat, natOfBool r.reported, r.drainMode, natOfBool r.replay,
        natOfOpt (r.bound.bind Binding.queue), natOfBool r.bound.isSome, natOfOpt r.drainAt])
      (fun f =>
        { proofSt := proofStOf (f 0), auto := f 1 == 1, markTag := f 2, pulls := f 3, discards := f 4, fresh := f 5 == 1, swapAt := f 6,
          staged := f 7 == 1, modeSplit := f 8 == 1, gsel := f 9, sinkMode := optOfNat (f 10), mode := f 11, started := f 12 == 1,
          undone := f 13 == 1, ended := optOfNat (f 14), startG := f 15, endG := f 16, firings := f 17, faults := f 18,
          ffw := word (f 19), reported := f 20 == 1, drainMode := f 21, replay := f 22 == 1,
          drainAt := optOfNat (f 25),
          bound := if f 24 = 1 then some { pkt := 0, queue := optOfNat (f 23), adm := 0 } else none })).pair
    (((codecGroupDef.sparse {}).pair (codecGroupDef.sparse {})).pair
      ((codecObject.pair codecObject).pair (codecSect.list.pair (codecPair.list.pair codecNat.list))))).map
    (fun r => (r, (r.groups, r.groupsProof), (r.obj, r.objProof), r.deferred, r.pol, r.legs))
    (fun y => { y.1 with groups := y.2.1.1, groupsProof := y.2.1.2, obj := y.2.2.1.1, objProof := y.2.2.1.2, deferred := y.2.2.2.1,
                         pol := y.2.2.2.2.1, legs := y.2.2.2.2.2 })

/-- A tile's fields: slots, planes, pairs the region owns; scheduler and selector positions; its fault record; the firing. -/
def codecTile : Codec Tile :=
  ((Codec.nums 14
      (fun (t : Tile) => [t.schedPos, t.asel, t.dsel, t.rsel, t.rslot, t.sidx] ++ t.record.toList.map BitVec.toNat)
      (fun f =>
        { schedPos := f 0, asel := f 1, dsel := f 2, rsel := f 3, rslot := f 4, sidx := f 5,
          record := Vector.ofFn (fun i => word (f (6 + i.val))) })).pair
    ((codecSlot.list.pair codecFiring.list).pair
      (((codecNat.sparse 0).pair (codecNat.sparse 0)).pair ((codecNat.sparse 0).pair (codecNat.sparse 0))))).map
    (fun t => (t, (t.slots.toList, t.firing.toList), (t.plane, t.proof), t.pairs, t.pairsProof))
    (fun y => { y.1 with slots := Vector.ofFn (fun i => (y.2.1.1[i.val]?).getD {}), firing := y.2.1.2.head?, plane := y.2.2.1.1,
                         proof := y.2.2.1.2, pairs := y.2.2.2.1, pairsProof := y.2.2.2.2 })

end Sys2Proof.Machine
end

