-- ==== Sys2Proof/Machine/ContextImage.lean ====
section
/-! DEFINITION. Context images (R433): `ctxsave` (R434) and `ctxrest` (R435). -/

namespace Sys2Proof.Machine

/-! ## The body -/

/-- What the body holds of a logical tile, in the order of R433: its memories as numbers of 16 bytes, its tags, its core with the vector
file, its 32 descriptors with what they have queued, its fields and pairs. -/
structure TileImage where
  tmem : List Nat
  opnd : List Nat
  scl : List Nat
  acc : List Nat
  mat : Mat
  imem : List Nat
  core : Core
  ends : List (Desc × List Flit)
  tile : Tile
deriving DecidableEq, Repr

/-- A stream context: its region number, its state, its segments with their windows. -/
structure CtxImage where
  num : Nat
  ctx : Ctx
  segs : List ((Desc × List Flit) × List Byte)
deriving DecidableEq, Repr

/-- A body: the tiles, then what is the region's; `ops` are the operations not yet performed: core (logical tile plus 1) and whether
`fend` waits. Every operation number in an image is an index into them. -/
structure BodyImage where
  tiles : List TileImage
  region : Region
  ctxs : List CtxImage
  ops : List (Nat × Nat)
deriving DecidableEq, Repr

/-- A memory of n numbers. -/
def codecBlock (n : Nat) : Codec (List Nat) := { enc := fun l => l.take n, dec := fun l => (l.take n, l.drop n) }

def codecTileImage : Codec TileImage :=
  (((codecBlock 32768).pair ((codecBlock 8192).pair ((codecBlock 512).pair (codecBlock 16384)))).pair
    ((codecMat.pair (codecBlock 4096)).pair (codecCore.pair (codecEnd.list.pair codecTile)))).map
    (fun x => ((x.tmem, x.opnd, x.scl, x.acc), (x.mat, x.imem), x.core, x.ends, x.tile))
    (fun y => { tmem := y.1.1, opnd := y.1.2.1, scl := y.1.2.2.1, acc := y.1.2.2.2, mat := y.2.1.1, imem := y.2.1.2, core := y.2.2.1,
                ends := y.2.2.2.1, tile := y.2.2.2.2 })

def codecCtxImage : Codec CtxImage :=
  (codecNat.pair (codecCtx.pair (codecEnd.pair codecBytes).list)).map (fun x => (x.num, x.ctx, x.segs))
    (fun y => { num := y.1, ctx := y.2.1, segs := y.2.2 })

def codecBody : Codec BodyImage :=
  (codecTileImage.list.pair (codecRegion.pair (codecCtxImage.list.pair codecPair.list))).map
    (fun x => (x.tiles, x.region, x.ctxs, x.ops)) (fun y => { tiles := y.1, region := y.2.1, ctxs := y.2.2.1, ops := y.2.2.2 })

/-! ## Operation numbers -/

/-- Operation numbers renamed; those without a name are performed. -/
def Core.renumber (f : Nat → Option Nat) (c : Core) : Core := { c with o := c.o.map (fun (l : List Nat) => l.filterMap f) }
def Firing.renumber (f : Nat → Option Nat) (x : Firing) : Firing :=
  { x with sends := x.sends.filterMap (fun e => (f e.2).map (fun i => (e.1, i))) }
def MatCmd.renumber (f : Nat → Option Nat) (c : MatCmd) : MatCmd :=
  { c with id := (f c.id).getD 0, waits := c.waits.filterMap f, flits := c.flits.filterMap f }
def Flit.renumber (f : Nat → Option Nat) : Flit → Flit
  | .data off bs op => .data off bs (op.bind f)
  | .pointer wr ovf op => .pointer wr ovf (op.bind f)
  | x => x
def StreamCmd.renumber (f : Nat → Option Nat) (core : Nat → Nat) (m : StreamCmd) : StreamCmd :=
  { m with id := (f m.id).getD 0, ow := m.ow.filterMap f, core := core m.core }
def endRenumber (f : Nat → Option Nat) (e : Desc × List Flit) : Desc × List Flit :=
  (e.1, e.2.map (Flit.renumber f))
def TileImage.renumber (f : Nat → Option Nat) (x : TileImage) : TileImage :=
  { x with core := x.core.renumber f, mat := { x.mat with queue := x.mat.queue.map (MatCmd.renumber f) },
           ends := x.ends.map (endRenumber f), tile := { x.tile with firing := x.tile.firing.map (Firing.renumber f) } }
def CtxImage.renumber (f : Nat → Option Nat) (core : Nat → Nat) (x : CtxImage) : CtxImage :=
  { x with ctx := { x.ctx with cmds := x.ctx.cmds.map (StreamCmd.renumber f core) }, segs := x.segs.map (fun e => (endRenumber f e.1, e.2)) }

/-! ## Saving -/

/-- The operations of a region's cores and commands that are not performed. -/
def State.regionOps (s : State) (g : Nat) : List LiveOp :=
  let ts := (s.region g).tiles
  let ids := (s.boundCtxs g).flatMap (fun c => (s.ctxAt c).cmds.map StreamCmd.id)
  s.live.filter (fun e => ts.contains e.core || ids.contains e.id)

/-- n bytes of memory as numbers of 16. -/
def State.rdBlock (s : State) (key n : Nat) : List Nat := (List.range (n / 16)).map (fun i => s.rd (key + 16 * i) 16)

/-- A descriptor with its buffer: none of its flits is in flight (R433). -/
def State.endAt (s : State) (k : Nat) : Desc × List Flit := (s.desc k, Sparse.get [] s.queued k)

/-- The pairs a region owns, but for transit legs, their owner left out. -/
def ownPairs (g : Nat) (m : Sparse Nat) : Sparse Nat :=
  (m.filter (fun e => pairOwned e.2 g && !e.2.testBit 11)).map (fun e => (e.1, e.2 - g * 16))

def State.tileImage (s : State) (g p : Nat) : TileImage :=
  let t := s.tile p
  { tmem := s.rdBlock (tileBase p) (2 ^ 19), opnd := s.rdBlock (opndBase p) (2 ^ 17), scl := s.rdBlock (scaleBase p) (2 ^ 13),
    acc := s.rdBlock (accBase p) (2 ^ 18), imem := s.rdBlock (imemBase p) (2 ^ 16), mat := s.mat p, core := s.coreAt p,
    ends := (List.range 32).map (fun d => s.endAt (descKey p d)),
    tile := { t with pairs := ownPairs g t.pairs, pairsProof := ownPairs g t.pairsProof } }

/-- The bytes of a context's window at a segment. -/
def winBytes (d : Desc) : Nat := d.base + d.cap * d.size

def State.ctxImage (s : State) (num c : Nat) : CtxImage :=
  { num := num, ctx := s.ctxAt c,
    segs := (List.range (s.ctxAt c).segs).map (fun i =>
      (s.endAt (ctxKey c i), s.rdList (winBase (ctxKey c i)) (winBytes (s.desc (ctxKey c i))))) }

/-- R433: the body of region g's image. -/
def State.bodyImage (s : State) (g : Nat) : BodyImage :=
  let r := s.region g
  let ops := s.regionOps g
  let f (id : Nat) : Option Nat := indexOf? id (ops.map LiveOp.id) 0
  { tiles := r.tiles.map (fun p => (s.tileImage g p).renumber f), region := r,
    ctxs := r.ctx.map (fun e => (s.ctxImage e.1 e.2).renumber f s.ltileOf),
    ops := ops.map (fun e => (if r.tiles.contains e.core then s.ltileOf e.core + 1 else 0, natOfBool e.eng)) }

/-- R433: the 4,096 bytes of the header. -/
def State.imageHeader (s : State) (g len : Nat) : List Byte :=
  let r := s.region g
  let b := (r.bound.map Binding.pkt).getD 0
  toBytes 0x4A435849 4 ++ toBytes 3 1 ++ toBytes Config.revision 1 ++ toBytes 0 2 ++ toBytes r.place 16 ++ toBytes len 8 ++
    toBytes r.seed.toNat 8 ++ toBytes r.instKey.toNat 4 ++ toBytes ((r.bound.map Binding.job).getD 0) 2 ++ toBytes 0 2 ++
    toBytes (Sparse.get 0 s.roots g).toNat 8 ++ toBytes 0 8 ++ toBytes b 64 ++ List.replicate 3968 0

/-- R433: the image of a region. -/
def State.image (s : State) (g : Nat) : List Byte :=
  let body := (codecBody.enc (s.bodyImage g)).flatMap (fun x => toBytes x 16)
  s.imageHeader g body.length ++ body

/-- The least check word of the region's memories that holds an uncorrectable error (assumption 30). -/
def State.imageBad (s : State) (g : Nat) : Option Nat :=
  let ts := (s.region g).tiles
  s.bad.find? (fun w => ts.any (fun p =>
    [(tileBase p, 19), (opndBase p, 17), (scaleBase p, 13), (accBase p, 18), (imemBase p, 16)].any (fun e =>
      Nat.ble e.1 w && Nat.blt w (e.1 + 2 ^ e.2))))

/-- R434: `ctxsave`. -/
def execCtxsave (d a b ow om : Nat) (s : State) : Out :=
  runM (do
    let s ← get
    operandAddr .write 4096 4096 (s.sreg b)
    waitOw ow
    onRegion d om a (fun g => do
      let s ← get
      if !s.resting g then finish d om (stSlot (s.region g))
      else if s.unperformed g then waitHere
      else match s.imageBad g with
        | some w =>
          set (s.countHard (dieOfKey w) (errClass w))
          finish d om (stFail { code := cECC, reason := 1, idx := 0 })
        | none =>
          match writeBytes (s.sreg b) (s.image g) s with
          | .error f s =>
            set s
            finish d om (stFail f)
          | .ok _ s =>
            set s
            finish d om 0)) s

/-! ## Restoring -/

/-- Numbers of 16 bytes written to memory. -/
def State.wrNums (s : State) (key n : Nat) (l : List Nat) : State := (s.zero key n).wrList key ((l.take (n / 16)).flatMap (fun x => toBytes x 16))

/-- A descriptor with its buffer and flits put in place. -/
def State.putEnd (s : State) (k : Nat) (e : Desc × List Flit) : State :=
  { s.setDesc k e.1 with queued := Sparse.set [] s.queued k e.2 }

/-- R435: a tile loaded. The fault record stays the physical tile's, but for a firing that waits for its decision. -/
def State.loadTile (s : State) (g p : Nat) (x : TileImage) : State :=
  let s := s.wrNums (tileBase p) (2 ^ 19) x.tmem
  let s := s.wrNums (opndBase p) (2 ^ 17) x.opnd
  let s := s.wrNums (scaleBase p) (2 ^ 13) x.scl
  let s := s.wrNums (accBase p) (2 ^ 18) x.acc
  let s := s.wrNums (imemBase p) (2 ^ 16) x.imem
  let old := s.tile p
  let join (m n : Sparse Nat) : Sparse Nat := n.foldl (fun acc e => Sparse.set 0 acc e.1 (e.2 + g * 16)) m
  let trapped := (x.tile.firing.map Firing.trapped).getD false
  let s := s.setTile p
    { x.tile with
      record := if trapped then x.tile.record else old.record,
      pairs := join old.pairs x.tile.pairs, pairsProof := join old.pairsProof x.tile.pairsProof }
  let s := (s.setMat p x.mat).setCoreAt p x.core
  (List.range 32).foldl (fun s d => s.putEnd (descKey p d) ((x.ends[d]?).getD ({}, []))) s

/-- R310, R435: a stream context loaded, on the streamer of its anchor's column; none where that has no free context. -/
def State.loadCtx (s : State) (g : Nat) (x : CtxImage) : Option State :=
  match (s.region g).resolve x.ctx.anchor with
  | none => none
  | some p =>
    (s.freeCtx g (streamerOf p x.ctx.edge)).map (fun c =>
      let s := s.setCtx c { x.ctx with region := some g }
      let s := (List.range x.segs.length).foldl (fun s i =>
        match x.segs[i]? with
        | some (e, bs) => (s.putEnd (ctxKey c i) e).wrList (winBase (ctxKey c i)) bs
        | none => s) s
      s.mapRegion g (fun r => { r with ctx := r.ctx ++ [(x.num, c)] }))

/-- A saved pair whose place another region holds, or a tile of the new plates that runs another period (R347). -/
def State.imageFits (s : State) (g p : Nat) (x : TileImage) : Bool :=
  let b := s.tile p
  let meets (m n : Sparse Nat) : Bool := m.any (fun e => pairForeign (Sparse.get 0 n e.1) g)
  !meets x.tile.pairs b.pairs && !meets x.tile.pairsProof b.pairsProof && !meets x.tile.pairs b.pairsProof && !meets x.tile.pairsProof b.pairs &&
    (s.period p == none || s.period p == some x.tile.activePeriod)

/-- Fields of an image's header. -/
def hdrField (h off n : Nat) : Nat := bits h (8 * off) (8 * n)

/-- R435: the body loaded into region g, whose plates are taken: HALTED, with SEED and INSTKEY as saved; none where a tile, a group (R261) or a
stream context finds no room (assumption 31). -/
def State.loadBody (s : State) (g h adm : Nat) (x : BodyImage) : Option State :=
  let old := s.region g
  let base := s.nextId
  let f (i : Nat) : Option Nat := some (base + i)
  let core (l : Nat) : Nat := (old.resolve l).getD 1000000
  let bound : Option Binding := x.region.bound.map (fun b => { b with pkt := hdrField h 64 64, adm := adm })
  let s := s.setRegion g
    { x.region with
      live := true, npl := old.npl, map := old.map, origin := old.origin, pw := old.pw, place := old.place, halted := true, haltFrom := s.cycle,
      seed := word (hdrField h 32 8), instKey := word (hdrField h 40 4), bound := bound }
  let lives := (List.range x.ops.length).map (fun i =>
    let e := (x.ops[i]?).getD (0, 0)
    LiveOp.mk (base + i) (if e.1 = 0 then 1000000 else core (e.1 - 1)) (e.2 == 1))
  let s := { s with nextId := base + x.ops.length, live := s.live ++ lives }
  let ts := (List.range old.tiles.length).filterMap (fun l => match old.tiles[l]?, x.tiles[l]? with
    | some p, some t => some (p, t)
    | _, _ => none)
  if !ts.all (fun e => s.imageFits g e.1 e.2) then none
  else
    let s := ts.foldl (fun s e => s.loadTile g e.1 (e.2.renumber f)) s
    (groupRoom (s.usedGroups g) g x.region.groups).bind (fun plan =>
    let s := s.bindGroups g plan
    ((x.ctxs.map (fun (c : CtxImage) => c.renumber f core)).foldlM (fun (s : State) (c : CtxImage) => s.loadCtx g c) s).bind (fun s => s.moveLegs g))

/-- R435: the header's check: MAGIC and the zero fields, then PROFILE, then the placement record (DESIGN CHOICE, assumption 31: R435 gives no
order): the placement, or the status. -/
def imageCheck (h : Nat) : Except Nat Placing :=
  if hdrField h 0 4 ≠ 0x4A435849 ∨ hdrField h 6 2 ≠ 0 ∨ hdrField h 46 2 ≠ 0 ∨ hdrField h 56 8 ≠ 0 ∨ hdrField h 128 3968 ≠ 0 then
    .error (stReject rPHASES 0 0 0)
  else if 3 < hdrField h 4 1 then .error cPROFILE
  else ((placeOf (hdrField h 8 16)).map Except.ok).getD (.error (stReject rPHASES 0 0 0))

/-- R435: stream contexts short on their streamers (R310), for a region that has its plates. -/
def State.shortImage (s : State) (g : Nat) (x : BodyImage) : Nat :=
  let sts := x.ctxs.filterMap (fun c => ((s.region g).resolve c.ctx.anchor).map (fun p => streamerOf p c.ctx.edge))
  (sts.eraseDups.map (fun st =>
    (sts.filter (· = st)).length - ((s.freeCtxs g st).filter (fun c => (s.ctxAt c).st = .unbound)).length)).sum

/-- R435: an image's header read and checked, before any state changes. -/
def imageHead (a : Word) : LM (Nat × Placing) := do
  let h ← launchDo (readNum a 4096)
  match imageCheck h with
  | .error st => throw st
  | .ok p => pure (h, p)

/-- R435: an image of header h restored at placement p: the region. A failure leaves no plate allocated (assumption 31). -/
def restore (a : Word) (h : Nat) (p : Placing) : LM Nat := do
  let len := hdrField h 24 8
  let bs ← launchDo (readBytes (a + 4096) len)
  let (x, _) := codecBody.dec ((List.range (len / 16)).map (fun i => ofBytes ((bs.drop (16 * i)).take 16)))
  let s ← get
  match s.alloc (hdrField h 8 16) p x.region.legs with
  | .error n => throw (stReject rPLATES 0 0 n)
  | .ok (g, s) =>
    let s := s.setRoot g (word (hdrField h 48 8))
    let short := s.shortImage g x
    if short ≠ 0 then throw (stReject rPLATES 0 0 short)
    match s.loadBody g h s.admission x with
    | none => throw (stReject rPLATES 0 0 0)
    | some s =>
      set s
      pure g

/-- R435: `ctxrest`. With a sound header it takes an admission number (R443); a refused header changes nothing. -/
def execCtxrest (d a ow om : Nat) (s : State) : Out :=
  runM (do
    let s ← get
    operandAddr .read 4096 4096 (s.sreg a)
    waitOw ow
    let s ← get
    match imageHead (s.sreg a) s with
    | .error st _ => launchEnd d om st s
    | .ok (h, p) t =>
      let s := { s with admission := s.admission + 1 }
      match restore (s.sreg a) h p { t with admission := s.admission } with
      | .error st _ => launchEnd d om st s
      | .ok g s => launchEnd d om (g * 2 ^ 16) s) s

end Sys2Proof.Machine
end

