-- ==== Sys2Proof/Machine/Firmware.lean ====
section
/-! DEFINITION. The firmware instructions (R438, R440, R465) and the rollback of a switch. -/

namespace Sys2Proof.Machine

def State.mapFw (s : State) (f : Firmware → Firmware) : State := { s with fw := f s.fw }

/-- R443: the firmware instructions run one at a time across the package: they share one hold, beside those of regions and queues. -/
def takeFirmware : M Unit := takeRegion 1024

/-- R438: VALID of a slot. -/
def Firmware.setValid (f : Firmware) (b : Nat) (v : Bool) : Firmware := { f with valid := f.valid.setIfInBounds b v }

/-- R438: `fwload`. The bytes are read before any is written (assumption 32). -/
def execFwload (d a b ow om slot : Nat) (s : State) : Out :=
  runM (do
    let s ← get
    operandAddr .read 8 8 (s.sreg a)
    waitOw ow
    takeFirmware
    let s ← get
    let n := (s.sreg b).toNat
    if slot = s.fw.active ∨ n < 4096 ∨ 2 ^ 23 < n then finish d om cSLOT_STATE
    else match readBytes (s.sreg a) n s with
      | .error f s =>
        set s
        finish d om (stFail f)
      | .ok bs s =>
        set ((s.wrList (flashBase slot) bs).mapFw (fun f => f.setValid slot false))
        finish d om 0) s

/-- R438: `fwverify`. -/
def execFwverify (d ow om slot : Nat) (s : State) : Out :=
  runM (do
    waitOw ow
    takeFirmware
    let s ← get
    let rsa := s.slotRsa slot
    let slh := s.slotSlh slot
    set (s.mapFw (fun f => f.setValid slot (rsa && slh)))
    finish d om (if rsa && slh then 0 else cFORMAT + (if rsa then 0 else 2 ^ 8) + (if slh then 0 else 2 ^ 9))) s

/-- R438: `fwmeasure`. -/
def execFwmeasure (d ow om slot : Nat) (s : State) : Out :=
  runM (do
    waitOw ow
    takeFirmware
    let s ← get
    let i := s.fw.log.length
    if 256 ≤ i then finish d om cSLOT_STATE
    else
      set (s.mapFw (fun f => { f with log := f.log ++ [s.measure slot] }))
      finish d om (i * 2 ^ 16)) s

/-- R440: no control core has an access outstanding. -/
def State.ccQuiet (s : State) : Bool := s.live.all (fun e => Nat.blt e.core 2048 || Nat.ble 2056 e.core)

/-- R440: the switch to a slot, with its handover address. -/
def State.switchTo (s : State) (slot : Nat) (a : Word) : State :=
  let s := s.mapFw (fun f => { f with active := slot, pending := true, rollback := false, deadline := s.refClock + 50000000, handover := a })
  (s.copyStep slot).startCores a 1

/-- R440: `fwswitch`. A switch that is made completes in no core: each is reset. -/
def execFwswitch (d a ow om slot : Nat) (s : State) : Out :=
  runM (do
    let s ← get
    operandAddr .read 8 8 (s.sreg a)
    waitOw ow
    takeFirmware
    let s ← get
    if !((s.fw.valid[slot]?).getD false) || slot == s.fw.active then finish d om cSLOT_STATE
    else if !s.ccQuiet then waitHere
    else set (s.switchTo slot (s.sreg a))) s

/-- R440, R465: a heartbeat: one before the deadline confirms a pending switch. -/
def State.beat (s : State) (v : Word) : State :=
  let f := s.fw
  let f := { f with wdogValue := v.toNat % 2 ^ 48, wdogCount := (f.wdogCount + 1) % 2 ^ 16 }
  { s with fw := if f.pending && Nat.blt s.refClock f.deadline then { f with pending := false, flash := f.active } else f }

/-- R440: `hbeat`. -/
def execHbeat (d a ow om : Nat) (s : State) : Out :=
  runM (do
    waitOw ow
    takeFirmware
    modify (fun s => s.beat (s.sreg a))
    finish d om 0) s

/-- R440: FW_ROLLBACK. -/
def execFwRollback (s : State) : Out :=
  .next (if s.fw.pending && decide (s.fw.deadline ≤ s.refClock) then
    let b := 1 - s.fw.active
    let s := s.mapFw (fun f => { f with active := b, pending := false, rollback := true })
    (s.copyStep b).startCores s.fw.handover 2
  else s)

end Sys2Proof.Machine
end

