-- ==== Sys2Proof/Machine/Matrix.lean ====
section
/-! DEFINITION. The matrix instructions, MAJ 0x90 (R287 to R302), at their issue: the checks on addresses, tokens and projected tags, and
the command queue. -/

namespace Sys2Proof.Machine

/-- R284: SLOT_STATE of a matrix word: number, state found, mask of the states accepted. -/
def slotState {α : Type} (fn : Nat) (e : Nat × Nat × Nat) : M α :=
  raiseTrap { code := cSLOT_STATE, i0 := word e.1, i1 := word e.2.1, i2 := word e.2.2, i3 := word (0x90 * 64 + fn) }

/-- The word of a matrix command from its fields (R287), but for its guard. -/
def matWord (fn d a b ow om sc low : Nat) : Nat := engineWord 0x90 fn d a b ow om sc low

/-- R286: issue stalls while the queue holds 32 commands. -/
def matRoom : M Unit := do
  let s ← get
  if 32 ≤ (s.mat s.cur).queue.length then waitHere else pure ()

/-- R284, R286: the tag checks of a command, the projected tags' next states, and its entry in the queue with the set of OW. -/
def issueMat (c : MatCmd) (ow : Nat) : M Unit := do
  let s ← get
  let p := s.cur
  let x := s.mat p
  match stepSlots s.aSlot (c.slots p) x.pslots with
  | .error e => slotState c.fn e
  | .ok sl =>
    match stepBlocks c.blocks x.pblocks with
    | .error e => slotState c.fn e
    | .ok bl =>
      let waits := s.core.oset ow
      let (id, s) := s.issueOp c.om true
      let c := { c with id := id, word := c.word + guardBits s.core, pc := s.core.pc, waits := waits }
      set (s.mapMat p (fun x => { x with pslots := sl, pblocks := bl, queue := x.queue ++ [c] }))
      advanceM

/-- A command whose register operands are a and b. -/
def matCmd (w av bv : Nat) : MatCmd := { id := 0, word := w, av := av, bv := bv, draw := 0, pc := 0, waits := [] }

/-- R290: `mclaim`. -/
def execMclaim (d ow om sc keep n1 : Nat) (s : State) : Out :=
  runM (do matRoom; issueMat (matCmd (matWord 0 d 0 0 ow om sc (64 * keep + n1)) 0 0) ow) s

/-- R290: `mrel`. -/
def execMrel (d ow om sc n1 : Nat) (s : State) : Out :=
  runM (do matRoom; issueMat (matCmd (matWord 1 d 0 0 ow om sc n1) 0 0) ow) s

/-- MISALIGN of R291, R292: an address, stride or offset x that is no multiple of n. -/
def matAlign (x : Word) (n : Nat) : M Unit := do
  let s ← get
  if x.toNat % n = 0 then pure ()
  else raiseTrap { code := cMISALIGN, i0 := x, i1 := word n, i3 := s.regionInfo }

/-- R291: the checks of rows at a stride, ascending. -/
def checkRows (a b : Word) : List Nat → M Unit
  | [] => pure ()
  | r :: rs => do
    let _ ← checkAccess .ownTile .read 64 64 (a + word r * b)
    checkRows a b rs

/-- R291: `mld`. -/
def execMld (d a b ow om sc rcnt : Nat) (s : State) : Out :=
  runM (do
    matRoom
    let s ← get
    matAlign (s.sreg a) 64
    matAlign (s.sreg b) 64
    checkRows (s.sreg a) (s.sreg b) (List.range (rcnt + 1))
    issueMat (matCmd (matWord 2 d a b ow om sc (2048 * rcnt)) (s.sreg a).toNat (s.sreg b).toNat) ow) s

/-- R291: `mld.scl`. -/
def execMldScl (d a ow om sc rcnt : Nat) (s : State) : Out :=
  runM (do
    matRoom
    let s ← get
    matAlign (s.sreg a) 4
    let _ ← checkAccess .ownTile .read (4 * (rcnt + 1)) 4 (s.sreg a)
    issueMat (matCmd (matWord 2 d a 0 ow om sc (2048 * rcnt + 1024)) (s.sreg a).toNat 0) ow) s

/-- R292: the checks of each row of a token, ascending. -/
def checkTokenRows (j o port : Nat) : List Nat → M Unit
  | [] => pure ()
  | r :: rs => do
    let _ ← tokenAddr j (o + 64 * r) 64 port
    checkTokenRows j o port rs

/-- R292: `mldw`. -/
def execMldw (d a b ow om sc port rcnt : Nat) (s : State) : Out :=
  runM (do
    matRoom
    let s ← get
    matAlign (s.sreg b) 64
    checkTokenRows (s.sreg a).toNat (s.sreg b).toNat port (List.range (rcnt + 1))
    issueMat (matCmd (matWord 3 d a b ow om sc (4096 * port + 128 * rcnt)) (s.sreg a).toNat (s.sreg b).toNat) ow) s

/-- R293: `mgath`. -/
def execMgath (d a b ow om sc ty rcnt : Nat) (s : State) : Out :=
  runM (do
    matRoom
    let s ← get
    let _ ← checkAccess .ownTile .read 16 16 (s.sreg a)
    issueMat (matCmd (matWord 4 d a b ow om sc (4096 * ty + 128 * rcnt)) (s.sreg a).toNat (s.sreg b).toNat) ow) s

/-- R294: `mtr`. -/
def execMtr (d a ow om sc ty : Nat) (s : State) : Out :=
  runM (do matRoom; issueMat (matCmd (matWord 5 d a 0 ow om sc (4096 * ty)) 0 0) ow) s

/-- R296: `mzero`. -/
def execMzero (d ow om sc mc nc ty row : Nat) (s : State) : Out :=
  runM (do matRoom; issueMat (matCmd (matWord 6 d 0 0 ow om sc (2 ^ 14 * mc + 256 * nc + 16 * ty + 4 * row)) 0 0) ow) s

/-- R295: `mma`. -/
def execMma (d a b ow om sc mc nc ty row st1 fin : Nat) (s : State) : Out :=
  runM (do matRoom; issueMat (matCmd (matWord 7 d a b ow om sc (2 ^ 14 * mc + 256 * nc + 16 * ty + 4 * row + 2 * st1 + fin)) 0 0) ow) s

/-- R297: `mmag`: the tile's gang count rises, the command carries it, and the firing cannot be retried or ignored. -/
def execMmag (d a b ow om sc ldr nc ty st1 fin : Nat) (s : State) : Out :=
  runM (do
    matRoom
    let s ← get
    let g := (s.mat s.cur).gang + 1
    issueMat { matCmd (matWord 8 d a b ow om sc (4096 * ldr + 64 * nc + 4 * ty + 2 * st1 + fin)) 0 0 with gang := g } ow
    modify (fun s => (s.mapMat s.cur (fun x => { x with gang := g })).mapFiring (fun f => { f with noRetry := true }))) s

/-- R298, R299: `mdrain`: its record's address is checked, and it takes an RSS number whatever its rounding (R82). -/
def execMdrain (d a ow om sc mc nc row keep : Nat) (s : State) : Out :=
  runM (do
    matRoom
    let s ← get
    let _ ← checkAccess .ownTile .read 64 64 (s.sreg a)
    issueMat { matCmd (matWord 9 d a 0 ow om sc (2 ^ 14 * mc + 256 * nc + 4 * row + 2 * keep)) (s.sreg a).toNat 0 with draw := s.core.draws } ow
    modify (fun s => s.mapCore (fun c => { c with draws := c.draws + 1 }))) s

/-- R301: `mwait`. -/
def execMwait (s : State) : Out :=
  runM (do
    let s ← get
    if (s.mat s.cur).queue.isEmpty then advanceM else waitHere) s

/-- R302: the value of `mstat` for actor slot a. -/
def Mat.stat (x : Mat) (a sel : Nat) : Nat :=
  let held (q : Nat) : Option SlotTag :=
    let t := Sparse.get {} x.pslots q
    if t.tag ≠ 0 ∧ t.owner = a then some t else none
  let mask (f : SlotTag → Bool) : Nat := (List.range 64).foldl (fun acc q => if (held q).any f then acc + 2 ^ q else acc) 0
  match sel with
  | 0 => mask (fun _ => true)
  | 1 => mask (fun t => t.tag == 2)
  | 2 => mask SlotTag.keep
  | 3 => mask SlotTag.relp
  | _ => (List.range 32).foldl (fun acc t => acc + (Sparse.get {} x.pblocks (32 * (sel - 4) + t)).tag * 2 ^ (2 * t)) 0

/-- R302: `mstat`. -/
def execMstat (d sl : Nat) (s : State) : Out :=
  .next ((s.setS d (word ((s.mat s.cur).stat s.aSlot sl))).advance)

end Sys2Proof.Machine
end

