-- ==== Sys2Proof/Machine/MatrixEvents.lean ====
section
/-! DEFINITION. Matrix commands once queued: when each may start (R286, R297), what it does to operand memory, accumulator memory and
tile memory (R290 to R299), its delivered traps (R306), and its completion. -/

namespace Sys2Proof.Machine

/-! ## Operand and accumulator memory -/

/-- The key of row r of slot q of tile p (R278). -/
def rowKey (p q r : Nat) : Nat := opndBase p + 2048 * q + 64 * r

/-- The key of byte i of the scale area of slot q (R278). -/
def sclKey (p q i : Nat) : Nat := scaleBase p + 128 * q + i

/-- The key of accumulator element (r, c) (R279). -/
def accKey (p r c : Nat) : Nat := accBase p + 4 * (1024 * r + c)

/-- A whole slot written (R278): 32 rows. -/
def State.putSlot (s : State) (p q : Nat) (rows : List Nat) : State :=
  s.wrBlock (rowKey p q 0) (rows.flatMap (fun x => toBytes x 64))

/-- Scales of 1.0 (R278). -/
def State.unitScales (s : State) (p q : Nat) : State := s.wrBlock (sclKey p q 0) (List.replicate 128 0x7F)

/-- ECC_UNCORR of a slot or a block (R306): the number, and 5 or 6. -/
def matEcc {α : Type} (n code key : Nat) : M α := raiseEcc (word n) key code

/-- The read of n rows of slots from q on: an uncorrectable error in a row read, or in its scales where the type uses them (R278, R306). -/
def slotReadable (p : Nat) (scaled : Bool) : List (Nat × Nat) → M Unit
  | [] => pure ()
  | (q, n) :: l => do
    let s ← get
    if s.readBad (rowKey p q 0) (64 * n) then matEcc q 5 (rowKey p q 0)
    else if scaled && s.readBad (sclKey p q 0) (4 * n) then matEcc q 5 (sclKey p q 0)
    else slotReadable p scaled l

/-- The slots that hold n rows from slot q on, with the rows in each. -/
def slotSpan (q n : Nat) : List (Nat × Nat) := (List.range ((n + 31) / 32)).map (fun i => (q + i, min 32 (n - 32 * i)))

/-- R306: an uncorrectable error in a block read. -/
def blockReadable (p : Nat) : List Nat → M Unit
  | [] => pure ()
  | b :: bs => do
    let s ← get
    if (List.range 16).any (fun r => s.readBad (accKey p (16 * (b / 64) + r) (16 * (b % 64))) 64) then
      matEcc (0x100 + b) 6 (accKey p (16 * (b / 64)) (16 * (b % 64)))
    else blockReadable p bs

/-! ## Loads -/

/-- n bytes at an own tile-memory offset, checked under R115 as an own-tile access. -/
def ownRead (off n align : Nat) : M Nat := do
  let ea := word (0xF00000000000 + off)
  let pl ← checkAccess .ownTile .read n align ea
  awaitStream pl n
  readPlace ea n pl

/-- R291: rows of own tile memory. -/
def loadRows (a b : Word) : List Nat → M (List Nat)
  | [] => pure []
  | r :: rs => do
    let ea := a + word r * b
    let pl ← checkAccess .ownTile .read 64 64 ea
    awaitStream pl 64
    let x ← readPlace ea 64 pl
    let xs ← loadRows a b rs
    pure (x :: xs)

/-- A list of rows filled up with zero rows (R291, R292). -/
def fill32 (xs : List Nat) : List Nat := xs ++ List.replicate (32 - xs.length) 0

/-- R291: `mld` and `mld.scl`. -/
def startMld (c : MatCmd) : M Unit := do
  let p := (← get).cur
  if c.word.testBit 10 then
    let ea := word c.av
    let pl ← checkAccess .ownTile .read (4 * c.rows) 4 ea
    awaitStream pl (4 * c.rows)
    let x ← readPlace ea (4 * c.rows) pl
    modify (fun s => s.wrBlock (sclKey p c.d 0) (toBytes x (4 * c.rows) ++ List.replicate (128 - 4 * c.rows) 0x7F))
  else
    let xs ← loadRows (word c.av) (word c.bv) (List.range c.rows)
    modify (fun s => s.putSlot p c.d (fill32 xs))

/-- R292: the rows of a token. They do not wait for bytes of an `sfetch`, nor take LATE: R324 does not list `mldw` (DESIGN CHOICE, assumption
110). -/
def loadTokenRows (c : MatCmd) : List Nat → M (List Nat)
  | [] => pure []
  | r :: rs => do
    let (_, _, addr) ← tokenAddr c.av (c.bv + 64 * r) 64 (bits c.word 12 4)
    let s ← get
    let x ← readPlace (word (0xF00000000000 + addr)) 64 (.mem (tileBase s.cur + addr))
    let xs ← loadTokenRows c rs
    pure (x :: xs)

/-- R292: `mldw`. -/
def startMldw (c : MatCmd) : M Unit := do
  let xs ← loadTokenRows c (List.range c.rows)
  modify (fun s => s.putSlot s.cur c.d (fill32 xs))

/-- FORMAT of a matrix command (R306): a value and its offset. -/
def matFormat {α : Type} (v off : Nat) : M α := raiseTrap { code := cFORMAT, i0 := word v, i1 := word off }

/-- R293: one matrix row of K elements of width w: entries e, e + 1, … (n of them) placed in a row. -/
def gathRow (idx val w : Nat) : Nat → Nat → Nat → M Nat
  | 0, _, row => pure row
  | n + 1, e, row => do
    let k ← ownRead (idx + 2 * e) 2 2
    if 512 / w ≤ k then matFormat k (2 * e)
    else
      let x ← ownRead (val + e * w / 8) (max 1 (w / 8)) (max 1 (w / 8))
      let v := if w = 4 then bits x (4 * (e % 2)) 4 else x
      gathRow idx val w n (e + 1) (row - bits row (w * k) w * 2 ^ (w * k) + v * 2 ^ (w * k))

/-- R293: rows t, ascending, of a slot. -/
def gathRows (ptr idx val nrow b rows w : Nat) : List Nat → M (List Nat)
  | [] => pure []
  | t :: ts => do
    let j := b + t
    let row ← if t < rows ∧ j < nrow then do
        let p0 ← ownRead (ptr + 4 * j) 4 4
        let p1 ← ownRead (ptr + 4 * (j + 1)) 4 4
        if p1 < p0 ∨ 512 / w < p1 - p0 then matFormat p1 (4 * (j + 1)) else gathRow idx val w (p1 - p0) p0 0
      else pure 0
    let rest ← gathRows ptr idx val nrow b rows w ts
    pure (row :: rest)

/-- R293: `mgath`. -/
def startMgath (c : MatCmd) : M Unit := do
  let ea := word c.av
  let pl ← checkAccess .ownTile .read 16 16 ea
  awaitStream pl 16
  let d ← readPlace ea 16 pl
  let ptr := bits d 0 32
  let idx := bits d 32 32
  if ptr % 4 ≠ 0 then matFormat ptr 0
  else if idx % 2 ≠ 0 then matFormat idx 4
  else
    let xs ← gathRows ptr idx (bits d 64 32) (bits d 96 32) c.bv c.rows (elemWidth c.ty) (List.range 32)
    modify (fun s => (s.putSlot s.cur c.d xs).unitScales s.cur c.d)

/-- R294: `mtr`. -/
def startMtr (c : MatCmd) : M Unit := do
  let s ← get
  let p := s.cur
  let w := elemWidth c.ty
  let n := 512 / w
  slotReadable p false (slotSpan c.a n)
  let src := (List.range n).map (fun r => s.rd (rowKey p (c.a + r / 32) (r % 32)) 64)
  let dst (r : Nat) : Nat := packElems w (src.map (fun x => bits x (w * r) w))
  modify (fun s => (List.range (n / 32)).foldl (fun s i =>
    (s.putSlot p (c.d + i) ((List.range 32).map (fun r => dst (32 * i + r)))).unitScales p (c.d + i)) s)

/-! ## Multiplication -/

/-- R73, R278: the value of element k of a row: in e2m1, e4m3 and e5m2 under the scale of its 32-element group. -/
def scaledElem (ty x scl : Nat) : Num :=
  let v := decodeTy ty x
  if 7 ≤ ty ∧ ty ≤ 9 then
    if scl = 255 then .nan
    else match v with
      | .fin n m e p => .fin n m (e + scl - 127) p
      | v => v
  else v

/-- The operand row i of slots from q on: its elements as exact values (R278). -/
def State.operandRow (s : State) (p q ty i : Nat) : List Num :=
  let w := elemWidth ty
  let x := s.rd (rowKey p (q + i / 32) (i % 32)) 64
  (List.range (512 / w)).map (fun k =>
    scaledElem ty (bits x (w * k) w) (if 7 ≤ ty ∧ ty ≤ 9 then s.rd (sclKey p (q + i / 32) (4 * (i % 32) + k / 32)) 1 else 127))

/-- The same row as integers. -/
def State.operandInts (s : State) (p q ty i : Nat) : List Int :=
  let w := elemWidth ty
  let x := s.rd (rowKey p (q + i / 32) (i % 32)) 64
  (List.range (512 / w)).map (fun k => intOf ty (bits x (w * k) w))

/-- R90: the exact sum of products and an addend, rounded once to f32 under RNE: encoding and flags. -/
def dotFloat (a b : List Num) (c : Option Num) : Nat × Nat :=
  let ps := (a.zip b).map (fun x => x.1.mul x.2)
  let (t, f) := Num.sum 0 (c.toList ++ ps.map Prod.fst)
  let (r, g) := (fmtOf 12).round 0 0 t
  (r, Nat.lor (Nat.lor (joinFlags (ps.map Prod.snd)) f) g)

/-- R91: the exact integer sum, saturated to i32. -/
def dotInt (a b : List Int) (c : Int) : Nat × Nat := satTo 5 (((a.zip b).map (fun x => x.1 * x.2)).sum + c)

/-- R295: one element of a product. -/
def State.mmaElem (s : State) (p : Nat) (c : MatCmd) (i j : Nat) : Nat × Nat :=
  let prior := s.rd (accKey p (16 * c.row + i) (16 * c.d + j)) 4
  if isIntTy c.ty then dotInt (s.operandInts p c.a c.ty i) (s.operandInts p c.b c.ty j) (if c.st then 0 else intOf 5 prior)
  else dotFloat (s.operandRow p c.a c.ty i) (s.operandRow p c.b c.ty j) (if c.st then none else some (decodeTy 12 prior))

/-- Rows of 32-bit elements written into a region of accumulator memory (R279). -/
def State.putRegion (s : State) (p : Nat) (c : MatCmd) (val : Nat → Nat → Nat) : State :=
  (List.range c.m).foldl (fun s i =>
    s.wrBlock (accKey p (16 * c.row + i) (16 * c.d)) ((List.range c.n).flatMap (fun j => toBytes (val i j) 4))) s

/-- R295: `mma`, and a tile's part of `mmag` (R297): the flags of every element. -/
def startMma (c : MatCmd) : M Nat := do
  let s ← get
  let p := s.cur
  let sc := decide (7 ≤ c.ty ∧ c.ty ≤ 9)
  let sa := slotSpan c.a c.m
  let sb := slotSpan c.b c.n
  if c.a ≤ c.b then slotReadable p sc (sa ++ sb) else slotReadable p sc (sb ++ sa)
  if !c.st then blockReadable p c.region
  let vals := (List.range c.m).map (fun i => (List.range c.n).map (fun j => s.mmaElem p c i j))
  modify (fun s => s.putRegion p c (fun i j => (((vals[i]?.getD [])[j]?).getD (0, 0)).1))
  pure (joinFlags (vals.map (fun l => joinFlags (l.map Prod.snd))))

/-! ## Drain -/

/-- R298: a drain record as a number of 64 bytes: its field at a byte offset. -/
def recField (r off n : Nat) : Nat := bits r (8 * off) (8 * n)

/-- R298: the first field of a drain record outside its values: its value and byte offset; of bytes 48 to 63 TRAPINFO0 takes the low 64 bits
(assumption 46). -/
def drainFault (r : Nat) : Option (Nat × Nat) :=
  let b8 := recField r 8 1
  let port := recField r 9 1
  let fl := recField r 10 2
  let rt := recField r 24 1
  let okRes : List Nat := [1, 2, 3, 4, 5, 6, 8, 9, 10, 11, 12]
  ([(recField r 0 4 % 4 ≠ 0, recField r 0 4, 0), (recField r 4 4 % 4 ≠ 0, recField r 4 4, 4),
    (12 < b8 % 16, b8 % 16, 8), (5 < bits b8 4 3, bits b8 4 3, 8), (b8.testBit 7, bits b8 7 1, 8),
    (port ≠ 0 ∧ (port < 8 ∨ 15 < port), port, 9), (fl / 4 ≠ 0, fl / 4, 10),
    (recField r 16 4 % 4 ≠ 0, recField r 16 4, 16), (recField r 20 4 % 4 ≠ 0, recField r 20 4, 20),
    (fl.testBit 0 ∧ !okRes.contains (rt % 16), rt % 16, 24), (rt / 16 ≠ 0, rt / 16, 24),
    (recField r 25 3 ≠ 0, recField r 25 3, 25), (65536 < recField r 28 4, recField r 28 4, 28),
    (recField r 48 16 ≠ 0, recField r 48 16, 48)] : List (Bool × Nat × Nat)).findSome? (fun e => if e.1 then some e.2 else none)

/-- R299: the own-tile checks of rows of n bytes at a stride, ascending: their keys. -/
def drainRows (rw : Rw) (off stride n : Nat) : List Nat → M (List Nat)
  | [] => pure []
  | i :: is => do
    let pl ← checkAccess .ownTile rw n 1 (word (0xF00000000000 + off + i * stride))
    let k := match pl with
      | .mem k => k
      | .sys a => a
    let ks ← drainRows rw off stride n is
    pure (k :: ks)

/-- What the elements of one drain share (R298, R299). -/
structure Drain where
  dt : Nat
  rnd : Nat
  scale : Num
  res : Bool
  rt : Nat
  drop : Bool
  keep : Nat
  rowBase : Nat
  colBase : Nat
deriving DecidableEq, Repr

def drainOf (r : Nat) : Drain :=
  { dt := recField r 8 1 % 16, rnd := bits (recField r 8 1) 4 3, scale := decodeTy 12 (recField r 12 4),
    res := r.testBit 80, rt := recField r 24 1 % 16, drop := r.testBit 81, keep := recField r 28 4,
    rowBase := recField r 32 8, colBase := recField r 40 4 }

/-- R299: whether dropout zeroes an element. -/
def State.dropped (s : State) (d : Drain) (i j : Nat) : Bool :=
  let r := s.region (s.regionOf s.cur)
  d.drop && decide (d.keep ≤ (stipple r.seed r.instKey (word (d.rowBase + i)) (word ((d.colBase + j) % 2 ^ 32))).toNat % 65536)

/-- R299: an element drained: its bits and flags. `x` is the accumulator element, `e` the residual's, `draw` the RSS draw. Without a residual
the sum has the product as its one addend, so that a product of −0 stays −0 (DESIGN CHOICE, assumption 87). -/
def drainElem (d : Drain) (int : Bool) (x e draw : Nat) : Nat × Nat :=
  let (p, f) := (if int then Num.ofInt (intOf 5 x) else decodeTy 12 x).mul d.scale
  let (t, g) := Num.sum d.rnd (p :: (if d.res then [decodeTy d.rt e] else []))
  let (v, h) := if isIntTy d.dt then toIntTy d.dt d.rnd draw true t else (fmtOf d.dt).round d.rnd draw t
  (v, Nat.lor (Nat.lor f g) h)

/-- R299: one drained row: its bits and flags; `res` is the residual row. -/
def State.drainRow (s : State) (c : MatCmd) (d : Drain) (i res : Nat) : Nat × Nat :=
  let p := s.cur
  let r := 16 * c.row + i
  let es := (List.range c.n).map (fun j =>
    if s.dropped d i j then (0, 0)
    else
      let col := 16 * c.d + j
      let int := (Sparse.get {} (s.mat p).blocks (64 * (r / 16) + col / 16)).int
      let w := elemWidth d.rt
      drainElem d int (s.rd (accKey p r col) 4) (bits res (w * j) w) (if d.rnd = 5 then s.drawAt p s.aSlot c.draw (i * c.n + j) else 0))
  (packElems (elemWidth d.dt) (es.map Prod.fst), joinFlags (es.map Prod.snd))

/-- R299: a drained row written as one `wst` of token j at offset o of a port: its operation. -/
def drainToPort (n o data j port : Nat) : M (List Nat) := do
  writeCheck n o j port
  let s ← get
  if j < s.aRate port then
    match s.wToken port j with
    | none => tokenRange port j (s.aRate port)
    | some (k, i) =>
      let id := s.nextId
      let s := { s with nextId := id + 1, live := s.live ++ [LiveOp.mk id s.cur true] }
      set (s.sendWrite k i n o data j port id)
      pure [id]
  else
    modify (fun s => s.mapFiring (fun f => f.raised port j))
    pure []

/-- R299: the rows of a drain, ascending: flags and the operations of rows sent to a port. -/
def drainAll (c : MatCmd) (d : Drain) (n doff dstr port tok : Nat) (dst res : List Nat) : List Nat → M (Nat × List Nat)
  | [] => pure (0, [])
  | i :: is => do
    let s ← get
    let wr := elemWidth d.rt
    let rk := (res[i]?).getD 0
    let x ← if d.res then do
        awaitFetch rk (c.n * wr / 8)
        readPlace (word (0xF00000000000 + (rk - tileBase s.cur))) (c.n * wr / 8) (.mem rk)
      else pure 0
    let (row, fl) := s.drainRow c d i x
    let ids ← if port ≠ 0 then drainToPort n (doff + i * dstr) row tok port
      else do
        let k := (dst[i]?).getD 0
        if s.writeBad k n then raiseEcc (word (0xF00000000000 + (k - tileBase s.cur))) k 3
        journal k n
        modify (fun s => s.wr k n row)
        pure []
    let (fls, rest) ← drainAll c d n doff dstr port tok dst res is
    pure (Nat.lor fl fls, ids ++ rest)

/-- R299: `mdrain`: its flags and the operations of the rows it sends to a port. -/
def startMdrain (c : MatCmd) : M (Nat × List Nat) := do
  let p := (← get).cur
  let ea := word c.av
  let pl ← checkAccess .ownTile .read 64 64 ea
  awaitStream pl 64
  let r ← readPlace ea 64 pl
  match drainFault r with
  | some (v, off) => matFormat v off
  | none =>
    let d := drainOf r
    let n := c.n * elemWidth d.dt / 8
    let doff := recField r 0 4
    let dstr := recField r 4 4
    let port := recField r 9 1
    if port ≠ 0 ∧ dstr < n then matFormat dstr 4
    else
      let rows := List.range c.m
      let dst ← if port = 0 then drainRows .write doff dstr n rows else pure []
      let res ← if d.res then drainRows .read (recField r 16 4) (recField r 20 4) (c.n * elemWidth d.rt / 8) rows else pure []
      blockReadable p c.region
      drainAll c d n doff dstr port (recField r 44 4) dst res rows

/-! ## Start and completion -/

/-- What a command does from its start to its end: flags, and operations it waits for. -/
def startCmd (c : MatCmd) : M (Nat × List Nat) :=
  match c.fn with
  | 0 => do
    modify (fun s => (List.range (bits c.word 0 6 + 1)).foldl (fun s i => s.unitScales s.cur (c.d + i)) s)
    pure (0, [])
  | 2 => do startMld c; pure (0, [])
  | 3 => do startMldw c; pure (0, [])
  | 4 => do startMgath c; pure (0, [])
  | 5 => do startMtr c; pure (0, [])
  | 6 => do modify (fun s => s.putRegion s.cur c (fun _ _ => 0)); pure (0, [])
  | 7 | 8 => do let f ← startMma c; pure (f, [])
  | 9 => startMdrain c
  | _ => pure (0, [])

/-- The array runs one product at a time (R286). -/
def MatCmd.array (c : MatCmd) : Bool := c.fn == 7 || c.fn == 8

/-- R186, R286: command i of tile p may start; once its firing has trapped, only a command issued before the trap that stands first. -/
def State.mayStart (s : State) (p i : Nat) (c : MatCmd) : Bool :=
  let q := (s.mat p).queue
  !c.started && (match (s.tile p).firing with
    | some f => (!f.trapped || f.fault.any (fun x => decide (c.id < x.1))) && ((s.tile p).slot f.slot).st == .firing
    | none => false) &&
  c.waits.all (s.performed (bits c.word 16 4)) && (q.take i).all (fun e => !c.after e p) &&
  !(c.array && q.any (fun e => e.started && e.array)) &&
  (let u := { s with cur := p }
   u.tokenReady c && (u.drainTarget c).all (fun e => !u.drainAhead (q.take i) e.1 e.2))

/-- A queued command replaced. -/
def State.putCmd (s : State) (p i : Nat) (c : MatCmd) : State := s.mapMat p (fun x => { x with queue := x.queue.set i c })

/-- R306: a command of tile p that traps after starting: it leaves the queue, and the firing traps at the word that issued it. -/
def State.matTrap (s : State) (p : Nat) (c : MatCmd) (t : Trap) : State :=
  let s := (s.mapMat p (fun x => { x with queue := x.queue.filter (fun e => e.id ≠ c.id) })).retire c.id
  s.engineTrap p c.id c.pc t

/-- Command i of tile p starts. One that must wait for bytes of an `sfetch` remembers since when (R324). -/
def State.startAt (s : State) (p i : Nat) (c : MatCmd) : State :=
  let own := (s.coreAt p).issued
  let back (t : State) : State := { t.setCoreAt p { t.coreAt p with issued := own } with cur := s.cur }
  match startCmd c ({ s with cur := p }.setCoreAt p { s.coreAt p with issued := c.since }) with
  | .ok (fl, ids) t => (back t).putCmd p i { c with started := true, flags := fl, flits := ids }
  | .error (.trap tr) t => (back t).matTrap p c tr
  | .error .wait t => s.putCmd p i { c with since := (t.coreAt p).issued }

/-- R286: MATRIX_CMD_START of command i of tile t; `mmag` starts with its gang (R297). -/
def execMatrixCmdStart (t i : Nat) (s : State) : Out :=
  .next (match (s.mat t).queue[i]? with
    | some c => if c.fn ≠ 8 ∧ s.mayStart t i c then s.startAt t i c else s
    | none => s)

/-- R286, R84: MATRIX_CMD_COMPLETE of command i of tile t: tags change, its flags join FSTAT. -/
def execMatrixCmdComplete (t i : Nat) (s : State) : Out :=
  .next (match (s.mat t).queue[i]? with
    | some c =>
      if c.started && c.flits.all (fun id => !s.isLive id) then
        let a := ((s.tile t).firing.map Firing.slot).getD 0
        let s := s.mapMat t (fun x => { x.complete t a c with queue := x.queue.eraseIdx i })
        (s.retire c.id).resultTo t c.id (fun s => s.raise c.flags)
      else s
    | none => s)

/-! ## The gang -/

/-- The `mmag` of a gang count that tile p may start: its place in the queue, and the command. -/
def State.gangCmd (s : State) (g p : Nat) : Option (Nat × MatCmd) :=
  let q := (s.mat p).queue
  (List.range q.length).findSome? (fun i => (q[i]?).bind (fun c =>
    if c.fn = 8 ∧ c.gang = g ∧ s.mayStart p i c then some (i, c) else none))

/-- R297: the fields that the commands of a gang must share. -/
def MatCmd.gangKey (c : MatCmd) : Nat := bits c.word 0 16 + bits c.word 28 6 * 2 ^ 16

/-- R297: the loader's B slots and scale areas, given to tile p; a word in error stays one. -/
def State.multicast (s : State) (ld p : Nat) (c : MatCmd) : State :=
  (List.range ((c.n + 31) / 32)).foldl (fun s i =>
    let q := c.b + i
    let copy (s : State) (src dst n : Nat) : State :=
      let hurt := (s.bad.filter (fun w => decide (src ≤ w ∧ w < src + n))).map (fun w => w - src + dst)
      let s := s.wrBlock dst (s.rdList src n)
      { s with bad := s.bad ++ hurt }
    copy (copy s (rowKey ld q 0) (rowKey p q 0) 2048) (sclKey ld q 0) (sclKey p q 0) 128) s

/-- R297: MMAG_GANG_START of plate pl: the sixteen commands of one gang count start together, or, where their fields differ, all trap. -/
def execMmagGangStart (pl : Nat) (s : State) : Out :=
  let ps := (List.range 16).map (tileOf pl)
  let counts := ((s.mat (tileOf pl 0)).queue.filter (fun c => c.fn = 8 ∧ !c.started)).map MatCmd.gang
  .next (match counts.find? (fun g => ps.all (fun p => (s.gangCmd g p).isSome)) with
    | none => s
    | some g =>
      let cs := ps.filterMap (fun p => (s.gangCmd g p).map (fun x => (p, x)))
      let ref := ((cs.head?).map (fun x => x.2.2.ldr)).getD 0
      let key := ((cs[ref]?).map (fun x => x.2.2.gangKey)).getD 0
      let mask := (List.range 16).foldl (fun acc t => if ((cs[t]?).map (fun x => x.2.2.gangKey)) = some key then acc else acc + 2 ^ t) 0
      if mask ≠ 0 then
        cs.foldl (fun s x => s.matTrap x.1 x.2.2 { code := cSLOT_STATE, i0 := 0x200, i1 := word mask, i3 := 0x2408 }) s
      else
        let s := cs.foldl (fun s x => if tileIndex x.1 = ref then s else s.multicast (tileOf pl ref) x.1 x.2.2) s
        cs.foldl (fun s x => if (s.mat x.1).queue[x.2.1]? = some x.2.2 then s.startAt x.1 x.2.1 x.2.2 else s) s)

end Sys2Proof.Machine
end

