-- ==== Sys2Proof/Machine/Waits.lean ====
section
/-! DEFINITION. `rpt` (R149), and the ends of waits as events of their own: WAIT_LIMIT (R242, R323, R364, R398) and WAIT_TARGET_REACHED
(R185). Each carries out the instruction that waits again, so that the event does what the next turn of its core would do. -/

namespace Sys2Proof.Machine

/-- R149: `rpt`: a pair not yet in progress starts with DONE = 0; the repeats follow in the turns of the core. -/
def execRpt (_n1 _sd _sa _sb _sc : Nat) (s : State) : Out :=
  .next (if s.core.rptActive then s else s.mapCore (fun c => { c with rptst := 64 }))

/-- The bounded wait whose word is w: the register of its limit, and its meaning. -/
def boundedWaitOf (w : Nat) : Option (Nat × (State → Out)) :=
  let d := bits w 40 6
  let a := bits w 34 6
  let b := bits w 28 6
  let ow := bits w 24 4
  let om := bits w 20 4
  let sc := bits w 16 4
  let port := bits w 12 4
  match bits w 56 8, bits w 46 6 with
  | 0x70, 6 => some (b, execWwait a b port)
  | 0x70, 7 => some (b, execWwaito b port)
  | 0xA0, 4 => some (d, execCwait d a b ow om sc)
  | 0xB0, 1 => some (b, execPull d a b ow om)
  | 0xB0, 2 => some (b, if w % 2 = 1 then execDrainFlush d a b ow om else execDrain d a b ow om)
  | 0xB8, 4 => some (d, execEdwait d a b ow om sc)
  | _, _ => none

/-- The wait for CYCLE or GTIME whose word is w: its meaning. -/
def targetWaitOf (w : Nat) : Option (State → Out) :=
  match bits w 56 8, bits w 46 6 with
  | 0x38, 4 => some (execSleepc (bits w 34 6) (bits w 0 22))
  | 0x38, 5 => some (execWaittick (bits w 34 6) (bits w 0 22))
  | _, _ => none

/-- The current core's instruction may go on: a firing that runs in a region that is not pre-empted, or a control core that runs. -/
def State.coreRuns (s : State) : Bool :=
  if s.isFiring then
    match s.myTile.firing with
    | some f => s.firingRuns f && !(s.region (s.regionOf s.cur)).halted
    | none => false
  else s.core.running && !s.core.halted

/-- A meaning carried out by core g, whose number the turn's core then takes again. -/
def asCoreOut (g : Nat) (f : State → Out) (s : State) : Out :=
  match f { s with cur := g } with
  | .next t => .next { t with cur := s.cur }
  | o => o

/-- R242: WAIT_LIMIT of core g (2,048 + n control core n). -/
def execWaitLimit (g : Nat) (s : State) : Out :=
  asCoreOut g (fun s =>
    match s.core.waitFrom, boundedWaitOf s.core.ir with
    | some (c0, _), some (r, f) => if s.coreRuns && decide ((s.sreg r).toNat ≤ s.cycle - c0) then f s else .next s
    | _, _ => .next s) s

/-- R185: WAIT_TARGET_REACHED of core g (2,048 + n control core n). -/
def execWaitTargetReached (g : Nat) (s : State) : Out :=
  asCoreOut g (fun s =>
    match s.core.waitFrom, targetWaitOf s.core.ir with
    | some _, some f => if s.coreRuns then f s else .next s
    | _, _ => .next s) s

end Sys2Proof.Machine
end

