-- ==== Sys2Proof/Machine/Package.lean ====
section
/-! DEFINITION. Power, temperature, resets and boot (R458 to R464); register writes as events of their own (R4, R353, R379, R381, R400, R417 to
R419); the host's accesses to HBM, IDE keys and the SPDM responder (R413, R439). -/

namespace Sys2Proof.Machine

/-! ## Errors that SECDED finds (R226, R466, R468; assumption 95) -/

/-- R466: a corrected error of a class on a die is counted, saturating, and described as the die's latest. -/
def State.softError (s : State) (die cls unit off : Nat) : State :=
  let k := 16 * die + cls
  if 2 ≤ die ∨ 8 ≤ cls then s
  else { s with softErr := Sparse.set 0 s.softErr k (min (Sparse.get 0 s.softErr k + 1) (2 ^ 64 - 1)),
                counted := countIn s.counted (32 + k) s.cycle,
                lastSoft := s.lastSoft.setIfInBounds die (word (cls + unit % 2 ^ 12 * 2 ^ 4 + off % 2 ^ 48 * 2 ^ 16)) }

/-- R468: the check word of a key holds an uncorrectable error. -/
def State.hardError (s : State) (key : Nat) : State := if 2 ^ 46 ≤ key then s else { s with bad := insertNat (checkWord key) s.bad }

/-- R226: the stored word of a v or m register of a firing core holds an uncorrectable error. -/
def State.registerError (s : State) (core code : Nat) : State :=
  if core < 2048 ∧ 32 ≤ code ∧ code < 72 ∧ code ≠ 64 then s.setCoreAt core { s.coreAt core with badReg := insertNat code (s.coreAt core).badReg } else s

/-- R466: an uncorrectable error in the router and network buffers of a die. -/
def State.bufferError (s : State) (die : Nat) : State := if die < 2 then s.countHard die 7 else s

/-! ## Register writes -/

/-- R4: control core n writes v under a byte mask to the register at an offset of system space. A refused or stalled write does nothing. -/
def State.coreWrite (s : State) (n o v mask : Nat) : State :=
  let u := { s with cur := 2048 + n }
  match Sys2Proof.Machine.regWrite o v mask u.atM u with
  | .ok _ t => { t with cur := s.cur }
  | .error _ _ => s

/-- All eight bytes of a register. -/
def regMask : Nat := 2 ^ 64 - 1

/-- R4: REGISTER_WRITE. -/
def execRegisterWrite (n addr v : Nat) (s : State) : Out :=
  .next (if n = 8 then s.hostWrite addr v
  else if n < 8 ∧ sysBase ≤ addr ∧ addr < sysBase + 2 ^ 40 then s.coreWrite n ((addr - sysBase) / 8 * 8) v regMask
  else s)

/-- R418: CCROOT_WRITE. -/
def execCcrootWrite (n root v : Nat) (s : State) : Out := .next (s.coreWrite n (0x200400 + 8 * (root % 2)) v regMask)

/-- R419: CCRESET_RESET. -/
def execCcresetReset (n x : Nat) (s : State) : Out := .next (if n < 8 ∧ x < 8 then s.ccreset n x else s)

/-- R419: DBELL_WRITE. -/
def execDbellWrite (x v : Nat) (s : State) : Out := .next (if x < 8 then s.dbellWrite x (v % 4 * 2 ^ 8) (3 * 2 ^ 8) else s)

/-- R353: PLATE_FENCE_WRITE. -/
def execPlateFenceWrite (n pl v : Nat) (s : State) : Out :=
  .next (if pl < 128 then s.coreWrite n (0x14100000 + 8 * pl) (v % 2 * 4) 4 else s)

/-- R353: PFAULT_CLEAR. -/
def execPfaultClear (pl : Nat) (s : State) : Out := .next (if pl < 128 then s.plateWrite pl (2 ^ 10) (2 ^ 10) false else s)

/-- R353: PERMANENT_FAULT. -/
def execPermanentFault (pl : Nat) (s : State) : Out :=
  .next (if pl < 128 then s.setPlate pl { s.plate pl with pfault := true } else s)

/-- R379: LINK_DIS_WRITE. -/
def execLinkDisWrite (n lk v : Nat) (s : State) : Out := .next (if lk < 24 then s.coreWrite n (0x480000 + 64 * lk) (v % 2 * 2) 2 else s)

/-- R381: ROUTE_MASK_WRITE. -/
def execRouteMaskWrite (n nd v : Nat) (s : State) : Out := .next (if nd < 1024 then s.coreWrite n (0x460000 + 8 * nd) v regMask else s)

/-- R400: EDITION_ENTRY_WRITE. -/
def execEditionEntryWrite (n g off v : Nat) (s : State) : Out :=
  .next (if g < 4096 then s.coreWrite n (0x600000 + 256 * g + off % 256 / 8 * 8) v regMask else s)

/-- R417: CXL_ERROR_LOG_READ. -/
def execCxlErrorLogRead (s : State) : Out := .next { s with cxlErr := [] }

/-- R417: CXL_LINK_ERROR. -/
def execCxlLinkError (v : Nat) (s : State) : Out := .next { s with cxlErr := s.cxlErr ++ [word v] }

/-! ## Power and temperature (R458 to R460) -/

/-- R459: LIMIT as it acts. -/
def Package.limit (p : Package) : Nat := max 600 (min 2600 p.plim)

/-- R460: the target step. -/
def Package.target (p : Package) (pwr temp : Nat) : Nat :=
  let l := (if p.limit < pwr then [p.fstep - 1] else []) ++ (if 100 * pwr < 95 * p.limit then [p.fstep + 1] else []) ++
    (if 100 ≤ temp then [p.fstep - 1] else []) ++ (if 110 ≤ temp then [8] else [])
  max 8 (min 16 (l.min?.getD p.fstep))

/-- R460: one step toward the target. -/
def Package.tick (p : Package) (pwr temp : Nat) : Package :=
  let t := p.target pwr temp
  let f := if t < p.fstep then p.fstep - 1 else if p.fstep < t then p.fstep + 1 else p.fstep
  { p with fstep := f, pwr := pwr, temp := temp, tpow := decide (f < 16) && (p.tpow || decide (p.limit < pwr)),
           ttherm := decide (f < 16) && (p.ttherm || decide (100 ≤ temp)) }

/-- R460: THROTTLE_TICK. -/
def execThrottleTick (pwr temp : Nat) (s : State) : Out := .next { s with pkg := s.pkg.tick (pwr % 2 ^ 12) (temp % 2 ^ 8) }

/-! ## Resets (R446, R461) -/

/-- What no reset reaches: flash, the host's memory and what the host has received, and the model's own fields. Everything else is as
`State.reset` has it; memory reads as at power-on (assumption 7). -/
def State.cleared (s : State) : State :=
  { State.reset with
    agenda := s.agenda, cur := 2048, freeCtr := s.freeCtr, nextId := s.nextId, msix := s.msix, hdmData := s.hdmData,
    hostData := s.hostData,
    mem := s.mem.filter (fun e => (Nat.ble (flashBase 0) e.1 && Nat.blt e.1 (flashBase 2)) || Nat.ble hostBase e.1),
    spdm := { answers := s.spdm.answers }, fw := { flash := s.fw.flash, active := s.fw.flash, valid := s.fw.valid } }

/-- R461: POWER_CYCLE. -/
def execPowerCycle (s : State) : Out := .next s.cleared

/-- R461: FUNDAMENTAL_RESET: FWSTAT and the log stay; a pending switch is rolled back to the slot that flash holds. -/
def execFundamentalReset (s : State) : Out :=
  let f := s.fw
  let fw : Firmware := { f with active := if f.pending then f.flash else f.active, pending := false, rollback := f.rollback || f.pending,
                                wdogValue := 0, wdogCount := 0 }
  .next { s.cleared with fw := fw, pkg := { why := if f.pending then 2 else 0 } }

/-- R419, R461: SECONDARY_BUS_RESET. -/
def execSecondaryBusReset (s : State) : Out := .next (if s.booted then s.startCores 0 3 else s)

/-- R460: THERMAL_SHUTDOWN: at 120 °C power is removed, and only a power cycle recovers the module. -/
def execThermalShutdown (temp : Nat) (s : State) : Out :=
  .next (if 120 ≤ temp then { s.cleared with pkg := { powered := false } } else s)

/-! ## Boot (R462) -/

/-- R438, R462 step 4: log entries 0 and 1. -/
def State.bootLog (s : State) (b : Nat) : List LogEntry :=
  { slot := 0xFF, digest := Config.romDigest, version := Config.revision } :: s.measure b :: s.fw.log.drop 2

/-- R462, steps 4 to 6, from slot b: `alt` marks the other slot. -/
def State.bootFrom (s : State) (b : Nat) (alt : Bool) (copyOk : Nat) : State :=
  let s := s.mapFw (fun f => { f with active := b, log := s.bootLog b })
  let s := { s with pkg := { s.pkg with step := 4, alt := alt } }
  if copyOk % 2 = 0 then { s with pkg := { s.pkg with err := 3 } }
  else
    let s := (s.copyStep b).startCores (if s.pkg.why = 2 then s.fw.handover else 0) s.pkg.why
    { s with booted := true, pkg := { s.pkg with step := 6 } }

/-- R462: BOOT. The device stays in ROM after an error. -/
def execBoot (hbmOk copyOk : Nat) (s : State) : Out :=
  .next (if s.booted || s.pkg.err != 0 || !s.pkg.powered then s
  else if hbmOk % 2 = 0 then { s with pkg := { s.pkg with step := 1, err := 1 } }
  else if s.slotGood s.fw.flash then s.bootFrom s.fw.flash false copyOk
  else if s.slotGood (1 - s.fw.flash) then s.bootFrom (1 - s.fw.flash) true copyOk
  else { s with pkg := { s.pkg with step := 2, err := 2 } })

/-! ## The host through CXL (R413) -/

/-- A free number of n 64-bit words (the spec leaves the value open). -/
def State.freeNum (s : State) : Nat → Nat × State
  | 0 => (0, s)
  | n + 1 =>
    let (v, s) := s.free
    let (r, s) := s.freeNum n
    (v.toNat + 2 ^ 64 * r, s)

/-- R413, R466: HDM_ACCESS: the host reads or writes len bytes of HBM; none beyond its 512 GiB. A read that meets an uncorrectable error
counts it, and what the host then gets is a free value (DESIGN CHOICE, assumption 103). -/
def execHdmAccess (wr addr len val : Nat) (s : State) : Out :=
  let k := hbmBase + addr
  .next (if 2 ^ 39 < addr + len then s
  else if wr % 2 = 1 then s.wr k len val
  else if s.readBad k len then
    let (v, s) := (s.countHard (dieOfKey k) (errClass k)).freeNum ((len + 7) / 8)
    { s with hdmData := v % 2 ^ (8 * len) }
  else { s with hdmData := s.rd k len })

/-! ## The SPDM responder (R439) -/

/-- Request codes of SPDM 1.3 (assumption 33). -/
def rqDIGESTS : Nat := 0x81
def rqCERTIFICATE : Nat := 0x82
def rqCHALLENGE : Nat := 0x83
def rqVERSION : Nat := 0x84
def rqMEASUREMENTS : Nat := 0xE0
def rqCAPABILITIES : Nat := 0xE1
def rqALGORITHMS : Nat := 0xE3
def rqKEY_EXCHANGE : Nat := 0xE4
def rqFINISH : Nat := 0xE5
def rqEND_SESSION : Nat := 0xEC
def rqVENDOR : Nat := 0xFE
/-- The ERROR answer, and its codes: a request that is invalid, or not expected in the present stage. -/
def rqERROR : Nat := 0x7F
def errINVALID : Nat := 1
def errUNEXPECTED : Nat := 4

/-- An answer given. -/
def Spdm.answer (x : Spdm) (a : SpdmAnswer) : Spdm := { x with answers := x.answers ++ [a] }
def Spdm.error (x : Spdm) (code : Nat) : Spdm := x.answer { req := rqERROR, body := [code] }

/-- A request and its answer enter the transcript. -/
def Spdm.plain (x : Spdm) (req : List Nat) (code : Nat) (body : List Nat) : Spdm :=
  { x with transcript := x.transcript ++ [req, body] }.answer { req := code, body := body }

/-- A signed answer: it carries the RSA-3072 signature over the transcript, which its number then names. -/
def Spdm.signed (x : Spdm) (req : List Nat) (code : Nat) (body : List Nat) : Spdm :=
  let t := x.transcript ++ [req, body]
  { x with transcript := t, marks := x.marks ++ [t] }.answer { req := code, body := body, rsa := some (Config.rsaSign t) }

/-- Served once negotiation is complete. -/
def Spdm.served (x : Spdm) (f : Spdm → Spdm) : Spdm := if x.stage = 3 then f x else x.error errUNEXPECTED

def State.mapSpdm (s : State) (f : Spdm → Spdm) : State := { s with spdm := f s.spdm }

/-- R439: GET_VERSION: the exchange starts afresh. -/
def execGetVersion (s : State) : Out :=
  .next (s.mapSpdm (fun x => ({ x with stage := 1, transcript := [], session := none }).plain [rqVERSION] rqVERSION [0x13]))

/-- R439: GET_CAPABILITIES. -/
def execGetCapabilities (s : State) : Out :=
  .next (s.mapSpdm (fun x => if x.stage = 1 then ({ x with stage := 2 }).plain [rqCAPABILITIES] rqCAPABILITIES [] else x.error errUNEXPECTED))

/-- R439: NEGOTIATE_ALGORITHMS: SHA-384 and RSASSA-PSS 3072, or none. -/
def execNegotiateAlgorithms (hash asym : Nat) (s : State) : Out :=
  .next (s.mapSpdm (fun x =>
    if x.stage = 2 then
      ({ x with stage := if hash = 1 ∧ asym = 1 then 3 else 2 }).plain [rqALGORITHMS, hash, asym] rqALGORITHMS [hash % 2, asym % 2]
    else x.error errUNEXPECTED))

/-- R439: GET_DIGESTS: slot 0 alone holds a chain. -/
def execGetDigests (s : State) : Out :=
  .next (s.mapSpdm (fun x => x.served (fun x => x.plain [rqDIGESTS] rqDIGESTS [1, sha384 Config.certificate])))

/-- R439: GET_CERTIFICATE: a portion of the chain, and what remains. -/
def execGetCertificate (slot off len : Nat) (s : State) : Out :=
  .next (s.mapSpdm (fun x => x.served (fun x =>
    if slot ≠ 0 ∨ Config.certificate.length ≤ off then x.error errINVALID
    else
      let bs := (Config.certificate.drop off).take len
      x.plain [rqCERTIFICATE, slot, off, len] rqCERTIFICATE [bs.length, Config.certificate.length - off - bs.length, ofBytes bs])))

/-- R439: CHALLENGE. -/
def execChallenge (nonce : Nat) (s : State) : Out :=
  .next ({ s with freeCtr := s.freeCtr + 1 }.mapSpdm (fun x => x.served (fun x =>
    x.signed [rqCHALLENGE, nonce] rqCHALLENGE [sha384 Config.certificate, Config.spdmNonce s.freeCtr])))

/-- R439: measurement block n + 1 carries log entry n. -/
def Firmware.blocks (f : Firmware) (blk : Nat) : Option (List Nat) :=
  if blk = 0 then some [f.log.length]
  else if blk = 255 then some (f.log.map LogEntry.digest)
  else (f.log[blk - 1]?).map (fun e => [e.digest])

/-- R439: GET_MEASUREMENTS, signed where the request asks for it. -/
def execGetMeasurements (blk sig nonce : Nat) (s : State) : Out :=
  .next ({ s with freeCtr := s.freeCtr + 1 }.mapSpdm (fun x => x.served (fun x =>
    match s.fw.blocks blk with
    | none => x.error errINVALID
    | some b =>
      if sig % 2 = 1 then x.signed [rqMEASUREMENTS, blk, sig, nonce] rqMEASUREMENTS (b ++ [Config.spdmNonce s.freeCtr])
      else x.plain [rqMEASUREMENTS, blk, sig, nonce] rqMEASUREMENTS b)))

/-- R439: KEY_EXCHANGE: a session begins. -/
def execKeyExchange (sid nonce : Nat) (s : State) : Out :=
  .next ({ s with freeCtr := s.freeCtr + 1 }.mapSpdm (fun x => x.served (fun x =>
    if x.session.isSome then x.error errUNEXPECTED
    else ({ x with session := some (sid, false) }).signed [rqKEY_EXCHANGE, sid, nonce] rqKEY_EXCHANGE [sid, Config.spdmNonce s.freeCtr])))

/-- R439: FINISH: the session stands where the requester's code over the transcript is right. -/
def execFinish (mac : Nat) (s : State) : Out :=
  .next (s.mapSpdm (fun x => x.served (fun x =>
    match x.session with
    | some (sid, false) =>
      if mac = Config.finishMac x.transcript then ({ x with session := some (sid, true) }).plain [rqFINISH, mac] rqFINISH []
      else ({ x with session := none }).error errINVALID
    | _ => x.error errUNEXPECTED)))

/-- R439: END_SESSION. -/
def execEndSession (s : State) : Out :=
  .next (s.mapSpdm (fun x => x.served (fun x =>
    match x.session with
    | some (_, true) => ({ x with session := none }).plain [rqEND_SESSION] rqEND_SESSION []
    | _ => x.error errUNEXPECTED)))

/-- R439: VENDOR_DEFINED_REQUEST: the SLH-DSA signature over the transcript at the signed answer named. -/
def execVendorDefinedRequest (resp : Nat) (s : State) : Out :=
  .next (s.mapSpdm (fun x =>
    match x.marks[resp]? with
    | none => x.error errINVALID
    | some t => x.answer { req := rqVENDOR, body := [resp], slh := some (Config.slhSign t) }))

/-- R413: IDE_KEY_MANAGEMENT: only within an SPDM session. -/
def execIdeKeyManagement (stream kind key : Nat) (s : State) : Out :=
  .next (s.mapSpdm (fun x =>
    match x.session with
    | some (_, true) => { x with ideKeys := Sparse.set 0 x.ideKeys (8 * stream + kind % 8) key }
    | _ => x.error errUNEXPECTED))

end Sys2Proof.Machine
end

