-- ==== Sys2Proof/Machine/VectorArith.lean ====
section
/-! DEFINITION. Vector integer arithmetic, logic and shifts, floating arithmetic, correctly rounded functions and conversions (R207 to
R215). -/

namespace Sys2Proof.Machine

/-! ## Integer arithmetic (R207) -/

/-- R207: an operation on integer elements, given as integers; the result is taken modulo 2^w. -/
def vecInt (f : Int → Int → Int) (d a b ty m : Nat) (s : State) : Out :=
  let w := elemWidth ty
  s.vecOp [a, b] d ty m 0 (fun k => (intBits w (f (intOf ty (laneOf (s.vreg a) w k)) (intOf ty (s.svLane b w k))), 0))

/-- R207, R88: an operation that saturates. -/
def vecSat (f : Int → Int → Int) (d a b ty m : Nat) (s : State) : Out :=
  let w := elemWidth ty
  s.vecOp [a, b] d ty m 0 (fun k => satTo ty (f (intOf ty (laneOf (s.vreg a) w k)) (intOf ty (s.svLane b w k))))

/-- R207, R210, R212: an operation of one operand. -/
def vecOne (f : Nat → Nat × Nat) (d a ty m : Nat) (s : State) : Out :=
  s.vecOp [a] d ty m 0 (fun k => f (laneOf (s.vreg a) (elemWidth ty) k))

/-- R207: `vadd`. -/
def execVadd (d a b ty m : Nat) (s : State) : Out := vecInt (fun x y => x + y) d a b ty m s

/-- R207: `vsub`. -/
def execVsub (d a b ty m : Nat) (s : State) : Out := vecInt (fun x y => x - y) d a b ty m s

/-- R207: `vmul`. -/
def execVmul (d a b ty m : Nat) (s : State) : Out := vecInt (fun x y => x * y) d a b ty m s

/-- R207: `vmulh`: bits [2w−1:w] of the exact product. -/
def execVmulh (d a b ty m : Nat) (s : State) : Out := vecInt (fun x y => x * y / (2 ^ elemWidth ty : Nat)) d a b ty m s

/-- R207: `vmin`. -/
def execVmin (d a b ty m : Nat) (s : State) : Out := vecInt (fun x y => if x ≤ y then x else y) d a b ty m s

/-- R207: `vmax`. -/
def execVmax (d a b ty m : Nat) (s : State) : Out := vecInt (fun x y => if x ≤ y then y else x) d a b ty m s

/-- R207: `vminn`. -/
def execVminn (d a b ty m : Nat) (s : State) : Out := vecInt (fun x y => if x ≤ y then x else y) d a b ty m s

/-- R207: `vmaxn`. -/
def execVmaxn (d a b ty m : Nat) (s : State) : Out := vecInt (fun x y => if x ≤ y then y else x) d a b ty m s

/-- R207: `vabs`; the least value of the type gives itself. -/
def execVabs (d a ty m : Nat) (s : State) : Out := vecOne (fun x => (intBits (elemWidth ty) (intOf ty x).natAbs, 0)) d a ty m s

/-- R207: `vneg`. -/
def execVneg (d a ty m : Nat) (s : State) : Out := vecOne (fun x => (intBits (elemWidth ty) (-(intOf ty x)), 0)) d a ty m s

/-- R207: `vadds`. -/
def execVadds (d a b ty m : Nat) (s : State) : Out := vecSat (fun x y => x + y) d a b ty m s

/-- R207: `vsubs`. -/
def execVsubs (d a b ty m : Nat) (s : State) : Out := vecSat (fun x y => x - y) d a b ty m s

/-! ## Logic and shifts (R208, R209) -/

/-- R204: a v operand of an instruction without TYPE: bits [31:0] of an s register serve as every 32-bit lane. -/
def State.svWhole (s : State) (code : Nat) : VReg :=
  if code < 32 then BitVec.ofNat 2048 (packElems 32 (List.replicate 64 ((s.sreg code).toNat % 2 ^ 32))) else s.vreg code

/-- R202, R208: bits governed per sub-lane: the whole-register result where the mask is one. -/
def State.putSub (s : State) (d m : Nat) (x : VReg) : State :=
  s.putLanes d 16 m (fun k => (laneOf x 16 k, 0))

/-- R208: a bitwise operation. -/
def vecLogic (f : VReg → VReg → VReg) (d a b m : Nat) (s : State) : Out :=
  s.vecRun (readsOf m [a, b]) 0 (fun s => s.putSub d m (f (s.vreg a) (s.svWhole b)))

/-- R208: `vand`. -/
def execVand (d a b m : Nat) (s : State) : Out := vecLogic (fun x y => x &&& y) d a b m s

/-- R208: `vor`. -/
def execVor (d a b m : Nat) (s : State) : Out := vecLogic (fun x y => x ||| y) d a b m s

/-- R208: `vxor`. -/
def execVxor (d a b m : Nat) (s : State) : Out := vecLogic (fun x y => x ^^^ y) d a b m s

/-- R208: `vandn`. -/
def execVandn (d a b m : Nat) (s : State) : Out := vecLogic (fun x y => x &&& ~~~y) d a b m s

/-- The bits of four operands for which index i of a truth table is selected, where its bit is set; bit i counts from the top of R209's
index: 8a + 4b + 2c + d. -/
def minterm (t i : Nat) (a b c d : VReg) : VReg :=
  if t.testBit i then
    (if i.testBit 3 then a else ~~~a) &&& (if i.testBit 2 then b else ~~~b) &&& (if i.testBit 1 then c else ~~~c) &&&
      (if i.testBit 0 then d else ~~~d)
  else 0

/-- R209: the look-up, bit by bit. -/
def lookup4 (t : Nat) (a b c d : VReg) : VReg := (List.range 16).foldl (fun acc i => acc ||| minterm t i a b c d) 0

/-- R209: `vlop4`. -/
def execVlop4 (d a b c thi m tlo : Nat) (s : State) : Out :=
  s.vecRun (readsOf m [a, b, c, d]) 0
    (fun s => s.putSub d m (lookup4 (thi * 2 ^ 12 + tlo) (s.vreg a) (s.vreg b) (s.vreg c) (s.vreg d)))

/-- R208: a shift by the low log2 w bits of the element of B. -/
def vecShift (f : Nat → Nat → Nat → Nat) (d a b ty m : Nat) (s : State) : Out :=
  let w := elemWidth ty
  s.vecOp [a, b] d ty m 0 (fun k => (f w (laneOf (s.vreg a) w k) (s.svLane b w k % w), 0))

/-- R208: `vshl`. -/
def execVshl (d a b ty m : Nat) (s : State) : Out := vecShift (fun w x n => x * 2 ^ n % 2 ^ w) d a b ty m s

/-- R208: `vshr`. -/
def execVshr (d a b ty m : Nat) (s : State) : Out := vecShift (fun _ x n => x / 2 ^ n) d a b ty m s

/-- R208: `vsra`. -/
def execVsra (d a b ty m : Nat) (s : State) : Out := vecShift (fun w x n => intBits w (signed w x / (2 ^ n : Nat))) d a b ty m s

/-! ## Floating arithmetic (R210, R211) -/

/-- An exact value and the flags it raised, rounded to a type for element k. -/
def State.deliver (s : State) (ty rnd k : Nat) (x : Num × Nat) : Nat × Nat :=
  let (v, fl) := (fmtOf ty).round rnd (s.draw rnd k) x.1
  (v, Nat.lor x.2 fl)

/-- R210: an operation on two floating elements, exact and rounded once. -/
def vecF2 (f : Num → Num → Num × Nat) (d a b ty m rnd : Nat) (s : State) : Out :=
  let w := elemWidth ty
  s.vecOp [a, b] d ty m rnd (fun k => s.deliver ty rnd k (f (decodeTy ty (laneOf (s.vreg a) w k)) (decodeTy ty (s.svLane b w k))))

/-- R210: a fused operation on three floating elements. -/
def vecF3 (f : Num → Num → Num → Num × Nat) (d a b c ty m rnd : Nat) (s : State) : Out :=
  let w := elemWidth ty
  s.vecOp [a, b, c] d ty m rnd (fun k =>
    s.deliver ty rnd k (f (decodeTy ty (laneOf (s.vreg a) w k)) (decodeTy ty (s.svLane b w k)) (decodeTy ty (laneOf (s.vreg c) w k))))

/-- A sum of two values whose own flags join those of the first. -/
def fusedSum (mode : Nat) (p : Num × Nat) (neg : Bool) (z : Num) : Num × Nat :=
  let (v, fl) := Num.sum mode [if neg then p.1.neg else p.1, z]
  (v, Nat.lor p.2 fl)

/-- R210: `vfadd`. -/
def execVfadd (d a b ty m rnd : Nat) (s : State) : Out := vecF2 (fun x y => Num.sum rnd [x, y]) d a b ty m rnd s

/-- R210: `vfsub`. -/
def execVfsub (d a b ty m rnd : Nat) (s : State) : Out := vecF2 (fun x y => Num.sum rnd [x, y.neg]) d a b ty m rnd s

/-- R210: `vfmul`. -/
def execVfmul (d a b ty m rnd : Nat) (s : State) : Out := vecF2 (fun x y => x.mul y) d a b ty m rnd s

/-- R210: `vffma`. -/
def execVffma (d a b c ty m rnd : Nat) (s : State) : Out := vecF3 (fun x y z => fusedSum rnd (x.mul y) false z) d a b c ty m rnd s

/-- R210: `vffms`. -/
def execVffms (d a b c ty m rnd : Nat) (s : State) : Out := vecF3 (fun x y z => fusedSum rnd (x.mul y) false z.neg) d a b c ty m rnd s

/-- R210: `vffnma`. -/
def execVffnma (d a b c ty m rnd : Nat) (s : State) : Out := vecF3 (fun x y z => fusedSum rnd (x.mul y) true z) d a b c ty m rnd s

/-- R86: an operation that delivers one of its operands. -/
def vecPick (greater : Bool) (d a b ty m : Nat) (s : State) : Out :=
  let w := elemWidth ty
  s.vecOp [a, b] d ty m 0 (fun k => (fpick ty greater (laneOf (s.vreg a) w k) (s.svLane b w k), 0))

/-- R210, R86: `vfmin`. -/
def execVfmin (d a b ty m _rnd : Nat) (s : State) : Out := vecPick false d a b ty m s

/-- R210, R86: `vfmax`. -/
def execVfmax (d a b ty m _rnd : Nat) (s : State) : Out := vecPick true d a b ty m s

/-- R210: an element with its sign changed by f; the canonical NaN for a NaN. -/
def signOp (f : Nat → Nat → Nat) (ty x : Nat) : Nat × Nat :=
  if (decodeTy ty x).isNan then ((fmtOf ty).nan, 0) else (f (2 ^ (elemWidth ty - 1)) x, 0)

/-- R210: `vfabs`. -/
def execVfabs (d a ty m _rnd : Nat) (s : State) : Out := vecOne (signOp (fun top x => x % top) ty) d a ty m s

/-- R210: `vfneg`. -/
def execVfneg (d a ty m _rnd : Nat) (s : State) : Out := vecOne (signOp (fun top x => (x + top) % (2 * top)) ty) d a ty m s

/-- R211: `vdot2`: two 16-bit products and the f32 lane of D, rounded once. -/
def execVdot2 (d a b ty m rnd : Nat) (s : State) : Out :=
  s.vecRun (readsOf m [a, b, d]) rnd (fun s => s.putLanes d 32 m (fun i =>
    let p (j : Nat) : Num × Nat := (decodeTy ty (laneOf (s.vreg a) 16 (2 * i + j))).mul (decodeTy ty (s.svLane b 16 (2 * i + j)))
    let (v, fl) := Num.sum rnd [decodeTy 12 (laneOf (s.vreg d) 32 i), (p 0).1, (p 1).1]
    s.deliver 12 rnd i (v, joinFlags [(p 0).2, (p 1).2, fl])))

/-! ## Correctly rounded functions and classification (R212) -/

/-- R212: a function of one floating element, exact and rounded once. -/
def vecF1 (f : Num → Num × Nat) (d a ty m rnd : Nat) (s : State) : Out :=
  s.vecOp [a] d ty m rnd (fun k => s.deliver ty rnd k (f (decodeTy ty (laneOf (s.vreg a) (elemWidth ty) k))))

/-- R212: `vfdiv`. -/
def execVfdiv (d a b ty m rnd : Nat) (s : State) : Out := vecF2 Num.div d a b ty m rnd s

/-- R212: `vfsqrt`. -/
def execVfsqrt (d a ty m rnd : Nat) (s : State) : Out := vecF1 Num.sqrt d a ty m rnd s

/-- R212: `vfrcp`. -/
def execVfrcp (d a ty m rnd : Nat) (s : State) : Out := vecF1 (fun x => Num.div (.fin false 1 0 false) x) d a ty m rnd s

/-- R212: `vfrsqrt`. -/
def execVfrsqrt (d a ty m rnd : Nat) (s : State) : Out := vecF1 Num.rsqrt d a ty m rnd s

/-- R212: `vfexp2`. -/
def execVfexp2 (d a ty m rnd : Nat) (s : State) : Out := vecF1 Num.exp2 d a ty m rnd s

/-- R212: `vflog2`. -/
def execVflog2 (d a ty m rnd : Nat) (s : State) : Out := vecF1 Num.log2 d a ty m rnd s

/-- R212: the class bit of a floating element. -/
def classOf (ty x : Nat) : Nat :=
  match decodeTy ty x with
  | .nan => 8
  | .inf neg => if neg then 0 else 7
  | .fin neg m _ _ =>
    if m = 0 then (if neg then 3 else 4)
    else if m < 2 ^ (fmtOf ty).f then (if neg then 2 else 5)
    else (if neg then 1 else 6)

/-- R212: `vfclass`. -/
def execVfclass (d a ty m _rnd : Nat) (s : State) : Out := vecOne (fun x => (2 ^ classOf ty x, 0)) d a ty m s

/-! ## Conversions (R213 to R215) -/

/-- The elements a conversion writes: those below N. -/
def State.putConv (s : State) (d ty m n : Nat) (f : Nat → Nat × Nat) : State := s.putBelow d (elemWidth ty) m n f

/-- R213: one element converted under the instruction's rounding code; e8m0 takes no draw (R214). -/
def State.conv (s : State) (td ts rnd k x : Nat) : Nat × Nat := convertElem ts td rnd (if td = 13 then 0 else s.draw rnd k) x

/-- R213: `vcvt`. -/
def execVcvt (d a ty m rnd ts : Nat) (s : State) : Out :=
  let wd := elemWidth ty
  let ws := elemWidth ts
  s.vecRun (readsOf m [a]) rnd (fun s =>
    s.putConv d ty m (2048 / (if wd < ws then ws else wd)) (fun k => s.conv ty ts rnd k (laneOf (s.vreg a) ws k)))

/-- R213: `vpack`. -/
def execVpack (d a b ty m rnd ts : Nat) (s : State) : Out :=
  let ws := elemWidth ts
  let n := 2048 / ws
  s.vecRun (readsOf m [a, b]) rnd (fun s =>
    s.putConv d ty m (2 * n) (fun k => s.conv ty ts rnd k (if k < n then laneOf (s.vreg a) ws k else laneOf (s.vreg b) ws (k - n))))

/-- R213: `vunpack`. -/
def execVunpack (d a ty m rnd ts h : Nat) (s : State) : Out :=
  let n := 2048 / elemWidth ty
  s.vecRun (readsOf m [a]) rnd (fun s =>
    s.putConv d ty m n (fun k => s.conv ty ts rnd k (laneOf (s.vreg a) (elemWidth ts) (k + h * n))))

/-- R215: x × 2^y, exact; a NaN, an infinity or a zero is delivered as it is. Every y beyond ±2,000 rounds as ±2,000 does. -/
def scaleNum (x : Num) (y : Int) : Num × Nat :=
  match x with
  | .fin neg m e more => if m = 0 then (x, 0) else (.fin neg m (e + min (max y (-2000)) 2000) more, 0)
  | _ => (x, 0)

/-- R215: `vscale`. -/
def execVscale (d a b ty m rnd : Nat) (s : State) : Out :=
  let w := elemWidth ty
  s.vecOp [a, b] d ty m rnd (fun k => s.deliver ty rnd k (scaleNum (decodeTy ty (laneOf (s.vreg a) w k)) (signed w (s.svLane b w k))))

end Sys2Proof.Machine
end

