-- ==== Sys2Proof/Machine/VectorMemory.lean ====
section
/-! DEFINITION. Vector loads, stores and atomics (R221 to R223, R225). -/

namespace Sys2Proof.Machine

/-- An element of a vector access: its index, its address, and the place it reaches. -/
structure ElemAt where
  k : Nat
  ea : Word
  pl : Place
deriving DecidableEq, Repr

/-- R226: the registers of an access must be readable. They are judged before the checks of R115, and also where no element is active (DESIGN
CHOICE, assumption 107). -/
def vecReadable (codes : List Nat) : M Unit := do
  let s ← get
  match s.badRead codes with
  | some c =>
    modify (fun s => s.countHard (dieOf s.cur) 4)
    raiseTrap { code := cECC, i0 := word (if 64 ≤ c then c - 64 else c), i1 := 4, i3 := s.regionInfo }
  | none => pure ()

/-- R222: the effective address, a + 64 × the signed IMM9. -/
def State.vecEa (s : State) (a imm : Nat) : Word := s.sreg a + 64 * sxWord 9 imm

/-- R222: the units an access reads or writes: elements, or bytes where elements have 4 bits, two of one byte sharing their mask bit. -/
def unitWidth (ty : Nat) : Nat := if elemWidth ty < 8 then 8 else elemWidth ty

/-- R222: the checks of R115 at each active unit, ascending; the first failure traps. -/
def checkElems (rw : Rw) (reach : Reach) (u : Nat) (addr : Nat → Word) : List Nat → M (List ElemAt)
  | [] => pure []
  | k :: ks => do
    let pl ← checkAccess reach rw u u (addr k)
    let rest ← checkElems rw reach u addr ks
    pure ({ k := k, ea := addr k, pl := pl } :: rest)

/-- R324 at each unit of an access. -/
def awaitElems (u : Nat) : List ElemAt → M Unit
  | [] => pure ()
  | e :: es => do
    awaitPlace e.pl u
    awaitElems u es

/-- R222: each active unit read; an uncorrectable error traps and nothing of D is written. -/
def readElems (u : Nat) : List ElemAt → M (List (Nat × Nat))
  | [] => pure []
  | e :: es => do
    let x ← readPlace e.ea u e.pl
    let rest ← readElems u es
    pure ((e.k, x) :: rest)

/-- R222: a vector load: `addr` gives each unit's address. -/
def vecLoad (addr : State → Nat → Word) (reads : List Nat) (d ow ty m : Nat) : M Unit := do
  vecReadable (readsOf m reads)
  let s ← get
  let w := unitWidth ty
  let act := activeList (s.mreg m) w
  if act.isEmpty then advanceM
  else
    let es ← checkElems .read .loadStore (w / 8) (addr s) act
    waitOw ow
    awaitElems (w / 8) es
    let xs ← readElems (w / 8) es
    modify (fun s => s.putLanes d w m (fun k => (((xs.find? (fun e => e.1 = k)).map Prod.snd).getD 0, 0)))
    advanceM

/-- The key of a place in memory; system registers have none. -/
def Place.key : Place → Option Nat
  | .mem k => some k
  | .sys _ => none

/-- The check words all of whose 8 bytes a list of accesses of u bytes covers (R222, R468). -/
def coveredWords (u : Nat) (keys : List Nat) : List Nat :=
  ((keys.map checkWord).eraseDups).filter (fun w => (List.range 8).all (fun i => keys.any (fun k => decide (k ≤ w + i ∧ w + i < k + u))))

/-- R222: the first element whose write meets a check word in error that the store does not cover whole. -/
def State.badStore (s : State) (u : Nat) (es : List ElemAt) : Option ElemAt :=
  let cov := coveredWords u (es.filterMap (fun e => e.pl.key))
  es.find? (fun e => match e.pl.key with
    | some k => s.bad.contains (checkWord k) && !cov.contains (checkWord k)
    | none => false)

/-- Journals the lines the elements of a store touch (R42), then writes each in ascending order (R225). -/
def writeElems (u : Nat) (val : Nat → Nat) : List ElemAt → M Unit
  | [] => pure ()
  | e :: es => do
    match e.pl.key with
    | some k =>
      journal k u
      modify (fun s => { s with mem := Sparse.setBytes s.mem k u (val e.k) })
    | none => writePlace e.ea u (val e.k) e.pl
    writeElems u val es

/-- R222: a vector store. -/
def vecStore (addr : State → Nat → Word) (reads : List Nat) (d ow ty m : Nat) : M Unit := do
  vecReadable (readsOf m (d :: reads))
  let s ← get
  let w := unitWidth ty
  let u := w / 8
  let act := activeList (s.mreg m) w
  if act.isEmpty then advanceM
  else
    let es ← checkElems .write .loadStore u (addr s) act
    waitOw ow
    awaitElems u es
    let val (k : Nat) : Nat := laneOf (s.vreg d) w k
    match (← get).badStore u es with
    | none =>
      writeElems u val es
      modify (fun s => { s with bad := s.bad.filter (fun b => !(coveredWords u (es.filterMap (fun e => e.pl.key))).contains b) })
      advanceM
    | some e =>
      let before := es.takeWhile (fun x => x != e)
      writeElems u val before
      modify (fun s => { s with bad := s.bad.filter (fun b => !(coveredWords u (before.filterMap (fun e => e.pl.key))).contains b) })
      raiseEcc e.ea ((e.pl.key).getD 0) 3

/-- R222: consecutive units. -/
def addrUnit (a ty imm : Nat) (s : State) (k : Nat) : Word := s.vecEa a imm + word (k * (unitWidth ty / 8))

/-- R222: elements a stride apart. -/
def addrStride (a b imm : Nat) (s : State) (k : Nat) : Word := s.vecEa a imm + word k * s.sreg b

/-- R222, R223: elements at the lanes of an index register. -/
def addrIndex (a b imm : Nat) (s : State) (k : Nat) : Word := s.vecEa a imm + sxWord 32 (laneOf (s.vreg b) 32 k)

/-- R222: `vld`. -/
def execVld (d a ow _om _sc ty m imm : Nat) (s : State) : Out := runM (vecLoad (addrUnit a ty imm) [] d ow ty m) s

/-- R222: `vst`. -/
def execVst (d a ow _om _sc ty m imm : Nat) (s : State) : Out := runM (vecStore (addrUnit a ty imm) [] d ow ty m) s

/-- R222: `vlds`. -/
def execVlds (d a b ow _om _sc ty m imm : Nat) (s : State) : Out := runM (vecLoad (addrStride a b imm) [] d ow ty m) s

/-- R222: `vsts`. -/
def execVsts (d a b ow _om _sc ty m imm : Nat) (s : State) : Out := runM (vecStore (addrStride a b imm) [] d ow ty m) s

/-- R222: `vldx`. -/
def execVldx (d a b ow _om _sc ty m imm : Nat) (s : State) : Out := runM (vecLoad (addrIndex a b imm) [b] d ow ty m) s

/-- R222: `vstx`. -/
def execVstx (d a b ow _om _sc ty m imm : Nat) (s : State) : Out := runM (vecStore (addrIndex a b imm) [b] d ow ty m) s

/-- R222: `vldb`: one read given to every element. -/
def execVldb (d a ow _om _sc ty m imm : Nat) (s : State) : Out := runM (vecLoad (fun s _ => s.vecEa a imm) [] d ow ty m) s

/-- R223, R95: the lanes performed in ascending order: each receives the value it meets and leaves its combination there; results and
flags. -/
def atomicLanes (f : Nat → Nat → Nat × Nat) (operand : Nat → Nat) : List ElemAt → M (List (Nat × Nat) × Nat)
  | [] => pure ([], 0)
  | e :: es => do
    let s ← get
    let k := (e.pl.key).getD 0
    let old := s.rd k 4
    let (new, fl) := f old (operand e.k)
    journal k 4
    modify (fun s => { s with mem := Sparse.setBytes s.mem k 4 new })
    let (rest, fls) ← atomicLanes f operand es
    pure ((e.k, old) :: rest, Nat.lor fl fls)

/-- R223: a vector atomic; a lane whose word holds an uncorrectable error stops it before anything is performed (R226). -/
def vecAtomic (f : Nat → Nat → Nat × Nat) (d a b ow m imm : Nat) : M Unit := do
  vecReadable (readsOf m [d, b])
  let s ← get
  let act := activeList (s.mreg m) 32
  if act.isEmpty then advanceM
  else
    let es ← checkElems .atomic .localAtomic 4 (addrIndex a b imm s) act
    waitOw ow
    awaitElems 4 es
    let s ← get
    match es.find? (fun e => s.readBad ((e.pl.key).getD 0) 4) with
    | some e => raiseEcc e.ea ((e.pl.key).getD 0) 1
    | none =>
      let (xs, fl) ← atomicLanes f (fun k => laneOf (s.vreg d) 32 k) es
      modify (fun s => (s.putLanes d 32 m (fun k => (((xs.find? (fun e => e.1 = k)).map Prod.snd).getD 0, 0))).raise fl)
      advanceM

/-- R95: one addition of `vaadd`. -/
def addLane (ty x y : Nat) : Nat × Nat :=
  if ty = 12 then
    let (v, f1) := Num.sum 0 [decodeTy 12 x, decodeTy 12 y]
    let (z, f2) := (fmtOf 12).round 0 0 v
    (z, Nat.lor f1 f2)
  else ((x + y) % 2 ^ 32, 0)

/-- R223: `vaadd`. -/
def execVaadd (d a b ow _om _sc ty m imm : Nat) (s : State) : Out := runM (vecAtomic (addLane ty) d a b ow m imm) s

/-- R223: `vaor`. -/
def execVaor (d a b ow _om _sc _ty m imm : Nat) (s : State) : Out := runM (vecAtomic (fun x y => (Nat.lor x y, 0)) d a b ow m imm) s

end Sys2Proof.Machine
end

