-- ==== Sys2Proof/Machine/Dispatch.lean ====
section
/-! DEFINITION. The dispatch of an instruction or event to its meaning: one arm per constructor. -/

namespace Sys2Proof.Machine

/-- The meaning of each row of the opcode table. -/
def exec (i : Instr) (s : State) : Host.Outcome State Fault Refusal :=
  match i with
  | .nop => Sys2Proof.Machine.execNop s
  | .add d a b => Sys2Proof.Machine.execAdd d a b s
  | .sub d a b => Sys2Proof.Machine.execSub d a b s
  | .mul d a b => Sys2Proof.Machine.execMul d a b s
  | .mulh d a b => Sys2Proof.Machine.execMulh d a b s
  | .mulhn d a b => Sys2Proof.Machine.execMulhn d a b s
  | .div d a b => Sys2Proof.Machine.execDiv d a b s
  | .divn d a b => Sys2Proof.Machine.execDivn d a b s
  | .rem d a b => Sys2Proof.Machine.execRem d a b s
  | .remn d a b => Sys2Proof.Machine.execRemn d a b s
  | .madd d a b c => Sys2Proof.Machine.execMadd d a b c s
  | .msub d a b c => Sys2Proof.Machine.execMsub d a b c s
  | .min d a b => Sys2Proof.Machine.execMin d a b s
  | .max d a b => Sys2Proof.Machine.execMax d a b s
  | .minn d a b => Sys2Proof.Machine.execMinn d a b s
  | .maxn d a b => Sys2Proof.Machine.execMaxn d a b s
  | .abs d a => Sys2Proof.Machine.execAbs d a s
  | .and d a b => Sys2Proof.Machine.execAnd d a b s
  | .or d a b => Sys2Proof.Machine.execOr d a b s
  | .xor d a b => Sys2Proof.Machine.execXor d a b s
  | .andn d a b => Sys2Proof.Machine.execAndn d a b s
  | .orn d a b => Sys2Proof.Machine.execOrn d a b s
  | .xnor d a b => Sys2Proof.Machine.execXnor d a b s
  | .sll d a b => Sys2Proof.Machine.execSll d a b s
  | .srl d a b => Sys2Proof.Machine.execSrl d a b s
  | .sra d a b => Sys2Proof.Machine.execSra d a b s
  | .rol d a b => Sys2Proof.Machine.execRol d a b s
  | .ror d a b => Sys2Proof.Machine.execRor d a b s
  | .sel d a b c => Sys2Proof.Machine.execSel d a b c s
  | .clz d a => Sys2Proof.Machine.execClz d a s
  | .ctz d a => Sys2Proof.Machine.execCtz d a s
  | .popc d a => Sys2Proof.Machine.execPopc d a s
  | .bswap d a => Sys2Proof.Machine.execBswap d a s
  | .bext d a b => Sys2Proof.Machine.execBext d a b s
  | .bdep d a b => Sys2Proof.Machine.execBdep d a b s
  | .bfx d a pos len => Sys2Proof.Machine.execBfx d a pos len s
  | .bfxn d a pos len => Sys2Proof.Machine.execBfxn d a pos len s
  | .bfi d a pos len => Sys2Proof.Machine.execBfi d a pos len s
  | .lea d a b off sh => Sys2Proof.Machine.execLea d a b off sh s
  | .tla d a b off => Sys2Proof.Machine.execTla d a b off s
  | .gla d a b off => Sys2Proof.Machine.execGla d a b off s
  | .addi d a imm => Sys2Proof.Machine.execAddi d a imm s
  | .muli d a imm => Sys2Proof.Machine.execMuli d a imm s
  | .andi d a imm => Sys2Proof.Machine.execAndi d a imm s
  | .ori d a imm => Sys2Proof.Machine.execOri d a imm s
  | .xori d a imm => Sys2Proof.Machine.execXori d a imm s
  | .slli d a imm => Sys2Proof.Machine.execSlli d a imm s
  | .srli d a imm => Sys2Proof.Machine.execSrli d a imm s
  | .srai d a imm => Sys2Proof.Machine.execSrai d a imm s
  | .li d imm => Sys2Proof.Machine.execLi d imm s
  | .lih d a imm => Sys2Proof.Machine.execLih d a imm s
  | .ceq d a b => Sys2Proof.Machine.execCeq d a b s
  | .cne d a b => Sys2Proof.Machine.execCne d a b s
  | .clt d a b => Sys2Proof.Machine.execClt d a b s
  | .cle d a b => Sys2Proof.Machine.execCle d a b s
  | .cltn d a b => Sys2Proof.Machine.execCltn d a b s
  | .clen d a b => Sys2Proof.Machine.execClen d a b s
  | .ceqi d a imm => Sys2Proof.Machine.execCeqi d a imm s
  | .cnei d a imm => Sys2Proof.Machine.execCnei d a imm s
  | .clti d a imm => Sys2Proof.Machine.execClti d a imm s
  | .clei d a imm => Sys2Proof.Machine.execClei d a imm s
  | .cltni d a imm => Sys2Proof.Machine.execCltni d a imm s
  | .cleni d a imm => Sys2Proof.Machine.execCleni d a imm s
  | .pand d a b => Sys2Proof.Machine.execPand d a b s
  | .por d a b => Sys2Proof.Machine.execPor d a b s
  | .pxor d a b => Sys2Proof.Machine.execPxor d a b s
  | .pandn d a b => Sys2Proof.Machine.execPandn d a b s
  | .pmov d a => Sys2Proof.Machine.execPmov d a s
  | .pset d imm => Sys2Proof.Machine.execPset d imm s
  | .br imm => Sys2Proof.Machine.execBr imm s
  | .brl d imm => Sys2Proof.Machine.execBrl d imm s
  | .jr a imm => Sys2Proof.Machine.execJr a imm s
  | .jrl d a imm => Sys2Proof.Machine.execJrl d a imm s
  | .ldb d a ow om sc imm => Sys2Proof.Machine.execLdb d a ow om sc imm s
  | .ldbn d a ow om sc imm => Sys2Proof.Machine.execLdbn d a ow om sc imm s
  | .ldh d a ow om sc imm => Sys2Proof.Machine.execLdh d a ow om sc imm s
  | .ldhn d a ow om sc imm => Sys2Proof.Machine.execLdhn d a ow om sc imm s
  | .ldw d a ow om sc imm => Sys2Proof.Machine.execLdw d a ow om sc imm s
  | .ldwn d a ow om sc imm => Sys2Proof.Machine.execLdwn d a ow om sc imm s
  | .ldd d a ow om sc imm => Sys2Proof.Machine.execLdd d a ow om sc imm s
  | .stb d a ow om sc imm => Sys2Proof.Machine.execStb d a ow om sc imm s
  | .sth d a ow om sc imm => Sys2Proof.Machine.execSth d a ow om sc imm s
  | .stw d a ow om sc imm => Sys2Proof.Machine.execStw d a ow om sc imm s
  | .std d a ow om sc imm => Sys2Proof.Machine.execStd d a ow om sc imm s
  | .aadd d a b ow om sc imm => Sys2Proof.Machine.execAadd d a b ow om sc imm s
  | .aand d a b ow om sc imm => Sys2Proof.Machine.execAand d a b ow om sc imm s
  | .aor d a b ow om sc imm => Sys2Proof.Machine.execAor d a b ow om sc imm s
  | .axor d a b ow om sc imm => Sys2Proof.Machine.execAxor d a b ow om sc imm s
  | .amin d a b ow om sc imm => Sys2Proof.Machine.execAmin d a b ow om sc imm s
  | .amax d a b ow om sc imm => Sys2Proof.Machine.execAmax d a b ow om sc imm s
  | .aminn d a b ow om sc imm => Sys2Proof.Machine.execAminn d a b ow om sc imm s
  | .amaxn d a b ow om sc imm => Sys2Proof.Machine.execAmaxn d a b ow om sc imm s
  | .aswap d a b ow om sc imm => Sys2Proof.Machine.execAswap d a b ow om sc imm s
  | .acas d a b ow om sc imm => Sys2Proof.Machine.execAcas d a b ow om sc imm s
  | .fenceAcq a sc => Sys2Proof.Machine.execFenceAcq a sc s
  | .fenceRel a sc => Sys2Proof.Machine.execFenceRel a sc s
  | .fenceFull a sc => Sys2Proof.Machine.execFenceFull a sc s
  | .ojoin d a b => Sys2Proof.Machine.execOjoin d a b s
  | .owait ow sc => Sys2Proof.Machine.execOwait ow sc s
  | .oclr om => Sys2Proof.Machine.execOclr om s
  | .trap a b imm => Sys2Proof.Machine.execTrap a b imm s
  | .tret => Sys2Proof.Machine.execTret s
  | .sysr d imm => Sys2Proof.Machine.execSysr d imm s
  | .sysw a imm => Sys2Proof.Machine.execSysw a imm s
  | .sleepc a imm => Sys2Proof.Machine.execSleepc a imm s
  | .waittick a imm => Sys2Proof.Machine.execWaittick a imm s
  | .brk imm => Sys2Proof.Machine.execBrk imm s
  | .vadd d a b ty m => Sys2Proof.Machine.execVadd d a b ty m s
  | .vsub d a b ty m => Sys2Proof.Machine.execVsub d a b ty m s
  | .vmul d a b ty m => Sys2Proof.Machine.execVmul d a b ty m s
  | .vmulh d a b ty m => Sys2Proof.Machine.execVmulh d a b ty m s
  | .vmin d a b ty m => Sys2Proof.Machine.execVmin d a b ty m s
  | .vmax d a b ty m => Sys2Proof.Machine.execVmax d a b ty m s
  | .vminn d a b ty m => Sys2Proof.Machine.execVminn d a b ty m s
  | .vmaxn d a b ty m => Sys2Proof.Machine.execVmaxn d a b ty m s
  | .vabs d a ty m => Sys2Proof.Machine.execVabs d a ty m s
  | .vneg d a ty m => Sys2Proof.Machine.execVneg d a ty m s
  | .vadds d a b ty m => Sys2Proof.Machine.execVadds d a b ty m s
  | .vsubs d a b ty m => Sys2Proof.Machine.execVsubs d a b ty m s
  | .vand d a b m => Sys2Proof.Machine.execVand d a b m s
  | .vor d a b m => Sys2Proof.Machine.execVor d a b m s
  | .vxor d a b m => Sys2Proof.Machine.execVxor d a b m s
  | .vandn d a b m => Sys2Proof.Machine.execVandn d a b m s
  | .vlop4 d a b c thi m tlo => Sys2Proof.Machine.execVlop4 d a b c thi m tlo s
  | .vshl d a b ty m => Sys2Proof.Machine.execVshl d a b ty m s
  | .vshr d a b ty m => Sys2Proof.Machine.execVshr d a b ty m s
  | .vsra d a b ty m => Sys2Proof.Machine.execVsra d a b ty m s
  | .vfadd d a b ty m rnd => Sys2Proof.Machine.execVfadd d a b ty m rnd s
  | .vfsub d a b ty m rnd => Sys2Proof.Machine.execVfsub d a b ty m rnd s
  | .vfmul d a b ty m rnd => Sys2Proof.Machine.execVfmul d a b ty m rnd s
  | .vffma d a b c ty m rnd => Sys2Proof.Machine.execVffma d a b c ty m rnd s
  | .vffms d a b c ty m rnd => Sys2Proof.Machine.execVffms d a b c ty m rnd s
  | .vffnma d a b c ty m rnd => Sys2Proof.Machine.execVffnma d a b c ty m rnd s
  | .vfmin d a b ty m rnd => Sys2Proof.Machine.execVfmin d a b ty m rnd s
  | .vfmax d a b ty m rnd => Sys2Proof.Machine.execVfmax d a b ty m rnd s
  | .vfabs d a ty m rnd => Sys2Proof.Machine.execVfabs d a ty m rnd s
  | .vfneg d a ty m rnd => Sys2Proof.Machine.execVfneg d a ty m rnd s
  | .vdot2 d a b ty m rnd => Sys2Proof.Machine.execVdot2 d a b ty m rnd s
  | .vfdiv d a b ty m rnd => Sys2Proof.Machine.execVfdiv d a b ty m rnd s
  | .vfsqrt d a ty m rnd => Sys2Proof.Machine.execVfsqrt d a ty m rnd s
  | .vfrcp d a ty m rnd => Sys2Proof.Machine.execVfrcp d a ty m rnd s
  | .vfrsqrt d a ty m rnd => Sys2Proof.Machine.execVfrsqrt d a ty m rnd s
  | .vfexp2 d a ty m rnd => Sys2Proof.Machine.execVfexp2 d a ty m rnd s
  | .vflog2 d a ty m rnd => Sys2Proof.Machine.execVflog2 d a ty m rnd s
  | .vfclass d a ty m rnd => Sys2Proof.Machine.execVfclass d a ty m rnd s
  | .vcvt d a ty m rnd ts => Sys2Proof.Machine.execVcvt d a ty m rnd ts s
  | .vpack d a b ty m rnd ts => Sys2Proof.Machine.execVpack d a b ty m rnd ts s
  | .vunpack d a ty m rnd ts h => Sys2Proof.Machine.execVunpack d a ty m rnd ts h s
  | .vscale d a b ty m rnd => Sys2Proof.Machine.execVscale d a b ty m rnd s
  | .vcmp d a b ty m rnd rel => Sys2Proof.Machine.execVcmp d a b ty m rnd rel s
  | .vfcmp d a b ty m rnd rel => Sys2Proof.Machine.execVfcmp d a b ty m rnd rel s
  | .mand d a b => Sys2Proof.Machine.execMand d a b s
  | .mor d a b => Sys2Proof.Machine.execMor d a b s
  | .mxor d a b => Sys2Proof.Machine.execMxor d a b s
  | .mnot d a => Sys2Proof.Machine.execMnot d a s
  | .mpop d a => Sys2Proof.Machine.execMpop d a s
  | .mfirst d a => Sys2Proof.Machine.execMfirst d a s
  | .mmov d a sl => Sys2Proof.Machine.execMmov d a sl s
  | .vperm d a b ty m => Sys2Proof.Machine.execVperm d a b ty m s
  | .vbcast d a ty m idx => Sys2Proof.Machine.execVbcast d a ty m idx s
  | .vext d a b ty idx => Sys2Proof.Machine.execVext d a b ty idx s
  | .vins d a b ty m idx => Sys2Proof.Machine.execVins d a b ty m idx s
  | .vslide d a b ty m idx => Sys2Proof.Machine.execVslide d a b ty m idx s
  | .vsel d a b ty m => Sys2Proof.Machine.execVsel d a b ty m s
  | .vmov d a ty m => Sys2Proof.Machine.execVmov d a ty m s
  | .vcompress d a ty m => Sys2Proof.Machine.execVcompress d a ty m s
  | .vredsum d a ty m rnd => Sys2Proof.Machine.execVredsum d a ty m rnd s
  | .vredmax d a ty m rnd => Sys2Proof.Machine.execVredmax d a ty m rnd s
  | .vredmin d a ty m rnd => Sys2Proof.Machine.execVredmin d a ty m rnd s
  | .vfredsum d a ty m rnd => Sys2Proof.Machine.execVfredsum d a ty m rnd s
  | .vfredmax d a ty m rnd => Sys2Proof.Machine.execVfredmax d a ty m rnd s
  | .vfredmin d a ty m rnd => Sys2Proof.Machine.execVfredmin d a ty m rnd s
  | .vscan d a ty m rnd o => Sys2Proof.Machine.execVscan d a ty m rnd o s
  | .vfscan d a ty m rnd o => Sys2Proof.Machine.execVfscan d a ty m rnd o s
  | .vld d a ow om sc ty m imm => Sys2Proof.Machine.execVld d a ow om sc ty m imm s
  | .vst d a ow om sc ty m imm => Sys2Proof.Machine.execVst d a ow om sc ty m imm s
  | .vlds d a b ow om sc ty m imm => Sys2Proof.Machine.execVlds d a b ow om sc ty m imm s
  | .vsts d a b ow om sc ty m imm => Sys2Proof.Machine.execVsts d a b ow om sc ty m imm s
  | .vldx d a b ow om sc ty m imm => Sys2Proof.Machine.execVldx d a b ow om sc ty m imm s
  | .vstx d a b ow om sc ty m imm => Sys2Proof.Machine.execVstx d a b ow om sc ty m imm s
  | .vldb d a ow om sc ty m imm => Sys2Proof.Machine.execVldb d a ow om sc ty m imm s
  | .vaadd d a b ow om sc ty m imm => Sys2Proof.Machine.execVaadd d a b ow om sc ty m imm s
  | .vaor d a b ow om sc ty m imm => Sys2Proof.Machine.execVaor d a b ow om sc ty m imm s
  | .wld d a b ow om sc port sz imm => Sys2Proof.Machine.execWld d a b ow om sc port sz imm s
  | .wlds d a b ow om sc port sz imm => Sys2Proof.Machine.execWlds d a b ow om sc port sz imm s
  | .wst d a b ow om sc port sz imm => Sys2Proof.Machine.execWst d a b ow om sc port sz imm s
  | .wsend a ow om sc port => Sys2Proof.Machine.execWsend a ow om sc port s
  | .wavail d port => Sys2Proof.Machine.execWavail d port s
  | .wfree d port => Sys2Proof.Machine.execWfree d port s
  | .wwait a b port => Sys2Proof.Machine.execWwait a b port s
  | .wwaito b port => Sys2Proof.Machine.execWwaito b port s
  | .weos a => Sys2Proof.Machine.execWeos a s
  | .wmode d port => Sys2Proof.Machine.execWmode d port s
  | .fend => Sys2Proof.Machine.execFend s
  | .fabort a => Sys2Proof.Machine.execFabort a s
  | .wovf d port => Sys2Proof.Machine.execWovf d port s
  | .rld d a ow om sc sz sx imm => Sys2Proof.Machine.execRld d a ow om sc sz sx imm s
  | .rst d a ow om sc sz imm => Sys2Proof.Machine.execRst d a ow om sc sz imm s
  | .ramo d a b ow om sc sz sx o imm => Sys2Proof.Machine.execRamo d a b ow om sc sz sx o imm s
  | .ovld d a ow om sc ty o cnt => Sys2Proof.Machine.execOvld d a ow om sc ty o cnt s
  | .ovst d a ow om sc ty o cnt => Sys2Proof.Machine.execOvst d a ow om sc ty o cnt s
  | .grpstat d a ow om sc ty o cnt => Sys2Proof.Machine.execGrpstat d a ow om sc ty o cnt s
  | .barr d a b ow om sc => Sys2Proof.Machine.execBarr d a b ow om sc s
  | .barx a b ow om sc => Sys2Proof.Machine.execBarx a b ow om sc s
  | .barw d a b ow om sc => Sys2Proof.Machine.execBarw d a b ow om sc s
  | .mclaim d ow om sc keep n1 => Sys2Proof.Machine.execMclaim d ow om sc keep n1 s
  | .mrel d ow om sc n1 => Sys2Proof.Machine.execMrel d ow om sc n1 s
  | .mld d a b ow om sc rcnt => Sys2Proof.Machine.execMld d a b ow om sc rcnt s
  | .mldScl d a ow om sc rcnt => Sys2Proof.Machine.execMldScl d a ow om sc rcnt s
  | .mldw d a b ow om sc port rcnt => Sys2Proof.Machine.execMldw d a b ow om sc port rcnt s
  | .mgath d a b ow om sc ty rcnt => Sys2Proof.Machine.execMgath d a b ow om sc ty rcnt s
  | .mtr d a ow om sc ty => Sys2Proof.Machine.execMtr d a ow om sc ty s
  | .mzero d ow om sc mc nc ty row => Sys2Proof.Machine.execMzero d ow om sc mc nc ty row s
  | .mma d a b ow om sc mc nc ty row st1 fin => Sys2Proof.Machine.execMma d a b ow om sc mc nc ty row st1 fin s
  | .mmag d a b ow om sc ldr nc ty st1 fin => Sys2Proof.Machine.execMmag d a b ow om sc ldr nc ty st1 fin s
  | .mdrain d a ow om sc mc nc row keep => Sys2Proof.Machine.execMdrain d a ow om sc mc nc row keep s
  | .mwait => Sys2Proof.Machine.execMwait s
  | .mstat d sl => Sys2Proof.Machine.execMstat d sl s
  | .sbind a ow om sc ctx => Sys2Proof.Machine.execSbind a ow om sc ctx s
  | .scopy a b ow om sc ctx => Sys2Proof.Machine.execScopy a b ow om sc ctx s
  | .sfetch d a b ow om sc ctx => Sys2Proof.Machine.execSfetch d a b ow om sc ctx s
  | .sput a b ow om sc ctx => Sys2Proof.Machine.execSput a b ow om sc ctx s
  | .cwait d a b ow om sc => Sys2Proof.Machine.execCwait d a b ow om sc s
  | .sresume ctx => Sys2Proof.Machine.execSresume ctx s
  | .sstat d ctx sl => Sys2Proof.Machine.execSstat d ctx sl s
  | .etch d a b ow om => Sys2Proof.Machine.execEtch d a b ow om s
  | .pull d a b ow om => Sys2Proof.Machine.execPull d a b ow om s
  | .drain d a b ow om => Sys2Proof.Machine.execDrain d a b ow om s
  | .drainFlush d a b ow om => Sys2Proof.Machine.execDrainFlush d a b ow om s
  | .qstat d a ow om sl => Sys2Proof.Machine.execQstat d a ow om sl s
  | .palloc d a ow om => Sys2Proof.Machine.execPalloc d a ow om s
  | .pmove d a b ow om => Sys2Proof.Machine.execPmove d a b ow om s
  | .pfree d a ow om => Sys2Proof.Machine.execPfree d a ow om s
  | .xld d a b ow om sc sz sx => Sys2Proof.Machine.execXld d a b ow om sc sz sx s
  | .xst d a b ow om sc sz => Sys2Proof.Machine.execXst d a b ow om sc sz s
  | .xamo d a b ow om sc sz sx o e => Sys2Proof.Machine.execXamo d a b ow om sc sz sx o e s
  | .edst d a b ow om sc e cnt => Sys2Proof.Machine.execEdst d a b ow om sc e cnt s
  | .edwait d a b ow om sc => Sys2Proof.Machine.execEdwait d a b ow om sc s
  | .xovld d a b ow om sc ty o cnt => Sys2Proof.Machine.execXovld d a b ow om sc ty o cnt s
  | .rkreg d a ow om sc => Sys2Proof.Machine.execRkreg d a ow om sc s
  | .rkrev d a ow om sc => Sys2Proof.Machine.execRkrev d a ow om sc s
  | .xfence a ow om sc => Sys2Proof.Machine.execXfence a ow om sc s
  | .qpop d a b ow om => Sys2Proof.Machine.execQpop d a b ow om s
  | .qdone d a b ow om => Sys2Proof.Machine.execQdone d a b ow om s
  | .launch d a b ow om => Sys2Proof.Machine.execLaunch d a b ow om s
  | .cancel d a ow om => Sys2Proof.Machine.execCancel d a ow om s
  | .preempt d a ow om => Sys2Proof.Machine.execPreempt d a ow om s
  | .preemptResume d a ow om => Sys2Proof.Machine.execPreemptResume d a ow om s
  | .ctxsave d a b ow om => Sys2Proof.Machine.execCtxsave d a b ow om s
  | .ctxrest d a ow om => Sys2Proof.Machine.execCtxrest d a ow om s
  | .fwload d a b ow om slot => Sys2Proof.Machine.execFwload d a b ow om slot s
  | .fwverify d ow om slot => Sys2Proof.Machine.execFwverify d ow om slot s
  | .fwmeasure d ow om slot => Sys2Proof.Machine.execFwmeasure d ow om slot s
  | .fwswitch d a ow om slot => Sys2Proof.Machine.execFwswitch d a ow om slot s
  | .hbeat d a ow om => Sys2Proof.Machine.execHbeat d a ow om s
  | .rpt n1 sd sa sb sc => Sys2Proof.Machine.execRpt n1 sd sa sb sc s
  | .firingStart t => Sys2Proof.Machine.execFiringStart t s
  | .firingLimit t => Sys2Proof.Machine.execFiringLimit t s
  | .containmentDecision t => Sys2Proof.Machine.execContainmentDecision t s
  | .interruptEntry n => Sys2Proof.Machine.execInterruptEntry n s
  | .pageWalk g va wr => Sys2Proof.Machine.execPageWalk g va wr s
  | .flitInject k => Sys2Proof.Machine.execFlitInject k s
  | .dataFlit k => Sys2Proof.Machine.execDataFlit k s
  | .pointerFlit k => Sys2Proof.Machine.execPointerFlit k s
  | .markerFlit k => Sys2Proof.Machine.execMarkerFlit k s
  | .returnFlit k => Sys2Proof.Machine.execReturnFlit k s
  | .markerForward a => Sys2Proof.Machine.execMarkerForward a s
  | .faultedMarkerEffect a => Sys2Proof.Machine.execFaultedMarkerEffect a s
  | .regionDrained r => Sys2Proof.Machine.execRegionDrained r s
  | .remoteAccessApply t idx => Sys2Proof.Machine.execRemoteAccessApply t idx s
  | .remoteResponse t idx => Sys2Proof.Machine.execRemoteResponse t idx s
  | .overprintSample t idx => Sys2Proof.Machine.execOverprintSample t idx s
  | .overprintMemberAccess t idx j => Sys2Proof.Machine.execOverprintMemberAccess t idx j s
  | .overprintComplete t idx => Sys2Proof.Machine.execOverprintComplete t idx s
  | .barrierUpdate t idx => Sys2Proof.Machine.execBarrierUpdate t idx s
  | .barwRelease t idx => Sys2Proof.Machine.execBarwRelease t idx s
  | .barwResend t idx => Sys2Proof.Machine.execBarwResend t idx s
  | .matrixCmdStart t idx => Sys2Proof.Machine.execMatrixCmdStart t idx s
  | .matrixCmdComplete t idx => Sys2Proof.Machine.execMatrixCmdComplete t idx s
  | .mmagGangStart pl => Sys2Proof.Machine.execMmagGangStart pl s
  | .streamSourceFiring c => Sys2Proof.Machine.execStreamSourceFiring c s
  | .streamSinkFiring c => Sys2Proof.Machine.execStreamSinkFiring c s
  | .streamCmdAccept c => Sys2Proof.Machine.execStreamCmdAccept c s
  | .streamCmdPerform c => Sys2Proof.Machine.execStreamCmdPerform c s
  | .waitLimit g => Sys2Proof.Machine.execWaitLimit g s
  | .firingHalt t => Sys2Proof.Machine.execFiringHalt t s
  | .hubCloseTimeout t => Sys2Proof.Machine.execHubCloseTimeout t s
  | .pullSwap r => Sys2Proof.Machine.execPullSwap r s
  | .scrubComplete pl => Sys2Proof.Machine.execScrubComplete pl s
  | .laneLock n => Sys2Proof.Machine.execLaneLock n s
  | .laneFailure n => Sys2Proof.Machine.execLaneFailure n s
  | .trainSend n => Sys2Proof.Machine.execTrainSend n s
  | .trainingTimeout n => Sys2Proof.Machine.execTrainingTimeout n s
  | .train n peer nv pl sq => Sys2Proof.Machine.execTrain n peer nv pl sq s
  | .creditInit n => Sys2Proof.Machine.execCreditInit n s
  | .replay n sq => Sys2Proof.Machine.execReplay n sq s
  | .flitReceive n kind sq ack cr ok corr disc => Sys2Proof.Machine.execFlitReceive n kind sq ack cr ok corr disc s
  | .linkSilenceTimeout n => Sys2Proof.Machine.execLinkSilenceTimeout n s
  | .openMsg src ep => Sys2Proof.Machine.execOpenMsg src ep s
  | .acceptMsg src ep => Sys2Proof.Machine.execAcceptMsg src ep s
  | .ld src ep sq key off len => Sys2Proof.Machine.execLd src ep sq key off len s
  | .st src ep sq key off sz val => Sys2Proof.Machine.execSt src ep sq key off sz val s
  | .amo src ep sq key off sz o val cmp => Sys2Proof.Machine.execAmo src ep sq key off sz o val cmp s
  | .edstMessage src ep sq g len off val => Sys2Proof.Machine.execEdstMessage src ep sq g len off val s
  | .edApply src ep sq g len ge ed off val => Sys2Proof.Machine.execEdApply src ep sq g len ge ed off val s
  | .dataMsg src ep sq val => Sys2Proof.Machine.execDataMsg src ep sq val s
  | .ackMsg src ep sq => Sys2Proof.Machine.execAckMsg src ep sq s
  | .errMsg src ep sq code rsn pte => Sys2Proof.Machine.execErrMsg src ep sq code rsn pte s
  | .staleMsg src ep sq => Sys2Proof.Machine.execStaleMsg src ep sq s
  | .edNum src ep sq ed => Sys2Proof.Machine.execEdNum src ep sq ed s
  | .retransmitTimeout nd => Sys2Proof.Machine.execRetransmitTimeout nd s
  | .connectionTimeout nd => Sys2Proof.Machine.execConnectionTimeout nd s
  | .replyCacheExpiry src ep sq => Sys2Proof.Machine.execReplyCacheExpiry src ep sq s
  | .editionGapTimeout g => Sys2Proof.Machine.execEditionGapTimeout g s
  | .announce n dom p1 quality p2 id path => Sys2Proof.Machine.execAnnounce n dom p1 quality p2 id path s
  | .syncMsg n dom sq => Sys2Proof.Machine.execSyncMsg n dom sq s
  | .followUp n dom sq t1 => Sys2Proof.Machine.execFollowUp n dom sq t1 s
  | .delayReq n dom sq => Sys2Proof.Machine.execDelayReq n dom sq s
  | .delayResp n dom sq t4 => Sys2Proof.Machine.execDelayResp n dom sq t4 s
  | .ptpInterval n kind => Sys2Proof.Machine.execPtpInterval n kind s
  | .announceReceiptTimeout => Sys2Proof.Machine.execAnnounceReceiptTimeout s
  | .kick q v => Sys2Proof.Machine.execKick q v s
  | .queueCtlWrite q v => Sys2Proof.Machine.execQueueCtlWrite q v s
  | .hdmAccess wr addr len val => Sys2Proof.Machine.execHdmAccess wr addr len val s
  | .getVersion => Sys2Proof.Machine.execGetVersion s
  | .getCapabilities => Sys2Proof.Machine.execGetCapabilities s
  | .negotiateAlgorithms hash asym => Sys2Proof.Machine.execNegotiateAlgorithms hash asym s
  | .getDigests => Sys2Proof.Machine.execGetDigests s
  | .getCertificate slot off len => Sys2Proof.Machine.execGetCertificate slot off len s
  | .challenge nonce => Sys2Proof.Machine.execChallenge nonce s
  | .getMeasurements blk sig nonce => Sys2Proof.Machine.execGetMeasurements blk sig nonce s
  | .keyExchange sid nonce => Sys2Proof.Machine.execKeyExchange sid nonce s
  | .finish mac => Sys2Proof.Machine.execFinish mac s
  | .endSession => Sys2Proof.Machine.execEndSession s
  | .vendorDefinedRequest resp => Sys2Proof.Machine.execVendorDefinedRequest resp s
  | .tinvPage die r va => Sys2Proof.Machine.execTinvPage die r va s
  | .tinvRegion die r => Sys2Proof.Machine.execTinvRegion die r s
  | .tinvAll die => Sys2Proof.Machine.execTinvAll die s
  | .tinvComplete die => Sys2Proof.Machine.execTinvComplete die s
  | .ccrootWrite n root v => Sys2Proof.Machine.execCcrootWrite n root v s
  | .ccresetReset n x => Sys2Proof.Machine.execCcresetReset n x s
  | .dbellWrite x v => Sys2Proof.Machine.execDbellWrite x v s
  | .plateFenceWrite n pl v => Sys2Proof.Machine.execPlateFenceWrite n pl v s
  | .pfaultClear pl => Sys2Proof.Machine.execPfaultClear pl s
  | .permanentFault pl => Sys2Proof.Machine.execPermanentFault pl s
  | .linkDisWrite n lk v => Sys2Proof.Machine.execLinkDisWrite n lk v s
  | .routeMaskWrite n nd v => Sys2Proof.Machine.execRouteMaskWrite n nd v s
  | .editionEntryWrite n g off v => Sys2Proof.Machine.execEditionEntryWrite n g off v s
  | .gtstatRead => Sys2Proof.Machine.execGtstatRead s
  | .editionReportRead => Sys2Proof.Machine.execEditionReportRead s
  | .cxlErrorLogRead => Sys2Proof.Machine.execCxlErrorLogRead s
  | .cxlLinkError v => Sys2Proof.Machine.execCxlLinkError v s
  | .storeErrorReport n addr code => Sys2Proof.Machine.execStoreErrorReport n addr code s
  | .registerWrite n addr v => Sys2Proof.Machine.execRegisterWrite n addr v s
  | .throttleTick pwr temp => Sys2Proof.Machine.execThrottleTick pwr temp s
  | .thermalShutdown temp => Sys2Proof.Machine.execThermalShutdown temp s
  | .powerCycle => Sys2Proof.Machine.execPowerCycle s
  | .fundamentalReset => Sys2Proof.Machine.execFundamentalReset s
  | .secondaryBusReset => Sys2Proof.Machine.execSecondaryBusReset s
  | .boot hbmOk copyOk => Sys2Proof.Machine.execBoot hbmOk copyOk s
  | .fwRollback => Sys2Proof.Machine.execFwRollback s
  | .waitTargetReached g => Sys2Proof.Machine.execWaitTargetReached g s
  | .ideKeyManagement stream kind key => Sys2Proof.Machine.execIdeKeyManagement stream kind key s

end Sys2Proof.Machine
end

