-- ==== Sys2Proof/Machine/Fetch.lean ====
section
/-! DEFINITION. A core's fetch, the checks and guard of a word (R135, R136, R146 to R150), and one turn of an agent. -/

namespace Sys2Proof.Machine

/-- The kind of the current core (R145). -/
def State.kind (s : State) : CoreKind := if s.isFiring then .firing else .control

/-- Fetches the word at an address of the current core (R135, R198). -/
def fetchAt (pc : Word) : M Nat := do
  let s ← get
  if s.isFiring then
    if 0x10000 ≤ pc.toNat then raiseTrap { code := cILLEGAL, i1 := 11 }
    else
      let k := imemBase s.cur + pc.toNat
      if s.readBad k 8 then raiseEcc pc k 2 else pure (s.rd k 8)
  else
    let pl ← checkAccess .control .fetch 8 8 pc
    let s ← get
    match pl with
    | .mem k => if s.readBad k 8 then raiseEcc pc k 2 else pure (s.rd k 8)
    | .sys a =>
      match sysMem s.ccore (a - sysBase) with
      | some k => if s.readBad k 8 then raiseEcc pc k 2 else pure (s.rd k 8)
      | none => readPlace pc 8 (.sys a)

/-- R146 on a word that is no prefix: the trap of the first check that fails. -/
def State.wordTrap (s : State) (w : Nat) : Option Trap :=
  match wordFault s.kind w with
  | some (r, b) => some { code := cILLEGAL, i0 := word w, i1 := word r, i3 := word b }
  | none => (privFault s.kind s.atM w).map (fun n => { code := cPRIV, i0 := word w, i1 := word n })

/-- R146, R147 on a prefix and the word it repeats: the trap of the first check that fails. -/
def State.pairTrap (s : State) (pw iw : Nat) : Option Trap :=
  match wordFault s.kind iw with
  | some (r, b) => some { code := cILLEGAL, i0 := word pw, i1 := word r, i2 := word iw, i3 := word b }
  | none =>
    if !mayRepeat iw then some { code := cREPEAT, i0 := word pw, i2 := word iw }
    else match stepFault pw iw with
      | some b => some { code := cILLEGAL, i0 := word pw, i1 := 10, i2 := word iw, i3 := word b }
      | none => (privFault s.kind s.atM iw).map (fun n => { code := cPRIV, i0 := word pw, i1 := word n, i2 := word iw })

/-- R160, R320: the word names a register that an `sfetch` of the current core not yet accepted will write (assumption 9). -/
def State.awaitsPromise (s : State) (w : Nat) : Bool :=
  s.isFiring && (findOp w).any (fun r => r.fields.any (fun f =>
    (f.kind == .s || f.kind == .sv) && (s.promised s.cur).contains (bits w f.lo f.width)))

/-- Executes a word whose checks have passed: nothing but the program counter when its guard is false (R136). -/
noncomputable def State.runWord (s : State) (w ir : Nat) (rep : Option Nat) : Out :=
  let s := s.mapCore (fun c => { c with ir := ir, rep := rep })
  if !s.guardTrue (guardOf w) then .next s.advance
  else if s.awaitsPromise w then .next s
  else match decode w with
    | some i => exec i s
    | none => .next s

/-- The repeat in progress ends with the step. -/
def clearRep : Out → Out
  | .next s => .next (s.mapCore (fun c => { c with rep := none }))
  | o => o

/-- The repeat pair at the program counter, its checks passed (R149): its start with its first repeat, its next repeat, or its end. -/
noncomputable def State.runPair (s : State) (pw iw : Nat) : Out :=
  let n := bits pw 46 6 + 1
  let go (s : State) : Out :=
    if n ≤ s.core.rptDone then .next (s.mapCore (fun c => { c with rptst := 0, pc := c.pc + 16, pair := none }))
    else clearRep (s.runWord (stepWord pw iw s.core.rptDone) pw (some n))
  if s.core.rptActive then go s
  else match s.runWord pw pw none with
    | .next s => go s
    | o => o

/-- The word after the one at the program counter, which R147 reports beside a prefix; zero where it cannot be fetched. -/
def State.nextWord (s : State) : Nat :=
  match fetchAt (s.core.pc + 8) s with
  | .ok w _ => w
  | .error _ _ => 0

/-- R149: the words of the repeat pair in progress at the program counter, read when it started. -/
def State.pairNow (s : State) : Option (Nat × Nat) := if s.core.rptActive then s.core.pair else none

/-- One instruction, or one repeat, of the current core. The words of a repeat pair are fetched and checked once, before its first repeat
(R149). -/
noncomputable def State.coreStep (s : State) : Out :=
  match s.pairNow with
  | some (w, iw) => s.runPair w iw
  | none =>
  match fetchAt s.core.pc s with
  | .error (.trap t) s => .next (s.takeTrap t)
  | .error .wait s => .next s
  | .ok w s =>
    if bits w 56 8 = majRpt then
      match s.wordTrap w with
      | some t => .next (s.takeTrap { t with i2 := word (s.nextWord) })
      | none =>
        match fetchAt (s.core.pc + 8) s with
        | .error (.trap t) s => .next (s.takeTrap (if t.code = cILLEGAL then { t with i0 := word w } else t))
        | .error .wait s => .next s
        | .ok iw s =>
          match s.pairTrap w iw with
          | some t => .next (s.takeTrap t)
          | none => (s.mapCore (fun c => { c with pair := some (w, iw) })).runPair w iw
    else match s.wordTrap w with
      | some t => .next (s.takeTrap t)
      | none => s.runWord w w none

/-- R431: a core of a pre-empted region goes on only to end an instruction that waits for its answer. -/
def State.paused (s : State) : Bool := (s.region (s.regionOf s.cur)).halted && s.core.waitOp.isNone

/-- R196: the word of the current core at the boundary traps: its turn would enter the trap handler. TRAPPC, set aside, and INH, which is 0
where an interrupt may be taken, show it. -/
noncomputable def State.stepTraps (s : State) : Bool :=
  match (s.mapCore (fun c => { c with trappc := c.pc + 1 })).coreStep with
  | .next t => t.core.trappc == s.core.pc && t.core.inh == 1
  | _ => false

/-- A turn of the current core. A trap at the boundary of an interrupt is taken first (R196). -/
noncomputable def State.coreTurn (s : State) : Out :=
  if s.isFiring then
    match s.myTile.firing with
    | none => .next s
    | some f =>
      if !s.firingRuns f || s.paused then .next s
      else if s.firingLate f then .next (s.takeLimit f)
      else s.coreStep
  else if !s.core.running || s.core.halted then .next s
  else if s.takesInterrupt s.ccore && !s.stepTraps then exec (.interruptEntry s.ccore) s
  else s.coreStep

/-- An instruction word's constructor is no event. -/
def Instr.isEvent (i : Instr) : Bool := i.word.isNone

/-- What an input from outside does that no row of the opcode table names (R226, R373, R396, R415, R466, R468); the state as it is for the
others. -/
def State.input (s : State) (a : Act) : State :=
  match a with
  | .softError die cls unit off => s.softError die cls unit off
  | .hardError key => s.hardError key
  | .registerError core code => s.registerError core code
  | .bufferError die => s.bufferError die
  | .hostRead off => { s with hostData := s.hostRead off }
  | .bufferFree link cls => s.bufferFree link cls
  | .editionPerformed id out => s.editionPerformed id out
  | .core _ | .event _ => s

/-- R196: an interrupt entry at a boundary where the core's word traps: the trap comes first. -/
noncomputable def State.outranked (s : State) (i : Instr) : Bool :=
  match i with
  | .interruptEntry n => decide (n < 8) && ({ s with cur := 2048 + n }).stepTraps
  | _ => false

/-- One turn. A module whose power has been removed does nothing until a power cycle (R460), and an event's row is no instruction word's. -/
noncomputable def State.turn (s : State) (a : Act) : Out :=
  match a with
  | .core n => if 2056 ≤ n then .fault .noSuchAgent else if s.pkg.powered then ({ s with cur := n }).coreTurn else .next s
  | .event i => if Instr.isEvent i && (s.pkg.powered || i == .powerCycle) && !s.outranked i then exec i s else .next s
  | a => .next (if s.pkg.powered then s.input a else s)

end Sys2Proof.Machine
end

