-- ==== Sys2Proof/Machine/Step.lean ====
section
/-! DEFINITION. One step of the module: the next turn of the agenda; and the placing of one instruction for a probe. -/

namespace Sys2Proof.Machine

/-- The next turn: the agenda's first; where it is empty, the boot path of a module that has not booted, else a turn of the core that acted
last, 3 cycles later (assumption 1). -/
noncomputable def State.nextTurn (s : State) : Turn × State :=
  match s.agenda with
  | t :: ts => (t, { s with agenda := ts })
  | [] => (⟨3, if s.booted then .core s.cur else .event (.boot 1 1)⟩, s)

/-- R428: what a turn leaves, with the drains noted. -/
def noted : Out → Out
  | .next s => .next s.noteDrains
  | o => o

/-- One step: time passes up to the next turn, which is taken. -/
noncomputable def step (s : State) : Host.Outcome State Fault Refusal :=
  let (t, s) := s.nextTurn
  noted ((s.pass t.cycles).turn t.act)

/-- The majors and functions that only firing cores execute (R143). -/
def firingOnly (w : Nat) : Bool :=
  match findOp w with
  | some r => r.cores == .firing
  | none => false

/-- The state with one instruction placed where the next step fetches: in control core 0's private memory, which it runs at level M, or,
for an instruction that only firing cores have, at offset 0 of tile 0's instruction memory with a firing of slot 0 in progress. -/
def State.withFetchWord (s : State) (_nbits w : Nat) : State :=
  let w := w % 2 ^ 64
  if firingOnly w then
    let t := s.tile 0
    let t := (t.setSlot 0 { t.slot 0 with st := .firing })
    let s := s.setTile 0 { t with firing := some { slot := 0, since := s.cycle } }
    let s := s.wr (imemBase 0) 16 w
    let s := s.setCoreAt 0 { s.coreAt 0 with pc := 0 }
    { s with agenda := ⟨0, .core 0⟩ :: s.agenda }
  else
    let s := s.wr (privBase 0) 16 w
    let s := s.setCoreAt 2048 { s.coreAt 2048 with pc := 0xF40000000000, running := true, halted := false }
    { s with agenda := ⟨0, .core 2048⟩ :: s.agenda }

end Sys2Proof.Machine
end

