-- ==== Sys2Proof/Safety.lean ====
section
/-! DEFINITION. What a safe run is, in the terms claims use: an invariant of the state that every step keeps. -/

namespace Sys2Proof.Machine

/-- The canonical form of memory (an address listed once, in order, never at the value an unlisted byte reads as). -/
def Memory.wf (m : List Host.Cell) : Bool := Sparse.ok 0 m

/-- Every table of the state is held with rising keys, so that a read after a write gives what was written. -/
def State.tablesRise (s : State) : Bool :=
  Sparse.rising s.cores && Sparse.rising s.tiles && Sparse.rising s.descs && Sparse.rising s.queued && Sparse.rising s.entered && Sparse.rising s.flight &&
  Sparse.rising s.regions && Sparse.rising s.roots && Sparse.rising s.tlb && Sparse.rising s.netOps && Sparse.rising s.mats &&
  Sparse.rising s.ctxs && Sparse.rising s.plates && Sparse.rising s.groups && Sparse.rising s.queues && Sparse.rising s.pops &&
  Sparse.rising s.cancels && Sparse.rising s.hardErr && Sparse.rising s.softErr && Sparse.rising s.counted && Sparse.rising s.hub.conns && Sparse.rising s.hub.sources &&
  Sparse.rising s.hub.links && Sparse.rising s.hub.keys && Sparse.rising s.hub.editions && Sparse.rising s.hub.groups && Sparse.rising s.hub.members &&
  Sparse.rising s.hub.routes

/-- The invariant of a run: memory is in canonical form, so that equal memories are equal data, and every table's keys rise. -/
def State.wf (s : State) : Bool := Memory.wf s.mem && s.tablesRise

end Sys2Proof.Machine
end

