-- ==== Sys2Proof/Certificates/Slice0/Obligations.lean ====
section
/-! DEFINITION. The statements for the provers, with what the rules of spec/ give written out as functions and predicates of their own. -/

namespace Sys2Proof.Claims

open Sys2Proof.Machine

/-! ## Frames -/

/-- Only the core whose turn it is differs between s and t: memory, tiles, regions, every other core and the rest of the state are as
before. -/
def OnlyCore (s t : State) : Prop := t = { s with cores := t.cores } ∧ ∀ n, n ≠ s.cur → t.coreAt n = s.coreAt n

/-- An instruction ended that wrote s register d with x: s0 reads zero, every other s register, every p, o, v and m register, and every
system register is as before; the program counter and RPTST are as `Core.advance` leaves them. -/
structure WritesS (s t : State) (d : Nat) (x : Word) : Prop where
  value : t.sreg d = if d = 0 then 0 else x
  others : ∀ n, n ≠ d → t.sreg n = s.sreg n
  rest : t.core = { s.core.advance with s := t.core.s }
  frame : OnlyCore s t

/-- The same for predicate d; p0 reads true. -/
structure WritesP (s t : State) (d : Nat) (x : Bool) : Prop where
  value : t.preg d = if d = 0 then true else x
  others : ∀ n, n ≠ d → t.preg n = s.preg n
  rest : t.core = { s.core.advance with p := t.core.p }
  frame : OnlyCore s t

/-! ## The scalar engine -/

/-- An integer modulo 2^64 (R69). -/
def exact (n : Int) : Word := BitVec.ofInt 64 n

/-- `sx` of R6: the w low bits of x, read as signed. -/
def sx (w x : Nat) : Int := let v := x % 2 ^ w; if v < 2 ^ (w - 1) then v else (v : Int) - 2 ^ w

/-- R168: the register each function writes and its value. -/
def arithmetic (s : State) : Instr → Option (Nat × Word)
  | .add d a b => some (d, exact ((s.sreg a).toNat + (s.sreg b).toNat))
  | .sub d a b => some (d, exact ((s.sreg a).toNat - (s.sreg b).toNat : Int))
  | .mul d a b => some (d, exact ((s.sreg a).toNat * (s.sreg b).toNat))
  | .mulh d a b => some (d, exact ((s.sreg a).toInt * (s.sreg b).toInt / 2 ^ 64))
  | .mulhn d a b => some (d, exact ((s.sreg a).toNat * (s.sreg b).toNat / 2 ^ 64))
  | .div d a b => some (d, exact (if (s.sreg b).toInt = 0 then -1 else (s.sreg a).toInt.tdiv (s.sreg b).toInt))
  | .divn d a b => some (d, exact (if (s.sreg b).toNat = 0 then 2 ^ 64 - 1 else (s.sreg a).toNat / (s.sreg b).toNat))
  | .rem d a b => some (d, exact (if (s.sreg b).toInt = 0 then (s.sreg a).toInt else (s.sreg a).toInt.tmod (s.sreg b).toInt))
  | .remn d a b => some (d, exact (if (s.sreg b).toNat = 0 then (s.sreg a).toNat else (s.sreg a).toNat % (s.sreg b).toNat))
  | .madd d a b c => some (d, exact ((s.sreg a).toNat * (s.sreg b).toNat + (s.sreg c).toNat))
  | .msub d a b c => some (d, exact ((s.sreg c).toNat - (s.sreg a).toNat * (s.sreg b).toNat : Int))
  | .min d a b => some (d, exact (min (s.sreg a).toInt (s.sreg b).toInt))
  | .max d a b => some (d, exact (max (s.sreg a).toInt (s.sreg b).toInt))
  | .minn d a b => some (d, exact (min (s.sreg a).toNat (s.sreg b).toNat : Nat))
  | .maxn d a b => some (d, exact (max (s.sreg a).toNat (s.sreg b).toNat : Nat))
  | .abs d a => some (d, exact (s.sreg a).toInt.natAbs)
  | _ => none

/-- R169: the logic functions bit by bit, the shifts by b[5:0] as arithmetic on numbers. -/
def logicShift (s : State) : Instr → Option (Nat × Word)
  | .and d a b => some (d, s.sreg a &&& s.sreg b)
  | .or d a b => some (d, s.sreg a ||| s.sreg b)
  | .xor d a b => some (d, s.sreg a ^^^ s.sreg b)
  | .andn d a b => some (d, s.sreg a &&& ~~~s.sreg b)
  | .orn d a b => some (d, s.sreg a ||| ~~~s.sreg b)
  | .xnor d a b => some (d, ~~~(s.sreg a ^^^ s.sreg b))
  | .sll d a b => some (d, exact ((s.sreg a).toNat * 2 ^ ((s.sreg b).toNat % 64)))
  | .srl d a b => some (d, exact ((s.sreg a).toNat / 2 ^ ((s.sreg b).toNat % 64)))
  | .sra d a b => some (d, exact ((s.sreg a).toInt / 2 ^ ((s.sreg b).toNat % 64)))
  | .rol d a b => some (d, let n := (s.sreg b).toNat % 64; exact ((s.sreg a).toNat * 2 ^ n % 2 ^ 64 + (s.sreg a).toNat / 2 ^ (64 - n)))
  | .ror d a b => some (d, let n := (s.sreg b).toNat % 64; exact ((s.sreg a).toNat / 2 ^ n + (s.sreg a).toNat * 2 ^ (64 - n) % 2 ^ 64))
  | .sel d a b c => some (d, (s.sreg c &&& s.sreg a) ||| (~~~s.sreg c &&& s.sreg b))
  | _ => none

/-- How many numbers below n have a property. -/
def howMany (n : Nat) (p : Nat → Bool) : Nat := ((List.range n).filter p).length

/-- R170: the loop of `bext`: the result and k after bits 0 to n − 1. -/
def bextLoop (a b n : Nat) : Nat × Nat :=
  (List.range n).foldl (fun (r, k) i => if b.testBit i then (r + (if a.testBit i then 2 ^ k else 0), k + 1) else (r, k)) (0, 0)

/-- R170: the loop of `bdep`. -/
def bdepLoop (a b n : Nat) : Nat × Nat :=
  (List.range n).foldl (fun (r, k) i => if b.testBit i then (r + (if a.testBit k then 2 ^ i else 0), k + 1) else (r, k)) (0, 0)

/-- R170: the register each function writes and its value. -/
def bitManipulation (s : State) : Instr → Option (Nat × Word)
  | .clz d a => some (d, exact (howMany 64 (fun k => decide ((s.sreg a).toNat < 2 ^ (63 - k)))))
  | .ctz d a => some (d, exact (howMany 64 (fun k => decide (2 ^ (k + 1) ∣ (s.sreg a).toNat))))
  | .popc d a => some (d, exact (howMany 64 (s.sreg a).toNat.testBit))
  | .bswap d a => some (d, exact (((List.range 8).map (fun k => (s.sreg a).toNat / 2 ^ (8 * k) % 256 * 2 ^ (8 * (7 - k)))).sum : Nat))
  | .bext d a b => some (d, exact (bextLoop (s.sreg a).toNat (s.sreg b).toNat 64).1)
  | .bdep d a b => some (d, exact (bdepLoop (s.sreg a).toNat (s.sreg b).toNat 64).1)
  | .bfx d a pos len => some (d, exact (sx len ((s.sreg a).toNat / 2 ^ pos)))
  | .bfxn d a pos len => some (d, exact ((s.sreg a).toNat / 2 ^ pos % 2 ^ len))
  | .bfi d a pos len =>
    let v := (s.sreg d).toNat
    some (d, exact ((v : Int) - v / 2 ^ pos % 2 ^ len * 2 ^ pos + (s.sreg a).toNat % 2 ^ len * 2 ^ pos))
  | _ => none

/-- R172, R173: the register each function writes and its value. -/
def addressImmediate (s : State) : Instr → Option (Nat × Word)
  | .lea d a b off sh => some (d, exact ((s.sreg a).toNat + (s.sreg b).toNat * 2 ^ sh + sx 19 off))
  | .tla d a b off =>
    some (d, exact (0xF10000000000 + min (s.sreg a).toNat 2048 * 2 ^ 19 + ((s.sreg b).toNat + sx 22 off) % 2 ^ 19))
  | .gla d a b off =>
    some (d, exact (0xF20000000000 + min (s.sreg a).toNat 1024 * 2 ^ 19 + ((s.sreg b).toNat + sx 22 off) % 2 ^ 19))
  | .addi d a imm => some (d, exact ((s.sreg a).toNat + sx 34 imm))
  | .muli d a imm => some (d, exact ((s.sreg a).toNat * sx 34 imm))
  | .andi d a imm => some (d, s.sreg a &&& exact (sx 34 imm))
  | .ori d a imm => some (d, s.sreg a ||| exact (sx 34 imm))
  | .xori d a imm => some (d, s.sreg a ^^^ exact (sx 34 imm))
  | .slli d a n => some (d, exact ((s.sreg a).toNat * 2 ^ n))
  | .srli d a n => some (d, exact ((s.sreg a).toNat / 2 ^ n))
  | .srai d a n => some (d, exact ((s.sreg a).toInt / 2 ^ n))
  | .li d imm => some (d, exact (sx 34 imm))
  | .lih d a imm => some (d, exact ((s.sreg a).toNat % 2 ^ 34 + imm * 2 ^ 34))
  | _ => none

/-- R174, R175: the predicate each function writes and its value. -/
def predicate (s : State) : Instr → Option (Nat × Bool)
  | .ceq d a b => some (d, decide ((s.sreg a).toNat = (s.sreg b).toNat))
  | .cne d a b => some (d, decide ((s.sreg a).toNat ≠ (s.sreg b).toNat))
  | .clt d a b => some (d, decide ((s.sreg a).toInt < (s.sreg b).toInt))
  | .cle d a b => some (d, decide ((s.sreg a).toInt ≤ (s.sreg b).toInt))
  | .cltn d a b => some (d, decide ((s.sreg a).toNat < (s.sreg b).toNat))
  | .clen d a b => some (d, decide ((s.sreg a).toNat ≤ (s.sreg b).toNat))
  | .ceqi d a imm => some (d, decide ((s.sreg a).toInt = sx 34 imm))
  | .cnei d a imm => some (d, decide ((s.sreg a).toInt ≠ sx 34 imm))
  | .clti d a imm => some (d, decide ((s.sreg a).toInt < sx 34 imm))
  | .clei d a imm => some (d, decide ((s.sreg a).toInt ≤ sx 34 imm))
  | .cltni d a imm => some (d, decide (((s.sreg a).toNat : Int) < sx 34 imm % 2 ^ 64))
  | .cleni d a imm => some (d, decide (((s.sreg a).toNat : Int) ≤ sx 34 imm % 2 ^ 64))
  | .pand d a b => some (d, s.preg a && s.preg b)
  | .por d a b => some (d, s.preg a || s.preg b)
  | .pxor d a b => some (d, xor (s.preg a) (s.preg b))
  | .pandn d a b => some (d, s.preg a && !s.preg b)
  | .pmov d a => some (d, s.preg a)
  | .pset d imm => some (d, imm == 1)
  | _ => none

/-- R176: the link register of a branch, if it has one, and its target. -/
def branch (s : State) : Instr → Option (Option Nat × Word)
  | .br imm => some (none, exact (s.core.pc.toNat + 8 * sx 34 imm))
  | .brl d imm => some (some d, exact (s.core.pc.toNat + 8 * sx 34 imm))
  | .jr a imm => some (none, exact ((s.sreg a).toNat + 8 * sx 34 imm))
  | .jrl d a imm => some (some d, exact ((s.sreg a).toNat + 8 * sx 34 imm))
  | _ => none

end Sys2Proof.Claims

open Sys2Proof Sys2Proof.Machine Sys2Proof.Claims

/-- How an instruction ends (R135, R149): outside a repeat pair the program counter advances by 8; within one of n repeats RPTST counts
the repeat, and the last one leaves RPTST zero and the program counter past the pair; the pair's words, read before its first repeat, are kept
until then. No register of any file changes. Model's choices: assumption 69. -/
def Obligations.InstructionEnd : Prop :=
  ∀ (s : State), s.wf = true →
    OnlyCore s s.advance ∧
    s.advance.core = { s.core.settle with pc := s.advance.core.pc, rptst := s.advance.core.rptst, pair := s.advance.core.pair } ∧
    (s.core.rep = none → s.advance.core.pc = s.core.pc + 8 ∧ s.advance.core.rptst = s.core.rptst ∧ s.advance.core.pair = s.core.pair) ∧
    ∀ n, s.core.rep = some n →
      (s.core.rptDone + 1 < n → s.advance.core.pc = s.core.pc ∧ s.advance.core.rptst = exact (64 + (s.core.rptDone + 1)) ∧
        s.advance.core.pair = s.core.pair) ∧
      (n ≤ s.core.rptDone + 1 → s.advance.core.pc = s.core.pc + 16 ∧ s.advance.core.rptst = 0 ∧ s.advance.core.pair = none)

/-- `nop` changes nothing but the program counter (R143). R136: the guard of a word fetched is predicate GP, negated where GS is 1; where it
is false the program counter advances by 8 and nothing else changes; where it is true the instruction is carried out, once every register it
names that an `sfetch` still writes has its value (R160, R320): that wait is the model's choice, assumption 9; the checks of R146 are made
whatever the guard. GS = 0 with GP = 0 is a guard always true, GS = 1 with GP = 0 one always false. -/
def Obligations.NopAndGuard : Prop :=
  (∀ (s : State), exec .nop s = .next s.advance) ∧
  ∀ (s s1 : State) (w : Nat), s.pairNow = none → fetchAt s.core.pc s = .ok w s1 → s1.wf = true → bits w 56 8 ≠ majRpt →
    let guard : Bool := if bits w 55 1 = 1 then !s1.preg (bits w 52 3) else s1.preg (bits w 52 3)
    (∀ t, s1.wordTrap w = some t → s.coreStep = .next (s1.takeTrap t)) ∧
    (s1.wordTrap w = none → guard = false →
      ∃ t, s.coreStep = .next t ∧ OnlyCore s1 t ∧ t.core = { s1.core.settle with pc := s1.core.pc + 8, ir := w }) ∧
    (∀ i, s1.wordTrap w = none → guard = true → s1.awaitsPromise w = false → decode w = some i →
      s.coreStep = exec i (s1.mapCore (fun c => { c with ir := w, rep := none }))) ∧
    (s1.wordTrap w = none → guard = true → s1.awaitsPromise w = true →
      s.coreStep = .next (s1.mapCore (fun c => { c with ir := w, rep := none }))) ∧
    (bits w 52 3 = 0 → guard = decide (bits w 55 1 = 0))

/-- R168: the functions of MAJ 0x02, written as exact integers modulo 2^64, with their frame. -/
def Sys2Proof.Claims.ScalarArithmetic : Prop :=
  ∀ (i : Instr) (s : State) (d : Nat) (x : Word), i.wf = true → s.wf = true → arithmetic s i = some (d, x) →
    ∃ t, exec i s = .next t ∧ WritesS s t d x

/-- R169: the functions of MAJ 0x03, with their frame. -/
def Sys2Proof.Claims.ScalarLogicShift : Prop :=
  ∀ (i : Instr) (s : State) (d : Nat) (x : Word), i.wf = true → s.wf = true → logicShift s i = some (d, x) →
    ∃ t, exec i s = .next t ∧ WritesS s t d x

/-- R170: the functions of MAJ 0x04, the loops of `bext` and `bdep` written out, with their frame. -/
def Sys2Proof.Claims.ScalarBitManipulation : Prop :=
  ∀ (i : Instr) (s : State) (d : Nat) (x : Word), i.wf = true → s.wf = true → bitManipulation s i = some (d, x) →
    ∃ t, exec i s = .next t ∧ WritesS s t d x

/-- R172, R173: the functions of MAJ 0x05 and 0x10, with their frame. -/
def Sys2Proof.Claims.ScalarAddressImmediate : Prop :=
  ∀ (i : Instr) (s : State) (d : Nat) (x : Word), i.wf = true → s.wf = true → addressImmediate s i = some (d, x) →
    ∃ t, exec i s = .next t ∧ WritesS s t d x

/-- R174, R175: the functions of MAJ 0x18 to 0x1A, with their frame; a write to p0 is discarded. -/
def Obligations.ScalarPredicates : Prop :=
  ∀ (i : Instr) (s : State) (d : Nat) (x : Bool), i.wf = true → s.wf = true → predicate s i = some (d, x) →
    ∃ t, exec i s = .next t ∧ WritesP s t d x

/-- R176, R177: a branch whose target is aligned makes the next fetch there, sets RPTST to zero and writes pc + 8 to its link register;
one whose target is not takes MISALIGN with the target and 8, and writes no link. -/
def Obligations.Branches : Prop :=
  ∀ (i : Instr) (s : State) (l : Option Nat) (target : Word), i.wf = true → s.wf = true → branch s i = some (l, target) →
    (target.toNat % 8 = 0 → ∃ t, exec i s = .next t ∧ OnlyCore s t ∧
      t.core = { s.core.settle with s := t.core.s, pc := target, rptst := 0, pair := none } ∧
      ∀ n, n < 32 → t.sreg n = if l = some n ∧ n ≠ 0 then s.core.pc + 8 else s.sreg n) ∧
    (target.toNat % 8 ≠ 0 → exec i s = .next (s.takeTrap { code := 3, i0 := target, i1 := 8, i3 := s.regionInfo }))

/-- R168 to R170, R172, R173: the functions of MAJ 0x02 to 0x05 and 0x10. -/
def Obligations.ScalarComputation : Prop := ScalarArithmetic ∧ ScalarLogicShift ∧ ScalarBitManipulation ∧ ScalarAddressImmediate

namespace Sys2Proof.Claims

/-! ## Memory -/

/-- The byte at a key of memory. -/
def byteAt (s : State) (k : Nat) : Byte := Sparse.get 0 s.mem k

/-- The undo journal of the current firing core (R42): the upper half of its tile's save frame. -/
def inJournal (s : State) (k : Nat) : Prop := s.cur < 2048 ∧ tileBase s.cur + 0x7E000 ≤ k ∧ k < tileBase s.cur + 0x80000

/-- Between s and t nothing but n bytes of memory from key k on, the current firing's journal and the current core's registers differ:
every other byte, every other core, every other tile, and of the current tile all but which lines the firing journaled. -/
structure StoresAt (s t : State) (k n : Nat) : Prop where
  bytes : ∀ a, (a < k ∨ k + n ≤ a) → ¬ inJournal s a → byteAt t a = byteAt s a
  cores : ∀ m, m ≠ s.cur → t.coreAt m = s.coreAt m
  tiles : ∀ p, p ≠ s.cur → t.tile p = s.tile p
  firing : t.myTile = { s.myTile with firing := t.myTile.firing } ∧
    t.myTile.firing = s.myTile.firing.map (fun f => { f with journal := t.firingNow.journal })
  rest : t = { s with mem := t.mem, bad := t.bad, cores := t.cores, tiles := t.tiles }

/-- R178: bytes, sign extension, D, A, OW and the immediate of a load. -/
def loadForm : Instr → Option (Nat × Bool × Nat × Nat × Nat × Nat)
  | .ldb d a ow _ _ imm => some (1, true, d, a, ow, imm)
  | .ldbn d a ow _ _ imm => some (1, false, d, a, ow, imm)
  | .ldh d a ow _ _ imm => some (2, true, d, a, ow, imm)
  | .ldhn d a ow _ _ imm => some (2, false, d, a, ow, imm)
  | .ldw d a ow _ _ imm => some (4, true, d, a, ow, imm)
  | .ldwn d a ow _ _ imm => some (4, false, d, a, ow, imm)
  | .ldd d a ow _ _ imm => some (8, false, d, a, ow, imm)
  | _ => none

/-- R178: bytes, D, A, OW and the immediate of a store. -/
def storeForm : Instr → Option (Nat × Nat × Nat × Nat × Nat)
  | .stb d a ow _ _ imm => some (1, d, a, ow, imm)
  | .sth d a ow _ _ imm => some (2, d, a, ow, imm)
  | .stw d a ow _ _ imm => some (4, d, a, ow, imm)
  | .std d a ow _ _ imm => some (8, d, a, ow, imm)
  | _ => none

/-- R181: D, A, OW, the immediate, and the new value of an atomic from the old one, b and d; none where nothing is written. -/
def atomicForm (s : State) : Instr → Option (Nat × Nat × Nat × Nat × (Word → Option Word))
  | .aadd d a b ow _ _ imm => some (d, a, ow, imm, fun old => some (exact (old.toNat + (s.sreg b).toNat)))
  | .aand d a b ow _ _ imm => some (d, a, ow, imm, fun old => some (old &&& s.sreg b))
  | .aor d a b ow _ _ imm => some (d, a, ow, imm, fun old => some (old ||| s.sreg b))
  | .axor d a b ow _ _ imm => some (d, a, ow, imm, fun old => some (old ^^^ s.sreg b))
  | .amin d a b ow _ _ imm => some (d, a, ow, imm, fun old => some (exact (min old.toInt (s.sreg b).toInt)))
  | .amax d a b ow _ _ imm => some (d, a, ow, imm, fun old => some (exact (max old.toInt (s.sreg b).toInt)))
  | .aminn d a b ow _ _ imm => some (d, a, ow, imm, fun old => some (exact (min old.toNat (s.sreg b).toNat : Nat)))
  | .amaxn d a b ow _ _ imm => some (d, a, ow, imm, fun old => some (exact (max old.toNat (s.sreg b).toNat : Nat)))
  | .aswap d a b ow _ _ imm => some (d, a, ow, imm, fun _ => some (s.sreg b))
  | .acas d a b ow _ _ imm => some (d, a, ow, imm, fun old => if old = s.sreg d then some (s.sreg b) else none)
  | _ => none

/-- The conditions under which a scalar access of n bytes at key k is performed at once, as far as its state goes: its set(OW) is done, no
`sfetch` has its bytes outstanding (R324), no remote access of the same tile to one of them is still to be performed (R121), and no byte lies
in a word with an uncorrectable error (R468). -/
structure Ready (s : State) (k n ow : Nat) : Prop where
  ordered : s.setDone ow = true
  fetched : awaitFetch k n s = .ok () s
  followed : s.cur < 2048 → s.precedes s.cur (Sparse.get [] s.netOps s.cur) false k n = false
  sound : s.readBad k n = false

/-- R6: n bytes of memory as a number, the byte at the lowest address least significant (R3). -/
def little (s : State) (k : Nat) : Nat → Nat
  | 0 => 0
  | n + 1 => little s k n + (byteAt s (k + n)).toNat * 256 ^ n

end Sys2Proof.Claims

/-- R98 to R101, R115: where an access of a firing core's load or store falls. The own-tile form and the region form of its own logical tile
reach its tile memory below the save frame, and the state is unchanged; an address with a bit above 47 set takes PROTECT with reason 1, a space
that does not exist PROTECT with reason 2 or 3, the save frame in either form PROTECT with reason 7, another tile's region form and the group
windows PROTECT with reason 8, a bit that must be zero PROTECT with reason 9, system space PRIV; an aligned-class access whose address is no
multiple of its size takes MISALIGN; and one of translated space falls where the walk through the root of its region puts it, or takes the
walk's trap. A local atomic reaches the same tile memory, and of translated space takes PROTECT with reason 8. -/
def Obligations.FiringAccess : Prop :=
  ∀ (s : State) (rw : Rw) (n : Nat) (ea : Word), s.cur < 2048 → n ∈ [1, 2, 4, 8] →
    let e := ea.toNat
    let off := e % 2 ^ 19
    let trap (code : Nat) (i1 : Nat) : Stop := .trap { code := code, i0 := ea, i1 := exact i1, i3 := s.regionInfo }
    (e / 2 ^ 19 = 0xF00000000000 / 2 ^ 19 → off + n ≤ 0x7C000 → e % n = 0 →
      checkAccess .loadStore rw n n ea s = .ok (.mem (tileBase s.cur + off)) s) ∧
    (e / 2 ^ 19 = 0xF10000000000 / 2 ^ 19 + s.ltileOf s.cur → s.ltileOf s.cur < 2048 → off + n ≤ 0x7C000 → e % n = 0 →
      checkAccess .loadStore rw n n ea s = .ok (.mem (tileBase s.cur + off)) s) ∧
    (2 ^ 48 ≤ e → checkAccess .loadStore rw n n ea s = .error (trap 5 1) s) ∧
    (2 ^ 47 ≤ e → e < 0xF00000000000 → checkAccess .loadStore rw n n ea s = .error (trap 5 2) s) ∧
    (0xF30000000000 ≤ e → e < 0xF40000000000 → checkAccess .loadStore rw n n ea s = .error (trap 5 3) s) ∧
    (0xF50000000000 ≤ e → e < 2 ^ 48 → checkAccess .loadStore rw n n ea s = .error (trap 5 3) s) ∧
    (0xF40000000000 ≤ e → e < 0xF50000000000 → checkAccess .loadStore rw n n ea s = .error (trap 2 0) s) ∧
    (e / 2 ^ 19 = 0xF00000000000 / 2 ^ 19 → 0x7C000 < off + n → checkAccess .loadStore rw n n ea s = .error (trap 5 7) s) ∧
    (0xF10000000000 ≤ e → e < 0xF20000000000 → e / 2 ^ 19 % 2 ^ 11 ≠ s.ltileOf s.cur →
      checkAccess .loadStore rw n n ea s = .error (trap 5 8) s) ∧
    (0xF10000000000 ≤ e → e < 0xF20000000000 → e / 2 ^ 19 % 2 ^ 11 = s.ltileOf s.cur → e / 2 ^ 30 % 2 ^ 10 ≠ 0 →
      checkAccess .loadStore rw n n ea s = .error (trap 5 9) s) ∧
    (e / 2 ^ 19 = 0xF10000000000 / 2 ^ 19 + s.ltileOf s.cur → s.ltileOf s.cur < 2048 → 0x7C000 < off + n →
      checkAccess .loadStore rw n n ea s = .error (trap 5 7) s) ∧
    (0xF00000000000 ≤ e → e < 0xF10000000000 → e / 2 ^ 19 ≠ 0xF00000000000 / 2 ^ 19 →
      checkAccess .loadStore rw n n ea s = .error (trap 5 9) s) ∧
    (0xF20000000000 ≤ e → e < 0xF30000000000 → checkAccess .loadStore rw n n ea s = .error (trap 5 8) s) ∧
    (e / 2 ^ 19 = 0xF00000000000 / 2 ^ 19 → off + n ≤ 0x7C000 → e % n ≠ 0 →
      checkAccess .loadStore rw n n ea s = .error (trap 3 n) s) ∧
    (e < 2 ^ 47 → e % n ≠ 0 → checkAccess .loadStore rw n n ea s = .error (trap 3 n) s) ∧
    (e < 2 ^ 47 → e % n = 0 → ∀ s1,
      (∀ pl, s.access s.cur (s.regionOf s.cur) e rw false = (.ok pl, s1) → checkAccess .loadStore rw n n ea s = .ok pl s1) ∧
      (∀ c x y, s.access s.cur (s.regionOf s.cur) e rw false = (.error (c, x, y), s1) → checkAccess .loadStore rw n n ea s =
        .error (.trap { code := c, i0 := ea, i1 := x, i2 := y, i3 := s.regionInfo }) s1)) ∧
    (2 ^ 47 ≤ e → checkAccess .localAtomic rw n n ea s = checkAccess .loadStore rw n n ea s) ∧
    (e < 2 ^ 47 → checkAccess .localAtomic rw n n ea s = .error (trap 5 8) s)

/-- R178, R179: a load whose checks reach a memory ends with its bytes, sign- or zero-extended, in D (discarded in s0), every other
register, every byte of memory and everything else as the checks left them; where the bytes lie in a word with an uncorrectable error it
takes ECC_UNCORR with 1, and where its checks fail, their trap. -/
def Obligations.ScalarLoads : Prop :=
  ∀ (i : Instr) (s : State) (n : Nat) (sgn : Bool) (d a ow imm : Nat), i.wf = true → loadForm i = some (n, sgn, d, a, ow, imm) →
    let ea := exact ((s.sreg a).toNat + sx 16 imm)
    (∀ (s1 : State) (k : Nat), checkAccess s.reach .read n n ea s = .ok (.mem k) s1 → s1.wf = true → Ready s1 k n ow →
      ∃ t, exec i s = .next t ∧ WritesS s1 t d (if sgn then exact (sx (8 * n) (little s1 k n)) else exact (little s1 k n)) ∧
        ∀ b, byteAt t b = byteAt s1 b) ∧
    (∀ (s1 : State) (k : Nat), checkAccess s.reach .read n n ea s = .ok (.mem k) s1 → s1.setDone ow = true →
      awaitPlace (.mem k) n s1 = .ok () s1 → s1.readBad k n = true →
      ∃ (s2 : State) (t : Trap), exec i s = .next (s2.takeTrap t) ∧ t.code = 0x16 ∧ t.i0 = ea ∧ t.i1 = 1 ∧ s2 = { s1 with hardErr := s2.hardErr, counted := s2.counted }) ∧
    (∀ (s1 : State) (t : Trap), checkAccess s.reach .read n n ea s = .error (.trap t) s1 → exec i s = .next (s1.takeTrap t))

/-- R178, R179: a store whose checks reach a memory leaves the low bytes of s[D] there, at the address the checks gave, and ends; no
register changes, and no byte outside them but in the firing's undo journal (R42). Model's choices: assumption 9. -/
def Obligations.ScalarStores : Prop :=
  ∀ (i : Instr) (s s1 : State) (n d a ow imm k : Nat), i.wf = true → storeForm i = some (n, d, a, ow, imm) →
    checkAccess s.reach .write n n (exact ((s.sreg a).toNat + sx 16 imm)) s = .ok (.mem k) s1 → s1.wf = true → Ready s1 k n ow →
    s1.myTile.stateLen s1.firingNow.slot ≤ 0x2000 →
    ∃ t, exec i s = .next t ∧ StoresAt s1 t k n ∧ t.core = s1.core.advance ∧ little t k n = (s.sreg d).toNat % 2 ^ (8 * n)

/-- R181: a local atomic whose checks reach a memory writes D with the old value and leaves the function's new value there, or the old
one where `acas` does not write; every other register, and every byte outside the eight but those of the undo journal, is unchanged. -/
def Obligations.LocalAtomics : Prop :=
  ∀ (i : Instr) (s s1 : State) (d a ow imm k : Nat) (f : Word → Option Word), i.wf = true → atomicForm s i = some (d, a, ow, imm, f) →
    checkAccess s.atomicReach .atomic 8 8 (exact ((s.sreg a).toNat + sx 16 imm)) s = .ok (.mem k) s1 → s1.wf = true →
    Ready s1 k 8 ow → s1.myTile.stateLen s1.firingNow.slot ≤ 0x2000 → ¬ (∃ b, k ≤ b ∧ b < k + 8 ∧ inJournal s1 b) →
    ∃ t, exec i s = .next t ∧ StoresAt s1 t k 8 ∧ t.core = { s1.core.advance with s := t.core.s } ∧
      (∀ m, m ≠ d → t.sreg m = s1.sreg m) ∧ t.sreg d = (if d = 0 then 0 else exact (little s1 k 8)) ∧
      little t k 8 = ((f (exact (little s1 k 8))).map BitVec.toNat).getD (little s1 k 8)

/-- R119, R124, R125: a fence of a known object ends, once every operation the core issued is performed at its scope, without an effect but the program
counter's; `owait` ends when its set is performed; `oclr` empties one set and `ojoin` gives one the union of two, o0 staying empty; none
changes any other register or memory. Until then the fence and `owait` wait, the state as it was; a fence of an object that the device does
not know takes PROTECT with reason 10 and the object. Model's choices: assumptions 9, 23, 94. -/
def Obligations.FencesAndOrder : Prop :=
  ∀ (s : State), s.wf = true →
    (∀ a sc, s.knownObject sc (s.sreg a).toNat = true → ∀ i ∈ [Instr.fenceAcq a sc, .fenceRel a sc, .fenceFull a sc],
      (s.noneLive sc = true → exec i s = .next s.advance) ∧ (s.noneLive sc = false → exec i s = .next s)) ∧
    (∀ a sc, s.knownObject sc (s.sreg a).toNat = false → ∀ i ∈ [Instr.fenceAcq a sc, .fenceRel a sc, .fenceFull a sc],
      exec i s = .next (s.takeTrap { code := 5, i0 := 0, i1 := 10, i2 := s.sreg a, i3 := s.regionInfo })) ∧
    (∀ v, 1024 ≤ v → s.knownObject 6 v = false ∧ s.knownObject 8 v = false) ∧ (∀ v, 4096 ≤ v → s.knownObject 9 v = false) ∧
    (∀ v, s.knownObject 8 v = true ↔ v < 1024 ∧ (v = s.hub.node ∨ Sparse.get 0 s.hub.routes v ≠ 0)) ∧
    (∀ ow sc, (s.setDone ow = true → exec (.owait ow sc) s = .next s.advance) ∧ (s.setDone ow = false → exec (.owait ow sc) s = .next s)) ∧
    (∀ om, 0 < om → om < 16 → ∃ t, exec (.oclr om) s = .next t ∧ OnlyCore s t ∧ t.core = { s.core.advance with o := t.core.o } ∧
      ∀ m, m < 16 → t.core.oset m = if m = om then [] else s.core.oset m) ∧
    (∀ d a b, 0 < d → d < 16 → ∃ t, exec (.ojoin d a b) s = .next t ∧ OnlyCore s t ∧ t.core = { s.core.advance with o := t.core.o } ∧
      (∀ m, m < 16 → m ≠ d → t.core.oset m = s.core.oset m) ∧
      ∀ x, x ∈ t.core.oset d ↔ x ∈ s.core.oset a ∨ x ∈ s.core.oset b)

/-- R184, R163: `trap` raises its code with SW, TRAPINFO0 and 1 from its registers; `brk` raises BREAK with its immediate. -/
def Sys2Proof.Claims.SoftwareTraps : Prop :=
  (∀ s a b n, exec (.trap a b n) s = .next (s.takeTrap { code := n, i0 := s.sreg a, i1 := s.sreg b, i2 := 0, i3 := 0, sw := true })) ∧
  ∀ s n, exec (.brk n) s = .next (s.takeTrap { code := 0x19, i0 := exact n, i1 := 0, i2 := 0, i3 := 0, sw := false })

/-- R194: how a trap enters a control core's handler: TRAPCAUSE, TRAPINFO0 to 3 and TRAPPC record it; a nested one halts the core with
CSTAT and the program counter unchanged; else CSTAT's fields move as the rule says and the program counter takes the vector. RPTST and the
register files stay, and no other core, no memory and nothing else changes. -/
def Sys2Proof.Claims.ControlTrapEntry : Prop :=
  ∀ (s : State) (t : Trap), s.wf = true → 2048 ≤ s.cur → t.code < 256 →
    let c := s.core
    let u := s.takeTrap t
    let cause := t.code + (if t.sw then 2 ^ 8 else 0) + c.lvl * 2 ^ 16
    let toS := c.lvl = 0 ∧ c.dlg = 1 ∧ t.code ≠ 2 ∧ t.code ≠ 0x16
    OnlyCore s u ∧
    u.core = { c.settle with
      trapcause := u.core.trapcause, trapinfo0 := t.i0, trapinfo1 := t.i1, trapinfo2 := t.i2, trapinfo3 := t.i3, trappc := c.pc,
      cstat := u.core.cstat, pc := u.core.pc, halted := u.core.halted, pair := none } ∧
    (c.inh = 1 → u.core.trapcause = exact (cause + 2 ^ 17 : Nat) ∧ u.core.halted = true ∧ u.core.cstat = c.cstat ∧ u.core.pc = c.pc) ∧
    (c.inh = 0 → u.core.trapcause = exact cause ∧ u.core.halted = c.halted ∧
      u.core.plv = c.lvl ∧ u.core.pie = c.ie ∧ u.core.ie = 0 ∧ u.core.inh = 1 ∧ u.core.dlg = c.dlg ∧
      (toS → u.core.lvl = 0 ∧ u.core.pc = c.trapbase + 0x200) ∧
      (¬ toS → u.core.lvl = 1 ∧ u.core.pc = c.trapbase))

/-- R196, R194: an interrupt of the lowest enabled pending source enters a running control core that has IE set and INH clear, with code
0, INT and the source in TRAPCAUSE, at TRAPBASE + 0x100 and level M; TRAPPC is the next instruction's address.
Model's choices: assumptions 17, 76. -/
def Obligations.InterruptEntry : Prop :=
  ∀ (s : State) (n src : Nat), s.wf = true → n < 8 → s.takesInterrupt n = true → s.source n = some src → src ≠ 5 →
    let c := s.coreAt (2048 + n)
    ∃ t, exec (.interruptEntry n) s = .next t ∧ (∀ m, m ≠ 2048 + n → t.coreAt m = s.coreAt m) ∧ t = { s with cores := t.cores } ∧
      let u := t.coreAt (2048 + n)
      u.trapcause = exact (2 ^ 9 + src * 2 ^ 10 + c.lvl * 2 ^ 16 : Nat) ∧ u.trappc = c.pc ∧ u.pc = c.trapbase + 0x100 ∧
      u.lvl = 1 ∧ u.plv = c.lvl ∧ u.ie = 0 ∧ u.pie = c.ie ∧ u.inh = 1 ∧ u.dlg = c.dlg ∧ u.s = c.s ∧ u.p = c.p ∧ u.rptst = c.rptst

/-- R197: `tret` continues at TRAPPC with its low bits cleared, LVL from PLV, IE from PIE and INH 0; at level S with PLV M it takes PRIV. -/
def Obligations.TrapReturn : Prop :=
  ∀ (s : State), s.wf = true →
    let c := s.core
    (c.lvl = 0 → c.plv = 1 → exec .tret s = .next (s.takeTrap { code := 2, i0 := word c.ir, i1 := 2 })) ∧
    (¬ (c.lvl = 0 ∧ c.plv = 1) → ∃ t, exec .tret s = .next t ∧ OnlyCore s t ∧
      t.core.pc = exact (c.trappc.toNat / 8 * 8) ∧ t.core.lvl = c.plv ∧ t.core.plv = c.plv ∧ t.core.ie = c.pie ∧ t.core.pie = c.pie ∧
      t.core.inh = 0 ∧ t.core.dlg = c.dlg ∧ t.core = { c.settle with pc := t.core.pc, cstat := t.core.cstat, pair := none })

namespace Sys2Proof.Claims

/-- R161, R165: a system register a core may read, and its value: the core's own registers, the time, the numbers of its place, the current
firing and its actor's declarations, and the numbers of the device. -/
def systemValue (s : State) (n : Nat) : Option Word :=
  let c := s.core
  let f := s.isFiring
  let m := s.atM
  let t := s.tile s.cur
  let a := (t.firing.getD {}).slot
  match n with
  | 0 => some (exact s.cycle)
  | 1 => some (exact s.gtime)
  | 2 => some (if f then exact (s.ltileOf s.cur) else 0)
  | 3 => some (if f then exact s.cur else 0)
  | 4 => some (if f then exact (s.regionOf s.cur) else 0)
  | 5 => some (if f then exact (a + t.aindex a * 2 ^ 8 + t.acopy a * 2 ^ 24 : Nat) else 0)
  | 6 => some (if f then exact (((t.slot a).firing - (t.slot a).k0) % t.phases a (s.modeOf s.cur) : Nat) else 0)
  | 7 => some (if f then exact (t.slot a).firing else 0)
  | 8 => some (if f then exact ((t.slot a).firing / 2 ^ 64 : Nat) else 0)
  | 9 => some (if f then exact (s.modeOf s.cur) else 0)
  | 10 => some (if f then (s.region (s.regionOf s.cur)).seed else s.seedReg)
  | 11 => some (if f then c.fstat else 0)
  | 12 => some (if f then exact (t.fmax a) else 0)
  | 13 => some c.rptst
  | 14 => some c.trapcause
  | 15 => some c.trapinfo0
  | 16 => some c.trapinfo1
  | 17 => some c.trapinfo2
  | 18 => some c.trapinfo3
  | 19 => some c.trappc
  | 20 => if f || !m then none else some c.trapbase
  | 21 => some 3
  | 22 => some (exact (if Config.isB0 then 0xB0 else 0xA0 : Nat))
  | 23 => if f then none else some c.cstat
  | 24 => if f || !m then none else some (exact (s.ipend (s.cur - 2048)))
  | 25 => if f || !m then none else some c.ien
  | 26 => some (if f then 0 else exact (s.cur - 2048))
  | 27 => if f || !m then none else some c.hsave0
  | 28 => if f || !m then none else some c.hsave1
  | 29 => if f || !m then none else some c.hsave2
  | 30 => if f || !m then none else some c.hsave3
  | _ => none

/-- R151, R161, R166, R167: the system register a control core at level M writes, as the core's registers after it. -/
def systemWrite (c : Core) (n : Nat) (x : Word) : Option Core :=
  match n with
  | 13 => some { c with rptst := exact (x.toNat % 128) }
  | 14 => some { c with trapcause := exact (x.toNat % 2 ^ 18) }
  | 15 => some { c with trapinfo0 := x }
  | 16 => some { c with trapinfo1 := x }
  | 17 => some { c with trapinfo2 := x }
  | 18 => some { c with trapinfo3 := x }
  | 19 => some { c with trappc := x }
  | 20 => some { c with trapbase := exact (x.toNat % 2 ^ 48 / 2 ^ 12 * 2 ^ 12) }
  | 23 => some { c with cstat := exact (c.cstat.toNat % 2 + x.toNat % 64 / 2 * 2) }
  | 25 => some { c with ien := x }
  | 27 => some { c with hsave0 := x }
  | 28 => some { c with hsave1 := x }
  | 29 => some { c with hsave2 := x }
  | 30 => some { c with hsave3 := x }
  | _ => none

end Sys2Proof.Claims

/-- R161, R162, R184: `sysr` writes to D the value of a register the core may read, with no store error pending (R193) changes nothing
else, and takes PRIV with 1 where a control core, with 2 where level M is needed. -/
def Sys2Proof.Claims.SystemRead : Prop :=
  ∀ (s : State) (d n : Nat), s.wf = true → d < 32 →
    (∀ x, systemValue s n = some x → (∀ k, (s.coreAt k).storeErr = none) → ∃ t, exec (.sysr d n) s = .next t ∧ WritesS s t d x) ∧
    (s.cur < 2048 → n ∈ [20, 23, 24, 25, 27, 28, 29, 30] →
      exec (.sysr d n) s = .next (s.takeTrap { code := 2, i0 := word s.core.ir, i1 := 1, i3 := exact n })) ∧
    (2048 ≤ s.cur → s.atM = false → n ∈ [20, 24, 25, 27, 28, 29, 30] →
      exec (.sysr d n) s = .next (s.takeTrap { code := 2, i0 := word s.core.ir, i1 := 2, i3 := exact n }))

/-- R151, R161 to R163, R166, R167, R184: `sysw` from a control core at level M writes the register's defined fields and nothing else, LVL
of CSTAT staying; at level S it writes RPTST and TRAPPC alike; from a firing core it writes FSTAT's flags; a write of a register that is
read-only for the core, or reads zero there, is ignored; and one of a register out of the core's reach takes PRIV with 1 where a control core,
with 2 where level M is needed. -/
def Sys2Proof.Claims.SystemWrite : Prop :=
  ∀ (s : State) (a n : Nat), s.wf = true →
    (∀ c, 2048 ≤ s.cur → s.atM = true → systemWrite s.core n (s.sreg a) = some c →
      ∃ t, exec (.sysw a n) s = .next t ∧ OnlyCore s t ∧ t.core = c.advance) ∧
    (2048 ≤ s.cur → s.atM = true → ∃ t, exec (.sysw a 10) s = .next t ∧ t = { s.advance with seedReg := s.sreg a }) ∧
    (s.cur < 2048 → ∃ t, exec (.sysw a 11) s = .next t ∧ OnlyCore s t ∧
      t.core = { s.core.advance with fstat := exact ((s.sreg a).toNat % 128) }) ∧
    (∀ c, 2048 ≤ s.cur → s.atM = false → n = 13 ∨ n = 19 → systemWrite s.core n (s.sreg a) = some c →
      ∃ t, exec (.sysw a n) s = .next t ∧ OnlyCore s t ∧ t.core = c.advance) ∧
    (n ∈ [0, 1, 21, 22] → exec (.sysw a n) s = .next s.advance) ∧
    (2048 ≤ s.cur → n ∈ [2, 3, 4, 5, 6, 7, 8, 9, 11, 12, 26] → exec (.sysw a n) s = .next s.advance) ∧
    (2048 ≤ s.cur → s.atM = true → n = 24 → exec (.sysw a n) s = .next s.advance) ∧
    (2048 ≤ s.cur → s.atM = false → n ∈ [10, 14, 15, 16, 17, 18, 23] → exec (.sysw a n) s = .next s.advance) ∧
    (s.cur < 2048 → n ∈ [2, 3, 4, 5, 6, 7, 8, 9, 10, 12, 13, 14, 15, 16, 17, 18, 19, 26] → exec (.sysw a n) s = .next s.advance) ∧
    (s.cur < 2048 → n ∈ [20, 23, 24, 25, 27, 28, 29, 30] →
      exec (.sysw a n) s = .next (s.takeTrap { code := 2, i0 := word s.core.ir, i1 := 1, i3 := exact n })) ∧
    (2048 ≤ s.cur → s.atM = false → n ∈ [20, 24, 25, 27, 28, 29, 30] →
      exec (.sysw a n) s = .next (s.takeTrap { code := 2, i0 := word s.core.ir, i1 := 2, i3 := exact n }))

/-- R161 to R163, R166, R167, R184: `sysr` and `sysw`. -/
def Obligations.SystemRegisters : Prop := SystemRead ∧ SystemWrite

/-- R185: `sleepc` and `waittick` end at once when CYCLE, or GTIME, has reached the target; until then the core waits at the instruction
and nothing changes but that it notes when its wait began. -/
def Obligations.TimedWaits : Prop :=
  ∀ (s : State) (a imm : Nat), s.wf = true →
    let target : Int := (((s.sreg a).toNat : Int) + sx 22 imm) % (2 ^ 64 : Int)
    (target ≤ s.cycle → exec (.sleepc a imm) s = .next s.advance) ∧
    (target ≤ s.gtime → exec (.waittick a imm) s = .next s.advance) ∧
    (s.cycle < target → ∃ t, exec (.sleepc a imm) s = .next t ∧ OnlyCore s t ∧ t.core = { s.core with waitFrom := t.core.waitFrom }) ∧
    (s.gtime < target → ∃ t, exec (.waittick a imm) s = .next t ∧ OnlyCore s t ∧ t.core = { s.core with waitFrom := t.core.waitFrom })

/-- R186, R194: traps by software, and how a control core takes one. -/
def Obligations.ExceptionEntry : Prop := SoftwareTraps ∧ ControlTrapEntry

namespace Sys2Proof.Claims

/-! ## Firings and arcs -/

/-- Beside flits queued and operations issued, only the current core and the firing of its tile differ between s and t. -/
structure OnlyFiring (s t : State) : Prop where
  cores : ∀ m, m ≠ s.cur → t.coreAt m = s.coreAt m
  tiles : ∀ p, p ≠ s.cur → t.tile p = s.tile p
  own : t.myTile = { s.myTile with firing := t.myTile.firing }
  rest : t = { s with cores := t.cores, tiles := t.tiles, queued := t.queued, entered := t.entered, live := t.live, nextId := t.nextId }
  entered : t.queued = s.queued → t.entered = s.entered

/-- An instruction ended that wrote v register d, by its code, with x: every other register is as before (R226: an error of d's stored
word is gone). -/
structure WritesV (s t : State) (d : Nat) (x : VReg) : Prop where
  value : t.vreg d = x
  others : ∀ n, 32 ≤ n → n ≠ d → t.vreg n = s.vreg n
  rest : t.core = { s.core.advance with v := t.core.v, badReg := s.core.badReg.filter (· ≠ d) }
  frame : OnlyCore s t

/-- The queue of flits at descriptor k. -/
def flits (s : State) (k : Nat) : List Flit := Sparse.get [] s.queued k

/-- The flits in flight from descriptor k, oldest first, with the cycles in which they left and arrive (R20). -/
def inFlight (s : State) (k : Nat) : List Flight := Sparse.get [] s.flight k

/-- R238, R237: whether a read of a token is `wld`, its D, A, B, OW, PORT, its size and its offset operand in bytes. -/
def tokenForm : Instr → Option (Bool × Nat × Nat × Nat × Nat × Nat × Nat × Nat)
  | .wld d a b ow _ _ port sz imm => some (true, d, a, b, ow, port, 64 * 2 ^ sz, 64 * imm)
  | .wlds d a b ow _ _ port sz imm => some (false, d, a, b, ow, port, 2 ^ sz, 2 ^ sz * imm)
  | _ => none

/-- R233: DATA flits that together carry the bytes bs to window offset off, each within one 128-byte block. -/
def carries : List Flit → Nat → List Byte → Prop
  | [], _, bs => bs = []
  | .data o x _ :: fs, off, bs =>
    o = off ∧ x ≠ [] ∧ x = bs.take x.length ∧ (off + x.length - 1) / 128 = off / 128 ∧ carries fs (off + x.length) (bs.drop x.length)
  | _ :: _, _, _ => False

/-- The tokens of output port w that the firing has committed by `wsend`, and those it has written (R239, R240). -/
def sentOf (s : State) (w : Nat) : Nat := (s.firingNow.sent[w - 8]?).getD 0
def highOf (s : State) (w : Nat) : Nat := (s.firingNow.high[w - 8]?).getD 0

/-- The number a list of pairs gives a key; 0 where it names none. -/
def amount (l : List (Nat × Nat)) (k : Nat) : Nat := ((l.find? (fun e => e.1 = k)).map Prod.snd).getD 0

/-- R57: the policy of level 0 or 1 of slot a (R56): IGNORE and RETRY act as KILL_PARENT for a firing with an external effect. -/
def policyOf (t : Tile) (a lvl : Nat) (ext : Bool) : Nat :=
  let pol := t.apol a / 2 ^ (6 * lvl) % 4
  if pol ≤ 1 ∧ ext = true then 3 else pol

/-- R57: the level, 0 or 1, that absorbs a fault of the firing of the current core, and its policy. -/
def absorbs (s : State) (f : Firing) : Option (Nat × Nat) :=
  [0, 1].findSome? (fun lvl =>
    let pol := policyOf s.myTile f.slot lvl (f.ext || f.noRetry)
    if pol = 0 ∨ pol = 2 ∨ (pol = 1 ∧ ((s.myTile.slot f.slot).tries[lvl]?).getD 0 < s.myTile.apol f.slot / 2 ^ (6 * lvl + 2) % 16)
    then some (lvl, pol) else none)

/-- R37: the firing rule of slot a on tile p, with no faulted marker that takes effect first (R63). -/
def canFire (s : State) (p a : Nat) : Prop :=
  let t := s.tile p
  let ph := t.phase a (s.modeOf p)
  let fr := (t.slot a).firing - (t.slot a).k0
  (t.slot a).st = .waiting ∧
  (∀ j, j < 8 → (∀ e ∈ s.shares p 1 a j fr (t.rate a (s.modeOf p) j ph), e.2 ≤ (s.desc e.1).count) ∧
    ∀ e ∈ s.shares p 2 a j fr (t.rate a (s.modeOf p) (j + 8) ph), e.2 ≤ (s.desc e.1).space) ∧
  s.faultedMarker p a = false

/-- R39, R47: a firing of slot a has started on tile p: the core is fresh but for the registers the rule sets. -/
structure Started (s t : State) (p a : Nat) : Prop where
  firing : (t.tile p).firing = some { slot := a, since := s.cycle }
  slot : (t.tile p).slot a = { (s.tile p).slot a with st := .firing, bypass := 0 }
  pc : (t.coreAt p).pc = exact ((s.tile p).entry a ((s.tile p).phase a (s.modeOf p)))
  s1 : (t.coreAt p).sreg 1 = exact ((s.tile p).phase a (s.modeOf p))
  s2 : (t.coreAt p).sreg 2 = exact ((s.tile p).slot a).firing
  s3 : (t.coreAt p).sreg 3 = exact (0xF00000000000 + (s.tile p).privOff a)
  s4 : (t.coreAt p).sreg 4 = exact (s.ltileOf p)
  zeros : ∀ n, 5 ≤ n → (t.coreAt p).sreg n = 0
  rest : t.coreAt p = { pc := (t.coreAt p).pc, s := (t.coreAt p).s }
  cores : ∀ m, m ≠ p → t.coreAt m = s.coreAt m
  tiles : ∀ q, q ≠ p → t.tile q = s.tile q
  others : t = { s with cores := t.cores, tiles := t.tiles, mats := t.mats }

/-- R242, R185: what a bounded wait not yet over does: it notes its beginning and stays, or, its limit past, takes the trap t. -/
def BoundedWait (s : State) (i : Instr) (lim : Nat) (t : Trap) : Prop :=
  (s.core.waitFrom = none → lim ≠ 0 → ∃ u, exec i s = .next u ∧ OnlyCore s u ∧
    u.core = { s.core with waitFrom := some (s.cycle, s.gtime) }) ∧
  (s.core.waitFrom = none → lim = 0 → exec i s = .next (s.takeTrap t)) ∧
  (∀ c g, s.core.waitFrom = some (c, g) → s.cycle - c < lim → exec i s = .next s) ∧
  (∀ c g, s.core.waitFrom = some (c, g) → lim ≤ s.cycle - c → exec i s = .next (s.takeTrap t))

end Sys2Proof.Claims

/-- R238, R237: the checks of a token read: no arc at the port, a token beyond the port's windows or its segment's, or at or past its
segment's marker, takes TOKEN_RANGE; bytes beyond the token WINDOW_OVER; a misaligned address MISALIGN; else the bytes lie in the position
the ring gives the token. R239: those of a token write, in order: no arc, a side port, a token already sent or one from 65,535 on takes
TOKEN_RANGE; bytes beyond the token WINDOW_OVER; an offset that is no multiple of the size, or that does not convert to whole bytes, MISALIGN.
Model's choices: assumption 108. -/
def Obligations.TokenChecks : Prop :=
  ∀ (s : State) (j o n port : Nat),
    let range (bound : Nat) : Stop := .trap { code := 0x0A, i0 := exact port, i1 := exact j, i2 := exact bound }
    (s.wDescs port = [] → writeCheck n o j port s = .error (range 0) s) ∧
    (s.wDescs port ≠ [] →
      let e := s.desc ((s.wDescs port).headD 0)
      let outside : Prop := e.side = true ∨ j < sentOf s port ∨ 65535 ≤ j
      let beyond : Prop := e.size < o + n
      let slanted : Prop := o % min n 64 ≠ 0 ∨ (e.etype ≠ e.ctype ∧
        ¬ (8 * o % elemWidth e.etype = 0 ∧ 8 * n % elemWidth e.etype = 0 ∧ 8 * o / elemWidth e.etype * elemWidth e.ctype % 8 = 0 ∧
          8 * n / elemWidth e.etype * elemWidth e.ctype % 8 = 0))
      (outside → writeCheck n o j port s = .error (range (s.aRate port)) s) ∧
      (¬ outside → beyond → writeCheck n o j port s =
        .error (.trap { code := 0x09, i0 := exact port, i1 := exact o, i2 := exact n, i3 := exact e.size }) s) ∧
      (¬ outside → ¬ beyond → slanted → writeCheck n o j port s = .error (.trap { code := 0x03, i0 := exact o, i1 := exact n }) s) ∧
      (¬ outside → ¬ beyond → ¬ slanted → writeCheck n o j port s = .ok () s)) ∧
    (s.wDescs port = [] → tokenAddr j o n port s = .error (range 0) s) ∧
    (s.wDescs port ≠ [] → s.wCap (s.wDescs port) ≤ j → tokenAddr j o n port s = .error (range (s.wCap (s.wDescs port))) s) ∧
    ∀ k m, s.wDescs port ≠ [] → j < s.wCap (s.wDescs port) → s.wToken port j = some (k, m) →
      let d := s.desc k
      let addr := d.base + (d.rpos + m) % d.cap * d.size + o
      (d.cap ≤ m → tokenAddr j o n port s = .error (range d.cap) s) ∧
      (m < d.cap → d.mark = true → d.count ≤ m → tokenAddr j o n port s = .error (range d.count) s) ∧
      (m < d.cap → (d.mark = true → m < d.count) →
        (d.size < o + n → tokenAddr j o n port s =
          .error (.trap { code := 0x09, i0 := exact port, i1 := exact o, i2 := exact n, i3 := exact d.size }) s) ∧
        (o + n ≤ d.size → addr % min n 64 ≠ 0 →
          tokenAddr j o n port s = .error (.trap { code := 0x03, i0 := exact (0xF00000000000 + addr : Nat), i1 := exact n }) s) ∧
        (o + n ≤ d.size → addr % min n 64 = 0 → tokenAddr j o n port s = .ok (k, m, addr) s))

/-- R238: `wld` and `wlds` of a token that passes its checks end with its bytes in D, zero above them, and change nothing else; a token
beyond the phase's count that its window does not hold yet keeps the instruction waiting, the state as it was; so does a byte that an earlier
`rst` of the firing has still to write (R121, R252). Bytes in error take ECC_UNCORR with their address and 1, counted, and write nothing; a
token that fails its checks takes their trap. Model's choices: assumptions 9, 108. -/
def Obligations.TokenReads : Prop :=
  ∀ (i : Instr) (s : State) (vec : Bool) (d a b ow port n off : Nat), i.wf = true → s.wf = true →
    tokenForm i = some (vec, d, a, b, ow, port, n, off) →
    (∀ t, tokenAddr (s.sreg a).toNat ((s.sreg b).toNat + off) n port s = .error (.trap t) s → exec i s = .next (s.takeTrap t)) ∧
    ∀ k m addr, tokenAddr (s.sreg a).toNat ((s.sreg b).toNat + off) n port s = .ok (k, m, addr) s → s.setDone ow = true →
    let key := tileBase s.cur + addr
    let here : Prop := (s.sreg a).toNat < s.aRate port ∨ m < (s.desc k).count
    (here → awaitPlace (.mem key) n s = .ok () s → s.readBad key n = false →
      ∃ t, exec i s = .next t ∧ (vec = true → WritesV s t d (BitVec.ofNat 2048 (little s key n))) ∧
        (vec = false → WritesS s t d (exact (little s key n)))) ∧
    (here → awaitPlace (.mem key) n s = .ok () s → s.readBad key n = true → ∃ u : State, u = { s with hardErr := u.hardErr, counted := u.counted } ∧
      exec i s = .next (u.takeTrap { code := 0x16, i0 := exact (0xF00000000000 + addr : Nat), i1 := 1, i3 := s.regionInfo })) ∧
    (here → awaitFetch key n s = .ok () s → s.cur < 2048 → s.precedes s.cur (Sparse.get [] s.netOps s.cur) false key n = true →
      exec i s = .next s) ∧
    (¬ here → exec i s = .next s)

/-- R239, R233, R251: a checked `wst` of a token beyond the phase's count raises the port's high mark and sends nothing; one of a token
within it also queues DATA flits that carry its bytes, converted to the window's type, to the token's position, joins its overflows to the
segment's count, and issues its access into OM, once an `mdrain` issued before it to the same token has written (R303); no register changes but
OM. One that fails its checks takes their trap, and one whose v register is in error ECC_UNCORR with the register's code and 4.
Model's choices: assumption 9. -/
def Obligations.TokenWrites : Prop :=
  ∀ (s : State) (d a b ow om sc port sz imm : Nat), (Instr.wst d a b ow om sc port sz imm).wf = true → s.wf = true →
    let vec := decide (32 ≤ d)
    let n := if vec then 64 * 2 ^ sz else 2 ^ sz
    let o := (s.sreg b).toNat + (if vec then 64 * imm else 2 ^ sz * imm)
    let j := (s.sreg a).toNat
    let data := (if vec then (s.vreg d).toNat else (s.sreg d).toNat) % 2 ^ (8 * n)
    (vec = true → s.core.badReg.contains d = true → ∃ u : State, u = { s with hardErr := u.hardErr, counted := u.counted } ∧
      exec (.wst d a b ow om sc port sz imm) s = .next (u.takeTrap { code := 0x16, i0 := exact d, i1 := 4, i3 := s.regionInfo })) ∧
    ((vec = true → s.core.badReg.contains d = false) → ∀ x, writeCheck n o j port s = .error (.trap x) s →
      exec (.wst d a b ow om sc port sz imm) s = .next (s.takeTrap x)) ∧
    ((vec = true → s.core.badReg.contains d = false) → writeCheck n o j port s = .ok () s →
    (s.aRate port ≤ j → ∃ t, exec (.wst d a b ow om sc port sz imm) s = .next t ∧ OnlyFiring s t ∧ t.core = s.core.advance ∧
      t.queued = s.queued ∧ t.live = s.live ∧ t.nextId = s.nextId ∧
      t.myTile.firing = s.myTile.firing.map (fun f => { f with high := f.high.setIfInBounds (port - 8) (max (highOf s port) (j + 1)) })) ∧
    (∀ k m, j < s.aRate port → s.wToken port j = some (k, m) → s.setDone ow = false ∨ s.drainAhead (s.mat s.cur).queue port j = true →
      exec (.wst d a b ow om sc port sz imm) s = .next s) ∧
    ∀ k m q, j < s.aRate port → s.wToken port j = some (k, m) → s.setDone ow = true → s.drainAhead (s.mat s.cur).queue port j = false →
      s.peerKey k = some q →
      let e := s.desc k
      let bs := (convertBytes e.etype e.ctype e.cround (toBytes data n)).1
      let off := (s.desc q).base + (e.wpos + m) % max 1 e.cap * (s.desc q).size +
        (if e.etype = e.ctype then o else 8 * o / elemWidth e.etype * elemWidth e.ctype / 8)
      (flits s k).length + (off % 128 + bs.length + 127) / 128 ≤ 8 →
      ∃ t fs, exec (.wst d a b ow om sc port sz imm) s = .next t ∧ OnlyFiring s t ∧ flits t k = flits s k ++ fs ∧ carries fs off bs ∧
        (∀ x, x ≠ k → flits t x = flits s x) ∧ t.nextId = s.nextId + 1 ∧
        t.core = { s.core.advance with o := t.core.o } ∧
        (∀ x, x < 16 → t.core.oset x = if x = om ∧ om ≠ 0 then s.core.oset om ++ [s.nextId] else s.core.oset x) ∧
        t.myTile.firing = s.myTile.firing.map (fun f => { f with
          high := f.high.setIfInBounds (port - 8) (max (highOf s port) (j + 1)),
          ovf := Sparse.set 0 f.ovf (k % 32) (Sparse.get 0 f.ovf (k % 32) + (convertBytes e.etype e.ctype e.cround (toBytes data n)).2),
          sends := f.sends ++ [(port, s.nextId)] }))

/-- R240: `wsend` of no more than is committed does nothing; of more than the phase declares, or on a side port, or on one no arc joins, it takes
TOKEN_RANGE; else, its set(OW) done, it queues on every segment that gains tokens one POINTER flit with the segment's new WR and its overflow
count, which starts again at 0 (the count carried joins those that side tokens report, R97), sets sent, raises high and marks the firing as
having an external effect. -/
def Obligations.TokenCommit : Prop :=
  ∀ (s : State) (a ow om sc port : Nat), (Instr.wsend a ow om sc port).wf = true → s.wf = true →
    let n := (s.sreg a).toNat
    (s.wDescs port = [] → exec (.wsend a ow om sc port) s =
      .next (s.takeTrap { code := 0x0A, i0 := exact port, i1 := exact n, i2 := 0 })) ∧ (s.wDescs port ≠ [] →
    let side := (s.desc ((s.wDescs port).headD 0)).side
    let gain (k : Nat) : Prop := amount (s.wShares port (sentOf s port)) k < amount (s.wShares port n) k
    (n ≤ sentOf s port → exec (.wsend a ow om sc port) s = .next s.advance) ∧
    (sentOf s port < n → s.aRate port < n ∨ side = true → exec (.wsend a ow om sc port) s =
      .next (s.takeTrap { code := 0x0A, i0 := exact port, i1 := exact n, i2 := exact (s.aRate port) })) ∧
    (sentOf s port < n → n ≤ s.aRate port → side = false → s.setDone ow = false → exec (.wsend a ow om sc port) s = .next s) ∧
    ∀ f, sentOf s port < n → n ≤ s.aRate port → side = false → s.setDone ow = true → s.cur < 2048 → s.myTile.firing = some f →
      ∃ t f', exec (.wsend a ow om sc port) s = .next t ∧ OnlyFiring s t ∧ t.core = { s.core.advance with o := t.core.o } ∧
        (∀ x, x < 16 → t.core.oset x = if x = om ∧ om ≠ 0 then s.core.oset om ++ [s.nextId] else s.core.oset x) ∧
        (∀ k, gain k → flits t k =
          flits s k ++ [.pointer (((s.desc k).wr + amount (s.wShares port n) k) % 2 ^ 32) (Sparse.get 0 f.ovf (k % 32)) (some s.nextId)]) ∧
        (∀ k, ¬ gain k → flits t k = flits s k) ∧
        (∀ k, gain k → Sparse.get 0 f'.ovf (k % 32) = 0 ∧
          Sparse.get 0 f'.ovfSent (k % 32) = Sparse.get 0 f.ovfSent (k % 32) + Sparse.get 0 f.ovf (k % 32)) ∧
        (∀ x, (∀ k, gain k → k % 32 ≠ x) → Sparse.get 0 f'.ovf x = Sparse.get 0 f.ovf x ∧
          Sparse.get 0 f'.ovfSent x = Sparse.get 0 f.ovfSent x) ∧
        t.myTile.firing = some f' ∧ f'.ext = true ∧ f'.sent = f.sent.setIfInBounds (port - 8) n ∧
        f'.high = f.high.setIfInBounds (port - 8) (max (highOf s port) n) ∧ f'.sends = f.sends ++ [(port, s.nextId)] ∧
        f' = { f with ext := true, sent := f'.sent, high := f'.high, sends := f'.sends, ovf := f'.ovf, ovfSent := f'.ovfSent })

/-- R241, R243, R244, R237: `wavail` writes the phase's count, `wfree` the tokens still free to write, `wovf` an overflow count, each zero on
a port no arc joins; `wmode` writes 0 where a token stands behind the phase's tokens, the marker's code where a marker does, and else
waits; `weos` keeps the mode of the marker asked for. Model's choices: assumption 35. -/
def Sys2Proof.Claims.PortValues : Prop :=
  ∀ (s : State) (d port : Nat), s.wf = true → d < 32 → port < 16 →
    let joined (x : Nat) : Word := if s.wDescs port = [] then 0 else exact (x % 2 ^ 32 : Nat)
    (∃ t, exec (.wavail d port) s = .next t ∧ WritesS s t d (joined (s.aRate port))) ∧
    (∃ t, exec (.wfree d port) s = .next t ∧ WritesS s t d (joined (s.aRate port - sentOf s port))) ∧
    (∃ t, exec (.wovf d port) s = .next t ∧ WritesS s t d (joined (if port < 8 then
        min ((s.wDescs port).map (fun k => (s.desc k).ovf)).sum (2 ^ 32 - 1)
      else ((s.wDescs port).map (fun k => Sparse.get 0 s.firingNow.ovf (k % 32))).sum))) ∧
    (s.wDescs port = [] → ∃ t, exec (.wmode d port) s = .next t ∧ WritesS s t d 0) ∧
    (∀ k m, s.wDescs port ≠ [] → s.wToken port (s.aRate port) = some (k, m) →
      let x := s.desc k
      (m < x.count → ∃ t, exec (.wmode d port) s = .next t ∧ WritesS s t d 0) ∧
      (x.count ≤ m → x.mark = true → ∃ t, exec (.wmode d port) s = .next t ∧
        WritesS s t d (exact (0x100 + 8 * (if x.mflt then 1 else 0) + x.mmode : Nat))) ∧
      (x.count ≤ m → x.mark = false → exec (.wmode d port) s = .next s)) ∧
    ∃ t, exec (.weos d) s = .next t ∧ OnlyFiring s t ∧ t.queued = s.queued ∧ t.live = s.live ∧ t.nextId = s.nextId ∧
      t.core = s.core.advance ∧ t.myTile.firing = s.myTile.firing.map (fun f => { f with eos := some ((s.sreg d).toNat % 8) })

/-- R242: `wwait` ends when every segment holds its share of the tokens asked for, `wwaito` when every flit the firing sent on the port
is performed; else the core waits, and after b cycles, at once for b = 0, it takes WAIT_LIMIT with the port, the descriptor and the logical
tile; tokens beyond the capacity of the port or of a segment, or beyond a segment's marker, take TOKEN_RANGE with the tokens that it can hold or
has. Model's choices: assumptions 36, 108. -/
def Sys2Proof.Claims.PortWaits : Prop :=
  ∀ (s : State) (a b port : Nat), s.wf = true →
    let n := (s.sreg a).toNat
    let lim := (s.sreg b).toNat
    let info (k : Nat) : Word := exact (port + 16 * (k % 32) + 2 ^ 16 * s.ltileOf s.cur : Nat)
    let range (bound : Nat) : Trap := { code := 0x0A, i0 := exact port, i1 := exact n, i2 := exact bound }
    (n = 0 → exec (.wwait a b port) s = .next s.advance) ∧
    (n ≠ 0 → s.wDescs port = [] → exec (.wwait a b port) s = .next (s.takeTrap (range 0))) ∧
    (n ≠ 0 → s.wDescs port ≠ [] → s.wCap (s.wDescs port) < n →
      exec (.wwait a b port) s = .next (s.takeTrap (range (s.wCap (s.wDescs port))))) ∧
    (n ≠ 0 → s.wDescs port ≠ [] → n ≤ s.wCap (s.wDescs port) →
      (∀ k m, (s.wShares port n).find? (fun e => decide ((s.desc e.1).cap < e.2 ∨ ((s.desc e.1).mark = true ∧ (s.desc e.1).count < e.2))) =
          some (k, m) → exec (.wwait a b port) s =
        .next (s.takeTrap (range (if (s.desc k).cap < m then (s.desc k).cap else (s.desc k).count)))) ∧
      ((∀ e ∈ s.wShares port n, e.2 ≤ (s.desc e.1).cap ∧ e.2 ≤ (s.desc e.1).count) →
        exec (.wwait a b port) s = .next s.advance) ∧
      ((∀ e ∈ s.wShares port n, e.2 ≤ (s.desc e.1).cap ∧ ((s.desc e.1).mark = true → e.2 ≤ (s.desc e.1).count)) →
        ∀ k m, (s.wShares port n).find? (fun e => decide ((s.desc e.1).count < e.2)) = some (k, m) →
          BoundedWait s (.wwait a b port) lim { code := 0x07, i0 := info k, i1 := exact (s.desc k).rd, i2 := exact (s.desc k).wr, i3 := exact n })) ∧
    ((∀ e ∈ s.firingNow.sends, e.1 = port → s.isLive e.2 = false) → exec (.wwaito b port) s = .next s.advance) ∧
    ((∃ e ∈ s.firingNow.sends, e.1 = port ∧ s.isLive e.2 = true) →
      let k := (s.wDescs port).headD 0
      let wr : Nat := ((s.desc k).wr + amount (s.wShares port (sentOf s port)) k) % 2 ^ 32
      BoundedWait s (.wwaito b port) lim { code := 0x07, i0 := info k, i1 := exact (s.desc k).mrd, i2 := exact wr, i3 := 0 })

/-- R246, R285: `fend` waits for the firing's engine operations; it takes SLOT_STATE where a block is open and RATE where a port's written
tokens differ from its declared count, or where `weos` asked for a marker in an actor with inputs or before the copy's last firing of a period;
else it commits: the firing ends, its slot waits (or is quiescent after `weos`) with the next firing
number and no tries, RD and RPOS of every input segment and WR and WPOS of every output segment move by its share, each sends its RETURN or,
where tokens are still to be committed, its POINTER flit with its overflow count, a side port its side token (R97) before it, and where `weos`
asked for it a MARKER flit behind; the region counts the firing, and no byte of memory changes. -/
def Obligations.FiringEnd : Prop :=
  ∀ (s : State) (f : Firing), s.wf = true → s.cur < 2048 → s.myTile.firing = some f → f.slot < 8 →
    let p := s.cur
    let a := f.slot
    let x := s.myTile.slot a
    (s.engDone = false → exec .fend s = .next s) ∧
    (∀ b tag, s.engDone = true → (s.mat p).openBlock = some (b, tag) → exec .fend s =
      .next (s.takeTrap { code := 0x14, i0 := exact (0x100 + b : Nat), i1 := exact tag, i2 := 1, i3 := 0x1C0A })) ∧
    (∀ k, s.engDone = true → (s.mat p).openBlock = none → k < 8 → s.aRate (k + 8) ≠ highOf s (k + 8) →
      s.wDescs (k + 8) ≠ [] → (s.desc ((s.wDescs (k + 8)).headD 0)).side = false →
      (∀ i, i < k → s.wDescs (i + 8) = [] ∨ (s.desc ((s.wDescs (i + 8)).headD 0)).side = true ∨ s.aRate (i + 8) = highOf s (i + 8)) →
      let info := s.aPhase + 65536 * s.myTile.aindex a
      exec .fend s = .next (s.takeTrap
        { code := 0x08, i0 := exact (8 + k : Nat), i1 := exact (s.aRate (k + 8)), i2 := exact (highOf s (k + 8)), i3 := exact info })) ∧
    (s.engDone = true → (s.mat p).openBlock = none →
      (∀ i, i < 8 → s.wDescs (i + 8) = [] ∨ (s.desc ((s.wDescs (i + 8)).headD 0)).side = true ∨ s.aRate (i + 8) = highOf s (i + 8)) →
      f.eos ≠ none → (s.inDescs p a ≠ [] ∨ s.aFiring % s.myTile.aq a (s.modeOf p) < s.myTile.aq a (s.modeOf p) - s.myTile.arep a) →
      let info := s.aPhase + 16 + 65536 * s.myTile.aindex a
      exec .fend s = .next (s.takeTrap
        { code := 0x08, i0 := 0, i1 := exact (s.myTile.aq a (s.modeOf p)), i2 := exact (s.aFiring + 1 : Nat), i3 := exact info })) ∧
    (s.engDone = true → (s.mat p).openBlock = none →
      (∀ i, i < 8 → s.wDescs (i + 8) = [] ∨ (s.desc ((s.wDescs (i + 8)).headD 0)).side = true ∨ s.aRate (i + 8) = highOf s (i + 8)) →
      (f.eos ≠ none → s.inDescs p a = [] ∧ s.myTile.aq a (s.modeOf p) - s.myTile.arep a ≤ s.aFiring % s.myTile.aq a (s.modeOf p)) →
      ∃ t, exec .fend s = .next t ∧ t.mem = s.mem ∧ t.myTile.firing = none ∧ t.core = {} ∧
        t.myTile.slot a = { x with
          st := if f.eos = none then .waiting else .quiescent
          firing := (x.firing + max 1 (s.myTile.arep a)) % 2 ^ 96
          tries := Vector.replicate 5 0 } ∧
        (∀ b, b < 8 → b ≠ a → t.myTile.slot b = s.myTile.slot b) ∧
        (t.region (s.regionOf p)).firings = (s.region (s.regionOf p)).firings + 1 ∧
        (∀ j e, j < 8 → e ∈ s.wShares j (s.aRate j) → e.2 ≠ 0 →
          (t.desc e.1).rd = ((s.desc e.1).rd + e.2) % 2 ^ 32 ∧ (t.desc e.1).rpos = ((s.desc e.1).rpos + e.2) % max 1 (s.desc e.1).cap ∧
          flits t e.1 = flits s e.1 ++ [.ret (t.desc e.1).rd]) ∧
        ∀ k e, k < 8 → e ∈ s.wShares (k + 8) (s.aRate (k + 8)) →
          let committed := amount (s.wShares (k + 8) (sentOf s (k + 8))) e.1
          let pointers : List Flit := if e.2 ≤ committed then [] else [.pointer (t.desc e.1).wr (Sparse.get 0 f.ovf (e.1 % 32)) none]
          let markers : List Flit := match f.eos with
            | none => []
            | some m => [.marker m false]
          (t.desc e.1).wr = ((s.desc e.1).wr + e.2) % 2 ^ 32 ∧ (t.desc e.1).wpos = ((s.desc e.1).wpos + e.2) % max 1 (s.desc e.1).cap ∧
          ((s.desc e.1).side = false → flits t e.1 = flits s e.1 ++ pointers ++ markers) ∧
          ∀ i q, (s.desc e.1).side = true → s.wToken (k + 8) 0 = some (e.1, i) → s.peerKey e.1 = some q →
            let w := (s.desc e.1).sideof
            let count := ((s.wDescs (w + 8)).map (fun k => Sparse.get 0 f.ovf (k % 32) + Sparse.get 0 f.ovfSent (k % 32))).sum
            ∃ fs, flits t e.1 = flits s e.1 ++ fs ++ pointers ++ markers ∧
              carries fs ((s.desc q).base + ((s.desc e.1).wpos + i) % max 1 (s.desc e.1).cap * (s.desc q).size)
                (toBytes (min count (2 ^ 32 - 1) + w * 2 ^ 32 + x.firing % 2 ^ 64 * 2 ^ 64) 16))

/-- R186, R187, R57, R59, R245: a trap of a firing core, and `fabort` as one with its code, stops the core. While an operation that the firing
issued before it may still trap, the trap waits, and gives way to one earlier in program order; then it latches the fault record, counts the
fault and goes to containment. Where levels 0 and 1 pass it on, the firing stands as it was for the firmware's decision; IGNORE replaces it by a null
firing; RETRY starts it again with the tries counted and the trap registers describing the attempt; KILL_SELF at level 0 stops the copy.
Model's choices: assumptions 43, 79 (the mode of the marker). -/
def Obligations.FiringTrap : Prop :=
  (∀ s a, exec (.fabort a) s = .next (s.takeTrap { code := 0, i0 := s.sreg a, i1 := 0, i2 := 0, i3 := 0, sw := true })) ∧
  ∀ (s : State) (t : Trap) (f : Firing), s.wf = true → s.cur < 2048 → s.myTile.firing = some f → f.slot < 8 → s.aPhase < 16 →
    f.partialPeriod = false →
    let u := s.takeTrap t
    let x := s.myTile.slot f.slot
    let ext := f.ext
    let r := u.myTile.record
    (f.trapped = false → f.fault = none → s.mayTrap s.cur s.nextId = true →
      OnlyFiring s u ∧ u.core = s.core.settle ∧ u.queued = s.queued ∧ u.live = s.live ∧ u.nextId = s.nextId ∧
      u.myTile.firing = some { f with trapped := true, fault := some (s.nextId, s.core.pc, t) }) ∧
    (∀ n pc m pc' t', f.trapped = true → f.fault = some (m, pc', t') → s.mayTrap s.cur (min n m) = true →
      (s.firingTrap n pc t).myTile.firing = some { f with fault := some (if n < m then (n, pc, t) else (m, pc', t')) }) ∧
    (f.trapped = true → f.fault = none → u = s) ∧
    (f.trapped = false → f.fault = none → s.mayTrap s.cur s.nextId = false →
    (r[0] = exact (t.code + (if t.sw then 256 else 0) : Nat) ∧ r[1] = s.core.pc ∧ r[2] = t.i0 ∧ r[3] = t.i1 ∧ r[4] = t.i2 ∧ r[5] = t.i3 ∧
      r[6] = exact x.firing ∧ r[7].toNat % 256 = f.slot + 8 * s.aPhase + (if ext then 128 else 0) ∧
      r[7].toNat / 2 ^ 32 = x.firing / 2 ^ 64 % 2 ^ 32) ∧
    (u.region (s.regionOf s.cur)).faults = (s.region (s.regionOf s.cur)).faults + 1 ∧
    (∀ lvl pol, absorbs s f = some (lvl, pol) → r[7].toNat / 2 ^ 8 % 8 = lvl ∧ r[7].toNat / 2 ^ 11 % 4 = pol) ∧
    (absorbs s f = none → r[7].toNat / 2 ^ 8 % 8 = 7 ∧ u.core = s.core.settle ∧ u.mem = s.mem ∧
      u.myTile = { s.myTile with record := r, firing := some { f with trapped := true, decide := some 2 } }) ∧
    (∀ lvl, absorbs s f = some (lvl, 0) → u.myTile.firing = none ∧
      u.myTile.slot f.slot =
        { x with st := .waiting, firing := (x.firing + max 1 (s.myTile.arep f.slot)) % 2 ^ 96, tries := Vector.replicate 5 0 }) ∧
    (∀ lvl, absorbs s f = some (lvl, 1) → u.myTile.firing = some { slot := f.slot, since := s.cycle } ∧
      u.myTile.slot f.slot =
        { x with st := .firing, bypass := 0, tries := x.tries.setIfInBounds lvl ((x.tries[lvl]?).getD 0 + 1) } ∧
      u.core.pc = exact (s.myTile.entry f.slot s.aPhase) ∧ u.core.trapcause = r[0] ∧ u.core.trappc = r[1] ∧ u.core.trapinfo0 = t.i0 ∧
      u.core.trapinfo1 = t.i1 ∧ u.core.trapinfo2 = t.i2 ∧ u.core.trapinfo3 = t.i3) ∧
    (absorbs s f = some (0, 2) → u.myTile.firing = none ∧ u.myTile.slot f.slot = { x with st := .stopped } ∧
      ∀ k ∈ s.outDescs s.cur f.slot, flits u k = flits s k ++ [.marker 0 true]))

namespace Sys2Proof.Claims

/-- R57: the level from 2 on that takes a firing's fault, and its policy: IGNORE and RETRY act as KILL_PARENT for a partial period and for a
firing with an external effect or an `mmag`; RETRY does once its tries are spent. None where every level passes the fault on. -/
def settles (s : State) (p : Nat) (f : Firing) : Option (Nat × Nat) :=
  [2, 3, 4].findSome? (fun lvl =>
    match (s.region (s.regionOf p)).pol[lvl - 2]? with
    | none => none
    | some (pol, lim) =>
      if pol = 2 then some (lvl, 2)
      else if f.partialPeriod = true ∨ f.ext = true ∨ f.noRetry = true then none
      else if pol = 0 then some (lvl, 0)
      else if pol = 1 ∧ ((((s.tile p).slot f.slot).tries[lvl]?).getD 0) < lim then some (lvl, 1) else none)

/-- R59, R428: the graph instance of region k has ended with a code: its firing cores hold no firing, its slots are unused. -/
structure InstanceEnded (s t : State) (k code : Nat) : Prop where
  ended : (t.region k).ended = some code
  started : (t.region k).started = false
  endG : (s.region k).drainAt = none → (t.region k).endG = s.gtime
  tiles : ∀ q ∈ (s.region k).tiles, (t.tile q).firing = none ∧ ∀ b, b < 8 → ((t.tile q).slot b).st = .unused

/-- A graph instance runs in region k. -/
def Runs (s : State) (k : Nat) : Prop := (s.region k).live = true ∧ (s.region k).started = true ∧ (s.region k).ended = none

/-- R59: stop(l) for levels 2 to 4 of a fault of region g bound to packet b: exactly the instance of g, those of its job, or those of every
job of its queue end; at level 4 the queue accepts no more. -/
structure Stopped (s t : State) (g l code : Nat) (b : Option Binding) : Prop where
  own : InstanceEnded s t g code
  job : l = 3 → ∀ x, b = some x → ∀ k y, Runs s k → (s.region k).bound = some y → y.job = x.job → InstanceEnded s t k code
  queue : l = 4 → ∀ x, b = some x → ∀ k y j z, Runs s k → (s.region k).bound = some y →
    (s.region j).live = true → (s.region j).bound = some z → z.queue = x.queue → y.job = z.job → InstanceEnded s t k code
  others : ∀ k, k ≠ g → (∀ x y, b = some x → (s.region k).bound = some y → l = 2 ∨ (l = 3 ∧ y.job ≠ x.job) ∨ (l = 4 ∧
    ∀ j z, (s.region j).live = true → (s.region j).bound = some z → z.queue = x.queue → y.job ≠ z.job)) → t.region k = s.region k
  closed : ∀ q, l = 4 → b.bind Binding.queue = some q → t.queue q = { s.queue q with stopped := true }
  open_ : ∀ q, l ≠ 4 ∨ b.bind Binding.queue ≠ some q → t.queue q = s.queue q

end Sys2Proof.Claims

/-- R57, R59: a decision above level 1 on the fault of tile p, whose firing waits for level 2, its region holding the policies and limits that
R56 gives it: KILL_SELF with limit 1 at level 2 alone, or those of levels 2, 3 and 4. The first level that does not pass the fault on takes
it, and the record shows that level, 5 where none does: IGNORE replaces the firing by a null one; RETRY starts it again, its tries counted, its
trap registers as recorded; KILL_SELF at levels 2, 3 and 4 ends the region's instance, its job's, or those of its queue's jobs with the
fault's code, level 4 closing the queue; with every level passed, level 4 is stopped and the host error interrupt raised. A tile with no fault
waiting and no frozen stream context anchored there is left as it is. Model's choices: assumptions 48, 60, 64. -/
def Obligations.ContainmentDecision : Prop :=
  (∀ (s : State) (p : Nat), ((s.tile p).firing = none ∨ ∃ f, (s.tile p).firing = some f ∧ f.decide = none) →
    (∀ e ∈ s.ctxs, e.2.st ≠ .frozen) → exec (.containmentDecision p) s = .next s) ∧
  ∀ (s : State) (p : Nat) (f : Firing), s.wf = true → (s.tile p).firing = some f → f.slot < 8 → f.decide = some 2 → f.trapped = true →
    f.fault = none → Runs s (s.regionOf p) →
    (s.region (s.regionOf p)).pol = [(2, 1)] ∨ (s.region (s.regionOf p)).pol.length = 3 ∧ (∀ e ∈ (s.region (s.regionOf p)).pol, e.1 < 4) →
    let g := s.regionOf p
    let x := (s.tile p).slot f.slot
    let code := (s.tile p).record[0].toNat % 256
    let b := (s.region g).bound
    ∃ t, exec (.containmentDecision p) s = .next t ∧
    (∀ lvl, settles s p f = some (lvl, 0) → (t.tile p).firing = none ∧ t.msix = s.msix ∧
      (t.tile p).record[7].toNat / 2 ^ 8 % 8 = lvl ∧ (t.tile p).record[7].toNat / 2 ^ 11 % 4 = 0 ∧
      (t.tile p).slot f.slot =
        { x with st := .waiting, firing := (x.firing + max 1 ((s.tile p).arep f.slot)) % 2 ^ 96, tries := Vector.replicate 5 0 }) ∧
    (∀ lvl, settles s p f = some (lvl, 1) → (t.tile p).firing = some { slot := f.slot, since := s.cycle } ∧ t.msix = s.msix ∧
      (t.tile p).record[7].toNat / 2 ^ 8 % 8 = lvl ∧ (t.tile p).record[7].toNat / 2 ^ 11 % 4 = 1 ∧
      (t.tile p).slot f.slot = { x with st := .firing, bypass := 0, tries := x.tries.setIfInBounds lvl ((x.tries[lvl]?).getD 0 + 1) } ∧
      (t.coreAt p).trapcause = (s.tile p).record[0] ∧ (t.coreAt p).trappc = (s.tile p).record[1]) ∧
    (∀ lvl, settles s p f = some (lvl, 2) → Stopped s t g lvl code b ∧ t.msix = s.msix ∧
      (t.tile p).record[7].toNat / 2 ^ 8 % 8 = lvl ∧ (t.tile p).record[7].toNat / 2 ^ 11 % 4 = 2) ∧
    (settles s p f = none → Stopped s t g 4 code b ∧ t.msix = s.msix ++ [63] ∧
      (t.tile p).record[7].toNat / 2 ^ 8 % 8 = 5 ∧ (t.tile p).record[7].toNat / 2 ^ 11 % 4 = 3)

/-- R45 to R47, R39, R37: on a tile of a running instance with no firing in progress the slot that the scheduler's order names next starts
its firing when its rule holds, and none starts when it does not; in ready-first mode the lowest slot that can fire does. That a bypass count stops at 64 is the model's reading.
Model's choices: assumptions 1, 26. -/
def Sys2Proof.Claims.FiringStarts : Prop :=
  ∀ (s : State) (p : Nat), s.wf = true → p < 2048 →
    (s.tile p).firing = none → s.owner p ≠ none → (s.region (s.regionOf p)).started = true → (s.region (s.regionOf p)).halted = false →
    let t := s.tile p
    (t.readyFirst = false → t.schedLen ≠ 0 →
      let i := t.passOver t.schedLen t.schedPos
      let a := t.schedEntry i
      (canFire s p a → a < 8 → ∃ u, exec (.firingStart p) s = .next u ∧ Started s u p a ∧ (u.tile p).schedPos = i) ∧
      (¬ canFire s p a → ∃ u, exec (.firingStart p) s = .next u ∧ u = { s with tiles := u.tiles } ∧
        u.tile p = { t with schedPos := i } ∧ ∀ q, q ≠ p → u.tile q = s.tile q)) ∧
    (t.readyFirst = true →
      (∀ a, a < 8 → canFire s p a → (∀ b, b < a → ¬ canFire s p b) → (∀ b, b < 8 → (t.slot b).bypass < 64) →
        ∃ u, exec (.firingStart p) s = .next u ∧ Started s u p a ∧
          ∀ b, b < 8 → b ≠ a → canFire s p b → ((u.tile p).slot b).bypass = min 64 ((t.slot b).bypass + 1)) ∧
      ((∀ a, a < 8 → ¬ canFire s p a) → exec (.firingStart p) s = .next s))

/-- R40: a firing whose count has passed FMAX + 1, its slot firing and untrapped, takes FIRING_LIMIT with FMAX and its core's program counter,
the instruction it waits in abandoned: a held `barw` is withdrawn (R273), and nothing else of the tile's operations lost; one that has not, or
that has FMAX 0, goes on. -/
def Sys2Proof.Claims.FiringLimit : Prop :=
  ∀ (s : State) (p : Nat) (f : Firing), p < 2048 → (s.tile p).firing = some f → f.trapped = false →
    ((s.tile p).slot f.slot).st = .firing →
    let m := (s.tile p).fmax f.slot
    let count := f.count0 + (s.cycle - f.since) + 1
    let u := s.abandonWait p
    (m ≠ 0 → m + 1 < count → exec (.firingLimit p) s =
      .next { ({ u with cur := p } : State).takeTrap { code := 0x17, i0 := exact m, i1 := (s.coreAt p).pc } with cur := s.cur }) ∧
    ((s.coreAt p).waitOp = none → u = s) ∧
    (∀ id, s.wf = true → (s.coreAt p).waitOp = some id →
      (∀ o ∈ Sparse.get [] u.netOps p, o.id = id → o.kind ≠ .barw ∧ o.orphan = true) ∧
      (∀ o ∈ Sparse.get [] s.netOps p, o.id ≠ id → o ∈ Sparse.get [] u.netOps p) ∧
      ((∃ o ∈ Sparse.get [] s.netOps p, o.id = id ∧ o.kind = .barw) → u.isLive id = false)) ∧
    (m = 0 ∨ count ≤ m + 1 → exec (.firingLimit p) s = .next s)


/-- R20, R29, R233, R234, R252: the oldest flit of a buffer leaves it, behind those in flight, in a cycle whose slot its arc owns and no flit of
it has used, on a circuit in the cycle after it entered the buffer at the earliest, and arrives as many cycles later as its circuit takes; none
leaves or arrives in another cycle. Arriving, a DATA flit writes its bytes
into the window; a POINTER flit sets WR and adds to OVF, saturating; a MARKER flit sets the marker; a RETURN flit sets MRD at the producer. The
access that a flit bears is performed when the last flit that bears it has arrived. Every other byte, descriptor and queue is unchanged. A
check word in error that a flit covers in part keeps its bytes. Model's choices: assumptions 16, 18, 37, 77, 99. -/
def Obligations.CircuitFlits : Prop :=
  ∀ (s : State) (k q : Nat), s.wf = true → s.peerKey k = some q →
    (∀ f fs d, flits s k = f :: fs → s.leaves k s.cycle = some d → ∃ t, exec (.flitInject k) s = .next t ∧
      t = { s with queued := t.queued, flight := t.flight } ∧ flits t k = fs ∧
      inFlight t k = inFlight s k ++ [{ left := s.cycle, due := s.cycle + d, flit := f }] ∧
      ∀ x, x ≠ k → flits t x = flits s x ∧ inFlight t x = inFlight s x) ∧
    (flits s k = [] ∨ s.leaves k s.cycle = none → exec (.flitInject k) s = .next s) ∧
    (endOf k = endOf q → s.leaves k s.cycle = some 0) ∧
    (endOf k ≠ endOf q →
      ((∃ f ∈ inFlight s k, f.left = s.cycle) ∨ (flits s k).length ≤ countOf s.entered k s.cycle → s.leaves k s.cycle = none) ∧
      ((∀ f ∈ inFlight s k, f.left ≠ s.cycle) → countOf s.entered k s.cycle < (flits s k).length →
        ∀ d, s.leaves k s.cycle = some d ↔ ∃ x, (s.ownRoutes k (endOf k) (endOf q)).find? (fun l => s.cycle % l.mod == l.cls) = some x ∧
          x.cycles = d)) ∧
    (∀ l due f fs, inFlight s k = ⟨l, due, f⟩ :: fs → s.cycle < due →
      ∀ i ∈ [Instr.dataFlit k, .pointerFlit k, .markerFlit k, .returnFlit k], exec i s = .next s) ∧
    (∀ l due off bs op fs, inFlight s k = ⟨l, due, .data off bs op⟩ :: fs → due ≤ s.cycle →
      s.writeBad (winBase q + off) bs.length = false → ∃ t, exec (.dataFlit k) s = .next t ∧ t = { s with mem := t.mem, bad := t.bad, flight := t.flight, live := t.live } ∧
        inFlight t k = fs ∧ (∀ x, x ≠ k → inFlight t x = inFlight s x) ∧
        (∀ i, i < bs.length → byteAt t (winBase q + off + i) = bs[i]?.getD 0) ∧
        (∀ x, (x < winBase q + off ∨ winBase q + off + bs.length ≤ x) → byteAt t x = byteAt s x) ∧
        (∀ id, t.isLive id = (s.isLive id && (op != some id || t.bearsOp id)))) ∧
    (∀ l due off bs op fs, inFlight s k = ⟨l, due, .data off bs op⟩ :: fs → due ≤ s.cycle →
      s.writeBad (winBase q + off) bs.length = true → ∃ t, exec (.dataFlit k) s = .next t ∧ inFlight t k = fs ∧
        (∀ i, i < bs.length →
          let w := (winBase q + off + i) / 8 * 8
          byteAt t (winBase q + off + i) = if s.bad.contains w = true ∧ ¬ (winBase q + off ≤ w ∧ w + 8 ≤ winBase q + off + bs.length)
            then byteAt s (winBase q + off + i) else bs[i]?.getD 0) ∧
        ∀ x, (x < winBase q + off ∨ winBase q + off + bs.length ≤ x) → byteAt t x = byteAt s x) ∧
    (∀ l due wr ovf op fs, inFlight s k = ⟨l, due, .pointer wr ovf op⟩ :: fs → due ≤ s.cycle → s.discards q = false → ∃ t, exec (.pointerFlit k) s = .next t ∧
      t = { s with descs := t.descs, flight := t.flight, live := t.live } ∧ inFlight t k = fs ∧
      t.desc q = { s.desc q with wr := wr % 2 ^ 32, ovf := min ((s.desc q).ovf + ovf) (2 ^ 32 - 1) } ∧
      (∀ x, x ≠ q → t.desc x = s.desc x) ∧ ∀ id, t.isLive id = (s.isLive id && (op != some id || t.bearsOp id))) ∧
    (∀ l due wr ovf op fs, inFlight s k = ⟨l, due, .pointer wr ovf op⟩ :: fs → due ≤ s.cycle → s.discards q = true → ∃ t, exec (.pointerFlit k) s = .next t ∧
      (t.desc q).count = 0) ∧
    (∀ l due mode flt fs, inFlight s k = ⟨l, due, .marker mode flt⟩ :: fs → due ≤ s.cycle → s.discards q = true → ∃ t,
      exec (.markerFlit k) s = .next t ∧ t = { s with flight := t.flight } ∧ inFlight t k = fs) ∧
    (∀ l due mode flt fs, inFlight s k = ⟨l, due, .marker mode flt⟩ :: fs → due ≤ s.cycle → s.discards q = false → ∃ t, exec (.markerFlit k) s = .next t ∧
      t = { s with descs := t.descs, flight := t.flight } ∧ inFlight t k = fs ∧
      t.desc q = { s.desc q with mark := true, mmode := mode % 8, mflt := flt } ∧ ∀ x, x ≠ q → t.desc x = s.desc x) ∧
    ∀ l due rd fs, inFlight s k = ⟨l, due, .ret rd⟩ :: fs → due ≤ s.cycle → ∃ t, exec (.returnFlit k) s = .next t ∧
      t = { s with descs := t.descs, flight := t.flight } ∧ inFlight t k = fs ∧ t.desc q = { s.desc q with mrd := rd % 2 ^ 32 } ∧
      ∀ x, x ≠ q → t.desc x = s.desc x

/-- R61 to R63, R248: at phase 0 with an unfaulted marker at the head of every input, a waiting slot removes the markers, sends one of the
highest mode on every output and becomes QUIESCENT; a partial period is recorded as RATE with its port and phase and counted, once no firing is
in progress on the tile; a faulted marker that takes effect makes the slot send faulted markers, empty its inputs and become QUIESCENT. A slot
whose partial period awaits its decision does none of this. Model's choices: assumptions 34, 40, 78, 79. -/
def Obligations.Markers : Prop :=
  ∀ (s : State) (p a : Nat), s.wf = true → p < 2048 → a < 8 → ((s.tile p).slot a).st = .waiting →
    (s.region (s.regionOf p)).halted = false →
    let ph := (s.tile p).phase a (s.modeOf p)
    ((s.tile p).undecided a = true → exec (.markerForward (8 * p + a)) s = .next s ∧ exec (.faultedMarkerEffect (8 * p + a)) s = .next s) ∧
    ((s.tile p).undecided a = false →
    (s.inPorts p a ≠ [] → s.faultedMarker p a = false → ph = 0 → (∀ j ∈ s.inPorts p a, s.cleanMarker p a j = true) →
      ∃ t, exec (.markerForward (8 * p + a)) s = .next t ∧ t.mem = s.mem ∧ t.cores = s.cores ∧
        t.tile p = (s.tile p).setSlot a { (s.tile p).slot a with st := .quiescent } ∧
        (∀ k ∈ s.outDescs p a, flits t k = flits s k ++ [.marker (((s.inDescs p a).map (fun k => (s.desc k).mmode)).foldl max 0) false]) ∧
        (∀ k, k ∉ s.outDescs p a → flits t k = flits s k) ∧
        (∀ k ∈ s.inDescs p a, t.desc k = { s.desc k with mark := false, mmode := 0, mflt := false }) ∧
        ∀ k, k ∉ s.inDescs p a → t.desc k = s.desc k) ∧
    (∀ j, s.inPorts p a ≠ [] → s.faultedMarker p a = false → ph ≠ 0 → s.partialPort p a = some j → (s.tile p).firing ≠ none →
      exec (.markerForward (8 * p + a)) s = .next s) ∧
    (∀ j, s.inPorts p a ≠ [] → s.faultedMarker p a = false → ph ≠ 0 → s.partialPort p a = some j → (s.tile p).firing = none →
      ∃ t, exec (.markerForward (8 * p + a)) s = .next t ∧
        (t.tile p).record[0] = 8 ∧ (t.tile p).record[2] = exact j ∧ (t.tile p).record[3] = exact ph ∧
        (t.region (s.regionOf p)).faults = (s.region (s.regionOf p)).faults + 1) ∧
    (s.faultedMarker p a = true → ∃ t, exec (.faultedMarkerEffect (8 * p + a)) s = .next t ∧ t.mem = s.mem ∧ t.cores = s.cores ∧
      t.tile p = (s.tile p).setSlot a { (s.tile p).slot a with st := .quiescent } ∧
      (∀ k ∈ s.outDescs p a, flits t k = flits s k ++ [.marker 0 true]) ∧
      ∀ k ∈ s.inDescs p a, (t.desc k).count = 0))

/-- R36, R39, R40, R46: how a firing starts, and what ends one that passes its limit. -/
def Obligations.FiringStart : Prop := FiringStarts ∧ FiringLimit

/-- R242 to R244: the values and the waits of a port. -/
def Obligations.TokenPorts : Prop := PortValues ∧ PortWaits

namespace Sys2Proof.Claims

/-! ## The vector engine -/

/-- R142, R204: element k, of width w, of the register a code names; an s register gives its low bits to every element. -/
def lane (s : State) (w code k : Nat) : Nat :=
  if code < 32 then (s.sreg code).toNat % 2 ^ w else (s.vreg code).toNat / 2 ^ (w * k) % 2 ^ w

/-- R68: the same as an integer of a type. -/
def element (s : State) (ty code k : Nat) : Int :=
  if ty = 0 ∨ ty = 1 ∨ ty = 3 ∨ ty = 5 then sx (elemWidth ty) (lane s (elemWidth ty) code k) else (lane s (elemWidth ty) code k : Nat)

/-- The same as an exact value (R70 to R72). -/
def valueOf (s : State) (ty code k : Nat) : Machine.Num := decodeTy ty (lane s (elemWidth ty) code k)

/-- R69: an integer modulo 2^w. -/
def modulo (w : Nat) (n : Int) : Nat := (n % (2 ^ w : Nat)).toNat

/-- R68: the least and the greatest value of an integer type. -/
def least (ty : Nat) : Int := if ty = 0 ∨ ty = 1 ∨ ty = 3 ∨ ty = 5 then -(2 ^ (elemWidth ty - 1) : Nat) else 0
def greatest (ty : Nat) : Int := if ty = 0 ∨ ty = 1 ∨ ty = 3 ∨ ty = 5 then (2 ^ (elemWidth ty - 1) : Nat) - 1 else (2 ^ elemWidth ty : Nat) - 1

/-- R202: the mask bit that governs element k of width w. -/
def governs (w k : Nat) : Nat := if w = 32 then 2 * k else if w = 16 then k else if w = 8 then k / 2 else k / 4

/-- What an instruction that writes elements gives them: its D, the width of its elements, its governing mask, the codes of the registers
it reads, its rounding code, and the value and the flags of each element. -/
structure LaneForm where
  d : Nat
  w : Nat
  m : Nat
  /-- How many elements it writes, where they are all active. -/
  n : Nat := 2048 / w
  reads : List Nat
  rnd : Nat := 0
  value : Nat → Nat
  flags : Nat → Nat := fun _ => 0

/-- Whether element k is active in s. -/
def LaneForm.on (F : LaneForm) (s : State) (k : Nat) : Bool := (s.mreg F.m).getLsbD (governs F.w k)

/-- The union of the flags of the active elements. -/
def LaneForm.raised (F : LaneForm) (s : State) : Nat :=
  (List.range (2048 / F.w)).foldl (fun acc k => if F.on s k then acc ||| F.flags k else acc) 0

/-- No register that is read holds an uncorrectable error (R226). -/
def LaneForm.readable (F : LaneForm) (s : State) : Prop := ∀ c ∈ F.reads, s.core.badReg.contains c = false

/-- R202, R203, R226: an instruction ended that wrote the active elements of D and kept the others, an error of its stored word gone where it
wrote them all; it joined the active elements' flags to
FSTAT (R83) and counted a draw under RSS (R82); every other register and everything else is as before. -/
structure LanesWritten (F : LaneForm) (s t : State) : Prop where
  lane : ∀ k, k < 2048 / F.w → lane t F.w F.d k = if F.on s k then F.value k % 2 ^ F.w else lane s F.w F.d k
  others : ∀ n, 32 ≤ n → n ≠ F.d → t.vreg n = s.vreg n
  fstat : t.core.fstat = if s.cur < 2048 then s.core.fstat ||| exact (F.raised s % 128 : Nat) else s.core.fstat
  draws : t.core.draws = if F.rnd = 5 then s.core.draws + 1 else s.core.draws
  bad : t.core.badReg = if (List.range (2048 / F.w)).all (fun k => F.on s k && decide (k < F.n)) then s.core.badReg.filter (· ≠ F.d)
    else s.core.badReg
  rest : t.core = { s.core.advance with v := t.core.v, badReg := t.core.badReg, fstat := t.core.fstat, draws := t.core.draws }
  frame : OnlyCore s t

/-- An instruction does what its form says: its elements, or ECC_UNCORR of the first register that cannot be read. -/
def DoesLanes (F : LaneForm) (i : Instr) (s : State) : Prop :=
  (F.readable s → ∃ t, exec i s = .next t ∧ LanesWritten F s t) ∧
  ∀ c, F.reads.find? (fun c => s.core.badReg.contains c) = some c → exec i s = .next ((s.countHard (dieOf s.cur) 4).takeTrap
    { code := 0x16, i0 := exact (if 64 ≤ c then c - 64 else c : Nat), i1 := 4, i3 := s.regionInfo })

/-- R207, R88: the functions of MAJ 0x40. -/
def integerForm (s : State) (i : Instr) : Option LaneForm :=
  let two (d a b ty m : Nat) (f : Int → Int → Int) : Option LaneForm :=
    some { d := d, w := elemWidth ty, m := m, reads := readsOf m [a, b],
           value := fun k => modulo (elemWidth ty) (f (element s ty a k) (element s ty b k)) }
  let one (d a ty m : Nat) (f : Int → Int) : Option LaneForm :=
    some { d := d, w := elemWidth ty, m := m, reads := readsOf m [a], value := fun k => modulo (elemWidth ty) (f (element s ty a k)) }
  let held (d a b ty m : Nat) (f : Int → Int → Int) : Option LaneForm :=
    some { d := d, w := elemWidth ty, m := m, reads := readsOf m [a, b],
           value := fun k => modulo (elemWidth ty) (max (least ty) (min (greatest ty) (f (element s ty a k) (element s ty b k)))),
           flags := fun k => let x := f (element s ty a k) (element s ty b k); if least ty ≤ x ∧ x ≤ greatest ty then 0 else 32 }
  match i with
  | .vadd d a b ty m => two d a b ty m (fun x y => x + y)
  | .vsub d a b ty m => two d a b ty m (fun x y => x - y)
  | .vmul d a b ty m => two d a b ty m (fun x y => x * y)
  | .vmulh d a b ty m => two d a b ty m (fun x y => x * y / (2 ^ elemWidth ty : Nat))
  | .vmin d a b ty m | .vminn d a b ty m => two d a b ty m min
  | .vmax d a b ty m | .vmaxn d a b ty m => two d a b ty m max
  | .vabs d a ty m => one d a ty m (fun x => (x.natAbs : Int))
  | .vneg d a ty m => one d a ty m (fun x => -x)
  | .vadds d a b ty m => held d a b ty m (fun x y => x + y)
  | .vsubs d a b ty m => held d a b ty m (fun x y => x - y)
  | _ => none

/-- R208: the shifts of MAJ 0x41, by the low log2 w bits of the element of B. -/
def shiftForm (s : State) (i : Instr) : Option LaneForm :=
  let of (d a b ty m : Nat) (f : Nat → Nat → Int) : Option LaneForm :=
    let w := elemWidth ty
    some { d := d, w := w, m := m, reads := readsOf m [a, b], value := fun k => modulo w (f (lane s w a k) (lane s w b k % w)) }
  match i with
  | .vshl d a b ty m => of d a b ty m (fun x n => (x * 2 ^ n : Nat))
  | .vshr d a b ty m => of d a b ty m (fun x n => (x / 2 ^ n : Nat))
  | .vsra d a b ty m => of d a b ty m (fun x n => sx (elemWidth ty) x / (2 ^ n : Nat))
  | _ => none

/-- R208, R209, R204: D, the mask, the registers read, and bit i of the result of a function of MAJ 0x41 without TYPE. -/
def bitForm (s : State) (i : Instr) : Option (Nat × Nat × List Nat × (Nat → Bool)) :=
  let bit (code j : Nat) : Bool := if code < 32 then (s.sreg code).toNat.testBit (j % 32) else (s.vreg code).getLsbD j
  let two (d a b m : Nat) (f : Bool → Bool → Bool) : Option (Nat × Nat × List Nat × (Nat → Bool)) :=
    some (d, m, readsOf m [a, b], fun j => f (bit a j) (bit b j))
  match i with
  | .vand d a b m => two d a b m (fun x y => x && y)
  | .vor d a b m => two d a b m (fun x y => x || y)
  | .vxor d a b m => two d a b m xor
  | .vandn d a b m => two d a b m (fun x y => x && !y)
  | .vlop4 d a b c thi m tlo => some (d, m, readsOf m [a, b, c, d], fun j =>
      (thi * 2 ^ 12 + tlo).testBit (8 * (bit a j).toNat + 4 * (bit b j).toNat + 2 * (bit c j).toNat + (bit d j).toNat))
  | _ => none

/-- R210 to R212, R86: the functions of MAJ 0x42 and 0x43 that compute a value: exact, and rounded once to the type (R77). -/
def floatForm (s : State) (i : Instr) : Option LaneForm :=
  let of (d ty m rnd : Nat) (ops : List Nat) (f : Nat → Machine.Num × Nat) : Option LaneForm :=
    some { d := d, w := elemWidth ty, m := m, reads := readsOf m ops, rnd := rnd, value := fun k => (s.deliver ty rnd k (f k)).1,
           flags := fun k => (s.deliver ty rnd k (f k)).2 }
  let x (ty code k : Nat) : Machine.Num := valueOf s ty code k
  match i with
  | .vfadd d a b ty m rnd => of d ty m rnd [a, b] (fun k => Num.sum rnd [x ty a k, x ty b k])
  | .vfsub d a b ty m rnd => of d ty m rnd [a, b] (fun k => Num.sum rnd [x ty a k, (x ty b k).neg])
  | .vfmul d a b ty m rnd => of d ty m rnd [a, b] (fun k => (x ty a k).mul (x ty b k))
  | .vffma d a b c ty m rnd => of d ty m rnd [a, b, c] (fun k => fusedSum rnd ((x ty a k).mul (x ty b k)) false (x ty c k))
  | .vffms d a b c ty m rnd => of d ty m rnd [a, b, c] (fun k => fusedSum rnd ((x ty a k).mul (x ty b k)) false (x ty c k).neg)
  | .vffnma d a b c ty m rnd => of d ty m rnd [a, b, c] (fun k => fusedSum rnd ((x ty a k).mul (x ty b k)) true (x ty c k))
  | .vdot2 d a b ty m rnd =>
    let p (k j : Nat) : Machine.Num × Nat := (x ty a (2 * k + j)).mul (x ty b (2 * k + j))
    (of d 12 m rnd [a, b, d] (fun k =>
      let t := Num.sum rnd [x 12 d k, (p k 0).1, (p k 1).1]
      (t.1, (p k 0).2 ||| (p k 1).2 ||| t.2)))
  | .vfdiv d a b ty m rnd => of d ty m rnd [a, b] (fun k => (x ty a k).div (x ty b k))
  | .vfsqrt d a ty m rnd => of d ty m rnd [a] (fun k => (x ty a k).sqrt)
  | .vfrcp d a ty m rnd => of d ty m rnd [a] (fun k => (Num.fin false 1 0 false).div (x ty a k))
  | .vfrsqrt d a ty m rnd => of d ty m rnd [a] (fun k => (x ty a k).rsqrt)
  | .vfexp2 d a ty m rnd => of d ty m rnd [a] (fun k => (x ty a k).exp2)
  | .vflog2 d a ty m rnd => of d ty m rnd [a] (fun k => (x ty a k).log2)
  | .vscale d a b ty m rnd => of d ty m rnd [a, b] (fun k => scaleNum (x ty a k) (sx (elemWidth ty) (lane s (elemWidth ty) b k)))
  | _ => none

/-- R86, R210, R212: the floating functions that deliver bits: minimum and maximum, sign changes, and the class of an element. -/
def floatBitsForm (s : State) (i : Instr) : Option LaneForm :=
  let of (d ty m : Nat) (ops : List Nat) (f : Nat → Nat) : Option LaneForm :=
    some { d := d, w := elemWidth ty, m := m, reads := readsOf m ops, value := f }
  let x (ty code k : Nat) : Nat := lane s (elemWidth ty) code k
  let pick (first : Bool) (ty a b k : Nat) : Nat :=
    if (valueOf s ty a k).isNan then (if (valueOf s ty b k).isNan then (fmtOf ty).nan else x ty b k)
    else if (valueOf s ty b k).isNan || first then x ty a k else x ty b k
  let cls (ty a k : Nat) : Nat :=
    match valueOf s ty a k with
    | .nan => 8
    | .inf true => 0
    | .inf false => 7
    | .fin neg n _ _ => if n = 0 then (if neg then 3 else 4) else if n < 2 ^ (fmtOf ty).f then (if neg then 2 else 5) else if neg then 1 else 6
  match i with
  | .vfmin d a b ty m _ => of d ty m [a, b] (fun k => pick (!((valueOf s ty b k).below (valueOf s ty a k))) ty a b k)
  | .vfmax d a b ty m _ => of d ty m [a, b] (fun k => pick (!((valueOf s ty a k).below (valueOf s ty b k))) ty a b k)
  | .vfabs d a ty m _ => of d ty m [a] (fun k => if (valueOf s ty a k).isNan then (fmtOf ty).nan else x ty a k % 2 ^ (elemWidth ty - 1))
  | .vfneg d a ty m _ => of d ty m [a] (fun k => if (valueOf s ty a k).isNan then (fmtOf ty).nan else x ty a k + 2 ^ (elemWidth ty - 1))
  | .vfclass d a ty m _ => of d ty m [a] (fun k => 2 ^ cls ty a k)
  | _ => none

/-- R213: the conversions: the source element that each of the first N elements converts, and N. -/
def convertForm (s : State) (i : Instr) : Option LaneForm :=
  let of (d td m rnd ts : Nat) (ops : List Nat) (n : Nat) (src : Nat → Nat) : Option LaneForm :=
    some { d := d, w := elemWidth td, m := m, n := n, reads := readsOf m ops, rnd := rnd,
           value := fun k => if k < n then (s.conv td ts rnd k (src k)).1 else lane s (elemWidth td) d k,
           flags := fun k => if k < n then (s.conv td ts rnd k (src k)).2 else 0 }
  match i with
  | .vcvt d a td m rnd ts => of d td m rnd ts [a] (2048 / max (elemWidth td) (elemWidth ts)) (lane s (elemWidth ts) a)
  | .vpack d a b td m rnd ts =>
    let n := 2048 / elemWidth ts
    of d td m rnd ts [a, b] (2 * n) (fun k => if k < n then lane s (elemWidth ts) a k else lane s (elemWidth ts) b (k - n))
  | .vunpack d a td m rnd ts h =>
    let n := 2048 / elemWidth td
    of d td m rnd ts [a] n (fun k => lane s (elemWidth ts) a (k + h * n))
  | _ => none

/-- R218: the element moves. -/
def moveForm (s : State) (i : Instr) : Option LaneForm :=
  let of (d ty m : Nat) (reads : List Nat) (f : Nat → Nat → Nat) : Option LaneForm :=
    some { d := d, w := elemWidth ty, m := m, reads := reads, value := f (elemWidth ty) }
  match i with
  | .vperm d a b ty m => of d ty m (readsOf m [a, b]) (fun w k => lane s w a (lane s w b k % elems ty))
  | .vbcast d a ty m j => of d ty m (readsOf m [a]) (fun w _ => lane s w a j)
  | .vins d a b ty m j => some { d := d, w := elemWidth ty, m := m, n := 1, reads := readsOf m [], value := fun k =>
      if k = ((s.sreg b).toNat + j) % elems ty then lane s (elemWidth ty) a 0 else lane s (elemWidth ty) d k }
  | .vslide d a b ty m j => of d ty m (readsOf m [a, b]) (fun w k =>
      if k + j < elems ty then lane s w a (k + j) else lane s w b (k + j - elems ty))
  | .vsel d a b ty m => of d ty 0 (readsOf m [a, b]) (fun w k => if (s.mreg m).getLsbD (governs w k) then lane s w a k else lane s w b k)
  | .vmov d a ty m => of d ty m (readsOf m [a]) (fun w k => lane s w a k)
  | .vcompress d a ty m => of d ty 0 (readsOf m [a]) (fun w k =>
      ((((List.range (elems ty)).filter (fun e => (s.mreg m).getLsbD (governs w e))).map (lane s w a))[k]?).getD 0)
  | _ => none

/-- R216: the compares: D, width, mask, registers read, and the truth and the flags of element k. -/
def compareForm (s : State) (i : Instr) : Option (Nat × Nat × Nat × List Nat × (Nat → Bool) × (Nat → Nat)) :=
  let rel (r : Nat) (lt eq : Bool) : Bool :=
    match r with
    | 0 => eq
    | 1 => !eq
    | 2 => lt
    | 3 => lt || eq
    | 4 => !lt && !eq
    | _ => !lt
  match i with
  | .vcmp d a b ty m _ r => some (d, elemWidth ty, m, readsOf m [a, b], fun k =>
      rel r (decide (element s ty a k < element s ty b k)) (decide (element s ty a k = element s ty b k)), fun _ => 0)
  | .vfcmp d a b ty m _ r =>
    let nan (k : Nat) : Bool := (valueOf s ty a k).isNan || (valueOf s ty b k).isNan
    let c (k : Nat) : Int := (valueOf s ty a k).cmp (valueOf s ty b k)
    some (d, elemWidth ty, m, readsOf m [a, b], fun k => if nan k then r == 1 else rel r (decide (c k < 0)) (decide (c k = 0)),
      fun k => if nan k && decide (2 ≤ r) then 1 else 0)
  | _ => none

/-- An instruction ended that wrote mask d with x; m0 stays all ones (R140). -/
structure WritesM (s t : State) (d : Nat) (x : MReg) : Prop where
  value : t.mreg d = if d = 0 then BitVec.allOnes 128 else x
  others : ∀ n, n ≠ d → t.mreg n = s.mreg n
  rest : t.core = { s.core.advance with m := t.core.m, badReg := if d = 0 then s.core.badReg else s.core.badReg.filter (· ≠ 64 + d) }
  frame : OnlyCore s t

/-- An instruction ended that wrote s register d with x and joined flags to FSTAT. -/
structure WritesSF (s t : State) (d : Nat) (x : Word) (flags : Nat) : Prop where
  value : t.sreg d = if d = 0 then 0 else x
  others : ∀ n, n ≠ d → t.sreg n = s.sreg n
  fstat : t.core.fstat = if s.cur < 2048 then s.core.fstat ||| exact (flags % 128 : Nat) else s.core.fstat
  rest : t.core = { s.core.advance with s := t.core.s, fstat := t.core.fstat }
  frame : OnlyCore s t

/-- R217: the masks a function of MAJ 0x46 reads, its D, and its value. -/
def maskForm (s : State) : Instr → Option (List Nat × Nat × MReg)
  | .mand d a b => some ([a, b], d, s.mreg a &&& s.mreg b)
  | .mor d a b => some ([a, b], d, s.mreg a ||| s.mreg b)
  | .mxor d a b => some ([a, b], d, s.mreg a ^^^ s.mreg b)
  | .mnot d a => some ([a], d, ~~~(s.mreg a))
  | _ => none

/-- R93: the tree over 2^n leaves, halves combined at each node: a node with one child passes it up, one with none is empty; a value is
carried with the flags of the nodes below it. -/
def tree (f : Nat → Nat → Nat × Nat) : Nat → List (Option (Nat × Nat)) → Option (Nat × Nat)
  | 0, l => (l.head?).getD none
  | n + 1, l =>
    match tree f n (l.take (2 ^ n)), tree f n (l.drop (2 ^ n)) with
    | none, y => y
    | x, none => x
    | some (x, fx), some (y, fy) => some ((f x y).1, fx ||| fy ||| (f x y).2)

/-- R93: the leaves of a reduction to f32: active elements widened exactly. -/
def leaves (s : State) (ty a m : Nat) : List (Option (Nat × Nat)) :=
  (List.range (elems ty)).map (fun k =>
    if (s.mreg m).getLsbD (governs (elemWidth ty) k) then some (toF32 ty (lane s (elemWidth ty) a k), 0) else none)

/-- The elements of A that are active, in order, as integers of their type. -/
def activeElements (s : State) (ty a m : Nat) : List Int :=
  ((List.range (elems ty)).filter (fun k => (s.mreg m).getLsbD (governs (elemWidth ty) k))).map (element s ty a)

/-- R94: the running value of a scan after the elements up to k, with the flags of its latest step. -/
def scanTo (s : State) (ty a m : Nat) (f : Nat → Nat → Nat × Nat) (identity : Nat) (k : Nat) : Nat × Nat :=
  ((List.range (k + 1)).filter (fun e => (s.mreg m).getLsbD (governs (elemWidth ty) e))).foldl
    (fun t e => f t.1 (lane s (elemWidth ty) a e)) (identity, 0)

/-- R220: the scans. -/
def scanForm (s : State) (i : Instr) : Option LaneForm :=
  let of (d a ty m : Nat) (f : Nat → Nat → Nat × Nat) (identity : Nat) : Option LaneForm :=
    some { d := d, w := elemWidth ty, m := m, reads := readsOf m [a], value := fun k => (scanTo s ty a m f identity k).1,
           flags := fun k => (scanTo s ty a m f identity k).2 }
  let int (ty x : Nat) : Int := if ty = 0 ∨ ty = 1 ∨ ty = 3 ∨ ty = 5 then sx (elemWidth ty) x else (x % 2 ^ elemWidth ty : Nat)
  match i with
  | .vscan d a ty m _ op =>
    let w := elemWidth ty
    if op = 0 then of d a ty m (fun x y => ((x + y) % 2 ^ w, 0)) 0
    else if op = 1 then of d a ty m (fun x y => (modulo w (max (int ty x) (int ty y)), 0)) (modulo w (least ty))
    else of d a ty m (fun x y => (modulo w (min (int ty x) (int ty y)), 0)) (modulo w (greatest ty))
  | .vfscan d a ty m rnd op =>
    of d a ty m (f32Node op rnd) (if op = 0 then 0 else if op = 1 then 0xFF800000 else 0x7F800000)
  | _ => none

end Sys2Proof.Claims

namespace Sys2Proof.Claims

/-! ## Exact values and rounding -/

/-- R70: the exponent bits, fraction bits and bias of a floating type. -/
def layout : Nat → Nat × Nat × Nat
  | 7 => (2, 1, 1)
  | 8 => (4, 3, 7)
  | 9 => (5, 2, 15)
  | 10 => (8, 7, 127)
  | 11 => (5, 10, 15)
  | _ => (8, 23, 127)

/-- R70: the greatest finite value of a floating type. -/
def greatestFinite : Nat → ℚ
  | 7 => 6
  | 8 => 448
  | 9 => 57344
  | 10 => (2 - 2 ^ (-7 : ℤ)) * 2 ^ 127
  | 11 => 65504
  | _ => (2 - 2 ^ (-23 : ℤ)) * 2 ^ 127

/-- R70: the magnitude of exponent field e and fraction field x. -/
def magnitude (ty e x : Nat) : ℚ :=
  let (_, f, b) := layout ty
  if e = 0 then x * 2 ^ (1 - (b : ℤ) - f) else (2 ^ f + x) * 2 ^ ((e : ℤ) - b - f)

/-- The number x is the finite value v, with the sign given. -/
def IsExact (x : Machine.Num) (neg : Bool) (v : ℚ) : Prop := ∃ (m : Nat) (e : Int), x = .fin neg m e false ∧ (m : ℚ) * 2 ^ e = v

/-- The signed value of a finite number. -/
def signedValue : Machine.Num → ℚ
  | .fin neg m e _ => (if neg then -1 else 1) * m * 2 ^ e
  | _ => 0

/-- R76, R82: a magnitude of v quanta rounded to a whole number of them under a rounding code, r the draw of RSS. -/
def quanta (mode r : Nat) (neg : Bool) (v : ℚ) : Nat :=
  let q := ⌊v⌋.toNat
  let part := v - q
  if part = 0 then q
  else match mode with
    | 0 => if part < 1 / 2 ∨ (part = 1 / 2 ∧ q % 2 = 0) then q else q + 1
    | 1 => q
    | 2 => if neg then q + 1 else q
    | 3 => if neg then q else q + 1
    | 4 => if part < 1 / 2 then q else q + 1
    | _ => if (r : ℤ) < ⌊part * 65536⌋ then q + 1 else q

/-- The magnitude of a finite number: exactly m × 2^e, or, where more lies below, strictly between that and (m + 1) × 2^e, m of 64 bits or
more. -/
def hasMagnitude (m : Nat) (e : Int) (more : Bool) (v : ℚ) : Prop :=
  (more = false ∧ v = m * 2 ^ e) ∨ (more = true ∧ 2 ^ 64 ≤ m ∧ m * 2 ^ e < v ∧ v < (m + 1) * 2 ^ e)

end Sys2Proof.Claims

/-- R70, R71: what the bits of a floating element are worth. R76, R77, R80 to R82: a value rounded once to a format: the nearest multiples of
the quantum its exponent and the format's least exponent give, chosen by the rounding code, UF where the value rounded with an unbounded
exponent range is below the least normal value, and beyond the greatest finite value the infinity or the greatest value that the code gives,
with OV and NX; zeros keep their sign, a NaN is the canonical one. R78, R79: sums and products are exact, an exact zero sum takes the sign that
the addends or the code give, and the invalid ones are NaN with NV. R87: quotients and roots to 64 bits or more and what lies below. R85, R86:
comparisons. R81: a finite value converted to an integer type. That e4m3 and e2m1 are judged by the value rounded with an unbounded exponent
is the model's reading. Model's choices: assumption 19. -/
def Obligations.Rounding : Prop :=
  (∀ ty ∈ [7, 8, 9, 10, 11, 12], ∀ s e x, s < 2 → e < 2 ^ (layout ty).1 → x < 2 ^ (layout ty).2.1 →
    let top := 2 ^ (layout ty).1 - 1
    let v := decodeTy ty (s * 2 ^ ((layout ty).1 + (layout ty).2.1) + e * 2 ^ (layout ty).2.1 + x)
    (9 ≤ ty → e = top → x = 0 → v = .inf (s == 1)) ∧ (9 ≤ ty → e = top → x ≠ 0 → v = .nan) ∧ (ty = 8 → e = top → x = 7 → v = .nan) ∧
    ((9 ≤ ty → e ≠ top) → (ty = 8 → e ≠ top ∨ x ≠ 7) → IsExact v (s == 1) (magnitude ty e x))) ∧
  (∀ ty ∈ [7, 8, 9, 10, 11, 12], ∀ mode r neg m e more v, mode ≤ 5 → r < 65536 → m ≠ 0 → hasMagnitude m e more v →
    let f : ℤ := (layout ty).2.1
    let least : ℤ := 1 - (layout ty).2.2
    let q : ℤ := max (Int.log 2 v - f) (least - f)
    let z : ℚ := quanta mode r neg (v / 2 ^ q) * 2 ^ q
    let tiny : Prop := (quanta mode r neg (v / 2 ^ (Int.log 2 v - f)) : ℚ) * 2 ^ (Int.log 2 v - f) < 2 ^ least
    let toInf : Prop := 9 ≤ ty ∧ (mode = 0 ∨ mode = 4 ∨ (mode = 2 ∧ neg = true) ∨ (mode = 3 ∧ neg = false))
    let beyond : Prop := greatestFinite ty < if mode = 5 then v else z
    let y := (fmtOf ty).round mode r (.fin neg m e more)
    (beyond → y.2 = 4 + 16 ∧ (toInf → decodeTy ty y.1 = .inf neg) ∧ (¬ toInf → IsExact (decodeTy ty y.1) neg (greatestFinite ty))) ∧
    (¬ beyond → IsExact (decodeTy ty y.1) neg z ∧ (z = v → y.2 = 0) ∧ (z ≠ v → tiny → y.2 = 16 + 8) ∧ (z ≠ v → ¬ tiny → y.2 = 16)) ∧
    y.1 < 2 ^ elemWidth ty) ∧
  (∀ ty ∈ [7, 8, 9, 10, 11, 12], ∀ mode r neg e,
    let g := fmtOf ty
    IsExact (decodeTy ty (g.round mode r (.fin neg 0 e false)).1) neg 0 ∧ (g.round mode r (.fin neg 0 e false)).2 = 0 ∧
    g.round mode r .nan = (if ty = 7 then (0, 1) else if ty = 8 then (0x7F, 0) else if ty = 9 then (0x7E, 0) else if ty = 10 then (0x7FC0, 0)
      else if ty = 11 then (0x7E00, 0) else (0x7FC00000, 0)) ∧
    (9 ≤ ty → decodeTy ty (g.round mode r (.inf neg)).1 = .inf neg ∧ (g.round mode r (.inf neg)).2 = 0) ∧
    (ty ≤ 8 → IsExact (decodeTy ty (g.round mode r (.inf neg)).1) neg (greatestFinite ty) ∧ (g.round mode r (.inf neg)).2 = 4)) ∧
  (∀ mode (xs : List Machine.Num), (∀ x ∈ xs, ∃ n m e, x = .fin n m e false) →
    ∃ n, IsExact (Num.sum mode xs).1 n (abs (xs.map signedValue).sum) ∧ (Num.sum mode xs).2 = 0 ∧
      ((xs.map signedValue).sum ≠ 0 → n = decide ((xs.map signedValue).sum < 0)) ∧
      ((xs.map signedValue).sum = 0 → (xs ≠ [] ∧ ∀ x ∈ xs, ∃ e, x = .fin true 0 e false) → n = true) ∧
      ((xs.map signedValue).sum = 0 → ¬ (xs ≠ [] ∧ ∀ x ∈ xs, ∃ e, x = .fin true 0 e false) → n = (mode == 2))) ∧
  (∀ mode (xs : List Machine.Num),
    ((.inf true ∈ xs ∧ .inf false ∈ xs) → Num.sum mode xs = (.nan, 1)) ∧
    (.nan ∈ xs → ¬ (.inf true ∈ xs ∧ .inf false ∈ xs) → Num.sum mode xs = (.nan, 0)) ∧
    (∀ n, .nan ∉ xs → .inf n ∈ xs → .inf (!n) ∉ xs → Num.sum mode xs = (.inf n, 0))) ∧
  (∀ n m e n' m' e', ∃ z, (Machine.Num.fin n m e false).mul (.fin n' m' e' false) = (z, 0) ∧
    IsExact z (n != n') (m * 2 ^ e * (m' * 2 ^ e'))) ∧
  (∀ (x : Machine.Num) n, Machine.Num.mul .nan x = (.nan, 0) ∧ Machine.Num.mul x .nan = (.nan, 0) ∧
    (∀ n' e, Machine.Num.mul (.inf n) (.fin n' 0 e false) = (.nan, 1) ∧ Machine.Num.mul (.fin n' 0 e false) (.inf n) = (.nan, 1)) ∧
    (∀ n' m e, m ≠ 0 → Machine.Num.mul (.inf n) (.fin n' m e false) = (.inf (n != n'), 0) ∧ Machine.Num.mul (.fin n' m e false) (.inf n) = (.inf (n' != n), 0)) ∧
    ∀ n', Machine.Num.mul (.inf n) (.inf n') = (.inf (n != n'), 0)) ∧
  (∀ n m e n' m' e', m ≠ 0 → m' ≠ 0 → ∃ q k more, (Machine.Num.fin n m e false).div (.fin n' m' e' false) = (.fin (n != n') q k more, 0) ∧
    hasMagnitude q k more (m * 2 ^ e / (m' * 2 ^ e'))) ∧
  (∀ m e, m ≠ 0 → ∃ q k more, (Machine.Num.fin false m e false).sqrt = (.fin false q k more, 0) ∧ (more = true → 2 ^ 64 ≤ q) ∧
    (if more = true then (q * 2 ^ k : ℚ) ^ 2 < m * 2 ^ e ∧ (m * 2 ^ e : ℚ) < ((q + 1) * 2 ^ k) ^ 2 else (q * 2 ^ k : ℚ) ^ 2 = m * 2 ^ e)) ∧
  (∀ m e, m ≠ 0 → ∃ q k more, (Machine.Num.fin false m e false).rsqrt = (.fin false q k more, 0) ∧ (more = true → 2 ^ 64 ≤ q) ∧
    (if more = true then (q * 2 ^ k : ℚ) ^ 2 * (m * 2 ^ e) < 1 ∧ (1 : ℚ) < ((q + 1) * 2 ^ k) ^ 2 * (m * 2 ^ e)
      else (q * 2 ^ k : ℚ) ^ 2 * (m * 2 ^ e) = 1)) ∧
  (∀ n m e n' m' e', let x : Machine.Num := .fin n m e false
    let y : Machine.Num := .fin n' m' e' false
    (x.cmp y < 0 ↔ signedValue x < signedValue y) ∧ (x.cmp y = 0 ↔ signedValue x = signedValue y) ∧
    (x.below y = true ↔ signedValue x < signedValue y ∨ (signedValue x = signedValue y ∧ n = true ∧ n' = false))) ∧
  ∀ ty ∈ [0, 1, 2, 3, 4, 5, 6], ∀ mode r neg m e v, mode ≤ 5 → r < 65536 → m ≠ 0 → hasMagnitude m e false v →
    let i : ℤ := (if neg then -1 else 1) * quanta mode r neg v
    toIntTy ty mode r false (.fin neg m e false) =
      (if i < least ty then (modulo (elemWidth ty) (least ty), 1) else if greatest ty < i then (modulo (elemWidth ty) (greatest ty), 1)
       else (modulo (elemWidth ty) i, if (quanta mode r neg v : ℚ) = v then 0 else 16))

/-- R207, R203, R226: the functions of MAJ 0x40, element by element, with their frame. -/
def Obligations.VectorInteger : Prop :=
  ∀ (i : Instr) (s : State) (F : LaneForm), i.wf = true → s.wf = true → integerForm s i = some F → DoesLanes F i s

/-- R208, R209: the functions of MAJ 0x41: the shifts element by element; `vand`, `vor`, `vxor`, `vandn` and `vlop4` bit by bit, each bit
governed by the mask bit of its sub-lane. -/
def Obligations.VectorLogicShift : Prop :=
  (∀ (i : Instr) (s : State) (F : LaneForm), i.wf = true → s.wf = true → shiftForm s i = some F → DoesLanes F i s) ∧
  ∀ (i : Instr) (s : State) (d m : Nat) (reads : List Nat) (f : Nat → Bool), i.wf = true → s.wf = true →
    bitForm s i = some (d, m, reads, f) → (∀ c ∈ reads, s.core.badReg.contains c = false) →
    ∃ t, exec i s = .next t ∧ OnlyCore s t ∧
      (∀ j, j < 2048 → (t.vreg d).getLsbD j = if (s.mreg m).getLsbD (j / 16) then f j else (s.vreg d).getLsbD j) ∧
      (∀ n, 32 ≤ n → n ≠ d → t.vreg n = s.vreg n) ∧
      t.core = { s.core.advance with v := t.core.v, badReg := t.core.badReg, fstat := t.core.fstat } ∧ t.core.fstat = s.core.fstat ∧
      t.core.badReg = if (List.range 128).all (fun j => (s.mreg m).getLsbD j) then s.core.badReg.filter (· ≠ d) else s.core.badReg

/-- R210 to R215, R86, R87: the floating functions and the conversions of MAJ 0x42 to 0x44: each active element the exact value of its
operands rounded once under the rounding code, or the bits the rule names, with the flags of the active elements and the draw under RSS.
Model's choices: assumptions 11, 19, 42. -/
def Obligations.VectorFloat : Prop :=
  ∀ (i : Instr) (s : State) (F : LaneForm), i.wf = true → s.wf = true →
    floatForm s i = some F ∨ floatBitsForm s i = some F ∨ convertForm s i = some F → DoesLanes F i s

/-- R216, R217: the compares write the truth of each active element to its mask bits, an ordered relation with a NaN raising NV, and keep the
bits of the others; the mask functions write their D, `mpop` and `mfirst` a count and an index, `mmov` moves between masks and the low bits
of a v register; a write to m0 is discarded. -/
def Obligations.VectorMasks : Prop :=
  (∀ (i : Instr) (s : State) (d w m : Nat) (reads : List Nat) (f : Nat → Bool) (fl : Nat → Nat), i.wf = true → s.wf = true →
    compareForm s i = some (d, w, m, reads, f, fl) → (∀ c ∈ reads, s.core.badReg.contains c = false) →
    ∃ t, exec i s = .next t ∧ OnlyCore s t ∧
      (∀ j, j < 128 → (t.mreg d).getLsbD j =
        if d = 0 then true
        else if (s.mreg m).getLsbD (if w = 32 then j / 2 * 2 else j) then f (if w = 32 then j / 2 else j) else (s.mreg d).getLsbD j) ∧
      (∀ n, n ≠ d → t.mreg n = s.mreg n) ∧
      t.core.fstat = (if s.cur < 2048 then s.core.fstat ||| exact ((List.range (2048 / w)).foldl (fun acc k =>
        if (s.mreg m).getLsbD (governs w k) then acc ||| fl k else acc) 0 % 128 : Nat) else s.core.fstat) ∧
      t.core = { s.core.advance with m := t.core.m, badReg := t.core.badReg, fstat := t.core.fstat } ∧
      t.core.badReg = if d ≠ 0 ∧ (List.range (2048 / w)).all (fun k => (s.mreg m).getLsbD (governs w k)) = true
        then s.core.badReg.filter (· ≠ 64 + d) else s.core.badReg) ∧
  (∀ (i : Instr) (s : State) (ms : List Nat) (d : Nat) (x : MReg), i.wf = true → s.wf = true → maskForm s i = some (ms, d, x) →
    (∀ n ∈ ms, n ≠ 0 → s.core.badReg.contains (64 + n) = false) → ∃ t, exec i s = .next t ∧ WritesM s t d x) ∧
  ∀ (s : State) (d a : Nat), s.wf = true →
    ((Instr.mpop d a).wf = true → (a ≠ 0 → s.core.badReg.contains (64 + a) = false) →
      (∃ t, exec (.mpop d a) s = .next t ∧ WritesS s t d (exact (howMany 128 (s.mreg a).getLsbD))) ∧
      ∃ t, exec (.mfirst d a) s = .next t ∧
        WritesS s t d (exact (((List.range 128).find? (fun j => (s.mreg a).getLsbD j)).getD 128 : Nat))) ∧
    ((Instr.mmov d a 0).wf = true → (a ≠ 0 → s.core.badReg.contains (64 + a) = false) →
      ∃ t, exec (.mmov d a 0) s = .next t ∧ WritesM s t d (s.mreg a)) ∧
    ((Instr.mmov d a 1).wf = true → s.core.badReg.contains a = false →
      ∃ t, exec (.mmov d a 1) s = .next t ∧ WritesM s t d ((s.vreg a).extractLsb' 0 128)) ∧
    ((Instr.mmov d a 2).wf = true → (a ≠ 0 → s.core.badReg.contains (64 + a) = false) →
      ∃ t, exec (.mmov d a 2) s = .next t ∧ WritesV s t d (BitVec.ofNat 2048 (s.mreg a).toNat))

/-- R218: the element moves of MAJ 0x47, and `vext`, which writes one element to an s register. -/
def Obligations.VectorMoves : Prop :=
  (∀ (i : Instr) (s : State) (F : LaneForm), i.wf = true → s.wf = true → moveForm s i = some F → DoesLanes F i s) ∧
  ∀ (s : State) (d a b ty j : Nat), (Instr.vext d a b ty j).wf = true → s.wf = true → s.core.badReg.contains a = false →
    ∃ t, exec (.vext d a b ty j) s = .next t ∧ WritesS s t d (exact (element s ty a (((s.sreg b).toNat + j) % elems ty)))

/-- R219, R220, R93, R94: the integer reductions give the exact sum, the greatest and the least active element, and the type's bound where
none is active; the floating ones the value of the fixed pairwise tree, or the identity; a scan gives each active element the running
value up to it. -/
def Obligations.VectorReductions : Prop :=
  (∀ (s : State) (d a ty m rnd : Nat), s.wf = true → d < 32 → (∀ c ∈ readsOf m [a], s.core.badReg.contains c = false) →
    let l := activeElements s ty a m
    let float (op : Nat) : Nat × Nat :=
      (tree (f32Node op rnd) (Nat.log2 (elems ty)) (leaves s ty a m)).getD (if op = 0 then 0 else if op = 1 then 0xFF800000 else 0x7F800000, 0)
    ((Instr.vredsum d a ty m rnd).wf = true → ∃ t, exec (.vredsum d a ty m rnd) s = .next t ∧ WritesS s t d (exact l.sum)) ∧
    ((Instr.vredmax d a ty m rnd).wf = true → ∃ t, exec (.vredmax d a ty m rnd) s = .next t ∧ WritesS s t d (exact (l.foldl max (least ty)))) ∧
    ((Instr.vredmin d a ty m rnd).wf = true →
      ∃ t, exec (.vredmin d a ty m rnd) s = .next t ∧ WritesS s t d (exact (l.foldl min (greatest ty)))) ∧
    ((Instr.vfredsum d a ty m rnd).wf = true →
      ∃ t, exec (.vfredsum d a ty m rnd) s = .next t ∧ WritesSF s t d (exact (float 0).1) (float 0).2) ∧
    ((Instr.vfredmax d a ty m rnd).wf = true →
      ∃ t, exec (.vfredmax d a ty m rnd) s = .next t ∧ WritesSF s t d (exact (float 1).1) (float 1).2) ∧
    ((Instr.vfredmin d a ty m rnd).wf = true →
      ∃ t, exec (.vfredmin d a ty m rnd) s = .next t ∧ WritesSF s t d (exact (float 2).1) (float 2).2)) ∧
  ∀ (i : Instr) (s : State) (F : LaneForm), i.wf = true → s.wf = true → scanForm s i = some F → DoesLanes F i s

namespace Sys2Proof.Claims

/-! ## Vector memory -/

/-- R222: a vector load: D, the registers read, OW, TYPE, MASK, and the address of each unit (an element, or a byte of two 4-bit ones). -/
def loadAt (s : State) (i : Instr) : Option (Nat × List Nat × Nat × Nat × Nat × (Nat → Word)) :=
  let ea (a imm : Nat) : Int := (s.sreg a).toNat + 64 * sx 9 imm
  match i with
  | .vld d a ow _ _ ty m imm => some (d, readsOf m [], ow, ty, m, fun k => exact (ea a imm + (k * (max 8 (elemWidth ty) / 8) : Nat)))
  | .vlds d a b ow _ _ ty m imm => some (d, readsOf m [], ow, ty, m, fun k => exact (ea a imm + (k * (s.sreg b).toNat : Nat)))
  | .vldx d a b ow _ _ ty m imm => some (d, readsOf m [b], ow, ty, m, fun k => exact (ea a imm + sx 32 (lane s 32 b k)))
  | .vldb d a ow _ _ ty m imm => some (d, readsOf m [], ow, ty, m, fun _ => exact (ea a imm))
  | _ => none

/-- R222: the same of a vector store. -/
def storeAt (s : State) (i : Instr) : Option (Nat × List Nat × Nat × Nat × Nat × (Nat → Word)) :=
  let ea (a imm : Nat) : Int := (s.sreg a).toNat + 64 * sx 9 imm
  match i with
  | .vst d a ow _ _ ty m imm => some (d, readsOf m [d], ow, ty, m, fun k => exact (ea a imm + (k * (max 8 (elemWidth ty) / 8) : Nat)))
  | .vsts d a b ow _ _ ty m imm => some (d, readsOf m [d], ow, ty, m, fun k => exact (ea a imm + (k * (s.sreg b).toNat : Nat)))
  | .vstx d a b ow _ _ ty m imm => some (d, readsOf m [d, b], ow, ty, m, fun k => exact (ea a imm + sx 32 (lane s 32 b k)))
  | _ => none

/-- R223, R95: the same of a vector atomic, with one step: the new value from the old one and the lane's operand, and its flags. -/
def atomicAt (s : State) (i : Instr) : Option (Nat × List Nat × Nat × Nat × (Nat → Word) × (Nat → Nat → Nat × Nat)) :=
  let ea (a imm : Nat) : Int := (s.sreg a).toNat + 64 * sx 9 imm
  match i with
  | .vaadd d a b ow _ _ ty m imm => some (d, readsOf m [d, b], ow, m, fun k => exact (ea a imm + sx 32 (lane s 32 b k)), fun x y =>
      if ty = 12 then
        let v := Num.sum 0 [decodeTy 12 x, decodeTy 12 y]
        (((fmtOf 12).round 0 0 v.1).1, v.2 ||| ((fmtOf 12).round 0 0 v.1).2)
      else ((x + y) % 2 ^ 32, 0))
  | .vaor d a b ow _ _ _ m imm => some (d, readsOf m [d, b], ow, m, fun k => exact (ea a imm + sx 32 (lane s 32 b k)), fun x y => (x ||| y, 0))
  | _ => none

/-- The active units of width w under mask m. -/
def activeUnits (s : State) (m w : Nat) : List Nat := (List.range (2048 / w)).filter (fun k => (s.mreg m).getLsbD (governs w k))

/-- The memory key of an element's place. -/
def keyOf (es : List ElemAt) (k : Nat) : Nat := ((es.find? (fun e => e.k = k)).bind (fun e => e.pl.key)).getD 0

/-- R225: the byte that the highest element that covers key a leaves there; none where no element covers it. -/
def lastWritten (es : List ElemAt) (u : Nat) (val : Nat → Nat) (a : Nat) : Option Byte :=
  es.foldl (fun r e => match e.pl.key with
    | some k => if k ≤ a ∧ a < k + u then some (BitVec.ofNat 8 (val e.k / 256 ^ (a - k))) else r
    | none => r) none

/-- R95: the value of a word after the lanes of a list that address its key, and the flags of the latest. -/
def lanesAt (es : List ElemAt) (f : Nat → Nat → Nat × Nat) (operand : Nat → Nat) (key init : Nat) : Nat × Nat :=
  (es.filter (fun e => e.pl.key = some key)).foldl (fun r e => ((f r.1 (operand e.k)).1 % 2 ^ 32, (f r.1 (operand e.k)).2)) (init, 0)

/-! ## The network engine -/

/-- What an instruction of the network engine sends: its accesses' kind, size and address, its OW and OM, whether the core waits for it,
whether it is an external effect (R43), and the operation, given where the checks lead. -/
structure RemoteForm where
  rw : Rw
  n : Nat
  ea : Word
  ow : Nat
  om : Nat
  blocks : Bool
  ext : Bool
  op : Nat → NetOp

/-- R258, R259, R272: the instructions of MAJ 0x80 and 0x82. -/
def remoteForm (s : State) : Instr → Option RemoteForm
  | .rld d a ow om _ sz sg imm => let ea := exact ((s.sreg a).toNat + sx 9 imm)
      some ⟨.read, 2 ^ sz, ea, ow, om, true, false, fun k => { id := 0, kind := .rld, pc := 0, d := d, n := 2 ^ sz, sx := sg == 1, key := k, ea := ea }⟩
  | .rst d a ow om _ sz imm => let ea := exact ((s.sreg a).toNat + sx 9 imm)
      some ⟨.write, 2 ^ sz, ea, ow, om, false, true, fun k =>
        { id := 0, kind := .rst, pc := 0, d := d, n := 2 ^ sz, key := k, ea := ea, data := (s.sreg d).toNat % 2 ^ (8 * 2 ^ sz) }⟩
  | .ramo d a b ow om _ sz sg o imm => let ea := exact ((s.sreg a).toNat + sx 9 imm)
      some ⟨.atomic, 2 ^ sz, ea, ow, om, true, true, fun k =>
        { id := 0, kind := .ramo, pc := 0, d := d, n := 2 ^ sz, sx := sg == 1, o := o, key := k, ea := ea,
          data := (s.sreg d).toNat % 2 ^ (8 * 2 ^ sz), b := (s.sreg b).toNat % 2 ^ (8 * 2 ^ sz) }⟩
  | .barr d a b ow om _ => some ⟨.atomic, 32, s.sreg a, ow, om, true, true, fun k =>
      { id := 0, kind := .barr, pc := 0, d := d, key := k, ea := s.sreg a, b := (s.sreg b).toNat }⟩
  | .barx a b ow om _ => some ⟨.atomic, 32, s.sreg a, ow, om, false, true, fun k =>
      { id := 0, kind := .barx, pc := 0, d := 0, key := k, ea := s.sreg a, b := (s.sreg b).toNat }⟩
  | .barw d a b ow om _ => some ⟨.atomic, 32, s.sreg a, ow, om, true, false, fun k =>
      { id := 0, kind := .barw, pc := 0, st := if s.heldAt k < 64 then .held else .refused, d := d, key := k, ea := s.sreg a,
        b := (s.sreg b).toNat }⟩
  | _ => none

/-- R265, R268, R269: an instruction of MAJ 0x81: its group window address, its size (0 where the offset is ignored), the v
register it reads, OW and OM, whether the core waits for it, and the operation from the group's package slot and the offset. -/
def groupForm (s : State) : Instr → Option (Word × Nat × List Nat × Nat × Nat × Bool × (Nat → Nat → NetOp))
  | .ovld d a ow om _ ty o cnt => some (s.sreg a, 4 * (cnt + 1), [], ow, om, true, fun g off =>
      { id := 0, kind := .ovld, pc := 0, d := d, n := 4 * (cnt + 1), o := o, ty := ty, key := g, off := off, ea := s.sreg a })
  | .ovst d a ow om _ _ _ cnt => some (s.sreg a, 4 * (cnt + 1), if 32 ≤ d then [d] else [], ow, om, false, fun g off =>
      { id := 0, kind := .ovst, pc := 0, d := d, n := 4 * (cnt + 1), key := g, off := off, ea := s.sreg a,
        data := (if 32 ≤ d then (s.vreg d).toNat else (s.sreg d).toNat) % 2 ^ (8 * (4 * (cnt + 1))) })
  | .grpstat d a ow om _ _ _ cnt => some (s.sreg a, 0, [], ow, om, true, fun g off =>
      { id := 0, kind := .grpstat, pc := 0, d := d, n := cnt, key := g, off := off, ea := s.sreg a })
  | _ => none

/-- R274: an operation of the current core's network engine has been sent: it stands last in the tile's list, OM's set holds it, the
firing is marked where it is an external effect, and the core waits for it or goes on; nothing else has changed. -/
structure NetSent (s t : State) (om : Nat) (blocks ext : Bool) (op : NetOp) : Prop where
  list : t.netList s.cur = s.netList s.cur ++ [{ op with id := s.nextId, pc := s.core.pc }]
  lists : ∀ p, p ≠ s.cur → t.netList p = s.netList p
  live : t.live = s.live ++ [{ id := s.nextId, core := s.cur, eng := true }]
  nextId : t.nextId = s.nextId + 1
  core : t.core = if blocks then { s.core with o := t.core.o, waitOp := some s.nextId } else { s.core.advance with o := t.core.o }
  sets : ∀ x, x < 16 → t.core.oset x = if x = om ∧ om ≠ 0 then s.core.oset om ++ [s.nextId] else s.core.oset x
  firing : t.myTile = { s.myTile with firing := s.myTile.firing.map (fun f => { f with ext := f.ext || ext }) }
  cores : ∀ m, m ≠ s.cur → t.coreAt m = s.coreAt m
  tiles : ∀ p, p ≠ s.cur → t.tile p = s.tile p
  rest : t = { s with netOps := t.netOps, live := t.live, nextId := t.nextId, cores := t.cores, tiles := t.tiles }

/-- The state after operation i of tile p has left its list. -/
def withoutOp (s : State) (p i : Nat) (op : NetOp) : State := (s.setNet p ((s.netList p).eraseIdx i)).retire op.id

/-- The number whose bits below n are those with a property. -/
def bitSet (n : Nat) (f : Nat → Bool) : Nat := ((List.range n).map (fun q => if f q then 2 ^ q else 0)).sum

/-- R267: two 32-bit values combined by operation o (sum, max, min, and, or, xor) of a type: integers wrapping, by signedness or bitwise,
floating sums rounded to f32 under RNE, floating maxima and minima as R86 orders them; and the flags raised. -/
def combined (o ty x y : Nat) : Nat × Nat :=
  let less (a b : Nat) : Bool := if ty = 5 then decide (sx 32 a < sx 32 b) else decide (a % 2 ^ 32 < b % 2 ^ 32)
  let nan (a : Nat) : Bool := (decodeTy 12 a).isNan
  if ty = 5 ∨ ty = 6 then
    (match o with
     | 0 => ((x + y) % 2 ^ 32, 0)
     | 1 => (if less x y then y else x, 0)
     | 2 => (if less y x then y else x, 0)
     | 3 => (x &&& y, 0)
     | 4 => (x ||| y, 0)
     | _ => (x ^^^ y, 0))
  else if o = 0 then
    let v := Num.sum 0 [decodeTy 12 x, decodeTy 12 y]
    (((fmtOf 12).round 0 0 v.1).1, v.2 ||| ((fmtOf 12).round 0 0 v.1).2)
  else if nan x then (if nan y then 0x7FC00000 else y, 0)
  else if nan y then (x, 0)
  else if o = 1 then (if (decodeTy 12 x).below (decodeTy 12 y) then y else x, 0)
  else (if (decodeTy 12 y).below (decodeTy 12 x) then y else x, 0)

/-- R263: logical tile l of a region is absent: the region has no such tile, its plate is fenced, its tile's fault awaits its decision, or an
actor slot there is STOPPED. -/
def Absent (s : State) (region l : Nat) : Prop :=
  match (s.region region).resolve l with
  | none => True
  | some p => (Sparse.get {} s.plates (plateOf p)).fence = true ∨ ((s.tile p).record[7]).toNat / 256 % 8 = 7 ∨
      ∃ a, a < 8 ∧ ((s.tile p).slot a).st = .stopped

/-- R266: GROUP_ABSENT at address ea: the number of absent members, the least, and the bits of the 64 from the multiple of 64 at or below it. -/
def groupAbsent (ea : Word) (absent : List Nat) : Trap :=
  let first := absent.headD 0
  { code := 0x0C, i0 := ea, i1 := exact absent.length, i2 := exact (bitSet 64 (fun q => absent.contains (first / 64 * 64 + q))),
    i3 := exact first }

/-- R267: how many nodes level l of the tree over m members has. -/
def nodesAt (m : Nat) : Nat → Nat
  | 0 => m
  | l + 1 => (nodesAt m l + 1) / 2

/-- R267: node j of level l: a member's leaf, nodes 2j and 2j + 1 of the level below combined, or an odd last node passed up. -/
def memberNode (o ty m : Nat) (leaf : Nat → Nat × Nat) : Nat → Nat → Nat × Nat
  | 0, j => leaf j
  | l + 1, j =>
    let x := memberNode o ty m leaf l (2 * j)
    if 2 * j + 1 < nodesAt m l then
      let y := memberNode o ty m leaf l (2 * j + 1)
      let z := combined o ty x.1 y.1
      (z.1, x.2 ||| y.2 ||| z.2)
    else x

/-- R93, R267: a member's leaf at element e: its value, a floating one widened exactly to f32, or the identity and SKIP of an absent one. -/
def memberLeaf (o ty w e : Nat) : Option Nat → Nat × Nat
  | some v => let x := v / 2 ^ (w * e) % 2 ^ w; (if ty = 10 ∨ ty = 11 then (convert ty 12 0 0 x).1 else x, 0)
  | none =>
    (if ty = 5 ∨ ty = 6 then
      (match o with
       | 1 => if ty = 5 then 2 ^ 31 else 0
       | 2 => if ty = 5 then 2 ^ 31 - 1 else 2 ^ 32 - 1
       | 3 => 2 ^ 32 - 1
       | _ => 0)
     else if o = 1 then 0xFF800000 else if o = 2 then 0x7F800000 else 0, 64)

/-- R258: what each `ramo` operation leaves in n bytes, from the old value, the operand and the compare value. -/
def remoteAtomic (o n old b d : Nat) : Nat :=
  let w := 8 * n
  match o with
  | 0 => (old + b) % 2 ^ w
  | 1 => old &&& b
  | 2 => old ||| b
  | 3 => old ^^^ b
  | 4 => if sx w b < sx w old then b else old
  | 5 => if sx w old < sx w b then b else old
  | 6 => min old b
  | 7 => max old b
  | 8 => b
  | _ => if old = d then b else old

end Sys2Proof.Claims

/-- R222, R225, R226: a vector load whose checks pass gives each active element the bytes at its address, and no memory changes; a vector
store leaves each active element's bytes at its address, a byte that several cover from the highest, and no register changes; one with
no active element does nothing; the first check that fails traps with nothing performed. -/
def Sys2Proof.Claims.VectorMemory : Prop :=
  (∀ (i : Instr) (s : State) (d ow ty m : Nat) (reads : List Nat) (addr : Nat → Word), i.wf = true → s.wf = true → s.cur < 2048 →
    loadAt s i = some (d, reads, ow, ty, m, addr) → (∀ c ∈ reads, s.core.badReg.contains c = false) →
    let w := max 8 (elemWidth ty)
    (activeUnits s m w = [] → exec i s = .next s.advance) ∧
    (∀ t s1, activeUnits s m w ≠ [] → checkElems .read .loadStore (w / 8) addr (activeUnits s m w) s = .error (.trap t) s1 →
      exec i s = .next (s1.takeTrap t)) ∧
    ∀ es s1, activeUnits s m w ≠ [] → checkElems .read .loadStore (w / 8) addr (activeUnits s m w) s = .ok es s1 → s1.wf = true →
      s1.setDone ow = true → awaitElems (w / 8) es s1 = .ok () s1 →
      (∀ e ∈ es, ∃ k, e.pl = .mem k ∧ s1.readBad k (w / 8) = false) →
      ∃ t, exec i s = .next t ∧ t.mem = s1.mem ∧
        LanesWritten { d := d, w := w, m := m, reads := reads, value := fun k => little s1 (keyOf es k) (w / 8) } s1 t) ∧
  ∀ (i : Instr) (s : State) (d ow ty m : Nat) (reads : List Nat) (addr : Nat → Word), i.wf = true → s.wf = true → s.cur < 2048 →
    storeAt s i = some (d, reads, ow, ty, m, addr) → (∀ c ∈ reads, s.core.badReg.contains c = false) →
    let w := max 8 (elemWidth ty)
    (activeUnits s m w = [] → exec i s = .next s.advance) ∧
    (∀ t s1, activeUnits s m w ≠ [] → checkElems .write .loadStore (w / 8) addr (activeUnits s m w) s = .error (.trap t) s1 →
      exec i s = .next (s1.takeTrap t)) ∧
    ∀ es s1, activeUnits s m w ≠ [] → checkElems .write .loadStore (w / 8) addr (activeUnits s m w) s = .ok es s1 → s1.wf = true →
      s1.setDone ow = true → awaitElems (w / 8) es s1 = .ok () s1 → (∀ e ∈ es, ∃ k, e.pl = .mem k) → s1.badStore (w / 8) es = none →
      s1.myTile.stateLen s1.firingNow.slot ≤ 0x2000 →
      ∃ t, exec i s = .next t ∧ t.core = s1.core.advance ∧
        (∀ a, ¬ inJournal s1 a → byteAt t a = (lastWritten es (w / 8) (lane s w d) a).getD (byteAt s1 a)) ∧
        (∀ n, n ≠ s.cur → t.coreAt n = s1.coreAt n) ∧ (∀ p, p ≠ s.cur → t.tile p = s1.tile p) ∧
        t = { s1 with mem := t.mem, bad := t.bad, cores := t.cores, tiles := t.tiles }

/-- R223, R95: a vector atomic whose checks pass gives each active lane the value its word holds after the lanes below it that address the
same word, leaves in each word its value after all of them, joins the flags of every step, and changes no other word.
Model's choices: assumption 37. -/
def Sys2Proof.Claims.VectorAtomics : Prop :=
  ∀ (i : Instr) (s s1 : State) (d ow m : Nat) (reads : List Nat) (addr : Nat → Word) (f : Nat → Nat → Nat × Nat) (es : List ElemAt),
    i.wf = true → s.wf = true → s.cur < 2048 → atomicAt s i = some (d, reads, ow, m, addr, f) →
    (∀ c ∈ reads, s.core.badReg.contains c = false) → activeUnits s m 32 ≠ [] →
    checkElems .atomic .localAtomic 4 addr (activeUnits s m 32) s = .ok es s1 → s1.wf = true → s1.setDone ow = true →
    awaitElems 4 es s1 = .ok () s1 → (∀ e ∈ es, s1.readBad ((e.pl.key).getD 0) 4 = false) →
    s1.myTile.stateLen s1.firingNow.slot ≤ 0x2000 →
    let before (k : Nat) : List ElemAt := es.filter (fun e => e.k < k)
    let upto (k : Nat) : List ElemAt := es.filter (fun e => e.k ≤ k)
    let old (k : Nat) : Nat := (lanesAt (before k) f (lane s 32 d) (keyOf es k) (little s1 (keyOf es k) 4)).1
    let fl (k : Nat) : Nat := (lanesAt (upto k) f (lane s 32 d) (keyOf es k) (little s1 (keyOf es k) 4)).2
    ∃ t, exec i s = .next t ∧
      (∀ k, k < 64 → lane t 32 d k = if k ∈ activeUnits s m 32 then old k else lane s 32 d k) ∧
      (∀ n, 32 ≤ n → n ≠ d → t.vreg n = s.vreg n) ∧ (∀ n, t.sreg n = s.sreg n) ∧
      t.core.fstat = s.core.fstat ||| exact ((activeUnits s m 32).foldl (fun acc k => acc ||| fl k) 0 % 128 : Nat) ∧
      (∀ e ∈ es, ∀ key, e.pl.key = some key → little t key 4 = (lanesAt es f (lane s 32 d) key (little s1 key 4)).1) ∧
      ∀ a, ¬ inJournal s1 a → (∀ e ∈ es, ∀ key, e.pl.key = some key → a < key ∨ key + 4 ≤ a) → byteAt t a = byteAt s1 a

/-- R258 to R260, R266, R268, R269, R272 to R274: an instruction of the network engine takes the trap its checks find; waits, the state as it
was, for its OW and for room among the tile's 32 operations; else sends its operation, and the core waits for it where it writes a register,
until it is performed. The checks of R115 take an address of the region form to the tile its logical number names, and one of a group window
to the package slot of the region's group, the group's existence before the save frame; that the save frame comes before the alignment of 4 is
the model's reading (assumption 97). Model's choices: assumptions 9 and 97. -/
def Obligations.NetworkIssue : Prop :=
  (∀ (i : Instr) (s : State) (R : RemoteForm), i.wf = true → s.wf = true → s.cur < 2048 → remoteForm s i = some R →
    (∀ id, R.blocks = true → s.core.waitOp = some id → exec i s = .next (if s.isLive id then s else s.advance)) ∧
    (s.core.waitOp = none ∨ R.blocks = false →
      (∀ t, checkAccess .remote R.rw R.n R.n R.ea s = .error (.trap t) s → exec i s = .next (s.takeTrap t)) ∧
      ∀ k, checkAccess .remote R.rw R.n R.n R.ea s = .ok (.mem k) s →
        (s.setDone R.ow = false ∨ 32 ≤ (s.netList s.cur).length → exec i s = .next s) ∧
        (s.setDone R.ow = true → (s.netList s.cur).length < 32 → ∃ t, exec i s = .next t ∧ NetSent s t R.om R.blocks R.ext (R.op k)))) ∧
  (∀ (i : Instr) (s : State) (ea : Word) (n : Nat) (reads : List Nat) (ow om : Nat) (blocks : Bool)
      (op : Nat → Nat → NetOp), i.wf = true → s.wf = true → s.cur < 2048 →
    groupForm s i = some (ea, n, reads, ow, om, blocks, op) → (∀ c ∈ reads, s.core.badReg.contains c = false) →
    (∀ id, blocks = true → s.core.waitOp = some id → exec i s = .next (if s.isLive id then s else s.advance)) ∧
    (s.core.waitOp = none ∨ blocks = false →
      (∀ t, groupAccess ea n s = .error (.trap t) s → exec i s = .next (s.takeTrap t)) ∧
      ∀ g off, groupAccess ea n s = .ok (g, off) s →
        (s.setDone ow = false ∨ 32 ≤ (s.netList s.cur).length → exec i s = .next s) ∧
        (s.setDone ow = true → (s.netList s.cur).length < 32 →
          ∃ t, exec i s = .next t ∧ NetSent s t om blocks (!blocks) (op g off)))) ∧
  (∀ (s : State) (n : Nat) (ea : Word), s.cur < 2048 →
    let e := ea.toNat
    let g := e / 2 ^ 19 % 2 ^ 10
    let off := e % 2 ^ 19
    let trap (code i1 : Nat) : Stop := .trap { code := code, i0 := ea, i1 := exact i1, i3 := s.regionInfo }
    (e < 2 ^ 47 ∨ (0xF00000000000 ≤ e ∧ e < 0xF20000000000) → groupAccess ea n s = .error (trap 5 8) s) ∧
    (0xF20020000000 ≤ e → e < 0xF30000000000 → groupAccess ea n s = .error (trap 5 9) s) ∧
    (0xF20000000000 ≤ e → e < 0xF20020000000 →
      (s.groupOf (s.regionOf s.cur) g = none → groupAccess ea n s = .error (trap 6 g) s) ∧
      ∀ slot x, s.groupOf (s.regionOf s.cur) g = some (slot, x) →
        (n = 0 → groupAccess ea n s = .ok (slot, off) s) ∧
        (n ≠ 0 → 0x7C000 < off + n → groupAccess ea n s = .error (trap 5 7) s) ∧
        (n ≠ 0 → off + n ≤ 0x7C000 → off % 4 ≠ 0 → groupAccess ea n s = .error (trap 3 4) s) ∧
        (n ≠ 0 → off + n ≤ 0x7C000 → off % 4 = 0 → groupAccess ea n s = .ok (slot, off) s))) ∧
  ∀ (s : State) (rw : Rw) (n l : Nat) (ea : Word), s.cur < 2048 → n ≠ 0 → 0xF10000000000 ≤ ea.toNat → ea.toNat < 0xF10040000000 →
    ea.toNat / 2 ^ 19 % 2 ^ 11 = l →
    ((s.region (s.regionOf s.cur)).resolve l = none →
      checkAccess .remote rw n n ea s = .error (.trap { code := 0x06, i0 := ea, i1 := exact l, i3 := s.regionInfo }) s) ∧
    ∀ p, (s.region (s.regionOf s.cur)).resolve l = some p →
      (0x7C000 < ea.toNat % 2 ^ 19 + n →
        checkAccess .remote rw n n ea s = .error (.trap { code := 0x05, i0 := ea, i1 := 7, i3 := s.regionInfo }) s) ∧
      (ea.toNat % 2 ^ 19 + n ≤ 0x7C000 → ea.toNat % n = 0 → checkAccess .remote rw n n ea s = .ok (.mem (tileBase p + ea.toNat % 2 ^ 19)) s)

/-- R121, R259, R260: at its bank an `rld` takes the bytes it reads, an `rst` writes its bytes, a `ramo` takes the old bytes and leaves its
operation's value, as one operation, and no other byte changes; none is performed before an earlier one of its tile that touches a common
byte; a word in error answers ECC_UNCORR. The response gives the firing that waits the value, extended as its SX says, or the trap against the
word that issued it, and the operation is over; a firing that has ended gets nothing (assumption 47), nor does one whose trap has been
presented, and a trap waits while an operation issued before it may still trap (assumption 43). Model's choices: assumptions 43 and 47. -/
def Obligations.RemoteEffects : Prop :=
  ∀ (s : State) (p i : Nat) (op : NetOp), s.wf = true → p < 2048 → (s.netList p)[i]? = some op →
    let put (t : State) (op' : NetOp) : Prop := t.netList p = (s.netList p).set i op' ∧ ∀ q, q ≠ p → t.netList q = s.netList q
    let region : Word := exact (s.regionOf p)
    let first := s.precedes p ((s.netList p).take i) false op.key op.n = false
    (∀ o ∈ (s.netList p).take i, o.st = .sent → o.kind = .rld ∨ o.kind = .rst ∨ o.kind = .ramo →
      op.key < o.key + o.n → o.key < op.key + op.n → exec (.remoteAccessApply p i) s = .next s) ∧
    ((∀ o ∈ (s.netList p).take i, o.st ≠ .sent) → first) ∧
    (op.st = .sent → first → op.kind = .rld → s.readBad op.key op.n = false → ∃ t, exec (.remoteAccessApply p i) s = .next t ∧
      t = { s with netOps := t.netOps } ∧ put t { op with st := .applied, val := little s op.key op.n }) ∧
    (op.st = .sent → first → op.kind = .rst → s.writeBad op.key op.n = false → ∃ t, exec (.remoteAccessApply p i) s = .next t ∧
      t = { s with netOps := t.netOps, mem := t.mem, bad := t.bad } ∧ put t { op with st := .applied } ∧
      little t op.key op.n = op.data % 2 ^ (8 * op.n) ∧
      ∀ a, (a < op.key ∨ op.key + op.n ≤ a) → byteAt t a = byteAt s a) ∧
    (op.st = .sent → first → op.kind = .ramo → s.readBad op.key op.n = false → ∃ t, exec (.remoteAccessApply p i) s = .next t ∧
      t = { s with netOps := t.netOps, mem := t.mem, bad := t.bad } ∧ put t { op with st := .applied, val := little s op.key op.n } ∧
      little t op.key op.n = remoteAtomic op.o op.n (little s op.key op.n) op.b op.data % 2 ^ (8 * op.n) ∧
      ∀ a, (a < op.key ∨ op.key + op.n ≤ a) → byteAt t a = byteAt s a) ∧
    (op.st = .sent → first → op.kind = .rld ∨ op.kind = .ramo → s.readBad op.key op.n = true → ∃ t, exec (.remoteAccessApply p i) s = .next t ∧
      t.mem = s.mem ∧ put t { op with st := .applied, trap := some { code := 0x16, i0 := op.ea, i1 := 1, i3 := region } }) ∧
    (op.st = .sent → first → op.kind = .rst → s.writeBad op.key op.n = true → ∃ t, exec (.remoteAccessApply p i) s = .next t ∧
      t.mem = s.mem ∧ put t { op with st := .applied, trap := some { code := 0x16, i0 := op.ea, i1 := 3, i3 := region } }) ∧
    (op.st = .applied → op.orphan = true ∨ (∃ f, (s.tile p).firing = some f ∧ f.trapped = true ∧ f.fault = none) →
      ∃ t, exec (.remoteResponse p i) s = .next t ∧ t.netList p = (s.netList p).eraseIdx i ∧ t = { s with netOps := t.netOps, live := t.live } ∧
        ∀ id, t.isLive id = (s.isLive id && id != op.id)) ∧
    (op.st = .applied → op.orphan = false → op.trap = none → op.kind = .rld ∨ op.kind = .ramo ∨ op.kind = .rst → op.d < 32 →
      (∀ f, (s.tile p).firing = some f → f.trapped = false ∧ f.fault = none) → ∃ t, exec (.remoteResponse p i) s = .next t ∧ t.netList p = (s.netList p).eraseIdx i ∧
        (∀ id, t.isLive id = (s.isLive id && id != op.id)) ∧ t.mem = s.mem ∧
        (∀ n, (t.coreAt p).sreg n = if n = op.d ∧ n ≠ 0 ∧ op.kind ≠ .rst then
          (if op.sx then exact (sx (8 * op.n) op.val) else exact op.val) else (s.coreAt p).sreg n) ∧
        t.coreAt p = { s.coreAt p with s := (t.coreAt p).s, fstat := (t.coreAt p).fstat } ∧ (t.coreAt p).fstat = (s.coreAt p).fstat ∧
        ∀ m, m ≠ p → t.coreAt m = s.coreAt m) ∧
    ∀ tr f, op.st = .applied → op.orphan = false → op.trap = some tr → (s.tile p).firing = some f → f.trapped = false → f.fault = none →
      ((withoutOp s p i op).mayTrap p op.id = false →
        ∃ t, exec (.remoteResponse p i) s = .next t ∧ (t.tile p).record[0] = exact (tr.code + (if tr.sw then 256 else 0) : Nat) ∧
          (t.tile p).record[1] = op.pc ∧ (t.tile p).record[2] = tr.i0) ∧
      ((withoutOp s p i op).mayTrap p op.id = true → ∃ t, exec (.remoteResponse p i) s = .next t ∧
        (t.tile p).firing = some { f with trapped := true, fault := some (op.id, op.pc, tr) })

/-- R271, R273: a `barr` or `barx` at a well-formed record answers the phase joined, counts the arrival and its bytes, modulo the fields'
widths, and completes every phase that its arrivals fill while the balance is zero; no byte outside the record changes; an ill-formed record,
TARGET zero or a reserved field that is not, answers FORMAT with the field and its offset. A held `barw` returns the phase once it is past its
operand, or takes FORMAT alike; a refused one is held when the unit has room. Model's choices: assumptions 27, 37. -/
def Obligations.Barriers : Prop :=
  ∀ (s : State) (p i : Nat) (op : NetOp), s.wf = true → p < 2048 → (s.netList p)[i]? = some op →
    let target := little s op.key 4
    let arrived := little s (op.key + 4) 4
    let bytes := little s (op.key + 8) 8
    let phase := little s (op.key + 16) 8
    let good := s.readBad op.key 32 = false ∧ target ≠ 0 ∧ little s (op.key + 24) 8 = 0
    let put (t : State) (op' : NetOp) : Prop := t.netList p = (s.netList p).set i op'
    (∀ a b, op.st = .sent → (op.kind = .barr ∧ a = (arrived + 1) % 2 ^ 32 ∧ b = (bytes + op.b) % 2 ^ 64) ∨
        (op.kind = .barx ∧ op.b < 2 ^ 64 ∧ a = arrived ∧ b = (bytes + 2 ^ 64 - op.b) % 2 ^ 64) → good →
      ∃ t, exec (.barrierUpdate p i) s = .next t ∧ t = { s with netOps := t.netOps, mem := t.mem, bad := t.bad } ∧
        put t { op with st := .applied, val := (phase + arrived / target) % 2 ^ 64 } ∧
        little t op.key 4 = target ∧ little t (op.key + 8) 8 = b ∧
        little t (op.key + 4) 4 = (if b = 0 then a % target else a) ∧
        little t (op.key + 16) 8 = (if b = 0 then (phase + a / target) % 2 ^ 64 else phase) ∧
        ∀ x, (x < op.key + 4 ∨ op.key + 24 ≤ x) → byteAt t x = byteAt s x) ∧
    (op.st = .sent → op.kind = .barr ∨ op.kind = .barx → s.readBad op.key 32 = false → target = 0 →
      ∃ t, exec (.barrierUpdate p i) s = .next t ∧ t = { s with netOps := t.netOps } ∧
        put t { op with st := .applied, trap := some { code := 0x15, i0 := 0, i1 := 0 } }) ∧
    (op.st = .sent → op.kind = .barr ∨ op.kind = .barx → s.readBad op.key 32 = false → target ≠ 0 → little s (op.key + 24) 8 ≠ 0 →
      ∃ t, exec (.barrierUpdate p i) s = .next t ∧ t = { s with netOps := t.netOps } ∧
        put t { op with st := .applied, trap := some { code := 0x15, i0 := exact (little s (op.key + 24) 8), i1 := 24 } }) ∧
    (∀ f, op.st = .held → op.kind = .barw → s.readBad op.key 32 = false → target = 0 ∨ little s (op.key + 24) 8 ≠ 0 → op.orphan = false →
      (s.tile p).firing = some f → f.trapped = false → f.fault = none → (withoutOp s p i op).mayTrap p op.id = false →
      ∃ t, exec (.barwRelease p i) s = .next t ∧ t.netList p = (s.netList p).eraseIdx i ∧ (t.tile p).record[0] = 0x15 ∧
        (t.tile p).record[1] = op.pc ∧ (t.tile p).record[2] = (if target = 0 then 0 else exact (little s (op.key + 24) 8)) ∧
        (t.tile p).record[3] = if target = 0 then 0 else 24) ∧
    (op.st = .held → op.kind = .barw → good → op.orphan = false → op.trap = none → op.d < 32 →
      (∀ f, (s.tile p).firing = some f → f.trapped = false ∧ f.fault = none) →
      (phase ≤ op.b → exec (.barwRelease p i) s = .next s) ∧
      (op.b < phase → ∃ t, exec (.barwRelease p i) s = .next t ∧ t.netList p = (s.netList p).eraseIdx i ∧
        (∀ id, t.isLive id = (s.isLive id && id != op.id)) ∧
        ∀ n, (t.coreAt p).sreg n = if n = op.d ∧ n ≠ 0 then exact phase else (s.coreAt p).sreg n)) ∧
    (op.st = .refused → (s.heldAt op.key < 64 → ∃ t, exec (.barwResend p i) s = .next t ∧ t = { s with netOps := t.netOps } ∧
        put t { op with st := .held }) ∧
      (64 ≤ s.heldAt op.key → exec (.barwResend p i) s = .next s))

/-- R263, R266 to R269: an overprint operation samples its group's absent members once, those of which R263 says so, and with one absent under
FAIL answers GROUP_ABSENT with their number, the least and the bits of 64; each present member is read or written once; when all are done `ovld` gives D the tree's results over the members' values and
the identity for absent ones, with its flags, `ovst` sets SKIP where it left members out, and a member in error makes either take
GROUP_FAULT with the least such index, an element of an `ovst` on such a word leaving it unchanged; `grpstat` gives the counts or 64 of the
bits. The tree's result at each element is that of the node that level by level combines the members' values two by two, an odd last one
passing up: 32-bit wrapping sums, maximum and minimum by signedness, the bitwise functions, or f32 sums rounded to nearest and the maximum and
minimum of R86. -/
def Obligations.Overprint : Prop :=
  ∀ (s : State) (p i : Nat) (op : NetOp) (g : Group), s.wf = true → p < 2048 → (s.netList p)[i]? = some op →
    Sparse.get none s.groups op.key = some g →
    let absent := (List.range g.members.length).filter (fun j => s.absentTile g.region ((g.members[j]?).getD 0))
    let put (t : State) (op' : NetOp) : Prop := t.netList p = (s.netList p).set i op'
    (∀ j, j ∈ absent ↔ j < g.members.length ∧ Absent s g.region ((g.members[j]?).getD 0)) ∧
    (op.st = .sent → op.abs = none → op.kind = .ovld ∨ op.kind = .ovst → ∃ t, exec (.overprintSample p i) s = .next t ∧
      t = { s with netOps := t.netOps } ∧
      put t { op with abs := some absent, trap := if absent = [] ∨ g.skip = true then none else some (groupAbsent op.ea absent) }) ∧
    (op.st = .sent → op.kind = .grpstat → op.n = 0 → ∃ t, exec (.overprintSample p i) s = .next t ∧ t = { s with netOps := t.netOps } ∧
      put t { op with st := .applied, abs := some [], val := g.members.length + (if g.skip then 4096 else 0) + absent.length * 8192 }) ∧
    (op.st = .sent → op.kind = .grpstat → 1 ≤ op.n → op.n ≤ 32 → ∃ t, exec (.overprintSample p i) s = .next t ∧
      t = { s with netOps := t.netOps } ∧
      put t { op with st := .applied, abs := some [], val := bitSet 64 (fun q => absent.contains (64 * (op.n - 1) + q)) }) ∧
    (∀ o ty n (xs : List (Option Nat)), o ≤ 5 → o ≤ 2 ∨ ty ≤ 6 → ty ∈ [5, 6, 10, 11, 12] → xs ≠ [] → xs.length ≤ 2048 → n % 4 = 0 →
      let w := elemWidth ty
      let value (e : Nat) : Nat × Nat := memberNode o ty xs.length (fun k => memberLeaf o ty w e (xs[k]?.getD none)) 12 0
      (∀ e, e < 8 * n / w → (overResult o ty n xs).1 / 2 ^ (32 * e) % 2 ^ 32 = (value e).1 % 2 ^ 32) ∧
      (overResult o ty n xs).1 < 2 ^ (32 * (8 * n / w)) ∧
      ∀ q, (overResult o ty n xs).2.testBit q = decide (∃ e, e < 8 * n / w ∧ (value e).2.testBit q = true)) ∧
    (∀ abs j q o, op.st = .sent → op.trap = none → op.abs = some abs → j < g.members.length → j ∉ abs → (∀ e ∈ op.got, e.1 ≠ j) →
      (s.region g.region).resolve ((g.members[j]?).getD 0) = some q → o ∈ (s.netList p).take i → o.st = .sent → o.trap = none →
      o.kind = .ovld ∨ o.kind = .ovst → o.key = op.key → (∀ a, o.abs = some a → j ∉ a) → (∀ e ∈ o.got, e.1 ≠ j) →
      o.off < op.off + op.n → op.off < o.off + o.n → exec (.overprintMemberAccess p i j) s = .next s) ∧
    (∀ abs j q, op.st = .sent → op.trap = none → op.abs = some abs → j < g.members.length → j ∉ abs → (∀ e ∈ op.got, e.1 ≠ j) →
      (s.region g.region).resolve ((g.members[j]?).getD 0) = some q →
      s.precedes p ((s.netList p).take i) true (tileBase q + op.off) op.n = false →
      (op.kind = .ovld → s.readBad (tileBase q + op.off) op.n = true → ∃ t, exec (.overprintMemberAccess p i j) s = .next t ∧
        t = { s with netOps := t.netOps, hardErr := t.hardErr, counted := t.counted } ∧
        put t { op with got := op.got ++ [(j, little s (tileBase q + op.off) op.n)], faulty := op.faulty ++ [j] }) ∧
      (op.kind = .ovst → op.n % 4 = 0 → s.readBad (tileBase q + op.off) op.n = true → ∃ t, exec (.overprintMemberAccess p i j) s = .next t ∧
        t = { s with netOps := t.netOps, mem := t.mem, bad := t.bad, hardErr := t.hardErr, counted := t.counted } ∧
        put t { op with got := op.got ++ [(j, 0)], faulty := op.faulty ++ [j] } ∧
        (∀ e, e < op.n / 4 → little t (tileBase q + op.off + 4 * e) 4 = if s.readBad (tileBase q + op.off + 4 * e) 4 = true
          then little s (tileBase q + op.off + 4 * e) 4 else op.data / 2 ^ (32 * e) % 2 ^ 32) ∧
        ∀ a, (a < tileBase q + op.off ∨ tileBase q + op.off + op.n ≤ a) → byteAt t a = byteAt s a) ∧
      (op.kind = .ovld → s.readBad (tileBase q + op.off) op.n = false → ∃ t, exec (.overprintMemberAccess p i j) s = .next t ∧
        t = { s with netOps := t.netOps } ∧ put t { op with got := op.got ++ [(j, little s (tileBase q + op.off) op.n)] }) ∧
      (op.kind = .ovst → op.n % 4 = 0 → s.readBad (tileBase q + op.off) op.n = false → ∃ t, exec (.overprintMemberAccess p i j) s = .next t ∧
        t = { s with netOps := t.netOps, mem := t.mem, bad := t.bad } ∧ put t { op with got := op.got ++ [(j, 0)] } ∧
        little t (tileBase q + op.off) op.n = op.data % 2 ^ (8 * op.n) ∧
        ∀ a, (a < tileBase q + op.off ∨ tileBase q + op.off + op.n ≤ a) → byteAt t a = byteAt s a)) ∧
    (∀ abs, op.abs = some abs → op.trap = none → op.orphan = false → (∀ j, j < g.members.length → j ∈ abs ∨ ∃ e ∈ op.got, e.1 = j) →
      op.faulty = [] → (∀ f, (s.tile p).firing = some f → f.trapped = false ∧ f.fault = none) →
      let xs := (List.range g.members.length).map (fun j => (op.got.find? (fun e => e.1 = j)).map Prod.snd)
      (op.kind = .ovld → 32 ≤ op.d → op.d < 64 → ∃ t, exec (.overprintComplete p i) s = .next t ∧
        t.netList p = (s.netList p).eraseIdx i ∧ (t.coreAt p).vreg op.d = BitVec.ofNat 2048 (overResult op.o op.ty op.n xs).1 ∧
        (t.coreAt p).fstat = (s.coreAt p).fstat ||| exact ((overResult op.o op.ty op.n xs).2 % 128 : Nat)) ∧
      (op.kind = .ovst → ∃ t, exec (.overprintComplete p i) s = .next t ∧ t.netList p = (s.netList p).eraseIdx i ∧
        (t.coreAt p).fstat = (s.coreAt p).fstat ||| (if abs = [] then 0 else 64))) ∧
    (∀ abs x f, op.abs = some abs → op.trap = none → op.orphan = false → op.kind ≠ .grpstat →
      (∀ j, j < g.members.length → j ∈ abs ∨ ∃ e ∈ op.got, e.1 = j) → x ∈ op.faulty → (∀ y ∈ op.faulty, x ≤ y) →
      (s.tile p).firing = some f → f.trapped = false → f.fault = none → (withoutOp s p i op).mayTrap p op.id = false →
      ∃ t, exec (.overprintComplete p i) s = .next t ∧ (t.tile p).record[0] = 0x0D ∧ (t.tile p).record[2] = op.ea ∧
        (t.tile p).record[3] = exact x ∧ (t.tile p).record[4] = exact op.off)

/-- R222, R225, R226: vector loads, stores and atomics. -/
def Obligations.VectorMemoryAccess : Prop := VectorMemory ∧ VectorAtomics

namespace Sys2Proof.Claims

/-! ## The matrix engine -/

/-- The word of a matrix instruction, its guard apart (R137, R287). -/
def matrixWord (fn d a b ow om sc low : Nat) : Nat :=
  0x90 * 2 ^ 56 + fn * 2 ^ 46 + d * 2 ^ 40 + a * 2 ^ 34 + b * 2 ^ 28 + ow * 2 ^ 24 + om * 2 ^ 20 + sc * 2 ^ 16 + low

/-- What a matrix instruction queues: its function, OW and OM, the checks it makes at issue, and the command, whose number, address and
waits the queue gives it. -/
structure MatrixForm where
  fn : Nat
  ow : Nat
  om : Nat
  checks : M Unit := pure ()
  cmd : MatCmd

/-- R287 to R298: the instructions of MAJ 0x90 that queue a command. -/
def matrixForm (s : State) (i : Instr) : Option MatrixForm :=
  let cmd (w av bv : Nat) : MatCmd := { id := 0, word := w, av := av, bv := bv, draw := 0, pc := 0, waits := [] }
  match i with
  | .mclaim d ow om sc keep n1 => some { fn := 0, ow := ow, om := om, cmd := cmd (matrixWord 0 d 0 0 ow om sc (64 * keep + n1)) 0 0 }
  | .mrel d ow om sc n1 => some { fn := 1, ow := ow, om := om, cmd := cmd (matrixWord 1 d 0 0 ow om sc n1) 0 0 }
  | .mld d a b ow om sc rcnt =>
    some { fn := 2, ow := ow, om := om,
           checks := do
             matAlign (s.sreg a) 64
             matAlign (s.sreg b) 64
             checkRows (s.sreg a) (s.sreg b) (List.range (rcnt + 1)),
           cmd := cmd (matrixWord 2 d a b ow om sc (2048 * rcnt)) (s.sreg a).toNat (s.sreg b).toNat }
  | .mldScl d a ow om sc rcnt =>
    some { fn := 2, ow := ow, om := om,
           checks := do
             matAlign (s.sreg a) 4
             let _ ← checkAccess .ownTile .read (4 * (rcnt + 1)) 4 (s.sreg a),
           cmd := cmd (matrixWord 2 d a 0 ow om sc (2048 * rcnt + 1024)) (s.sreg a).toNat 0 }
  | .mldw d a b ow om sc port rcnt =>
    some { fn := 3, ow := ow, om := om,
           checks := do
             matAlign (s.sreg b) 64
             checkTokenRows (s.sreg a).toNat (s.sreg b).toNat port (List.range (rcnt + 1)),
           cmd := cmd (matrixWord 3 d a b ow om sc (4096 * port + 128 * rcnt)) (s.sreg a).toNat (s.sreg b).toNat }
  | .mgath d a b ow om sc ty rcnt =>
    some { fn := 4, ow := ow, om := om,
           checks := do let _ ← checkAccess .ownTile .read 16 16 (s.sreg a),
           cmd := cmd (matrixWord 4 d a b ow om sc (4096 * ty + 128 * rcnt)) (s.sreg a).toNat (s.sreg b).toNat }
  | .mtr d a ow om sc ty => some { fn := 5, ow := ow, om := om, cmd := cmd (matrixWord 5 d a 0 ow om sc (4096 * ty)) 0 0 }
  | .mzero d ow om sc mc nc ty row =>
    some { fn := 6, ow := ow, om := om, cmd := cmd (matrixWord 6 d 0 0 ow om sc (2 ^ 14 * mc + 256 * nc + 16 * ty + 4 * row)) 0 0 }
  | .mma d a b ow om sc mc nc ty row st1 fin =>
    some { fn := 7, ow := ow, om := om,
           cmd := cmd (matrixWord 7 d a b ow om sc (2 ^ 14 * mc + 256 * nc + 16 * ty + 4 * row + 2 * st1 + fin)) 0 0 }
  | .mmag d a b ow om sc ldr nc ty st1 fin =>
    some { fn := 8, ow := ow, om := om,
           cmd := { cmd (matrixWord 8 d a b ow om sc (4096 * ldr + 64 * nc + 4 * ty + 2 * st1 + fin)) 0 0 with gang := (s.mat s.cur).gang + 1 } }
  | .mdrain d a ow om sc mc nc row keep =>
    some { fn := 9, ow := ow, om := om,
           checks := do let _ ← checkAccess .ownTile .read 64 64 (s.sreg a),
           cmd := { cmd (matrixWord 9 d a 0 ow om sc (2 ^ 14 * mc + 256 * nc + 4 * row + 2 * keep)) (s.sreg a).toNat 0 with
                    draw := s.core.draws } }
  | _ => none

/-- R284, R286: a command has been queued with the projected tags it leaves; its operation joins OM's set; nothing else has changed but
the gang count and the mark of an `mmag` (R297) and the draw of an `mdrain` (R82). -/
structure MatrixQueued (F : MatrixForm) (sl : Sparse SlotTag) (bl : Sparse BlockTag) (s t : State) : Prop where
  mat : t.mat s.cur = { s.mat s.cur with
    pslots := sl, pblocks := bl, gang := if F.fn = 8 then (s.mat s.cur).gang + 1 else (s.mat s.cur).gang,
    queue := (s.mat s.cur).queue ++
      [{ F.cmd with id := s.nextId, word := F.cmd.word + s.core.ir / 2 ^ 52 % 16 * 2 ^ 52, pc := s.core.pc, waits := s.core.oset F.ow }] }
  mats : ∀ p, p ≠ s.cur → t.mat p = s.mat p
  live : t.live = s.live ++ [{ id := s.nextId, core := s.cur, eng := true }]
  nextId : t.nextId = s.nextId + 1
  core : t.core = { s.core.advance with o := t.core.o, draws := if F.fn = 9 then s.core.draws + 1 else s.core.draws }
  sets : ∀ x, x < 16 → t.core.oset x = if x = F.om ∧ F.om ≠ 0 then s.core.oset F.om ++ [s.nextId] else s.core.oset x
  firing : t.myTile = { s.myTile with firing := s.myTile.firing.map (fun f => { f with noRetry := f.noRetry || decide (F.fn = 8) }) }
  cores : ∀ m, m ≠ s.cur → t.coreAt m = s.coreAt m
  tiles : ∀ p, p ≠ s.cur → t.tile p = s.tile p
  rest : t = { s with mats := t.mats, live := t.live, nextId := t.nextId, cores := t.cores, tiles := t.tiles }

/-- The memories of the matrix engines hold no uncorrectable error. -/
def matrixSound (s : State) : Prop := ∀ w ∈ s.bad, w + 8 ≤ 2 ^ 43 ∨ 2 ^ 46 ≤ w

/-- R90, R91: element (i, j) of the product of a command's operands on tile p, added to the accumulator's unless it starts afresh, and the flags
it raises: integers exactly and saturated to i32, floating values exactly and rounded once to f32. The operands are those of state o. -/
def product (o s : State) (p : Nat) (c : MatCmd) (i j : Nat) : Nat × Nat :=
  let prior := little s (accKey p (16 * c.row + i) (16 * c.d + j)) 4
  if c.ty ≤ 6 then
    let dot := (((o.operandInts p c.a c.ty i).zip (o.operandInts p c.b c.ty j)).map (fun x => x.1 * x.2)).sum + if c.st then 0 else sx 32 prior
    (modulo 32 (max (-(2 ^ 31 : Int)) (min (2 ^ 31 - 1 : Int) dot)), if dot < -(2 ^ 31) ∨ 2 ^ 31 ≤ dot then 32 else 0)
  else
    let ps := ((o.operandRow p c.a c.ty i).zip (o.operandRow p c.b c.ty j)).map (fun x => Machine.Num.mul x.1 x.2)
    let sum := Num.sum 0 ((if c.st then [] else [decodeTy 12 prior]) ++ ps.map Prod.fst)
    let r := (fmtOf 12).round 0 0 sum.1
    (r.1, ((ps.map Prod.snd).foldl (· ||| ·) 0) ||| sum.2 ||| r.2)

/-- The state that the work of a command of tile p sees: it is that tile's turn, and what the command waits for it has waited for since its
first try (R324). -/
def atWork (s : State) (p : Nat) (c : MatCmd) : State := { s with cur := p }.setCoreAt p { s.coreAt p with issued := c.since }

/-- An own-tile address reaches n bytes at key k that can be read (R115, R324, R468). -/
structure RowAt (u : State) (ea : Word) (n align k : Nat) : Prop where
  checked : checkAccess .ownTile .read n align ea u = .ok (.mem k) u
  fetched : awaitFetch k n u = .ok () u
  sound : u.readBad k n = false

/-- The same for a tile-memory offset. -/
structure OffsetAt (u : State) (off n : Nat) : Prop where
  below : off + n ≤ 0x7C000
  fetched : awaitFetch (tileBase u.cur + off) n u = .ok () u
  sound : u.readBad (tileBase u.cur + off) n = false

/-- R287 to R299: what a command that starts leaves beside its work: it is marked as started with its flags, and nothing but memory and its
queue differs; the bytes outside the keys it names are as they were. -/
structure CmdStarted (s t : State) (p i : Nat) (c : MatCmd) (fl : Nat) (wrote : Nat → Prop) : Prop where
  queue : t.mat p = { s.mat p with queue := (s.mat p).queue.set i { c with started := true, flags := fl, flits := [] } }
  mats : ∀ q, q ≠ p → t.mat q = s.mat q
  bytes : ∀ a, ¬ wrote a → byteAt t a = byteAt s a
  rest : t = { s with mem := t.mem, bad := t.bad, mats := t.mats }

/-- The keys of the rows and of the scale area of a slot (R278). -/
def slotRows (p q a : Nat) : Prop := rowKey p q 0 ≤ a ∧ a < rowKey p q 0 + 2048
def slotScales (p q a : Nat) : Prop := sclKey p q 0 ≤ a ∧ a < sclKey p q 0 + 128

/-- The bytes of a command's region of accumulator memory (R279). -/
def regionBytes (p : Nat) (c : MatCmd) (a : Nat) : Prop := ∃ r j, r < c.m ∧ j < c.n ∧
  accKey p (16 * c.row + r) (16 * c.d + j) ≤ a ∧ a < accKey p (16 * c.row + r) (16 * c.d + j) + 4

/-- Element k of width w of a row held as a number (R68). -/
def elementOf (w row k : Nat) : Nat := row / 2 ^ (w * k) % 2 ^ w

/-- R300: the stipple generator, its loop over the four constants written out. -/
def stippled (seed inst row col : Word) : Word :=
  ([0xB7E151630F4A9C2B, 0xE4D28A6F3B19C705, 0x8F6CB3A15D27E0E9, 0x9A3C5E71D2B48F0D] : List Word).foldl
    (fun x c => let y := (x ^^^ (x >>> 31)) * c; y ^^^ (y >>> 27))
    (seed ^^^ 0x5C1F0B938E72D4A6 ^^^ (inst * 0xD0E14C87A3B5962F) ^^^ ((row * 0x83A5C2F17B09DE4B) ^^^ (col * 0xF1C359A72E86B0D3)))

/-- R298: the fields of the drain record at key k have the values the rule allows. -/
structure DrainRecord (s : State) (k : Nat) : Prop where
  doff : little s k 4 % 4 = 0
  dstr : little s (k + 4) 4 % 4 = 0
  dtype : little s (k + 8) 1 % 16 ≤ 12
  dround : little s (k + 8) 1 / 16 ≤ 5
  dport : little s (k + 9) 1 = 0 ∨ 8 ≤ little s (k + 9) 1 ∧ little s (k + 9) 1 ≤ 15
  dflags : little s (k + 10) 2 < 4
  roff : little s (k + 16) 4 % 4 = 0
  rstr : little s (k + 20) 4 % 4 = 0
  rtype : little s (k + 10) 2 % 2 = 1 → little s (k + 24) 1 % 16 ∈ [1, 2, 3, 4, 5, 6, 8, 9, 10, 11, 12]
  rhigh : little s (k + 24) 1 < 16
  zero1 : little s (k + 25) 3 = 0
  dkeep : little s (k + 28) 4 ≤ 65536
  zero2 : little s (k + 48) 16 = 0

/-- R299: element (i, j) that a drain by the record at key k delivers, and its flags: the accumulator's value times SCALE, with the residual
where RES asks for it, converted once; zero without flags where dropout takes it. -/
def drained (s : State) (p : Nat) (c : MatCmd) (k i j : Nat) : Nat × Nat :=
  let field (o n : Nat) : Nat := little s (k + o) n
  let r := s.region (s.regionOf p)
  let dt := field 8 1 % 16
  let rnd := field 8 1 / 16
  let rt := field 24 1
  if field 10 2 / 2 = 1 ∧ field 28 4 ≤
      (stippled r.seed r.instKey (exact (field 32 8 + i : Nat)) (exact ((field 40 4 + j) % 2 ^ 32 : Nat))).toNat % 65536 then (0, 0)
  else
    let x := little s (accKey p (16 * c.row + i) (16 * c.d + j)) 4
    let v := if (Sparse.get {} (s.mat p).blocks (64 * (c.row + i / 16) + c.d + j / 16)).int then Num.ofInt (sx 32 x) else decodeTy 12 x
    let y := Machine.Num.mul v (decodeTy 12 (field 12 4))
    let wr := elemWidth rt
    let e := elementOf wr (little s (tileBase p + field 16 4 + i * field 20 4) (c.n * wr / 8)) j
    let sum := Num.sum rnd (y.1 :: if field 10 2 % 2 = 1 then [decodeTy rt e] else [])
    let draw := if rnd = 5 then (stippled r.seed r.instKey
      (exact (((s.tile p).slot ((s.tile p).firing.map Firing.slot |>.getD 0)).firing % 2 ^ 48 + c.draw % 2 ^ 16 * 2 ^ 48 : Nat))
      (exact (2 ^ 32 + (i * c.n + j) : Nat))).toNat % 65536 else 0
    let z := if dt ≤ 6 then toIntTy dt rnd draw true sum.1 else (fmtOf dt).round rnd draw sum.1
    (z.1, y.2 ||| sum.2 ||| z.2)

end Sys2Proof.Claims

namespace Sys2Proof.Claims

/-- R282: the state of a slot after a use by a command of actor slot a; none where the table has no row. -/
def slotRow (a : Nat) (t : SlotTag) : SlotUse → Option SlotTag
  | .claim keep => if t.tag = 0 then some { tag := 1, owner := a, keep := keep, relp := false } else none
  | .write => if t.owner = a ∧ t.relp = false ∧ (t.tag = 1 ∨ (t.tag = 2 ∧ t.keep = false)) then some { t with tag := 2 } else none
  | .scl => if t.owner = a ∧ t.relp = false ∧ (t.tag = 1 ∨ (t.tag = 2 ∧ t.keep = false)) then some t else none
  | .read => if t.owner = a ∧ t.tag = 2 then some t else none
  | .rel =>
    if t.owner = a ∧ t.relp = false ∧ (t.tag = 1 ∨ t.tag = 2) then
      some (if t.keep then { t with relp := true } else { tag := 0, owner := 0, keep := false, relp := false })
    else none

/-- R284: the code of the state found, where a slot's use is refused. That RELP is named before KEEP is the model's choice (assumption 109). -/
def slotFound (a : Nat) (t : SlotTag) (u : SlotUse) : Nat :=
  if t.tag = 0 then 0
  else if t.owner ≠ a then 3
  else match u with
    | .claim _ => t.tag
    | .read => t.tag
    | _ => if t.relp then 4 else 5

/-- R284: the mask of the codes a use of a slot accepts: FREE for a claim, FULL for a read, EMPTY and FULL for the others. -/
def slotAccepts : SlotUse → Nat
  | .claim _ => 1
  | .read => 4
  | _ => 6

/-- R283: the same of a block: `int` and `fin` as the command's TYPE and `.fin` have it. -/
def blockRow (t : BlockTag) : BlockUse → Option BlockTag
  | .zero int => if t.tag = 0 then some { tag := 1, int := int } else none
  | .start int fin => if t.tag = 0 then some { tag := if fin then 2 else 1, int := int } else none
  | .acc int fin => if t.tag = 1 ∧ t.int = int then some { tag := if fin then 2 else 1, int := int } else none
  | .drain keep => if t.tag = 2 then some (if keep then t else { tag := 0, int := false }) else none

/-- R284: the code of the state a block was found in, and the mask of those its use accepts. -/
def blockFound (t : BlockTag) : BlockUse → Nat
  | .acc _ _ => if t.tag = 1 then 6 else t.tag
  | _ => t.tag
def blockAccepts : BlockUse → Nat
  | .acc _ _ => 2
  | .drain _ => 4
  | _ => 1

/-- R282, R283, R287, R288: what a command of tile p does to slot q and to block b. -/
structure CommandUses (c : MatCmd) (p : Nat) : Prop where
  slot : ∀ q u, (q, u) ∈ c.slots p ↔
    (c.fn = 0 ∧ c.d ≤ q ∧ q ≤ c.d + c.word % 64 ∧ u = .claim (c.word / 64 % 2 == 1)) ∨
    (c.fn = 1 ∧ c.d ≤ q ∧ q ≤ c.d + c.word % 64 ∧ u = .rel) ∨
    (c.fn = 2 ∧ q = c.d ∧ u = if c.word / 1024 % 2 = 1 then .scl else .write) ∨
    ((c.fn = 3 ∨ c.fn = 4) ∧ q = c.d ∧ u = .write) ∨
    (c.fn = 5 ∧ ((c.a ≤ q ∧ q < c.a + 16 / elemWidth c.ty ∧ u = .read) ∨ (c.d ≤ q ∧ q < c.d + 16 / elemWidth c.ty ∧ u = .write))) ∨
    ((c.fn = 7 ∨ c.fn = 8) ∧ ((c.a ≤ q ∧ q < c.a + (c.m + 31) / 32 ∧ u = .read) ∨
      (c.b ≤ q ∧ q < c.b + (c.n + 31) / 32 ∧ u = if c.fn = 8 ∧ p % 1024 / 32 % 4 * 4 + p % 4 ≠ c.ldr then .write else .read)))
  block : ∀ b u, (b, u) ∈ c.blocks ↔ (∃ g x, g < c.m / 16 ∧ x < c.n / 16 ∧ b = 64 * (c.row + g) + c.d + x) ∧
    ((c.fn = 6 ∧ u = .zero (decide (c.ty ≤ 6))) ∨
     ((c.fn = 7 ∨ c.fn = 8) ∧ u = if c.word / 2 % 2 = 1 then .start (decide (c.ty ≤ 6)) (c.word % 2 == 1)
       else .acc (decide (c.ty ≤ 6)) (c.word % 2 == 1)) ∨
     (c.fn = 9 ∧ u = .drain (c.word / 2 % 2 == 1)))

/-- R280 to R284: the uses a command makes of slots and blocks; the state each use leaves, or its refusal with the code of the state found;
a command all of whose uses the tables allow leaves those states and every other tag as it was, and one that some use refuses names the
least slot or block refused, the state found there and the codes accepted. -/
def TagTables : Prop :=
  (∀ (c : MatCmd) (p : Nat), c.m ≤ 64 → (c.fn = 5 → c.ty ∈ [0, 1, 2, 7, 8, 9, 10, 11]) → CommandUses c p) ∧
  (∀ (a : Nat) (us : List (Nat × SlotUse)) (m : Sparse SlotTag), Sparse.rising m = true → (∀ q, (Sparse.get {} m q).tag ≤ 2) →
    ((∀ x ∈ us, slotRow a (Sparse.get {} m x.1) x.2 ≠ none) → (us.map Prod.fst).Nodup → ∃ sl, stepSlots a us m = .ok sl ∧
      ∀ q, Sparse.get {} sl q = (match us.find? (fun x => x.1 = q) with
        | some x => (slotRow a (Sparse.get {} m q) x.2).getD {}
        | none => Sparse.get {} m q)) ∧
    ((∃ x ∈ us, slotRow a (Sparse.get {} m x.1) x.2 = none) → ∃ x ∈ us, slotRow a (Sparse.get {} m x.1) x.2 = none ∧
      (∀ y ∈ us, slotRow a (Sparse.get {} m y.1) y.2 = none → x.1 ≤ y.1) ∧
      stepSlots a us m = .error (x.1, slotFound a (Sparse.get {} m x.1) x.2, slotAccepts x.2))) ∧
  ∀ (us : List (Nat × BlockUse)) (m : Sparse BlockTag), Sparse.rising m = true → (us.map Prod.fst).Pairwise (· < ·) →
    ((∀ x ∈ us, blockRow (Sparse.get {} m x.1) x.2 ≠ none) → ∃ bl, stepBlocks us m = .ok bl ∧
      ∀ b, Sparse.get {} bl b = (match us.find? (fun x => x.1 = b) with
        | some x => (blockRow (Sparse.get {} m b) x.2).getD {}
        | none => Sparse.get {} m b)) ∧
    ((∃ x ∈ us, blockRow (Sparse.get {} m x.1) x.2 = none) → ∃ x ∈ us, blockRow (Sparse.get {} m x.1) x.2 = none ∧
      (∀ y ∈ us, blockRow (Sparse.get {} m y.1) y.2 = none → x.1 ≤ y.1) ∧
      stepBlocks us m = .error (0x100 + x.1, blockFound (Sparse.get {} m x.1) x.2, blockAccepts x.2))

end Sys2Proof.Claims

/-- R282 to R284, R286, R290 to R298, R306: a matrix instruction waits, the state as it was, while its engine's queue holds 32 commands; takes the
trap of its checks; takes SLOT_STATE, with the slot or block, the state found and the states it accepts, where a projected tag refuses it;
else queues its command and ends. Which slots and blocks each command uses, which states each use accepts and leaves, and what a refusal
names are the tables of R282 to R284. Model's choices: assumption 109. -/
def Obligations.MatrixIssue : Prop :=
  TagTables ∧ ∀ (i : Instr) (s : State) (F : MatrixForm), i.wf = true → s.wf = true → s.cur < 2048 → matrixForm s i = some F →
    let x := s.mat s.cur
    (32 ≤ x.queue.length → exec i s = .next s) ∧
    (x.queue.length < 32 →
      (∀ t s1, F.checks s = .error (.trap t) s1 → exec i s = .next (s1.takeTrap t)) ∧
      (F.checks s = .ok () s →
        let refused (e : Nat × Nat × Nat) : Trap :=
          { code := 0x14, i0 := exact e.1, i1 := exact e.2.1, i2 := exact e.2.2, i3 := exact (0x2400 + F.fn : Nat) }
        (∀ e, stepSlots s.aSlot (F.cmd.slots s.cur) x.pslots = .error e → exec i s = .next (s.takeTrap (refused e))) ∧
        ∀ sl, stepSlots s.aSlot (F.cmd.slots s.cur) x.pslots = .ok sl →
          (∀ e, stepBlocks F.cmd.blocks x.pblocks = .error e → exec i s = .next (s.takeTrap (refused e))) ∧
          ∀ bl, stepBlocks F.cmd.blocks x.pblocks = .ok bl → ∃ t, exec i s = .next t ∧ MatrixQueued F sl bl s t))

/-- R290 to R294: a command that may start does its work: `mclaim` sets its slots' scales to 1.0 and `mrel` touches no memory; `mld` fills a
slot with its rows and zero rows, `mld.scl` its scales with the bytes at its address and 0x7F; `mldw` fills a slot with the rows of a token and
zero rows; `mgath` places the elements of its sparse rows by their column indices, a repeated index keeping the later value, and sets the
scales to 1.0; `mtr` transposes. No other byte of memory changes. Model's choices: assumption 44. -/
def Sys2Proof.Claims.MatrixLoads : Prop :=
  ∀ (s : State) (p i : Nat) (c : MatCmd), s.wf = true → p < 2048 → (s.mat p).queue[i]? = some c → s.mayStart p i c = true →
    let u := atWork s p c
    (c.fn = 0 → c.d + c.word % 64 < 64 →
      ∃ t, exec (.matrixCmdStart p i) s = .next t ∧ CmdStarted s t p i c 0 (fun a => ∃ q, q ≤ c.word % 64 ∧ slotScales p (c.d + q) a) ∧
        ∀ q k, q ≤ c.word % 64 → k < 128 → byteAt t (sclKey p (c.d + q) k) = 0x7F) ∧
    (c.fn = 1 → ∃ t, exec (.matrixCmdStart p i) s = .next t ∧ CmdStarted s t p i c 0 (fun _ => False)) ∧
    (c.fn = 2 → c.word.testBit 10 = false → ∀ key : Nat → Nat, (∀ r, r < c.rows → RowAt u (exact (c.av + r * c.bv : Nat)) 64 64 (key r)) →
      ∃ t, exec (.matrixCmdStart p i) s = .next t ∧ CmdStarted s t p i c 0 (slotRows p c.d) ∧
        ∀ r, r < 32 → little t (rowKey p c.d r) 64 = if r < c.rows then little s (key r) 64 else 0) ∧
    (c.fn = 2 → c.word.testBit 10 = true → ∀ key, RowAt u (exact (c.av : Nat)) (4 * c.rows) 4 key →
      ∃ t, exec (.matrixCmdStart p i) s = .next t ∧ CmdStarted s t p i c 0 (slotScales p c.d) ∧
        ∀ k, k < 128 → byteAt t (sclKey p c.d k) = if k < 4 * c.rows then byteAt s (key + k) else 0x7F) ∧
    (c.fn = 3 → ∀ addr : Nat → Nat,
      (∀ r, r < c.rows → u.readBad (tileBase p + addr r) 64 = false ∧ ∃ k m, tokenAddr c.av (c.bv + 64 * r) 64 (bits c.word 12 4) u = .ok (k, m, addr r) u) →
      ∃ t, exec (.matrixCmdStart p i) s = .next t ∧ CmdStarted s t p i c 0 (slotRows p c.d) ∧
        ∀ r, r < 32 → little t (rowKey p c.d r) 64 = if r < c.rows then little s (tileBase p + addr r) 64 else 0) ∧
    (c.fn = 4 → elemWidth c.ty ∈ [4, 8, 16, 32] → ∀ key, RowAt u (exact (c.av : Nat)) 16 16 key →
      let w := elemWidth c.ty
      let ptr (n : Nat) : Nat := little s key 4 + 4 * n
      let idx (e : Nat) : Nat := little s (key + 4) 4 + 2 * e
      let val (e : Nat) : Nat := little s (key + 8) 4 + e * w / 8
      let first (j : Nat) : Nat := little s (tileBase p + ptr j) 4
      let column (e : Nat) : Nat := little s (tileBase p + idx e) 2
      let element (e : Nat) : Nat := if w = 4 then little s (tileBase p + val e) 1 / 16 ^ (e % 2) % 16 else little s (tileBase p + val e) (w / 8)
      let present (r : Nat) : Prop := r < c.rows ∧ c.bv + r < little s (key + 12) 4
      ptr 0 % 4 = 0 → idx 0 % 2 = 0 →
      (∀ r, present r → OffsetAt u (ptr (c.bv + r)) 4 ∧ OffsetAt u (ptr (c.bv + r + 1)) 4 ∧ first (c.bv + r) ≤ first (c.bv + r + 1) ∧
        first (c.bv + r + 1) ≤ first (c.bv + r) + 512 / w ∧ ∀ e, first (c.bv + r) ≤ e → e < first (c.bv + r + 1) →
          OffsetAt u (idx e) 2 ∧ column e < 512 / w ∧ OffsetAt u (val e) (max 1 (w / 8)) ∧ val e % max 1 (w / 8) = 0) →
      ∃ t, exec (.matrixCmdStart p i) s = .next t ∧ CmdStarted s t p i c 0 (fun a => slotRows p c.d a ∨ slotScales p c.d a) ∧
        (∀ k, k < 128 → byteAt t (sclKey p c.d k) = 0x7F) ∧
        ∀ r k, r < 32 → k < 512 / w →
          (∀ e, present r → first (c.bv + r) ≤ e → e < first (c.bv + r + 1) → column e = k →
            (∀ e', e < e' → e' < first (c.bv + r + 1) → column e' ≠ k) → elementOf w (little t (rowKey p c.d r) 64) k = element e) ∧
          ((present r → ∀ e, first (c.bv + r) ≤ e → e < first (c.bv + r + 1) → column e ≠ k) →
            elementOf w (little t (rowKey p c.d r) 64) k = 0)) ∧
    (c.fn = 5 → matrixSound s → elemWidth c.ty ∈ [4, 8, 16] →
      let w := elemWidth c.ty
      c.a + 16 / w ≤ 64 → c.d + 16 / w ≤ 64 →
      ∃ t, exec (.matrixCmdStart p i) s = .next t ∧
        CmdStarted s t p i c 0 (fun a => ∃ q, q < 16 / w ∧ (slotRows p (c.d + q) a ∨ slotScales p (c.d + q) a)) ∧
        (∀ q k, q < 16 / w → k < 128 → byteAt t (sclKey p (c.d + q) k) = 0x7F) ∧
        ∀ r k, r < 512 / w → k < 512 / w → elementOf w (little t (rowKey p (c.d + r / 32) (r % 32)) 64) k =
          elementOf w (little s (rowKey p (c.a + k / 32) (k % 32)) 64) r)

/-- R286, R90, R91, R295, R296, R306: `mzero` zeroes its region; `mma` leaves in each element of its region the product, raises the flags of all
of them, and changes no other byte; a command that traps leaves the queue, and, where no command before it will still run, its firing takes its
trap at the word that issued it. -/
def Sys2Proof.Claims.MatrixProducts : Prop :=
  ∀ (s : State) (p i : Nat) (c : MatCmd), s.wf = true → p < 2048 → (s.mat p).queue[i]? = some c → s.mayStart p i c = true →
    (c.fn = 6 → 16 * c.d + c.n ≤ 1024 → ∃ t, exec (.matrixCmdStart p i) s = .next t ∧ CmdStarted s t p i c 0 (regionBytes p c) ∧
      ∀ a, regionBytes p c a → byteAt t a = 0) ∧
    (c.fn = 7 → matrixSound s → 16 * c.d + c.n ≤ 1024 → ∃ t fl, exec (.matrixCmdStart p i) s = .next t ∧ CmdStarted s t p i c fl (regionBytes p c) ∧
      (∀ r j, r < c.m → j < c.n → little t (accKey p (16 * c.row + r) (16 * c.d + j)) 4 = (product s s p c r j).1 % 2 ^ 32) ∧
      ∀ b, fl.testBit b = true ↔ ∃ r j, r < c.m ∧ j < c.n ∧ (product s s p c r j).2.testBit b = true) ∧
    ∀ tr s1 f, c.fn ≠ 8 → startCmd c (atWork s p c) = .error (.trap tr) s1 →
      s1 = { s with cur := p, cores := s1.cores, mem := s1.mem, bad := s1.bad, hardErr := s1.hardErr, counted := s1.counted } →
      (s.tile p).firing = some f → f.trapped = false → f.fault = none →
      ((s.mapMat p (fun x => { x with queue := x.queue.filter (fun e => e.id ≠ c.id) })).retire c.id).mayTrap p c.id = false →
      ∃ t, exec (.matrixCmdStart p i) s = .next t ∧ (t.tile p).record[1] = c.pc ∧ (t.tile p).record[2] = tr.i0 ∧
        (t.tile p).record[0] = exact (tr.code + (if tr.sw then 256 else 0) : Nat)

/-- R298, R299, R82, R300: an `mdrain` to own tile memory by a record whose fields the rule allows reads it once and writes each element of
each row, so converted, raises the flags of all of them, and changes no other byte but those of its firing's journal. The generator is the
loop of R300. Model's choices: assumptions 44 and 87. -/
def Sys2Proof.Claims.MatrixDrain : Prop :=
  (∀ seed inst row col, stipple seed inst row col = stippled seed inst row col) ∧
  ∀ (s : State) (p i : Nat) (c : MatCmd) (f : Firing) (key : Nat), s.wf = true → p < 2048 → (s.mat p).queue[i]? = some c →
    s.mayStart p i c = true → c.fn = 9 → matrixSound s → 16 * c.d + c.n ≤ 1024 → 16 * c.row + c.m ≤ 64 → (s.tile p).firing = some f →
    (s.tile p).stateLen f.slot ≤ 0x2000 →
    RowAt (atWork s p c) (exact (c.av : Nat)) 64 64 key → DrainRecord s key → little s (key + 9) 1 = 0 →
    let w := elemWidth (little s (key + 8) 1 % 16)
    let n := c.n * w / 8
    let dst (r : Nat) : Nat := little s key 4 + r * little s (key + 4) 4
    let res (r : Nat) : Nat := little s (key + 16) 4 + r * little s (key + 20) 4
    let nres := c.n * elemWidth (little s (key + 24) 1) / 8
    (∀ r, r < c.m → dst r + n ≤ 0x7C000 ∧ s.writeBad (tileBase p + dst r) n = false) →
    (∀ r r', r < r' → r' < c.m → dst r + n ≤ dst r' ∨ dst r' + n ≤ dst r) →
    (little s (key + 10) 2 % 2 = 1 → ∀ r, r < c.m → OffsetAt (atWork s p c) (res r) nres ∧
      ∀ r', r' < c.m → dst r' + n ≤ res r ∨ res r + nres ≤ dst r') →
    ∃ t fl, exec (.matrixCmdStart p i) s = .next t ∧
      t.mat p = { s.mat p with queue := (s.mat p).queue.set i { c with started := true, flags := fl, flits := [] } } ∧
      (∀ q, q ≠ p → t.mat q = s.mat q ∧ t.tile q = s.tile q) ∧
      (∃ js, t.tile p = { s.tile p with firing := some { f with journal := js } }) ∧
      t = { s with mem := t.mem, bad := t.bad, mats := t.mats, tiles := t.tiles } ∧
      (∀ r j, r < c.m → j < c.n → elementOf w (little t (tileBase p + dst r) n) j = (drained s p c key r j).1 % 2 ^ w) ∧
      (∀ b, fl.testBit b = true ↔ ∃ r j, r < c.m ∧ j < c.n ∧ (drained s p c key r j).2.testBit b = true) ∧
      ∀ a, (∀ r, r < c.m → a < tileBase p + dst r ∨ tileBase p + dst r + n ≤ a) → ¬ inJournal { s with cur := p } a → byteAt t a = byteAt s a

/-- R90, R91, R286, R290 to R296, R298 to R300, R306: a matrix command that may start does its work. -/
def Obligations.MatrixStart : Prop := MatrixLoads ∧ MatrixProducts ∧ MatrixDrain

/-- R282, R283, R286, R84, R297, R301, R302: a started command whose flits have arrived completes: it leaves the queue, the tags take their next
states, and its flags join FSTAT unless the firing's trap has been presented (assumption 43); the sixteen commands of one gang whose fields agree start together, each with the loader's B slots and its
own A slots, while those of a gang whose fields differ all take SLOT_STATE with the mask of the tiles that differ from the reference; `mwait` ends when the queue is
empty; `mstat` writes the bits of the slots the actor holds, or 32 blocks' tags. Model's choices: assumptions 43 and 44. -/
def Obligations.MatrixCompletion : Prop :=
  (∀ (s : State) (p i : Nat) (c : MatCmd) (f : Firing) (sl : Sparse SlotTag) (bl : Sparse BlockTag), s.wf = true → p < 2048 →
    (s.mat p).queue[i]? = some c → c.started = true → (∀ id ∈ c.flits, s.isLive id = false) → (s.tile p).firing = some f →
    stepSlots f.slot (c.slots p) (s.mat p).slots = .ok sl → stepBlocks c.blocks (s.mat p).blocks = .ok bl →
    f.fault = none →
    ∃ t, exec (.matrixCmdComplete p i) s = .next t ∧
      t.mat p = { s.mat p with slots := sl, blocks := bl, queue := (s.mat p).queue.eraseIdx i } ∧ (∀ q, q ≠ p → t.mat q = s.mat q) ∧
      (∀ id, t.isLive id = (s.isLive id && id != c.id)) ∧
      t.coreAt p = { s.coreAt p with fstat :=
        if f.trapped then (s.coreAt p).fstat else (s.coreAt p).fstat ||| exact (c.flags % 128 : Nat) } ∧
      (∀ m, m ≠ p → t.coreAt m = s.coreAt m) ∧ t = { s with mats := t.mats, live := t.live, cores := t.cores }) ∧
  (∀ (s : State) (pl g key : Nat) (cmd : Nat → Nat × MatCmd), s.wf = true → pl < 128 → matrixSound s →
    (((s.mat (tileOf pl 0)).queue.filter (fun c => c.fn = 8 ∧ !c.started)).map MatCmd.gang).head? = some g →
    (∀ j, j < 16 → s.gangCmd g (tileOf pl j) = some (cmd j) ∧ (cmd j).2.gangKey = key ∧ 16 * (cmd j).2.d + (cmd j).2.n ≤ 1024 ∧
      (cmd j).2.b + ((cmd j).2.n + 31) / 32 ≤ 64 ∧ (cmd j).2.a + 2 ≤ 64) →
    ∃ t, exec (.mmagGangStart pl) s = .next t ∧ t = { s with mem := t.mem, bad := t.bad, mats := t.mats } ∧ ∀ j, j < 16 →
      let p := tileOf pl j
      let c := (cmd j).2
      (∀ r, r < 32 * ((c.n + 31) / 32) → little t (rowKey p c.b r) 64 = little s (rowKey (tileOf pl c.ldr) c.b r) 64 ∧
        little t (sclKey p c.b (4 * r)) 4 = little s (sclKey (tileOf pl c.ldr) c.b (4 * r)) 4) ∧
      (∀ r k, r < 64 → k < c.n → little t (accKey p r (16 * c.d + k)) 4 = (product t s p c r k).1 % 2 ^ 32) ∧
      ∃ fl, (∀ b, fl.testBit b = true ↔ ∃ r k, r < 64 ∧ k < c.n ∧ (product t s p c r k).2.testBit b = true) ∧
        (t.mat p).queue = (s.mat p).queue.set (cmd j).1 { c with started := true, flags := fl, flits := [] }) ∧
  (∀ (s : State) (pl g : Nat) (cmd : Nat → Nat × MatCmd), s.wf = true → pl < 128 →
    (((s.mat (tileOf pl 0)).queue.filter (fun c => c.fn = 8 ∧ !c.started)).map MatCmd.gang).head? = some g →
    (∀ j, j < 16 → s.gangCmd g (tileOf pl j) = some (cmd j)) → (∃ j, j < 16 ∧ (cmd j).2.gangKey ≠ (cmd (cmd 0).2.ldr).2.gangKey) →
    (∀ j, j < 16 → ∃ f, (s.tile (tileOf pl j)).firing = some f ∧ f.trapped = false ∧ f.fault = none) →
    (∀ j, j < 16 → (s.mapMat (tileOf pl j) (fun x => { x with queue := x.queue.filter (fun e => e.id ≠ (cmd j).2.id) })).mayTrap (tileOf pl j)
      (cmd j).2.id = true) →
    let mask := bitSet 16 (fun x => (cmd x).2.gangKey != (cmd (cmd 0).2.ldr).2.gangKey)
    let tr : Trap := { code := 0x14, i0 := 0x200, i1 := exact mask, i3 := 0x2408 }
    ∃ t, exec (.mmagGangStart pl) s = .next t ∧ ∀ j, j < 16 →
      (t.mat (tileOf pl j)).queue = (s.mat (tileOf pl j)).queue.filter (fun e => e.id ≠ (cmd j).2.id) ∧
      ∀ f, (s.tile (tileOf pl j)).firing = some f →
        (t.tile (tileOf pl j)).firing = some { f with trapped := true, fault := some ((cmd j).2.id, (cmd j).2.pc, tr) }) ∧
  ∀ (s : State), s.wf = true →
    ((s.mat s.cur).queue = [] → exec .mwait s = .next s.advance) ∧ ((s.mat s.cur).queue ≠ [] → exec .mwait s = .next s) ∧
    ∀ d sel, d < 32 →
      let tag (q : Nat) : SlotTag := Sparse.get {} (s.mat s.cur).pslots q
      let held (q : Nat) : Bool := (tag q).tag != 0 && (tag q).owner == s.aSlot
      ∃ t, exec (.mstat d sel) s = .next t ∧ WritesS s t d (exact (match sel with
        | 0 => bitSet 64 held
        | 1 => bitSet 64 (fun q => held q && (tag q).tag == 2)
        | 2 => bitSet 64 (fun q => held q && (tag q).keep)
        | 3 => bitSet 64 (fun q => held q && (tag q).relp)
        | _ => ((List.range 32).map (fun b => (Sparse.get {} (s.mat s.cur).pblocks (32 * (sel - 4) + b)).tag * 4 ^ b)).sum))

namespace Sys2Proof.Claims

/-! ## The memory streamers -/

/-- R318, R320: FN, D, A, B, OW, OM, SCOPE, CTX of an instruction that issues a command, the registers that address records, and the roles
its context may have (0 SOURCE, 1 SINK, 2 COMMAND). -/
def streamForm : Instr → Option (Nat × Nat × Nat × Nat × Nat × Nat × Nat × Nat × List Nat × List Nat)
  | .sbind a ow om sc ctx => some (0, 0, a, 0, ow, om, sc, ctx, [a], [0, 1])
  | .scopy a b ow om sc ctx => some (1, 0, a, b, ow, om, sc, ctx, [a, b], [2])
  | .sfetch d a b ow om sc ctx => some (2, d, a, b, ow, om, sc, ctx, [a, b], [2])
  | .sput a b ow om sc ctx => some (3, 0, a, b, ow, om, sc, ctx, [a, b], [2])
  | _ => none

/-- R332: a firing core with 32 commands of its firing not performed, or 8 not accepted. -/
def streamsFull (s : State) : Prop :=
  let l := s.ctxs.flatMap (fun e => e.2.cmds.filter (fun m => m.core = s.cur ∧ !m.orphan))
  s.cur < 2048 ∧ (32 ≤ l.length ∨ 8 ≤ (l.filter (fun m => !m.accepted)).length)

/-- R328: the word of a command, its guard that of the word executed. -/
def streamWord (s : State) (fn d a b ow om sc ctx : Nat) : Nat :=
  0xA0 * 2 ^ 56 + s.core.ir / 2 ^ 52 % 16 * 2 ^ 52 + fn * 2 ^ 46 + d * 2 ^ 40 + a * 2 ^ 34 + b * 2 ^ 28 + ow * 2 ^ 24 + om * 2 ^ 20 +
    sc * 2 ^ 16 + 256 * ctx

/-- R331, R43: a command has been issued on context c: it stands last among the context's, OM's set holds its operation, a copy marks its
firing, and the core waits for its acceptance or goes on; nothing else has changed. -/
structure CommandIssued (s t : State) (c om : Nat) (waits : Bool) (m : StreamCmd) : Prop where
  ctx : t.ctxAt c = { s.ctxAt c with cmds := (s.ctxAt c).cmds ++ [m] }
  ctxs : ∀ x, x ≠ c → t.ctxAt x = s.ctxAt x
  live : t.live = s.live ++ [{ id := s.nextId, core := s.cur, eng := true }]
  nextId : t.nextId = s.nextId + 1
  core : t.core = if waits then { s.core with o := t.core.o, waitOp := some s.nextId } else { s.core.advance with o := t.core.o }
  sets : ∀ x, x < 16 → t.core.oset x = if x = om ∧ om ≠ 0 then s.core.oset om ++ [s.nextId] else s.core.oset x
  cores : ∀ n, n ≠ s.cur → t.coreAt n = s.coreAt n
  firing : t.myTile = { s.myTile with firing := s.myTile.firing.map (fun f => { f with ext := f.ext || (decide (s.cur < 2048) && m.fn != 0) }) }
  tiles : ∀ p, p ≠ s.cur → t.tile p = s.tile p
  rest : t = { s with ctxs := t.ctxs, live := t.live, nextId := t.nextId, cores := t.cores, tiles := t.tiles }

/-- A change of one context, by f, and of nothing else but the current core. -/
structure ContextOnly (s t : State) (c : Nat) (x : Ctx) : Prop where
  ctx : t.ctxAt c = x
  ctxs : ∀ y, y ≠ c → t.ctxAt y = s.ctxAt y

/-- R319: element e of a walk lies at the key given, within one page, whose translation the context holds; none is a halo element. -/
def settled (s : State) (w : CtxBy) (x : Shape) (rw : Rw) (e : Nat) (k : Option Nat) : Prop :=
  match x.addrOf e with
  | none => k = none
  | some a => ∃ q, k = some q ∧ a % 65536 + x.esz ≤ 65536 ∧
      ∀ u, u = { s with mem := u.mem, bad := u.bad, ctxs := u.ctxs } → ctxKeyOf w x.space a rw u = .ok q u

/-- R322, R319: a completion counter lies at the key given. -/
def counterAt (s : State) (w : CtxBy) (caddr q : Nat) : Prop :=
  if caddr / 2 ^ 40 % 2 ^ 8 = 0xF1 then
    ∃ p, (s.region w.region).resolve (caddr / 2 ^ 19 % 2 ^ 11) = some p ∧ caddr % 2 ^ 19 + 8 ≤ 0x7C000 ∧ q = tileBase p + caddr % 2 ^ 19
  else (caddr / 2 ^ 40 % 2 ^ 8 = 0xF4 → 2048 ≤ w.core) ∧ ∀ u, u = { s with mem := u.mem, bad := u.bad, ctxs := u.ctxs } →
    ctxKeyOf w (if caddr / 2 ^ 40 % 2 ^ 8 = 0xF4 then 2 else 0) caddr .write u = .ok q u

/-- R313: the bytes of an element: zero for a halo element. -/
def elementAt (s : State) (n : Nat) : Option Nat → List Byte
  | none => List.replicate n 0
  | some q => (List.range n).map (fun i => byteAt s (q + i))

/-- R321: m is the accepted command of x that comes first: the one of the least sequence number. -/
structure IsFront (x : Ctx) (m : StreamCmd) : Prop where
  held : x.cmds.find? (fun e => e.id = m.id) = some m
  accepted : m.accepted = true
  least : ∀ e ∈ x.cmds, e.accepted = true → e = m ∨ m.seq < e.seq

/-- R333: hi is where the stretch of a walk of elements of n bytes that begins at element lo ends: at the first element past the next 256-byte
boundary of the bytes moved, or at the walk's end. -/
structure StretchEnds (n lo total hi : Nat) : Prop where
  forward : lo ≤ hi
  inside : hi ≤ total
  reached : hi = total ∨ (lo * n / 256 + 1) * 256 ≤ hi * n
  first : ∀ h, lo < h → h < hi → h * n < (lo * n / 256 + 1) * 256

/-- R327: a context that waits for `sresume`. -/
def needsResume (x : Ctx) : Bool := x.st == .frozen || (x.st == .halted && x.left == .frozen)

/-- R325, R327: the context r that an `sresume` of number ctx acts on, c being the caller's of that number: a control core reaches a region's
context that waits for it, in the lowest-numbered region, where its own does not wait. -/
def resumes (s : State) (ctx c r : Nat) : Prop :=
  let waiting (g : Nat) := (s.region g).ctx.find? (fun e => e.1 = ctx ∧ needsResume (s.ctxAt e.2) = true)
  if s.cur < 2048 ∨ needsResume (s.ctxAt c) = true then r = c
  else (∃ g y, g < 128 ∧ waiting g = some (y, r) ∧ ∀ h, h < g → waiting h = none) ∨ ((∀ g, g < 128 → waiting g = none) ∧ r = c)

/-- The keys of n bytes from q on and from r on do not meet. -/
def apart (q r n : Nat) : Prop := q + n ≤ r ∨ r + n ≤ q

/-- Memory after elements lo to hi − 1 of a walk were written: each holds its bytes, a counter that keeps one gained its increment, and no
other byte has changed. -/
structure ElementsMoved (s t : State) (n lo hi : Nat) (dst : Nat → Option Nat) (bytes : Nat → List Byte) (ctr : Option Nat) (inc : Nat) :
    Prop where
  moved : ∀ e q i, lo ≤ e → e < hi → dst e = some q → i < n → byteAt t (q + i) = ((bytes e)[i]?).getD 0
  counter : ∀ q, ctr = some q → little t q 8 = (little s q 8 + inc) % 2 ^ 64
  others : ∀ a, (∀ e q, lo ≤ e → e < hi → dst e = some q → a < q ∨ q + n ≤ a) → (∀ q, ctr = some q → a < q ∨ q + 8 ≤ a) →
    byteAt t a = byteAt s a

/-- What a walk's destination must be for `ElementsMoved` to say all: its elements and its counter do not meet, and no byte written lies in
a word in error. -/
structure Distinct (s : State) (n lo hi : Nat) (dst : Nat → Option Nat) (ctr : Option Nat) : Prop where
  elements : ∀ e f q r, lo ≤ e → e < f → f < hi → dst e = some q → dst f = some r → apart q r n
  counter : ∀ e q r, lo ≤ e → e < hi → dst e = some q → ctr = some r → q + n ≤ r ∨ r + 8 ≤ q
  sound : ∀ e q, lo ≤ e → e < hi → dst e = some q → s.writeBad q n = false
  soundCounter : ∀ r, ctr = some r → s.readBad r 8 = false

/-- The flits of tokens in order: each token's bytes at its window offset. -/
def carriesAll : List Flit → List (Nat × List Byte) → Prop
  | fs, [] => fs = []
  | fs, (off, bs) :: ts => ∃ a b, fs = a ++ b ∧ carries a off bs ∧ carriesAll b ts

/-- R232: the tokens of a firing of context c that fall to segment i, in order. -/
def tokensTo (s : State) (c i : Nat) : List Nat :=
  (List.range (s.ctxAt c).p).filter (fun j => ((s.ctxDeal c (s.ctxAt c).fired (s.ctxAt c).p)[j]?).getD 0 = i)

/-- R326: the fault record of a context. -/
def faultRecord (s : State) (c : Nat) (f : CtxFault) (e n info : Nat) : Vector Word 8 :=
  #v[exact (f.code + f.reason * 2 ^ 8 + (if 2048 ≤ c then c - 2048 else (s.ctxAt c).num) * 2 ^ 16 + s.ctxRole c * 2 ^ 24 + (if f.wr then 2 ^ 26 else 0) : Nat),
     exact f.addr, f.pte, exact e, exact n, exact info, exact s.gtime, 0]

/-- R325: context c has frozen with a record, and its instance counts the fault. -/
structure Froze (s t : State) (c : Nat) (f : CtxFault) (e n info : Nat) : Prop where
  mem : t.mem = s.mem
  ctx : t.ctxAt c = { s.ctxAt c with st := .frozen, record := faultRecord s c f e n info }
  counted : ∀ g, (s.ctxAt c).region = some g → (t.region g).faults = (s.region g).faults + 1 ∧
    ((s.region g).reported = false → (t.region g).ffw = exact (0x12 + (s.ctxAt c).anchor * 2 ^ 16 + f.reason * 2 ^ 48 : Nat))

end Sys2Proof.Claims

/-- R318, R320, R329, R332: `sbind`, `scopy`, `sfetch` and `sput` take PROTECT with 11 for a context the caller's region has not, or of a
role they do not accept; take the trap of a record's address; wait while the firing's commands are at their limits; else issue their
command, the copies marking their firing (R43), and a control core waits for its acceptance. Model's choices: assumption 20, and 70 for the
mark of a copy that is refused later. -/
def Sys2Proof.Claims.StreamIssue : Prop :=
  ∀ (i : Instr) (s : State) (fn d a b ow om sc ctx : Nat) (recs roles : List Nat), i.wf = true → s.wf = true →
    streamForm i = some (fn, d, a, b, ow, om, sc, ctx, recs, roles) →
    let waits := decide (2048 ≤ s.cur)
    let refused (role : Nat) : Trap := { code := 0x05, i0 := exact ctx, i1 := 11, i2 := exact role, i3 := s.regionInfo }
    (∀ id, waits = true → s.core.waitOp = some id → exec i s = .next (if s.awaiting id then s else s.advance)) ∧
    (waits = false ∨ s.core.waitOp = none →
      (s.ctxNamed ctx = none → exec i s = .next (s.takeTrap (refused 3))) ∧
      ∀ c, s.ctxNamed ctx = some c →
        (s.ctxRole c ∉ roles → exec i s = .next (s.takeTrap (refused (s.ctxRole c)))) ∧
        (s.ctxRole c ∈ roles →
          (∀ t s1, checkAccess s.recordReach .read 192 64 (s.sreg a) s = .error (.trap t) s1 → exec i s = .next (s1.takeTrap t)) ∧
          (∀ t s1 pl, recs = [a, b] → checkAccess s.recordReach .read 192 64 (s.sreg a) s = .ok pl s →
            checkAccess s.recordReach .read 192 64 (s.sreg b) s = .error (.trap t) s1 → exec i s = .next (s1.takeTrap t)) ∧
          ((∀ r ∈ recs, ∃ pl, checkAccess s.recordReach .read 192 64 (s.sreg r) s = .ok pl s) →
            (streamsFull s → exec i s = .next s) ∧
            (¬ streamsFull s → ∃ t, exec i s = .next t ∧ CommandIssued s t c om waits
              { id := s.nextId, core := s.cur, fn := fn, word := streamWord s fn d a b ow om sc ctx, pc := s.core.pc, ow := s.core.oset ow,
                d := d, av := s.sreg a, bv := if fn = 0 then 0 else s.sreg b }))))

/-- R323, R327, R329, R330: `cwait` writes the counter's value to D once it is at least the target, and till then waits up to the limit in D
or takes WAIT_LIMIT; `sresume` makes a FROZEN context ACTIVE, or have been so at its halt, and leaves any other alone; `sstat` writes the
state, role and queue, or the count or promise that SEL names, SEL 1 of an empty COMMAND context being 0. Model's choices: assumptions 20,
111. -/
def Sys2Proof.Claims.StreamWaitAndState : Prop :=
  ∀ (s : State), s.wf = true →
    (∀ d a b ow om sc k, (Instr.cwait d a b ow om sc).wf = true →
      checkAccess (s.counterReach (s.sreg a)) .read 8 8 (s.sreg a) s = .ok (.mem k) s → s.setDone ow = true → s.readBad k 8 = false →
      ((s.sreg b).toNat ≤ little s k 8 → ∃ t, exec (.cwait d a b ow om sc) s = .next t ∧ WritesS s t d (exact (little s k 8))) ∧
      (little s k 8 < (s.sreg b).toNat → BoundedWait s (.cwait d a b ow om sc) (s.sreg d).toNat
        { code := 0x07, i0 := s.sreg a, i1 := exact (little s k 8), i2 := s.sreg b, i3 := s.sreg d })) ∧
    ∀ ctx c, s.ctxNamed ctx = some c → s.ctxRole c ≤ 2 →
      let x := s.ctxAt c
      (streamsFull s → exec (.sresume ctx) s = .next s) ∧
      (∀ r, ¬ streamsFull s → resumes s ctx c r → ∃ t, exec (.sresume ctx) s = .next t ∧ ContextOnly s t r
          (let y := s.ctxAt r
           { y with st := if y.st = .frozen then .active else y.st
                    left := if y.st = .halted ∧ y.left = .frozen then .active else y.left }) ∧
        t.core = s.core.advance ∧ (s.cur < 2048 → t.myTile = { s.myTile with firing := s.myTile.firing.map (fun f => { f with ext := true }) }) ∧
        t = { s with ctxs := t.ctxs, cores := t.cores, tiles := t.tiles }) ∧
      ∀ d, d < 32 →
        let code := match x.st with
          | .unbound => if 2048 ≤ c then 1 else 0
          | .idle => 1
          | .active => 2
          | .frozen => 3
          | .halted => 4
        let queued := x.cmds.filter StreamCmd.accepted
        let cmd := decide (s.ctxRole c = 2)
        let reads (sel v : Nat) : Prop := ∃ t, exec (.sstat d ctx sel) s = .next t ∧ WritesS s t d (exact v)
        reads 0 (code + 16 * s.ctxRole c + 256 * queued.length) ∧
        (cmd = false → reads 1 (x.fired * x.per + x.pos)) ∧ (cmd = true → queued = [] → reads 1 0) ∧
        (∀ m, cmd = true → IsFront x m → reads 1 m.done) ∧
        reads 2 (if cmd then x.performed else x.fired) ∧
        reads 3 x.promise

/-- R312 to R314: a checked record's fields are in range and its walk visits the product of its sizes; element e, dimension 0 fastest, lies at
BASE plus the sum of coordinate times stride where every coordinate holds data, within the bounds kept, below 2^48, and is a halo element
elsewhere, within the halos. A field outside its values, a zero SIZE, or a reserved or unused byte that is not zero takes FORMAT with a field's
value and its byte offset, and a walk of more than 2^48 elements FORMAT at 10; else the first dimension that fails takes STREAM_ADDR with 1 for
a coordinate beyond its halo, 2 for a product or 3 for a sum outside int64, and a range below 0 or beyond 2^48 with 4; a record that none of
these refuses is checked. -/
def Obligations.ShapeRecord : Prop :=
  ∀ (r a : Nat),
    let f (off n : Nat) : Nat := r / 2 ^ (8 * off) % 2 ^ (8 * n)
    let nd := f 10 1
    let size (d : Nat) := f (32 + 32 * d) 4
    let lim (d : Nat) := f (36 + 32 * d) 4
    let hlo (d : Nat) := f (40 + 32 * d) 2
    let hhi (d : Nat) := f (42 + 32 * d) 2
    let start (d : Nat) : Int := sx 64 (f (48 + 32 * d) 8)
    let stride (d : Nat) : Int := sx 64 (f (56 + 32 * d) 8)
    let product (d : Nat) : Nat := ((List.range d).map size).foldl (· * ·) 1
    let wrong (v o : Nat) : Prop :=
      (o = 10 ∧ v = nd ∧ (nd = 0 ∨ 5 < nd)) ∨ (o = 8 ∧ v = f 8 2 / 4096 ∧ 13 < v) ∨
      (o = 11 ∧ ((v = f 11 1 / 16 ∧ v ≠ 0) ∨ (f 11 1 < 16 ∧ v = f 11 1 ∧ v ∉ [0, 1, 2, 3, 4, 5, 7, 10, 11]))) ∨
      (o = 12 ∧ v = f 12 4 ∧ v ≠ 0) ∨
      ∃ d, d < 5 ∧
        ((d < nd ∧ o = 32 + 32 * d ∧ v = size d ∧ v = 0) ∨ (d < nd ∧ o = 44 + 32 * d ∧ v = f o 4 ∧ v ≠ 0) ∨
         (nd ≤ d ∧ v ≠ 0 ∧ ∃ e ∈ [(0, 4), (4, 4), (8, 2), (10, 2), (12, 4), (16, 8), (24, 8)], o = 32 + 32 * d + e.1 ∧ v = f o e.2))
    let inside (x : Int) : Prop := -(2 ^ 63 : Int) ≤ x ∧ x < 2 ^ 63
    let top (d : Nat) : Int := start d + size d - 1
    let vlo (d : Nat) : Int := max (start d) 0
    let vhi (d : Nat) : Int := if lim d = 0 then top d else min (top d) (lim d - 1)
    let low (k : Nat) : Int := sx 64 (f 0 8) + ((List.range k).map (fun d =>
      if vlo d ≤ vhi d then min (vlo d * stride d) (vhi d * stride d) else 0)).sum
    let high (k : Nat) : Int := sx 64 (f 0 8) + ((List.range k).map (fun d =>
      if vlo d ≤ vhi d then max (vlo d * stride d) (vhi d * stride d) else 0)).sum
    let off (d : Nat) : Prop := start d < -(hlo d : Int)
    let over_ (d : Nat) : Prop := lim d ≠ 0 ∧ (lim d + hhi d : Int) ≤ top d
    let wide (d : Nat) (x : Int) : Prop := vlo d ≤ vhi d ∧ ¬ inside (x * stride d)
    let sum (d : Nat) : Prop := vlo d ≤ vhi d ∧ (¬ inside (low (d + 1)) ∨ ¬ inside (high (d + 1)))
    let passes (d : Nat) : Prop := ¬ off d ∧ ¬ over_ d ∧ ¬ wide d (vlo d) ∧ ¬ wide d (vhi d) ∧ ¬ sum d
    let refuses (reason d : Nat) (x : Int) : Prop :=
      shapeOf r a = .error { code := 0x11, i0 := exact a, i1 := exact reason, i2 := exact d, i3 := exact x }
    let sound : Prop := (∀ v o, ¬ wrong v o) ∧ product nd ≤ 2 ^ 48
    ((∃ v o, wrong v o) → ∃ v o, wrong v o ∧ shapeOf r a = .error { code := 0x15, i0 := exact v, i1 := exact o }) ∧
    ((∀ v o, ¬ wrong v o) → 2 ^ 48 < product nd → shapeOf r a = .error { code := 0x15, i0 := exact nd, i1 := 10 }) ∧
    (∀ d, sound → d < nd → (∀ k, k < d → passes k) →
      (off d → refuses 1 d (start d)) ∧ (¬ off d → over_ d → refuses 1 d (top d)) ∧
      (¬ off d → ¬ over_ d → wide d (vlo d) → refuses 2 d (vlo d)) ∧
      (¬ off d → ¬ over_ d → ¬ wide d (vlo d) → wide d (vhi d) → refuses 2 d (vhi d)) ∧
      (¬ off d → ¬ over_ d → ¬ wide d (vlo d) → ¬ wide d (vhi d) → sum d → refuses 3 d 0)) ∧
    (sound → (∀ k, k < nd → passes k) → let last := high nd + (f 8 2 % 4096 : Nat)
      (low nd < 0 ∨ 2 ^ 48 ≤ last → refuses 4 5 0) ∧ (0 ≤ low nd → last < 2 ^ 48 → ∃ x, shapeOf r a = .ok x)) ∧
    ∀ x, shapeOf r a = .ok x →
      1 ≤ nd ∧ nd ≤ 5 ∧ f 12 4 = 0 ∧ (∀ d, d < nd → size d ≠ 0) ∧ x.esz = f 8 2 % 4096 + 1 ∧ x.ty = f 8 2 / 4096 ∧ x.ty ≤ 13 ∧
      x.cscope = f 11 1 ∧ x.cscope ∈ [0, 1, 2, 3, 4, 5, 7, 10, 11] ∧ x.caddr = f 16 8 ∧ x.cinc = f 24 8 ∧ x.n = product nd ∧
      x.n ≤ 2 ^ 48 ∧ x.hi < 2 ^ 48 ∧
      ∀ e, e < x.n →
        let coord (d : Nat) : Int := start d + (e / product d % size d : Nat)
        let data (d : Nat) : Prop := 0 ≤ coord d ∧ (lim d = 0 ∨ coord d < lim d)
        (∀ d, d < nd → -(hlo d : Int) ≤ coord d ∧ (lim d = 0 ∨ coord d < lim d + hhi d)) ∧
        ((∃ d, d < nd ∧ ¬ data d) → x.addrOf e = none) ∧
        ((∀ d, d < nd → data d) → ∃ b : Nat, x.addrOf e = some b ∧
          (b : Int) = sx 64 (f 0 8) + ((List.range nd).map (fun d => coord d * stride d)).sum ∧ x.lo ≤ b ∧ b + x.esz ≤ x.hi + 1)

/-- R314, R319, R320, R334: the checks at acceptance. A record read at its address that passes its own checks must have its first and last byte
in the space its use requires: for a firing core translated space (0), or its own tile memory in either form below the save frame (1); for a
control core translated space, or its private memory (2); another space takes PROTECT or, in system space, PRIV, at that byte. A copy's records
differ in neither ESZ nor N, and its source names no counter, else FORMAT with the field and its offset; a counter that is named is checked as
an 8-byte write. Model's choices: assumption 89 for bytes in two windows, 112 for whose field FORMAT gives. -/
def Sys2Proof.Claims.AcceptanceChecks : Prop :=
  (∀ (s : State) (a : Nat), s.cur < 2048 → a < 2 ^ 48 →
    let refused (space code i1 : Nat) : Prop :=
      spaceCheck space a s = .error (.trap { code := code, i0 := exact a, i1 := exact i1, i3 := s.regionInfo }) s
    let own := 0xF00000000000
    let mine := 0xF10000000000 + s.ltileOf s.cur * 2 ^ 19
    (a < 2 ^ 47 → spaceCheck 0 a s = .ok () s ∧ refused 1 5 8) ∧
    (2 ^ 47 ≤ a → a < own → refused 0 5 2 ∧ refused 1 5 2) ∧
    ((own ≤ a ∧ a < own + 0x7C000) ∨ (mine ≤ a ∧ a < mine + 0x7C000 ∧ s.ltileOf s.cur < 2048) → refused 0 5 8 ∧ spaceCheck 1 a s = .ok () s) ∧
    ((own + 0x7C000 ≤ a ∧ a < own + 2 ^ 19) ∨ (mine + 0x7C000 ≤ a ∧ a < mine + 2 ^ 19 ∧ s.ltileOf s.cur < 2048) →
      refused 0 5 7 ∧ refused 1 5 7) ∧
    (own + 2 ^ 19 ≤ a → a < own + 2 ^ 40 → refused 0 5 9 ∧ refused 1 5 9) ∧
    (0xF20000000000 ≤ a → a < 0xF30000000000 → refused 0 5 8 ∧ refused 1 5 8) ∧
    (0xF40000000000 ≤ a → a < 0xF50000000000 → refused 0 2 0 ∧ refused 1 2 0)) ∧
  (∀ (s : State) (a : Nat), 2048 ≤ s.cur → s.cur < 2056 →
    let refused (space i1 : Nat) : Prop :=
      spaceCheck space a s = .error (.trap { code := 5, i0 := exact a, i1 := exact i1, i3 := s.regionInfo }) s
    (a < 2 ^ 47 → spaceCheck 0 a s = .ok () s ∧ refused 2 8) ∧
    (0xF40000000000 ≤ a → a < 0xF40000080000 → refused 0 8 ∧ spaceCheck 2 a s = .ok () s)) ∧
  (∀ (s s1 : State) (ea : Word) (space r : Nat), recordBytes ea s = .ok r s1 →
    (∀ t, shapeOf r ea.toNat = .error t → readShape ea space s = .error (.trap t) s1) ∧
    ∀ x, shapeOf r ea.toNat = .ok x →
      (∀ t, spaceCheck space x.lo s1 = .error (.trap t) s1 → readShape ea space s = .error (.trap t) s1) ∧
      (spaceCheck space x.lo s1 = .ok () s1 →
        (∀ t, spaceCheck space x.hi s1 = .error (.trap t) s1 → readShape ea space s = .error (.trap t) s1) ∧
        (spaceCheck space x.hi s1 = .ok () s1 → space = 0 ∨ x.lo / 2 ^ 19 = x.hi / 2 ^ 19 →
          readShape ea space s = .ok { x with space := space } s1))) ∧
  ∀ (s s1 s2 : State) (m : StreamCmd) (x y : Shape),
    let own := if s.cur < 2048 then 1 else 2
    let wrong (v o : Nat) : Prop := acceptShapes m s = .error (.trap { code := 0x15, i0 := exact v, i1 := exact o }) s2
    readShape m.av (if m.fn = 3 then own else 0) s = .ok x s1 → readShape m.bv (if m.fn = 2 then own else 0) s1 = .ok y s2 →
    (x.esz ≠ y.esz → wrong (y.esz - 1) 8) ∧
    (x.esz = y.esz → x.n ≠ y.n → wrong y.dims.length 10) ∧
    (x.esz = y.esz → x.n = y.n → x.caddr ≠ 0 → wrong x.caddr 16) ∧
    (x.esz = y.esz → x.n = y.n → x.caddr = 0 → x.cinc ≠ 0 → wrong x.cinc 24) ∧
    (x.esz = y.esz → x.n = y.n → x.caddr = 0 → x.cinc = 0 →
      (y.cinc = 0 → acceptShapes m s = .ok (x, y) s2) ∧
      (y.cinc ≠ 0 →
        let check := checkAccess (if 2048 ≤ s2.cur then .control else if y.caddr / 2 ^ 40 % 2 ^ 8 < 0x80 then .loadStore else .remote)
          .write 8 8 (exact y.caddr)
        (∀ pl s3, check s2 = .ok pl s3 → acceptShapes m s = .ok (x, y) s3) ∧
        ∀ t s3, check s2 = .error (.trap t) s3 → acceptShapes m s = .error (.trap t) s3))

/-- R318, R320, R324: the oldest command of a context whose OW set is performed, with room among 8 accepted: an `sbind` whose record and counter
pass stages it; a copy whose records and counter pass is accepted with the next sequence number, is over for `fend`, makes an idle context
active, and an `sfetch` gives its core the promise, at least the cycle plus 4. One that fails leaves the context and traps its core at the word
that issued it, where no operation issued before it may still trap (R186); a firing whose trap has been presented gets no promise. Model's
choices: assumptions 43, 50, 73. -/
def Sys2Proof.Claims.StreamAcceptance : Prop :=
  ∀ (s : State) (c : Nat) (m : StreamCmd), s.wf = true →
    (s.ctxAt c).cmds.find? (fun m => !m.accepted && m.ow.all (s.performed (m.word / 2 ^ 16 % 16))) = some m → (s.ctxAt c).st ≠ .halted →
    let u : State := { s with cur := m.core }
    let run := exec (.streamCmdAccept c) s
    (∀ x s1 s2, m.fn = 0 → readShape m.av 0 u = .ok x s2 → counterCheck x s2 = .ok () s1 → s1.wf = true →
      (∀ f, (s1.tile m.core).firing = some f → f.fault = none) → ∃ t, run = .next t ∧
      ContextOnly s1 t c { s1.ctxAt c with cmds := (s1.ctxAt c).cmds.filter (fun e => e.id ≠ m.id), staged := some x } ∧
      (∀ id, t.isLive id = (s1.isLive id && id != m.id)) ∧ t = { s1 with cur := s.cur, ctxs := t.ctxs, live := t.live }) ∧
    (8 ≤ ((s.ctxAt c).cmds.filter StreamCmd.accepted).length → m.fn ≠ 0 → run = .next s) ∧
    (∀ x y s1, m.fn ≠ 0 → ((s.ctxAt c).cmds.filter StreamCmd.accepted).length < 8 → acceptShapes m u = .ok (x, y) s1 → s1.wf = true →
      (∀ f, (s1.tile m.core).firing = some f → f.fault = none) →
      let z := s1.ctxAt c
      ∃ t promise, run = .next t ∧ s1.cycle + 4 ≤ promise ∧
        ContextOnly s1 t c { z with
          cmds := z.cmds.map (fun e => if e.id = m.id then
            { m with accepted := true, seq := z.seq + 1, src := x, dst := y, promise := promise } else e)
          seq := z.seq + 1
          promise := if m.fn = 2 then promise else z.promise
          st := if z.st = .idle ∨ z.st = .unbound then .active else z.st } ∧
        t.live = s1.live.map (fun e => if e.id = m.id then { e with eng := false } else e) ∧
        (∀ n, n ≠ m.core → t.coreAt n = s1.coreAt n) ∧
        (m.fn = 2 → m.orphan = false → m.d < 32 → (∀ f, (s1.tile m.core).firing = some f → f.trapped = false) →
          (t.coreAt m.core).sreg m.d = if m.d = 0 then 0 else exact promise) ∧
        (∀ n, n ≠ m.d → (t.coreAt m.core).sreg n = (s1.coreAt m.core).sreg n) ∧
        (m.fn ≠ 2 ∨ m.orphan = true ∨ (∃ f, (s1.tile m.core).firing = some f ∧ f.trapped = true) → t.cores = s1.cores) ∧
        t = { s1 with cur := s.cur, ctxs := t.ctxs, live := t.live, cores := t.cores, freeCtr := t.freeCtr }) ∧
    ∀ tr s1 f, (m.fn = 0 ∧ readShape m.av 0 u = .error (.trap tr) s1) ∨ (m.fn ≠ 0 ∧ acceptShapes m u = .error (.trap tr) s1 ∧
        ((s.ctxAt c).cmds.filter StreamCmd.accepted).length < 8) →
      s1.wf = true → m.orphan = false → m.core < 2048 → (s1.tile m.core).firing = some f → f.trapped = false →
      f.fault = none → ((s1.mapCtx c (fun x => x.dropCmd m.id)).retire m.id).mayTrap m.core m.id = false →
      ∃ t, run = .next t ∧ (t.tile m.core).record[0] = exact (tr.code + (if tr.sw then 256 else 0) : Nat) ∧ (t.tile m.core).record[1] = m.pc ∧
        (t.tile m.core).record[2] = tr.i0

/-- R311, R320 to R322, R325, R326, R333: an active context performs a stretch of the accepted command that comes first: every element of the
stretch goes to its place in the destination and no other byte changes; after the last element of the command its counter gains its increment,
the command is performed, and the context is idle when it was the last. Where the next element's read fails the context freezes, with its
record. Model's choices: assumptions 48 for the first-fault word, 49, 73, 90. -/
def Sys2Proof.Claims.StreamPerform : Prop :=
  ∀ (s : State) (c : Nat) (m : StreamCmd), s.wf = true → (s.ctxAt c).st = .active → IsFront (s.ctxAt c) m →
    let x := s.ctxAt c
    let w := s.ctxBy c m.core
    let n := m.src.esz
    (∀ (src dst : Nat → Option Nat) (ctr : Option Nat) (hi : Nat), m.dst.esz = n → 0 < n → StretchEnds n m.done m.src.n hi →
      (∀ e, m.done ≤ e → e < hi → settled s w m.src .read e (src e) ∧ settled s w m.dst .write e (dst e)) →
      (∀ e q, m.done ≤ e → e < hi → src e = some q → s.readBad q n = false) →
      (∀ e f q r, m.done ≤ e → e < hi → m.done ≤ f → f < hi → src e = some q → dst f = some r → apart q r n) →
      Distinct s n m.done hi dst ctr →
      (if hi = m.src.n ∧ m.dst.cinc ≠ 0 then ∃ q, ctr = some q ∧ counterAt s w m.dst.caddr q else ctr = none) →
      ∃ t, exec (.streamCmdPerform c) s = .next t ∧
        ElementsMoved s t n m.done hi dst (fun e => elementAt s n (src e)) ctr m.dst.cinc ∧
        (hi < m.src.n → ContextOnly s t c { x with cmds := x.cmds.map (fun e => if e.id = m.id then { e with done := hi } else e) } ∧
          t = { s with mem := t.mem, bad := t.bad, ctxs := t.ctxs }) ∧
        (hi = m.src.n → ContextOnly s t c { x with
          cmds := x.cmds.filter (fun e => e.id ≠ m.id)
          performed := x.performed + 1
          st := if ∃ e ∈ x.cmds, e.id ≠ m.id ∧ e.accepted = true then .active else .idle } ∧
        (∀ id, t.isLive id = (s.isLive id && id != m.id)) ∧ t = { s with mem := t.mem, bad := t.bad, ctxs := t.ctxs, live := t.live })) ∧
    ∀ f s1, m.done < m.src.n → elemRead w m.src m.done s = .error f s1 → s1.ctxs = s.ctxs → s1.wf = true →
      ∃ t, exec (.streamCmdPerform c) s = .next t ∧ Froze s1 t c f m.done m.done (m.word % 2 ^ 16 + m.seq * 2 ^ 32)

/-- R317, R311, R246, R310, R333: a source context of a running instance with room for its tokens reads a stretch of the firing's elements in
walk order; with the last of them it queues the firing's tokens, converted, as DATA flits to each segment's next positions, a POINTER with the
segment's new WR and its overflows behind them, and after the last firing of the stream a marker of mode 0; it is then idle again with the
firing counted, quiescent after the last. Model's choices: assumption 90. -/
def Sys2Proof.Claims.StreamSource : Prop :=
  ∀ (s : State) (c g hi : Nat) (src : Nat → Option Nat) (peer : Nat → Nat), s.wf = true →
    let x := s.ctxAt c
    let w := s.ctxBy c 0
    let n := x.shape.esz
    let e0 := x.fired * x.per
    x.role = 0 → 0 < x.segs → x.quiescent = false → x.region = some g → (s.region g).started = true →
    (x.st = .active ∨ (x.st = .idle ∧ ∀ i, i < x.segs → (tokensTo s c i).length ≤ (s.desc (ctxKey c i)).space)) →
    0 < n → StretchEnds n (e0 + x.pos) (e0 + x.per) (e0 + hi) →
    (∀ i, x.pos ≤ i → i < hi → settled s w x.shape .read (e0 + i) (src (e0 + i)) ∧ ∀ q, src (e0 + i) = some q → s.readBad q n = false) →
    (∀ i, i < x.segs → s.peerKey (ctxKey c i) = some (peer i)) →
    let elements := x.buf ++ (((List.range (hi - x.pos)).map (fun i => elementAt s n (src (e0 + x.pos + i)))).flatten)
    let size := x.per / max 1 x.p * n
    let last := decide (x.shape.n / max 1 x.per ≤ x.fired + 1)
    let token (i j : Nat) : List Byte × Nat :=
      let d := s.desc (ctxKey c i)
      convertBytes d.etype d.ctype d.cround ((elements.drop (j * size)).take size)
    let place (i m : Nat) : Nat :=
      let d := s.desc (ctxKey c i)
      (s.desc (peer i)).base + (d.wpos + m) % max 1 d.cap * (s.desc (peer i)).size
    ∃ t, exec (.streamSourceFiring c) s = .next t ∧
      (hi < x.per → ContextOnly s t c { x with st := .active, pos := hi, buf := elements } ∧ t = { s with ctxs := t.ctxs }) ∧
      (hi = x.per → (∀ i, i < x.segs → ∃ fs,
        let js := tokensTo s c i
        let d := s.desc (ctxKey c i)
        let wr := (d.wr + js.length) % 2 ^ 32
        carriesAll fs ((List.range js.length).map (fun m => (place i m, (token i (js.getD m 0)).1))) ∧
        flits t (ctxKey c i) = flits s (ctxKey c i) ++ fs ++
          (if js = [] then [] else [.pointer wr ((js.map (fun j => (token i j).2)).sum) none]) ++ (if last then [.marker 0 false] else []) ∧
        t.desc (ctxKey c i) = { d with wr := if js = [] then d.wr else wr, wpos := if js = [] then d.wpos else (d.wpos + js.length) % max 1 d.cap }) ∧
      (∀ k, (∀ i, i < x.segs → k ≠ ctxKey c i) → flits t k = flits s k ∧ t.desc k = s.desc k) ∧
      ContextOnly s t c { x with st := .idle, fired := x.fired + 1, pos := 0, buf := [], quiescent := last } ∧
      (t.region g).firings = (s.region g).firings + 1 ∧
      t = { s with ctxs := t.ctxs, queued := t.queued, entered := t.entered, descs := t.descs, regions := t.regions })

/-- R317, R311, R246, R333: a sink context of a running instance that holds its tokens writes a stretch of their elements in walk order; with the
last of them it adds to its counter, then moves RD and RPOS of each segment and queues its RETURN flit; it is then idle again with the firing
counted. Model's choices: assumption 90. -/
def Sys2Proof.Claims.StreamSink : Prop :=
  ∀ (s : State) (c g hi : Nat) (dst : Nat → Option Nat) (ctr : Option Nat), s.wf = true →
    let x := s.ctxAt c
    let w := s.ctxBy c 0
    let n := x.shape.esz
    let e0 := x.fired * x.per
    x.role = 1 → 0 < x.segs → x.quiescent = false → x.region = some g → (s.region g).started = true →
    (x.st = .active ∨ (x.st = .idle ∧ ∀ i, i < x.segs → (tokensTo s c i).length ≤ (s.desc (ctxKey c i)).count)) →
    0 < n → StretchEnds n (e0 + x.pos) (e0 + x.per) (e0 + hi) →
    (∀ i, x.pos ≤ i → i < hi → settled s w x.shape .write (e0 + i) (dst (e0 + i))) →
    let tok := max 1 (x.per / max 1 x.p)
    let seg (i : Nat) : Nat := ((s.ctxDeal c x.fired x.p)[i / tok]?).getD 0
    let source (i : Nat) : Nat :=
      let d := s.desc (ctxKey c (seg i))
      let m := (((s.ctxDeal c x.fired x.p).take (i / tok)).filter (fun z => z = seg i)).length
      winBase (ctxKey c (seg i)) + d.base + (d.rpos + m) % max 1 d.cap * d.size + i % tok * n
    (∀ i j q, x.pos ≤ i → i < hi → x.pos ≤ j → j < hi → dst (e0 + i) = some q → apart q (source j) n) →
    Distinct s n (e0 + x.pos) (e0 + hi) dst ctr →
    (if hi = x.per ∧ x.shape.cinc ≠ 0 then ∃ q, ctr = some q ∧ counterAt s w x.shape.caddr q else ctr = none) →
    ∃ t, exec (.streamSinkFiring c) s = .next t ∧
      ElementsMoved s t n (e0 + x.pos) (e0 + hi) dst (fun e => elementAt s n (some (source (e - e0)))) ctr x.shape.cinc ∧
      (hi < x.per → ContextOnly s t c { x with st := .active, pos := hi } ∧ t = { s with mem := t.mem, bad := t.bad, ctxs := t.ctxs }) ∧
      (hi = x.per → (∀ i, i < x.segs →
        let m := (tokensTo s c i).length
        let d := s.desc (ctxKey c i)
        let rd := (d.rd + m) % 2 ^ 32
        flits t (ctxKey c i) = flits s (ctxKey c i) ++ (if m = 0 then [] else [.ret rd]) ∧
        t.desc (ctxKey c i) = { d with rd := if m = 0 then d.rd else rd, rpos := if m = 0 then d.rpos else (d.rpos + m) % max 1 d.cap }) ∧
      (∀ k, (∀ i, i < x.segs → k ≠ ctxKey c i) → flits t k = flits s k ∧ t.desc k = s.desc k) ∧
      ContextOnly s t c { x with st := .idle, fired := x.fired + 1, pos := 0 } ∧ (t.region g).firings = (s.region g).firings + 1 ∧
      t = { s with mem := t.mem, bad := t.bad, ctxs := t.ctxs, queued := t.queued, entered := t.entered, descs := t.descs, regions := t.regions })

/-- R318 to R333: the instructions of MAJ 0xA0. -/
def Obligations.StreamInstructions : Prop := StreamIssue ∧ StreamWaitAndState

/-- R319 to R330: how a stream context accepts and performs a command. -/
def Obligations.StreamCommands : Prop := AcceptanceChecks ∧ StreamAcceptance ∧ StreamPerform

/-- R316, R317: how a source and a sink fire. -/
def Obligations.StreamFirings : Prop := StreamSource ∧ StreamSink

namespace Sys2Proof.Claims

/-! ## The configuration engine -/

/-- R362, R443: an instruction of an engine has completed: D holds its status, OM's set its operation, which is performed; every other
register and everything else is as it stood. -/
structure Finished (s t : State) (d om st : Nat) : Prop where
  value : t.sreg d = if d = 0 then 0 else exact st
  others : ∀ n, n ≠ d → t.sreg n = s.sreg n
  sets : ∀ x, x < 16 → t.core.oset x = if x = om ∧ om ≠ 0 then s.core.oset om ++ [s.nextId] else s.core.oset x
  core : t.core = { s.core.advance with s := t.core.s, o := t.core.o }
  cores : ∀ n, n ≠ s.cur → t.coreAt n = s.coreAt n
  live : ∀ id, t.isLive id = (s.isLive id && id != s.nextId)
  nextId : t.nextId = s.nextId + 1
  rest : t = { s with cores := t.cores, live := t.live, nextId := t.nextId }

/-- Instruction i finishes with a status from a state. -/
def Finishes (i : Instr) (s s1 : State) (d om st : Nat) : Prop := ∃ t, exec i s = .next t ∧ Finished s1 t d om st

/-- The instruction stays where it is, its core marked as c: nothing else changes. -/
def Stays (i : Instr) (s : State) (c : Core) : Prop := ∃ t, exec i s = .next t ∧ OnlyCore s t ∧ t.core = c

/-- R362, R364: a function on region g, named by register a, may run: its OW set is performed, the region is live, and no other core works on
it, nor a pull that this core has not started. -/
structure Works (s : State) (ow a g : Nat) : Prop where
  ordered : s.setDone ow = true
  named : (s.sreg a).toNat = g
  small : g < 128
  live : (s.region g).live = true
  alone : ∀ e ∈ s.cores, e.1 ≠ s.cur → e.2.holds ≠ some g
  still : (s.region g).proofSt = .pulling → s.core.holds = some g

/-- A wait of a function on region g for at most lim cycles, then a status. -/
def BoundedFinish (i : Instr) (s : State) (g lim d om st : Nat) : Prop :=
  (s.core.waitFrom = none → lim = 0 → Finishes i s s d om st) ∧
  (s.core.waitFrom = none → lim ≠ 0 → Stays i s { s.core with holds := some g, waitFrom := some (s.cycle, s.gtime) }) ∧
  ∀ c n, s.core.waitFrom = some (c, n) → (s.cycle - c < lim → Stays i s { s.core with holds := some g }) ∧
    (lim ≤ s.cycle - c → Finishes i s s d om st)

/-- R362: D, the register that names the region, OW and OM of the functions on a region. -/
def regionForm : Instr → Option (Nat × Nat × Nat × Nat)
  | .pull d a _ ow om => some (d, a, ow, om)
  | .drain d a _ ow om => some (d, a, ow, om)
  | .drainFlush d a _ ow om => some (d, a, ow, om)
  | .qstat d a ow om _ => some (d, a, ow, om)
  | .pmove d a _ ow om => some (d, a, ow, om)
  | .pfree d a ow om => some (d, a, ow, om)
  | _ => none

/-- R341 to R344: the etch fields and their widths. -/
def fieldWidths : List (Nat × Nat) :=
  [(0, 3), (1, 16), (2, 13), (3, 11), (4, 5), (5, 24), (6, 32), (7, 26), (8, 8), (9, 12), (10, 17), (11, 8), (12, 16), (13, 1),
   (48, 5), (49, 2), (50, 6), (51, 19), (52, 10), (53, 16), (54, 7), (55, 16), (56, 16), (57, 16), (58, 4), (59, 7),
   (80, 11), (81, 4), (82, 9), (83, 8), (112, 3), (113, 8), (114, 6), (115, 3), (116, 10), (117, 13), (118, 11)]

/-- R341 to R344: a value that a field takes, beyond its width. -/
def fieldTakes (f v : Nat) : Prop :=
  (f = 2 → 1 ≤ v / 64 ∧ v / 64 ≤ 64) ∧ (f = 4 → 1 ≤ v ∧ v ≤ 16) ∧ (f = 7 → v / 2 ^ 13 ≤ 4096) ∧ (f = 8 → v ≤ 128) ∧ (f = 49 → v ≤ 2) ∧
  (f = 51 → v % 64 = 0) ∧ (f = 53 → 1 ≤ v) ∧ (f = 80 → v / 256 < 5) ∧ (f = 81 → v % 8 < 5) ∧ (f = 82 → 1 ≤ v ∧ v ≤ 256) ∧
  (f = 113 → 1 ≤ v / 2 ∧ v / 2 ≤ 64)

/-- R340: object, rate set and index under which a plain field's value lies. -/
def fieldPlace (t : Tile) (f v : Nat) : Option (Nat × Nat × Nat) :=
  if f ∈ [1, 2, 3, 6, 7, 8, 9, 13] then some (t.asel, 0, 0)
  else if f ∈ [4, 5, 11] then some (t.asel, t.rsel, 0)
  else if f = 10 then some (t.asel, 0, v / 2 ^ 13 % 16)
  else if f ∈ [49, 50, 57, 58] then some (t.dsel, 0, 0)
  else if f ∈ [51, 52, 53, 54, 55, 56, 59] then some (t.dsel, t.rsel, 0)
  else if f ∈ [82, 83, 113] then some (0, 0, 0)
  else if f = 115 then some (0, 0, t.sidx)
  else none

/-- A router pair is a region's, or another's (R346). -/
def pairBy (x g : Nat) : Prop := x.testBit 3 = true ∧ x / 16 % 128 = g
def pairByOther (x g : Nat) : Prop := x.testBit 3 = true ∧ x / 16 % 128 ≠ g

/-- R337, R340 to R346, R261: what a WRITE does: fields, values and elements that do not exist reject the stream; a selector or index moves; a
value lands in the proof plane under its selectors; a group's header and its next member land in the region's proof groups; a router pair is
written where no other region owns it. Model's choices: assumption 51. -/
def EtchWrites : Prop :=
  (∀ (s : State) (g l f v low : Nat), l < 2048 → f < 128 → low < 4096 → (s.region g).resolve l = none →
    s.etchWrite g (l * 2 ^ 19 + f * 2 ^ 12 + low) v = .error 1) ∧
  ∀ (s : State) (g l f v p low : Nat), s.wf = true → l < 2048 → f < 128 → low < 4096 → (s.region g).resolve l = some p →
    Sparse.rising (s.tile p).proof = true → Sparse.rising (s.tile p).pairsProof = true → Sparse.rising (s.region g).groupsProof = true →
    let w := l * 2 ^ 19 + f * 2 ^ 12 + low
    let t := s.tile p
    let only (u : State) (t' : Tile) : Prop := u.tile p = t' ∧ (∀ q, q ≠ p → u.tile q = s.tile q) ∧ u = { s with tiles := u.tiles }
    ((∀ n, (f, n) ∉ fieldWidths) → s.etchWrite g w v = .error 1) ∧
    (∀ n, (f, n) ∈ fieldWidths → 2 ^ n ≤ v ∨ ¬ fieldTakes f v → s.etchWrite g w v = .error 1) ∧
    (∀ n, (f, n) ∈ fieldWidths → v < 2 ^ n → fieldTakes f v →
      (116 ≤ f → l ≠ 0 → s.etchWrite g w v = .error 1) ∧
      (f = 9 → v / 4 % 16 = 0 ∨ v / 256 % 16 = 0 → s.etchWrite g w v = .error 11) ∧
      (f = 82 → v ≠ t.cfg 82 0 0 0 → (∃ e ∈ t.pairs ++ t.pairsProof, pairByOther e.2 g) → s.etchWrite g w v = .error 8) ∧
      (f = 0 → ∃ u, s.etchWrite g w v = .ok u ∧ only u { t with asel := v }) ∧
      (f = 48 → ∃ u, s.etchWrite g w v = .ok u ∧ only u { t with dsel := v }) ∧
      (f = 80 → ∃ u, s.etchWrite g w v = .ok u ∧ only u { t with rslot := v }) ∧
      (f = 112 → ∃ u, s.etchWrite g w v = .ok u ∧ only u { t with rsel := v }) ∧
      (f = 116 → l = 0 → ∃ u, s.etchWrite g w v = .ok u ∧ u.region g = { s.region g with gsel := v } ∧ (∀ h, h ≠ g → u.region h = s.region h) ∧
        u = { s with regions := u.regions }) ∧
      (f = 117 ∨ f = 118 → l = 0 → ∃ u, s.etchWrite g w v = .ok u ∧
        u.region g = { s.region g with groupsProof := (u.region g).groupsProof } ∧ (∀ h, h ≠ g → u.region h = s.region h) ∧
        u = { s with regions := u.regions } ∧
        (∀ k, k ≠ (s.region g).gsel → (Sparse.get {} (u.region g).groupsProof k : GroupDef) = Sparse.get {} (s.region g).groupsProof k) ∧
        let old : GroupDef := Sparse.get {} (s.region g).groupsProof (s.region g).gsel
        Sparse.get {} (u.region g).groupsProof (s.region g).gsel =
          if f = 117 then { defd := decide (v % 2 = 1), skip := decide (v / 2 % 2 = 1), count := v / 4 + 1, members := [] }
          else { old with members := old.members ++ [v] }) ∧
      (f = 114 → ∃ u, s.etchWrite g w v = .ok u ∧ only u { t with sidx := v }) ∧
      (∀ o r i, fieldPlace t f v = some (o, r, i) → (f = 9 → v / 4 % 16 ≠ 0 ∧ v / 256 % 16 ≠ 0) →
        (f = 82 → v = t.cfg 82 0 0 0 ∨ ∀ e ∈ t.pairs ++ t.pairsProof, ¬ pairByOther e.2 g) →
        ∃ u, s.etchWrite g w v = .ok u ∧
          only u { t with proof := (u.tile p).proof, sidx := if f = 115 then (t.sidx + 1) % 64 else t.sidx } ∧
          Sparse.get 0 (u.tile p).proof (cfgKey f o r i) = (if f = 10 then v % 2 ^ 13 else v) ∧
          ∀ k, k ≠ cfgKey f o r i → Sparse.get 0 (u.tile p).proof k = Sparse.get 0 t.proof k) ∧
      (f = 12 → ∃ u, s.etchWrite g w v = .ok u ∧
        let ix := Sparse.get 0 t.proof (cfgKey 11 t.asel t.rsel 0)
        only u { t with proof := (u.tile p).proof } ∧ Sparse.get 0 (u.tile p).proof (cfgKey 11 t.asel t.rsel 0) = (ix + 1) % 256 ∧
        (ix < 256 → t.asel < 64 → t.rsel < 8 → Sparse.get 0 (u.tile p).proof (cfgKey 12 t.asel t.rsel ix) = v)) ∧
      (f = 81 →
        let k := 8 * (t.rslot % 256) + t.rslot / 256
        let act := Sparse.get 0 t.pairs k
        let pro := Sparse.get 0 t.pairsProof k
        let foreign := pairByOther pro g ∨ (v.testBit 3 = true ∧ pairByOther act g)
        (foreign → s.etchWrite g w v = .error 8) ∧
        (¬ foreign → ∃ u, s.etchWrite g w v = .ok u ∧
          only u { t with pairsProof := (u.tile p).pairsProof, rslot := (t.rslot + 1) % 256 + t.rslot / 256 * 256 } ∧
          Sparse.get 0 (u.tile p).pairsProof k = (if v.testBit 3 then v % 8 + 8 + 16 * g else 0) ∧
          ∀ j, j ≠ k → Sparse.get 0 (u.tile p).pairsProof j = Sparse.get 0 t.pairsProof j)))

/-- R336, R338, R339: the form of a stream. Its first word is REGION with the region's plate count, which starts the proof plane from the active
one where FRESH is set or none is staged; HIGH holds the high bits of the next WRITE; MARK may stand anywhere, PULL only before END; END closes
the stream with its count; any other word rejects it, with the word's ELEMENT, or 0 for a CONTROL word, and its index; that a transit leg
refused is END's word is the model's choice (assumption 51). -/
def EtchForm : Prop :=
  (∀ reason obj idx, (EtchBad.reject reason obj idx).status =
    0x1F + reason % 2 ^ 8 * 2 ^ 8 + obj % 2 ^ 16 * 2 ^ 32 + idx % 2 ^ 16 * 2 ^ 48) ∧
  (∀ (s : State) (g n i : Nat) (h : Option Nat) (w : Nat), w < 2 ^ 32 →
    let kind := w / 2 ^ 30
    let subcode := w / 2 ^ 26 % 16
    let operand := w % 2 ^ 26
    (∀ u, kind = 0 → s.etchWrite g w (w % 2 ^ 12 + h.getD 0 * 2 ^ 12) = .ok u → s.etchWord g n i h w = .ok (u, none)) ∧
    (∀ r, kind = 0 → s.etchWrite g w (w % 2 ^ 12 + h.getD 0 * 2 ^ 12) = .error r → s.etchWord g n i h w = .error r) ∧
    (kind = 1 → h = none → s.etchWord g n i h w = .ok (s, some (w % 2 ^ 30))) ∧
    (kind ≠ 0 → h ≠ none → s.etchWord g n i h w = .error 1) ∧ (kind = 3 → s.etchWord g n i h w = .error 1) ∧
    (kind = 2 → h = none →
      (subcode = 1 → ∃ u, s.etchWord g n i h w = .ok (u, none) ∧ u = { s with regions := u.regions } ∧
        u.region g = { s.region g with markTag := operand } ∧ ∀ k, k ≠ g → u.region k = s.region k) ∧
      (subcode = 2 → operand = 0 → i + 2 = n → ∃ u, s.etchWord g n i h w = .ok (u, none) ∧ u = { s with regions := u.regions } ∧
        u.region g = { s.region g with auto := true } ∧ ∀ k, k ≠ g → u.region k = s.region k) ∧
      (subcode ≠ 1 → ¬ (subcode = 2 ∧ operand = 0 ∧ i + 2 = n) → s.etchWord g n i h w = .error 1))) ∧
  ∀ (s : State) (g n : Nat) (rd : WordAt) (word : Nat → Nat), (∀ i u, i < n → rd i u = .ok (word i) u ∧ word i < 2 ^ 32) → 2 ≤ n →
    let named (w : Nat) : Nat := if w / 2 ^ 30 = 0 then w / 2 ^ 19 % 2 ^ 11 else 0
    let opens := word 0 / 2 ^ 26 = 0x20 ∧ word 0 % 2 ^ 26 / 2 ^ 8 = 0 ∧ (if word 0 % 128 = 0 then 128 else word 0 % 128) = (s.region g).npl
    let u := if (s.region g).staged = false ∨ (word 0).testBit 7 = true then s.proofFromActive g else s
    let u := (u.clearSelectors g).mapRegion g (fun r => { r with auto := false })
    (¬ opens → etchStream rd g n s = .error (.reject 1 (named (word 0)) 0) s) ∧
    (opens → etchStream rd g n s = etchWords rd g n (n - 1) 1 none u) ∧
    (∀ t i fuel h, i + 1 < n →
      (∀ v k, t.etchWord g n i h (word i) = .ok (v, k) → etchWords rd g n (fuel + 1) i h t = etchWords rd g n fuel (i + 1) k v) ∧
      ∀ r, t.etchWord g n i h (word i) = .error r → etchWords rd g n (fuel + 1) i h t = .error (.reject r (named (word i)) i) t) ∧
    ∀ t h fuel,
      let closes := h = none ∧ word (n - 1) = 0x23 * 2 ^ 26 + (n - 1) % 2 ^ 26
      (¬ closes → etchWords rd g n (fuel + 1) (n - 1) h t = .error (.reject 1 (named (word (n - 1))) (n - 1)) t) ∧
      (closes → ∀ v, t.writeLegs Tile.proofPeriod g = some v → etchWords rd g n (fuel + 1) (n - 1) h t = .ok () v) ∧
      (closes → t.writeLegs Tile.proofPeriod g = none → etchWords rd g n (fuel + 1) (n - 1) h t = .error (.reject 8 0 (n - 1)) t)

/-- R347: a transit leg is written into the proof pairs of every router from the boundary tile to the edge: hop k in slot (s + k) mod P, or
(s − k) mod P inbound, with the region as OWNER and TRANSIT set; a router with no region and no pair takes the period. It is refused, and
nothing written, where a pair is another region's or taken, or a router runs another period. -/
def TransitLegs : Prop :=
  ∀ (s : State) (g per s0 o : Nat) (inbound : Bool) (ray : List Nat), 0 < per → per ≤ 256 → s0 < per → o < 4 → g < 128 → ray.Nodup →
    (∀ q ∈ ray, Sparse.rising (s.tile q).pairsProof = true ∧ Sparse.rising (s.tile q).plane = true) → Sparse.rising s.tiles = true →
    let slot (k : Nat) : Nat := (((s0 : Int) + if inbound then -(k : Int) else k) % per).toNat
    let port (away : Bool) : Nat := if away then o else (o + 2) % 4
    let key (k : Nat) : Nat := 8 * slot k + port (!inbound)
    let idle (q : Nat) : Prop := s.owner q = none ∧ (s.tile q).pairs = [] ∧ (s.tile q).pairsProof = []
    let free (k q : Nat) : Prop := (idle q ∨ (s.tile q).cfg 82 0 0 0 = per) ∧ ¬ pairByOther (Sparse.get 0 (s.tile q).pairs (key k)) g ∧
      (Sparse.get 0 (s.tile q).pairsProof (key k)).testBit 3 = false
    ((∃ k q, ray[k]? = some q ∧ ¬ free (k + 1) q) → s.writeLeg g per s0 o inbound 1 ray = none) ∧
    ((∀ k q, ray[k]? = some q → free (k + 1) q) → ∃ u, s.writeLeg g per s0 o inbound 1 ray = some u ∧ u = { s with tiles := u.tiles } ∧
      (∀ q, q ∉ ray → u.tile q = s.tile q) ∧ ∀ k q, ray[k]? = some q →
        u.tile q = { s.tile q with pairsProof := (u.tile q).pairsProof, plane := (u.tile q).plane } ∧ (u.tile q).cfg 82 0 0 0 = per ∧
        Sparse.get 0 (u.tile q).pairsProof (key (k + 1)) = port inbound + 8 + 16 * g + 2 ^ 11 ∧
        ∀ j, j ≠ key (k + 1) → Sparse.get 0 (u.tile q).pairsProof j = Sparse.get 0 (s.tile q).pairsProof j)

/-- R348, R17: a section meets what the active configuration of its tile claims: the lines of its installed code, its windows, and the state and
private areas of its actors. A tile with no actor installed claims nothing. -/
def MeetsClaim (s : State) (g p : Nat) (x : Sect) : Prop :=
  let t := s.tile p
  let k := x.key p
  let meets (a n : Nat) : Prop := a < k + x.data.length ∧ k < a + n
  (∃ a, a < 8 ∧ t.avalid a = true) ∧
    ((∃ y ∈ (s.region g).obj.sects, y.kind = 0 ∧ (s.region g).resolve y.ltile = some p ∧
        let lo := (imemBase p + y.toff) / 64
        meets (64 * lo) (64 * ((imemBase p + y.toff + y.data.length + 63) / 64 - lo))) ∨
      (∃ d, d < 32 ∧ (s.desc (descKey p d)).kind = 1 ∧
        meets (tileBase p + (s.desc (descKey p d)).base) ((s.desc (descKey p d)).cap * (s.desc (descKey p d)).size)) ∨
      ∃ a, a < 8 ∧ t.avalid a = true ∧ meets (tileBase p + t.privOff a) (max (t.privLen a) (t.stateLen a)))

/-- R348: of the sections of the object staged, those that meet no claim are written at once and the others deferred; no other byte changes.
The sections here do not overlap one another. Model's choices: assumption 51. -/
def Sections : Prop :=
  ∀ (s : State) (g : Nat), s.wf = true → g < 128 →
    let xs := (s.region g).objProof.sects
    let u := s.stageSects g
    (∀ x ∈ xs, ∃ p, (s.region g).resolve x.ltile = some p) →
    (∀ (i j : Nat) (x y : Sect) (p q : Nat), i ≠ j → xs[i]? = some x → xs[j]? = some y → (s.region g).resolve x.ltile = some p → (s.region g).resolve y.ltile = some q →
      x.key p + x.data.length ≤ y.key q ∨ y.key q + y.data.length ≤ x.key p) →
    u = { s with mem := u.mem, bad := u.bad, regions := u.regions } ∧ (∀ h, h ≠ g → u.region h = s.region h) ∧
    u.region g = { s.region g with deferred := (u.region g).deferred } ∧
    (∀ x p, (s.region g).resolve x.ltile = some p → (x ∈ (u.region g).deferred ↔ x ∈ xs ∧ MeetsClaim s g p x)) ∧
    (∀ x p i, x ∈ xs → (s.region g).resolve x.ltile = some p → ¬ MeetsClaim s g p x → i < x.data.length →
      byteAt u (x.key p + i) = (x.data[i]?).getD 0) ∧
    ∀ a, (∀ x p, x ∈ xs → (s.region g).resolve x.ltile = some p → ¬ MeetsClaim s g p x → a < x.key p ∨ x.key p + x.data.length ≤ a) →
      byteAt u a = byteAt s a

/-- R362 to R366, R349, R350: the functions on a region wait for their OW set and for another core's function on it, and answer PROTECT with
reason 12 for one that is not live. `etch` marks the proof plane ETCHING, then leaves it READY or, rejecting, NONE, the active plane as it
was; its address is checked at issue alone. `pull` and `drain` wait up to their limit for the drain, `pull` also for accesses still to be
performed (R134, R277); `pull` answers SLOT_STATE without a READY plane, RESIDUE where tokens stay and PLATES where the stream contexts (R310) or
the groups (R261) find no room, else sets that room aside and starts PULLING; FLUSH gives up each segment's tokens beyond INIT and counts them
as discarded; `qstat` reads. A pull that no core has started keeps these functions waiting too. Model's choices: assumptions 51, 100. -/
def PullsAndDrains : Prop :=
  (∀ (i : Instr) (s : State) (d a ow om : Nat), i.wf = true → s.wf = true → regionForm i = some (d, a, ow, om) →
    let g := (s.sreg a).toNat
    (s.setDone ow = false → exec i s = .next s) ∧
    (s.setDone ow = true → 128 ≤ g ∨ (s.region g).live = false → Finishes i s s d om 0xC05) ∧
    (s.setDone ow = true → g < 128 → (s.region g).live = true →
      (∃ e ∈ s.cores, e.1 ≠ s.cur ∧ e.2.holds = some g) ∨ ((s.region g).proofSt = .pulling ∧ s.core.holds ≠ some g) → exec i s = .next s)) ∧
  ∀ (s : State), s.wf = true →
    (∀ d a b ow om g, (Instr.etch d a b ow om).wf = true →
      (s.core.checked = true ∨ ∃ pl, checkAccess .control .read 4 4 (s.sreg a) s = .ok pl s) → s.setDone ow = true →
      (s.sreg d).toNat = g → g < 128 → (s.region g).live = true → (s.region g).proofSt = .pulling → s.core.holds ≠ some g →
      Stays (.etch d a b ow om) s { s.core with checked := true }) ∧
    (∀ d a b ow om t s1, (Instr.etch d a b ow om).wf = true → s.core.checked = false →
      checkAccess .control .read 4 4 (s.sreg a) s = .error (.trap t) s1 → exec (.etch d a b ow om) s = .next (s1.takeTrap t)) ∧
    (∀ d a b ow om g, (Instr.etch d a b ow om).wf = true →
      (s.core.checked = true ∨ ∃ pl, checkAccess .control .read 4 4 (s.sreg a) s = .ok pl s) → Works s ow d g →
      let i := Instr.etch d a b ow om
      ((s.region g).proofSt = .pulling → Stays i s { s.core with checked := true, holds := some g }) ∧
      ((s.region g).proofSt ≠ .pulling → s.core.shut = false → ∃ t, exec i s = .next t ∧
        t.region g = { s.region g with staged := decide ((s.region g).proofSt = .ready), proofSt := .etching } ∧
        (∀ h, h ≠ g → t.region h = s.region h) ∧ t.core = { s.core with checked := true, holds := some g, shut := true } ∧
        t = { s with regions := t.regions, cores := t.cores }) ∧
      ((s.region g).proofSt ≠ .pulling → s.core.shut = true →
        let r := (s.mapCore (fun c => { c with checked := true, holds := some g })).etchAt g (s.sreg a) (s.sreg b).toNat
        Finishes i s r.2 d om r.1 ∧ (r.2.region g).proofSt = (if r.1 = 0 then .ready else .none) ∧
        ∀ p, s.owner p ≠ none → (r.2.tile p).plane = (s.tile p).plane ∧ (r.2.tile p).pairs = (s.tile p).pairs ∧
          (r.2.tile p).slots = (s.tile p).slots)) ∧
    (∀ d a b ow om g, (Instr.pull d a b ow om).wf = true → Works s ow a g →
      let i := Instr.pull d a b ow om
      (s.core.shut = true → (s.region g).proofSt = .pulling → Stays i s { s.core with holds := some g }) ∧
      (s.core.shut = true → (s.region g).proofSt ≠ .pulling → Finishes i s s d om 0) ∧
      (s.core.shut = false → (s.region g).proofSt ≠ .ready → Finishes i s s d om (0x14 + (s.region g).proofSt.code * 2 ^ 16)) ∧
      (s.core.shut = false → (s.region g).proofSt = .ready → s.drained g = false ∨ s.unperformed g = true →
        BoundedFinish i s g (s.sreg b).toNat d om (0x07 + s.busyTiles g * 2 ^ 16)) ∧
      (s.core.shut = false → (s.region g).proofSt = .ready → s.drained g = true → s.unperformed g = false →
        (∀ e k x, s.residue g = some (e, k, x) →
          Finishes i s s d om (0x0B + e % 65536 * 2 ^ 16 + k % 65536 * 2 ^ 32 + min x 65535 * 2 ^ 48)) ∧
        (∀ n, s.residue g = none → s.shortCtx g (s.region g).objProof = n → n ≠ 0 → Finishes i s s d om (0xC1F + n % 65536 * 2 ^ 48)) ∧
        (s.residue g = none → s.shortCtx g (s.region g).objProof = 0 → s.planGroups g = none → Finishes i s s d om 0xC1F) ∧
        (∀ gs, s.residue g = none → s.shortCtx g (s.region g).objProof = 0 → s.planGroups g = some gs →
          ∃ t, exec i s = .next t ∧ (t.region g).proofSt = .pulling ∧
          (t.region g).groupPlan = gs ∧ (t.region g).ctxPlan = s.planCtxs g (s.region g).objProof.strs ∧
          (t.region g).swapAt = s.cycle + 128 + ((s.region g).deferredBytes + 63) / 64 ∧ t.core.holds = some g ∧ t.core.shut = true ∧
          t.core.pc = s.core.pc))) ∧
    (∀ d a b ow om g, (Instr.drain d a b ow om).wf = true → Works s ow a g → s.core.shut = false →
      (s.drained g = true → Finishes (.drain d a b ow om) s s d om 0) ∧
      (s.drained g = false → ∀ i ∈ [Instr.drain d a b ow om, .drainFlush d a b ow om],
        BoundedFinish i s g (s.sreg b).toNat d om (0x07 + s.busyTiles g * 2 ^ 16)) ∧
      (s.drained g = true → ∃ t, exec (.drainFlush d a b ow om) s = .next t ∧ t.core = { s.core with holds := some g, shut := true } ∧
        t = { s with descs := t.descs, queued := t.queued, entered := t.entered, regions := t.regions, cores := t.cores } ∧
        ∀ e ∈ s.arcs g, ∀ k ∈ (s.arcSegs g e).map Prod.snd, (s.desc k).init < (s.desc k).count →
          t.desc k = { s.desc k with
            rd := ((s.desc k).wr + 2 ^ 32 - (s.desc k).init) % 2 ^ 32
            rpos := ((s.desc k).rpos + ((s.desc k).count - (s.desc k).init)) % max 1 (s.desc k).cap } ∧
          .ret (t.desc k).rd ∈ flits t k) ∧
      (s.drained g = true → ∀ t, exec (.drainFlush d a b ow om) s = .next t →
        let ks := (s.arcs g).flatMap (fun e => (s.arcSegs g e).map Prod.snd)
        (∀ h, h ≠ g → t.region h = s.region h) ∧ t.region g = { s.region g with discards := (t.region g).discards } ∧
        (ks.Nodup → (t.region g).discards = (s.region g).discards + (ks.map (fun k => (s.desc k).count - (s.desc k).init)).sum))) ∧
    (∀ d a b ow om g, (Instr.drainFlush d a b ow om).wf = true → Works s ow a g → s.core.shut = true →
      (s.drained g = true → Finishes (.drainFlush d a b ow om) s s d om 0) ∧
      (s.drained g = false → Stays (.drainFlush d a b ow om) s { s.core with holds := some g })) ∧
    ∀ d a ow om sl g, (Instr.qstat d a ow om sl).wf = true → Works s ow a g →
      let r := s.region g
      let code := match r.proofSt with
        | .none => 0
        | .etching => 1
        | .ready => 2
        | .pulling => 3
      Finishes (.qstat d a ow om sl) s s d om (match sl with
        | 0 => code + (if r.auto then 4 else 0) + (if s.drained g then 8 else 0) + 16 * (r.npl % 128) + 2 ^ 11 * r.markTag
        | 1 => r.pulls
        | 2 => r.discards
        | n => bitSet 64 (fun t => match r.resolve (64 * (n - 3) + t) with
          | some p => s.tileBusy p
          | none => false))

/-- R350, R352, R48, R34, R64, R200, R348, R428: PULL_SWAP makes the proof fields of every tile of the region active, gives each installed slot
WAITING at its copy's firing and leaves the rest UNUSED, clears the cores' registers and the words of instruction memory that the new code does
not cover, and starts the new instance. A drained region whose streams brought mode 0, or with a slot stopped, ends, with the time of the drain;
one brought another mode starts again in it, its quiescent slots waiting, or ends with INCONSISTENT where the mode is not declared; a READY
automatic plane is pulled instead. Model's choices: assumption 81. -/
def SwapsAndModes : Prop :=
  ∀ (s : State) (g : Nat), s.wf = true → g < 128 →
    let r := s.region g
    (r.proofSt = .pulling → r.swapAt ≤ s.cycle → r.tiles.Nodup → ∃ t, exec (.pullSwap g) s = .next t ∧
      (t.region g).proofSt = .none ∧ (t.region g).pulls = r.pulls + 1 ∧ (t.region g).started = true ∧ (t.region g).ended = none ∧
      (t.region g).mode = 0 ∧ (t.region g).obj = r.objProof ∧ (∀ h, h ≠ g → t.region h = s.region h) ∧
      (∀ p ∈ r.tiles, t.coreAt p = {} ∧ ∀ i k, i < 8192 → k < 8 →
        (∀ x ∈ r.objProof.sects, x.kind = 0 → r.resolve x.ltile = some p → x.toff + x.data.length ≤ 8 * i ∨ 8 * i + 8 ≤ x.toff) →
        byteAt t (imemBase p + 8 * i + k) = 0) ∧
      (∀ p ∈ r.tiles, (t.tile p).plane = (s.tile p).proof ∧ (t.tile p).firing = none ∧ (t.tile p).schedPos = 0 ∧
        ∀ a, a < 8 → (t.tile p).slot a = if (t.tile p).avalid a then { st := .waiting, firing := (t.tile p).acopy a } else {}) ∧
      ∀ p, p ∉ r.tiles → (t.tile p).plane = (s.tile p).plane ∧ (t.tile p).slots = (s.tile p).slots ∧ (t.tile p).firing = (s.tile p).firing) ∧
    (r.proofSt = .pulling → s.cycle < r.swapAt → exec (.pullSwap g) s = .next s) ∧
    (s.drained g = false → exec (.regionDrained g) s = .next s) ∧
    (r.live = true → r.started = true → r.halted = false → r.ended = none → s.drained g = true →
      (r.proofSt = .ready → r.auto = true → s.unperformed g = true → exec (.regionDrained g) s = .next s) ∧
      (r.proofSt = .ready → r.auto = true → s.unperformed g = false → s.residue g = none → s.shortCtx g r.objProof = 0 →
        s.groupsFit g = true → ∃ t, exec (.regionDrained g) s = .next t ∧ (t.region g).proofSt = .pulling ∧ (t.region g).swapAt = s.cycle + 128 + (r.deferredBytes + 63) / 64) ∧
      (r.proofSt = .none → r.sinkMode.getD 0 = 0 ∨ (∃ p ∈ r.tiles, ∃ a, a < 8 ∧ ((s.tile p).slot a).st = .stopped) →
        ∃ t, exec (.regionDrained g) s = .next t ∧ (t.region g).ended = some 0 ∧ (t.region g).started = false ∧
          (t.region g).endG = r.drainAt.getD s.gtime ∧ (t.region g).drainMode = r.sinkMode.getD 0 ∧
          ∀ p ∈ r.tiles, ∀ a, a < 8 → ((t.tile p).slot a).st = .unused) ∧
      (∀ m, r.proofSt = .none → r.sinkMode = some m → m ≠ 0 →
        (∀ p ∈ r.tiles, ∀ a, a < 8 → ((s.tile p).slot a).st ≠ .stopped) →
        ((∃ p ∈ r.tiles, ∃ a, a < 8 ∧ (s.tile p).avalid a = true ∧ (s.tile p).phases a m ≠ 0) → r.ctx = [] → r.tiles.Nodup →
          ∃ t, exec (.regionDrained g) s = .next t ∧ (t.region g).mode = m ∧ (t.region g).started = true ∧ (t.region g).sinkMode = none ∧
            ∀ p ∈ r.tiles, ∀ a, a < 8 → (t.tile p).slot a = { (s.tile p).slot a with
              st := if ((s.tile p).slot a).st = .quiescent then .waiting else ((s.tile p).slot a).st
              k0 := ((s.tile p).slot a).firing - (s.tile p).acopy a
              bypass := 0 }) ∧
        ((∀ p ∈ r.tiles, ∀ a, a < 8 → (s.tile p).avalid a = true → (s.tile p).phases a m = 0) →
          ∃ t, exec (.regionDrained g) s = .next t ∧ (t.region g).ended = some 0x1F ∧ (t.region g).started = false ∧
            (t.region g).ffw = exact (0x1F + 3 * 2 ^ 8 + m % 8 * 2 ^ 16 : Nat))))

/-- R354, R356: a plate set may take origin (x, y). -/
def placeable (s : State) (p : Placing) (legs : List Nat) (x y : Nat) : Prop :=
  x + p.pw ≤ 16 ∧ y + p.ph ≤ 8 ∧ (p.edge.testBit 0 = true → y = 0) ∧ (p.edge.testBit 1 = true → y + p.ph = 8) ∧
  (p.edge.testBit 2 = true → x = 0) ∧ (p.edge.testBit 3 = true → x + p.pw = 16) ∧
  (p.edge.testBit 4 = false → x / 8 = (x + p.pw - 1) / 8) ∧
  (∀ i j, i < p.pw → j < p.ph → (s.plate ((x + i) / 8 * 64 + (y + j) * 8 + (x + i) % 8)).st = 0 ∧
    (s.plate ((x + i) / 8 * 64 + (y + j) * 8 + (x + i) % 8)).fence = false) ∧
  ∀ w ∈ legs, s.legFree (p.plates x y) w = true

/-- R353 to R358, R362, R367: `palloc` gives the lowest free region number the plates at the first origin its record may take, and a region that
translates nothing, or answers PLATES with the shortfall; `pmove` moves a region at rest, every byte of its tiles going to the tile of the
same logical number and its old plates to SCRUB; `pfree` ends one, its pairs released and its plates in SCRUB; both wait for accesses still to
be performed (R104). A scrub leaves a plate's
memories zero and the plate FREE; FENCE is written at level M only, PFAULT set by a permanent fault and cleared by a write of 1.
Model's choices: assumption 52, and 21 for the firings and registers that `pfree` clears at once. -/
def Plates : Prop :=
  (∀ (s s1 : State) (d a ow om : Nat) (pl : Place), (Instr.palloc d a ow om).wf = true → s.wf = true → s1.wf = true →
    s.core.checked = true ∨ checkAccess .control .read 16 16 (s.sreg a) s = .ok pl s → s.setDone ow = true → ∀ i, i = Instr.palloc d a ow om →
    let u := s.mapCore (fun c => { c with checked := true })
    (readPlacing (s.sreg a) 0 u = .ok none s1 → Finishes i s s1 d om 0x11F) ∧
    (∀ f, readPlacing (s.sreg a) 0 u = .error f s1 → Finishes i s s1 d om (f.code + f.reason * 2 ^ 8 + f.idx % 2 ^ 32 * 2 ^ 32)) ∧
    ∀ rec_ p legs, readPlacing (s.sreg a) 0 u = .ok (some (rec_, p, legs)) s1 → 0 < p.pw → 0 < p.ph →
      ((∀ x y, x < 16 → y < 8 → ¬ placeable s1 p legs x y) → Finishes i s s1 d om
        (0x1F + 12 * 2 ^ 8 + (p.pw * p.ph - ((List.range 128).filter (fun n => decide ((s1.plate n).st = 0) && !(s1.plate n).fence)).length) % 65536 * 2 ^ 48)) ∧
      ∀ x y g, x < 16 → y < 8 → placeable s1 p legs x y → (∀ x' y', x' < 16 → y' * 16 + x' < y * 16 + x → ¬ placeable s1 p legs x' y') →
        g < 128 → s1.regionFree g = true → (∀ h, h < g → s1.regionFree h = false) →
        let r : Region :=
          { live := true, npl := p.pw * p.ph, map := p.plates x y, origin := x + 16 * y, pw := p.pw, place := rec_, legs := legs, seed := s1.seedReg }
        ∃ s2, Finishes i s s2 d om (g * 2 ^ 16) ∧ s2.region g = r ∧ (∀ h, h ≠ g → s2.region h = s1.region h) ∧
          (∀ n, n ∈ p.plates x y → s2.plate n = { s1.plate n with st := 1, region := g }) ∧
          (∀ n, n ∉ p.plates x y → s2.plate n = s1.plate n) ∧ Sparse.get 0 s2.roots g = 0 ∧
          s2 = { s1 with regions := s2.regions, plates := s2.plates, roots := s2.roots, tlb := s2.tlb }) ∧
  (∀ (s : State) (d a b ow om g : Nat), (Instr.pmove d a b ow om).wf = true → s.wf = true → Works s ow a g →
    let i := Instr.pmove d a b ow om
    let r := s.region g
    let o := (s.sreg b).toNat
    (s.atRest g = false → Finishes i s s d om (0x14 + r.proofSt.code * 2 ^ 16)) ∧
    let moved := (s.mapCore (fun c => { c with holds := some g })).moveRegion g (o % 16) (o / 16)
    (s.atRest g = true → s.unperformed g = true → Stays i s { s.core with holds := some g }) ∧
    (s.atRest g = true → s.unperformed g = false → 128 ≤ o ∨ moved = none → Finishes i s s d om (0x1F + 12 * 2 ^ 8)) ∧
    ∀ p s2, s.atRest g = true → s.unperformed g = false → o < 128 → moved = some s2 → placeOf r.place = some p → r.map.length = r.npl → r.npl = p.pw * p.ph → r.map.Nodup →
      (∀ n ∈ r.map, (s.plate n).st = 1 ∧ n < 128) → Finishes i s s2 d om 0 ∧ (s2.region g).map = p.plates (o % 16) (o / 16) ∧ (s2.region g).origin = o ∧
        (∀ n, n ∈ p.plates (o % 16) (o / 16) → (s2.plate n).st = 1 ∧ (s2.plate n).region = g) ∧ (∀ n ∈ r.map, (s2.plate n).st = 2) ∧
        ∀ l x y, r.resolve l = some x → (s2.region g).resolve l = some y → ∀ k, k < 2 ^ 19 →
          byteAt s2 (tileBase y + k) = byteAt s (tileBase x + k)) ∧
  (∀ (s : State) (d a ow om g : Nat), (Instr.pfree d a ow om).wf = true → s.wf = true → Works s ow a g →
    let i := Instr.pfree d a ow om
    (s.atRest g = false → (s.region g).ended = none → Finishes i s s d om (0x14 + (s.region g).proofSt.code * 2 ^ 16)) ∧
    (s.atRest g = true ∨ (s.region g).ended ≠ none → s.unperformed g = true → Stays i s { s.core with holds := some g }) ∧
    (s.atRest g = true ∨ (s.region g).ended ≠ none → s.unperformed g = false → ∃ s2, Finishes i s s2 d om 0 ∧ s2.region g = {} ∧ (∀ n ∈ (s.region g).map, (s2.plate n).st = 2) ∧
      (∀ n, n ∉ (s.region g).map → s2.plate n = s.plate n) ∧ (∀ p, ∀ e ∈ (s2.tile p).pairs ++ (s2.tile p).pairsProof, ¬ pairBy e.2 g) ∧
      ∀ p ∈ (s.region g).tiles, (s2.tile p).firing = none ∧ s2.coreAt p = {})) ∧
  ∀ (s : State) (pl : Nat), s.wf = true → pl < 128 →
    ((s.plate pl).st = 2 → ∃ t, exec (.scrubComplete pl) s = .next t ∧ t.plate pl = { s.plate pl with st := 0, region := 0 } ∧
      (∀ n, n ≠ pl → t.plate n = s.plate n) ∧ t = { s with mem := t.mem, bad := t.bad, mats := t.mats, plates := t.plates } ∧
      (∀ q, q < 16 → t.mat (tileOf pl q) = {} ∧ (∀ k, k < 2 ^ 19 → byteAt t (tileBase (tileOf pl q) + k) = 0) ∧
        (∀ k, k < 2 ^ 17 → byteAt t (opndBase (tileOf pl q) + k) = 0) ∧ (∀ k, k < 2 ^ 13 → byteAt t (scaleBase (tileOf pl q) + k) = 0) ∧
        (∀ k, k < 2 ^ 18 → byteAt t (accBase (tileOf pl q) + k) = 0) ∧ ∀ k, k < 2 ^ 16 → byteAt t (imemBase (tileOf pl q) + k) = 0)) ∧
    ((s.plate pl).st ≠ 2 → exec (.scrubComplete pl) s = .next s) ∧
    let puts (i : Instr) (x : Plate) : Prop := ∃ t, exec i s = .next t ∧ t.plate pl = x ∧ (∀ n, n ≠ pl → t.plate n = s.plate n) ∧
      t = { s with plates := t.plates }
    puts (.permanentFault pl) { s.plate pl with pfault := true } ∧ puts (.pfaultClear pl) { s.plate pl with pfault := false } ∧
    ∀ n v, n < 8 → ((s.coreAt (2048 + n)).lvl = 1 → puts (.plateFenceWrite n pl v) { s.plate pl with fence := decide (v % 2 = 1) }) ∧
      ((s.coreAt (2048 + n)).lvl = 0 → puts (.plateFenceWrite n pl v) (s.plate pl))

end Sys2Proof.Claims

/-- R337 to R352, R362 to R366: the words of an etch stream, the functions that stage, pull, drain and read a configuration, the swap and
the mode switch. -/
def Obligations.Reconfiguration : Prop := EtchForm ∧ EtchWrites ∧ TransitLegs ∧ Sections ∧ PullsAndDrains ∧ SwapsAndModes

/-- R353 to R358, R367: the placement, the move and the end of a region, and the states of its plates. -/
def Obligations.PlateAllocation : Prop := Plates

namespace Sys2Proof.Claims

/-! ## The link hub -/

/-- R381: link k leads to node nd: it is of its route mask and UP. -/
def leads (s : State) (nd k : Nat) : Prop := k < 24 ∧ (Sparse.get 0 s.hub.routes nd).testBit k = true ∧ (s.link k).up = true

/-- R381: the link on which a request of a die to node nd leaves: the lowest that leads there, of the die's own hub where that has one. -/
def route (s : State) (die nd l : Nat) : Prop :=
  leads s nd l ∧ (∀ k, k / 12 = die → leads s nd k → l / 12 = die ∧ l ≤ k) ∧
    ((∀ k, k / 12 = die → ¬ leads s nd k) → ∀ k, leads s nd k → l ≤ k)

/-- R382: the next link on which a connection that left on link k sends again: the first that leads there, counted round from k + 1. -/
def nextRoute (s : State) (nd k l : Nat) : Prop :=
  let place (j : Nat) : Nat := (j + 48 - (k + 1) % 24) % 24
  leads s nd l ∧ ∀ j, leads s nd j → place l ≤ place j

/-- The die of a core. -/
def dieOfCore (n : Nat) : Nat := if n < 2048 then n / 1024 else if n < 2056 then (n - 2048) / 4 else 0

/-- R374: the bytes of a message: a header of 16, and the body of its kind, its data padded to 4. -/
def messageBytes (m : Msg) : Nat :=
  let padded := (m.c + 3) / 4 * 4
  16 + if m.ty = 0x10 then 20 else if m.ty = 0x11 then 20 + padded else if m.ty = 0x12 then 36 else if m.ty = 0x13 then 16 + padded
    else if m.ty = 0x14 then 24 + padded else if m.ty = 0x20 ∨ m.ty = 0x24 then 8 else if m.ty = 0x22 then 16 else 0

/-- R373, R374: a message put on a link on which none of its class waits leaves in a flit of its class while the link holds a credit and fewer
than 128 flits, one longer than a flit's 244 bytes in two, and else waits; part of it may have left. -/
def onLink (l : Link) (m : Msg) (l' : Link) : Prop :=
  let c := if m.ty = 2 ∨ 0x20 ≤ m.ty then 1 else 0
  let n := (l.credit[c]?).getD 0
  let size := messageBytes m
  let flits (fs : List (List (Msg × Nat × Nat))) (wait : List (Msg × Nat)) : Link :=
    { l with held := l.held ++ (List.range fs.length).map (fun i => ((l.next + i) % 4096, c, (fs[i]?).getD []))
             next := if fs = [] then l.next else (l.next + fs.length) % 4096
             credit := l.credit.setIfInBounds c (n - fs.length), waiting := l.waiting.setIfInBounds c wait }
  l.waiting[c]? = some [] → l.next < 4096 → size ≤ 488 →
    (n = 0 ∨ 128 ≤ l.held.length → l' = flits [] [(m, 0)]) ∧
    (0 < n → l.held.length < 128 → size ≤ 244 → l' = flits [[(m, 0, size)]] []) ∧
    (1 < n → l.held.length < 127 → 244 < size → l' = flits [[(m, 0, 244)], [(m, 244, size - 244)]] []) ∧
    (0 < n → l.held.length < 128 → n = 1 ∨ l.held.length = 127 → 244 < size → l' = flits [[(m, 0, 244)]] [(m, 244)])

/-- R381: a message leaves a die: by loopback to the own node, else on its route; with none it is lost. -/
def goesOut (s t : State) (die : Nat) (m : Msg) : Prop :=
  (m.dst = s.hub.node → t.hub.loop = s.hub.loop ++ [m] ∧ ∀ k, t.link k = s.link k) ∧
  (m.dst ≠ s.hub.node → t.hub.loop = s.hub.loop ∧
    (∀ l, route s die m.dst l → t.link l = (s.link l).put m ∧ ∀ k, k ≠ l → t.link k = s.link k) ∧
    ((∀ l, ¬ leads s m.dst l) → ∀ k, t.link k = s.link k))

/-- The state without operation id of the hub. -/
def withoutHub (s : State) (id : Nat) : State := (s.dropHub id).retire id

/-- A trap of operation id has reached the core that issued it, against its word: a firing core's once no operation issued before it may still
trap (R186; assumption 43). -/
def trapRecorded (s t : State) (core id : Nat) (pc : Word) (tr : Trap) : Prop :=
  (core < 2048 → ∀ f, (s.tile core).firing = some f → f.trapped = false → f.fault = none → (withoutHub s id).mayTrap core id = false →
    let r := (t.tile core).record
    r[0] = exact (tr.code + (if tr.sw then 256 else 0) : Nat) ∧ r[1] = pc ∧ r[2] = tr.i0 ∧ r[3] = tr.i1 ∧ r[4] = tr.i2 ∧ r[5] = tr.i3) ∧
  (2048 ≤ core →
    let c := t.coreAt core
    c.trapcause.toNat % 256 = tr.code ∧ c.trappc = pc ∧ c.trapinfo0 = tr.i0 ∧ c.trapinfo1 = tr.i1 ∧ c.trapinfo2 = tr.i2 ∧ c.trapinfo3 = tr.i3)

/-- What an instruction of MAJ 0xB8 sends: the trap of its checks, OW and OM, whether the core waits for the answer, whether it is an external
effect (R43), and the operation. -/
structure HubForm where
  trap : Option Trap
  ow : Nat
  om : Nat
  blocks : Bool
  ext : Bool
  op : HubOp

/-- R391: the checks of a target word and an offset. -/
def targetTrap (a b : Word) (n : Nat) : Option Trap :=
  if 2 ^ 42 ≤ b.toNat then some { code := 0x05, i0 := a, i1 := 13, i2 := b }
  else if a.toNat % n ≠ 0 then some { code := 0x03, i0 := a, i1 := exact n } else none

/-- R393, R396: `xld`, `xst`, `xamo` and `edst`. -/
def hubForm (s : State) : Instr → Option HubForm
  | .xld d a b ow om _ sz sg => some ⟨targetTrap (s.sreg a) (s.sreg b) (2 ^ sz), ow, om, true, false,
      { id := 0, fn := 0, core := 0, pc := 0, node := (s.sreg b).toNat / 2 ^ 32 % 1024, d := d, n := 2 ^ sz, sx := sg == 1,
        off := (s.sreg a).toNat, target := (s.sreg b).toNat, data := (s.sreg 0).toNat, cmp := (s.sreg d).toNat % 2 ^ (8 * 2 ^ sz) }⟩
  | .xst d a b ow om _ sz => some ⟨targetTrap (s.sreg a) (s.sreg b) (2 ^ sz), ow, om, decide (2048 ≤ s.cur), true,
      { id := 0, fn := 1, core := 0, pc := 0, node := (s.sreg b).toNat / 2 ^ 32 % 1024, d := d, n := 2 ^ sz, off := (s.sreg a).toNat,
        target := (s.sreg b).toNat, data := (s.sreg d).toNat % 2 ^ (8 * 2 ^ sz), cmp := (s.sreg d).toNat % 2 ^ (8 * 2 ^ sz) }⟩
  | .xamo d a b ow om _ sz sg o e => some ⟨targetTrap (s.sreg a) (s.sreg b) (2 ^ sz), ow, om, true, true,
      { id := 0, fn := 2, core := 0, pc := 0, node := (s.sreg b).toNat / 2 ^ 32 % 1024, d := d, n := 2 ^ sz, sx := sg == 1, o := o,
        off := (s.sreg a).toNat, target := (s.sreg b).toNat, data := (s.sreg e).toNat % 2 ^ (8 * 2 ^ sz),
        cmp := (s.sreg d).toNat % 2 ^ (8 * 2 ^ sz) }⟩
  | .edst d a b ow om _ e cnt =>
    let g := (s.sreg b).toNat
    let bad : Trap := { code := 0x05, i0 := s.sreg a, i1 := 14, i2 := exact g }
    some ⟨if 4095 < g then some bad else if (s.sreg a).toNat % 4 ≠ 0 then some { code := 0x03, i0 := s.sreg a, i1 := 4 }
          else if (s.edition g).st = 0 then some bad else none,
      ow, om, decide (2048 ≤ s.cur) || decide (e ≠ 0), true,
      { id := 0, fn := 3, core := 0, pc := 0, node := (s.edition g).homeNode, d := d, x := e, n := 4 * (cnt + 1), off := (s.sreg a).toNat,
        target := g, data := (if 32 ≤ d then (s.vreg d).toNat else (s.sreg d).toNat) % 2 ^ (8 * (4 * (cnt + 1))) }⟩
  | _ => none

/-- R374: the request of an operation. -/
def requestOf (s : State) (op : HubOp) (epoch sq : Nat) : Msg :=
  let m : Msg := { ty := 0x10 + op.fn, src := s.hub.node, dst := op.node, epoch := epoch, seq := sq, a := op.target % 2 ^ 32, b := op.off, c := op.n }
  match op.fn with
  | 0 => m
  | 1 => { m with data := op.data }
  | 2 => { m with d := op.o, e := op.cmp, data := op.data }
  | _ => { m with a := op.target, data := op.data }

/-- Every operation at the hub is on its connection, or waits for its handshake. -/
structure HubQuiet (s : State) : Prop where
  fresh : ∀ o ∈ s.hub.ops, o.id < s.nextId
  settled : ∀ o ∈ s.hub.ops, o.seq ≠ none ∨ o.fn = 5 ∨ o.fn = 18 ∨
    (o.node ≠ s.hub.node ∧ (s.conn o.node).hand = true ∧ (s.conn o.node).st ≠ 1 ∧ (s.conn o.node).st ≠ 2)

/-- An operation has been issued (R392): its core waits for it or goes on, OM's set holds it, its firing is marked where it is an external
effect, and only the hub has changed beside. -/
structure HubIssued (s t : State) (F : HubForm) : Prop where
  live : t.live = s.live ++ [{ id := s.nextId, core := s.cur, eng := true }]
  nextId : t.nextId = s.nextId + 1
  core : t.core = if F.blocks then { s.core with o := t.core.o, waitOp := some s.nextId } else { s.core.advance with o := t.core.o }
  sets : ∀ x, x < 16 → t.core.oset x = if x = F.om ∧ F.om ≠ 0 then s.core.oset F.om ++ [s.nextId] else s.core.oset x
  firing : t.myTile = { s.myTile with firing := s.myTile.firing.map (fun f => { f with ext := f.ext || (F.ext && decide (s.cur < 2048)) }) }
  cores : ∀ n, n ≠ s.cur → t.coreAt n = s.coreAt n
  tiles : ∀ p, p ≠ s.cur → t.tile p = s.tile p
  rest : t = { s with hub := t.hub, live := t.live, nextId := t.nextId, cores := t.cores, tiles := t.tiles }

/-- The operation of a form as the current core issues it. -/
def HubForm.issued (F : HubForm) (s : State) : HubOp := { F.op with id := s.nextId, core := s.cur, pc := s.core.pc }

/-- R380 to R382, R391 to R393, R396, R43: `xld`, `xst`, `xamo` and `edst` trap with their checks, nothing sent; wait for their OW set; then, on a
connection that is UP or RETRYING, leave with its next sequence number; on one that is not, start the handshake where a link is UP and
else end with LINK_UNKNOWN, not sent, as they do before NODE is set, its TRAPINFO3, the sequence number, being 0 (assumption 57). A core that
waits for the answer goes on when it has come, an `edst` not yet performed too. Model's choices: assumptions 9, 43, 55, 57, 92. -/
def HubIssue : Prop :=
  ∀ (i : Instr) (s : State) (F : HubForm), i.wf = true → s.wf = true → hubForm s i = some F → s.core.badReg = [] →
    let c := s.conn F.op.node
    let op := F.issued s
    let unsent : Trap := { code := 0x10, i0 := exact F.op.off, i1 := 0, i2 := exact F.op.target, i3 := 0 }
    (∀ id, s.core.waitOp = some id →
      exec i s = .next (if ∃ o, s.hub.ops.find? (fun o => o.id = id) = some o ∧ o.fn ≠ 18 then s else s.advance)) ∧
    (s.core.waitOp = none →
      (∀ t, F.trap = some t → exec i s = .next (s.takeTrap t)) ∧
      (F.trap = none → s.setDone F.ow = false → exec i s = .next s) ∧
      (F.trap = none → s.setDone F.ow = true → HubQuiet s →
        (s.hub.nvalid = true → c.st = 1 ∨ c.st = 2 → ∃ t, exec i s = .next t ∧ HubIssued s t F ∧
          t.hub.ops = s.hub.ops ++ [{ op with seq := some c.nextSeq, at_ := s.refClock }] ∧
          (t.conn F.op.node).nextSeq = (c.nextSeq + 1) % 2 ^ 32 ∧ (t.conn F.op.node).epoch = c.epoch ∧ (t.conn F.op.node).st = c.st ∧
          goesOut s t (dieOfCore s.cur) (requestOf s F.op c.epoch c.nextSeq)) ∧
        (∀ l, s.hub.nvalid = true → c.st = 0 ∨ c.st = 3 → F.op.node ≠ s.hub.node → c.hand = false → leads s F.op.node l →
          ∃ t, exec i s = .next t ∧ HubIssued s t F ∧ t.hub.ops = s.hub.ops ++ [op] ∧
            t.conn F.op.node = { c with hand := true, since := s.refClock } ∧
            goesOut s t (dieOfCore s.cur) { ty := 1, src := s.hub.node, dst := F.op.node, epoch := (c.epoch + 1) % 2 ^ 16, seq := 0 }) ∧
        (s.hub.nvalid = false ∨ ((c.st = 0 ∨ c.st = 3) ∧ F.op.node ≠ s.hub.node ∧ c.hand = false ∧ ∀ l, ¬ leads s F.op.node l) →
          (∀ o ∈ s.hub.ops, o.parent ≠ s.nextId) → (∀ o ∈ s.hub.ops, s.hub.nvalid = false → o.seq ≠ none ∨ o.fn = 5 ∨ o.fn = 18) →
          ∃ t, exec i s = .next t ∧ trapRecorded s t s.cur s.nextId s.core.pc unsent ∧ ∀ o ∈ t.hub.ops, o.id ≠ s.nextId)))

/-- R401 to R403, R266, R398, R394: `xovld` takes TILE_RANGE without a group, MISALIGN, and GROUP_ABSENT under FAIL with a member absent; else it
reads each present member at its key and offset, its core waiting, and with none present D takes the identities. `edwait` writes APPLIED once
it is at least the target, takes EDITION_GAP for a group in GAP, FROZEN or not held, and else waits up to its limit. `xfence` waits for the
answers to the core's operations, at the scope of one node those to that node, then until all its accesses are performed at its scope.
Model's choices: assumptions 27, 43, 55, 56, 57. -/
def HubWaits : Prop :=
  ∀ (s : State), s.wf = true →
    (∀ d a b ow om sc ty o cnt, (Instr.xovld d a b ow om sc ty o cnt).wf = true → s.core.waitOp = none → s.cur < 2048 →
      let i := Instr.xovld d a b ow om sc ty o cnt
      let p := (s.sreg b).toNat
      let desc := if p < 256 then Sparse.get 0 s.hub.groups p else 0
      let n := desc / 4 % 1024 + 1
      let member (k : Nat) : Nat := Sparse.get 0 s.hub.members (desc / 2 ^ 13 % 2 ^ 13 + k)
      let absent (k : Nat) : Prop :=
        (member k % 1024 ≠ s.hub.node ∧ ∀ l, ¬ leads s (member k % 1024) l) ∨ (s.conn (member k % 1024)).st = 3
      (desc % 2 = 0 → exec i s = .next (s.takeTrap { code := 0x06, i0 := s.sreg a, i1 := s.sreg b })) ∧
      (desc % 2 = 1 → (s.sreg a).toNat % 4 ≠ 0 → exec i s = .next (s.takeTrap { code := 0x03, i0 := s.sreg a, i1 := 4 })) ∧
      (desc % 2 = 1 → (s.sreg a).toNat % 4 = 0 → s.setDone ow = true →
        (∀ k, desc / 2 % 2 = 0 → k < n → absent k → (∀ j, j < k → ¬ absent j) → ∃ t : Trap, exec i s = .next (s.takeTrap t) ∧
          t.code = 0x0C ∧ t.i0 = s.sreg a ∧ t.i3 = exact k ∧ t.sw = false) ∧
        (desc / 2 % 2 = 1 ∨ (∀ k, k < n → ¬ absent k) → HubQuiet s → s.hub.nvalid = true → (∀ o ∈ s.hub.ops, o.parent < s.nextId) →
          (∀ k, k < n → ¬ absent k → (s.conn (member k % 1024)).st = 1 ∨ (s.conn (member k % 1024)).st = 2) →
          (∃ k, k < n ∧ ¬ absent k) →
          ∃ t, exec i s = .next t ∧ t.core.waitOp = some s.nextId ∧ t.core.v = s.core.v ∧
            (∃ x ∈ t.hub.ops, x.id = s.nextId ∧ x.fn = 5 ∧ x.count = n ∧ x.got = [] ∧ x.d = d ∧ x.core = s.cur) ∧
            ∀ k, k < n → ¬ absent k → ∃ x ∈ t.hub.ops, x.fn = 17 ∧ x.parent = s.nextId ∧ x.member = k ∧ x.node = member k % 1024 ∧
              x.target = member k / 2 ^ 32 % 2 ^ 32 ∧ x.off = (member k / 2 ^ 64 % 2 ^ 64 + (s.sreg a).toNat) % 2 ^ 64 ∧
              x.n = 4 * (cnt + 1) ∧ x.seq ≠ none) ∧
        (desc / 2 % 2 = 1 → (∀ k, k < n → absent k) → HubQuiet s → (∀ o ∈ s.hub.ops, o.parent < s.nextId) →
          (∀ f, s.myTile.firing = some f → f.trapped = false ∧ f.fault = none) → ∃ t, exec i s = .next t ∧ t.vreg d = BitVec.ofNat 2048 (overResult o ty (4 * (cnt + 1)) (List.replicate n none)).1 ∧
            t.hub.ops = s.hub.ops))) ∧
    (∀ d a b ow om sc, (Instr.edwait d a b ow om sc).wf = true → s.setDone ow = true →
      let i := Instr.edwait d a b ow om sc
      let g := (s.sreg a).toNat
      let e := if g < 4096 then s.edition g else {}
      let gap (why applied : Nat) : Trap := { code := 0x0E, i0 := s.sreg a, i1 := exact why, i2 := exact applied, i3 := s.sreg b }
      ((s.sreg b).toNat ≤ e.applied → ∃ t, exec i s = .next t ∧ WritesS s t d (exact e.applied)) ∧
      (e.applied < (s.sreg b).toNat →
        (e.st = 2 → exec i s = .next (s.takeTrap (gap 1 e.applied))) ∧ (e.st = 3 → exec i s = .next (s.takeTrap (gap 2 e.applied))) ∧
        (e.st = 0 ∨ (e.st = 1 ∧ e.member = false) → exec i s = .next (s.takeTrap (gap 4 0))) ∧
        (e.st = 1 → e.member = true → BoundedWait s i (s.sreg d).toNat
          { code := 0x07, i0 := s.sreg a, i1 := exact e.applied, i2 := s.sreg b, i3 := s.sreg d }))) ∧
    ∀ a ow om sc, (Instr.xfence a ow om sc).wf = true → s.setDone ow = true → s.knownObject sc (s.sreg a).toNat = true →
      let nd := (s.sreg a).toNat % 1024
      let outstanding := if sc = 8 then
          Sparse.get 0 s.hub.routes nd ≠ 0 ∧ (s.conn nd).st ≠ 0 ∧ ∃ o ∈ s.hub.ops, o.core = s.cur ∧ o.fn ≠ 18 ∧ o.node = nd
        else ∃ o ∈ s.hub.ops, o.core = s.cur ∧ o.fn ≠ 18
      (outstanding → exec (.xfence a ow om sc) s = .next s) ∧
      (¬ outstanding → s.noneLive sc = false → exec (.xfence a ow om sc) s = .next s) ∧
      (¬ outstanding → s.noneLive sc = true → exec (.xfence a ow om sc) s = .next s.advance)

/-- R386: the key of a registration record; none where a byte that must be zero is not, or a field lies outside its values. -/
def recordKey (x : Nat) (m : Bool) (k : Key) : Prop :=
  k = { base := x % 2 ^ 64, len := x / 2 ^ 64 % 2 ^ 64, perm := x / 2 ^ 128 % 256, space := x / 2 ^ 136 % 256, region := x / 2 ^ 144 % 256,
        index := x / 2 ^ 160 % 2 ^ 16 } ∧
  x / 2 ^ 152 % 256 = 0 ∧ x / 2 ^ 176 % 2 ^ 80 = 0 ∧ k.base % 64 = 0 ∧ 1 ≤ k.len ∧ k.len ≤ 2 ^ 40 ∧ k.perm < 8 ∧ k.space < 4 ∧
  (k.space = 3 → m = true) ∧ k.region < 128 ∧ (2 ≤ k.space → k.region = 0) ∧ k.index < 4096 ∧
  (k.space = 1 → k.base / 2 ^ 30 = 0xF1 * 2 ^ 10 ∧ k.base % 2 ^ 19 + k.len ≤ 0x7C000) ∧ (k.space ≠ 1 → k.base + k.len ≤ 2 ^ 47)

/-- R385 to R387, R389, R404, R115, R411: `rkreg` traps with the checks of its address, alignment the last of them, of which MISALIGN holds 0
in TRAPINFO2 and TRAPINFO3; it answers 2^63 + 0x1F for a record refused and 2^63 + 0x14 for an index in use; else the entry takes the
record with the next generation and D its key. `rkrev` frees the entry of a key that is live and answers 0, or answers 2^63 + 0x0F and changes
nothing. Model's choices: assumption 55. -/
def RemoteKeys : Prop :=
  (∀ (s s1 : State) (d a ow om sc x : Nat), (Instr.rkreg d a ow om sc).wf = true → s.wf = true → s1.wf = true →
    (∃ pl, checkAccess .control .read 32 32 (s.sreg a) s = .ok pl s) → s.setDone ow = true → recordAt (s.sreg a) s = .ok x s1 →
    let i := Instr.rkreg d a ow om sc
    ((∀ k, ¬ recordKey x s1.atM k) → Finishes i s s1 d om (2 ^ 63 + 0x1F)) ∧
    ∀ k, recordKey x s1.atM k →
      let old : Key := Sparse.get {} s1.hub.keys k.index
      let gen := if old.gen + 1 = 2 ^ 20 then 1 else old.gen + 1
      (old.live = true → Finishes i s s1 d om (2 ^ 63 + 0x14)) ∧
      (old.live = false → ∃ s2, Finishes i s s2 d om (k.index * 2 ^ 20 + gen) ∧
        Sparse.get {} s2.hub.keys k.index = { k with live := true, gen := gen } ∧
        (∀ j, j ≠ k.index → Sparse.get ({} : Key) s2.hub.keys j = Sparse.get {} s1.hub.keys j) ∧
        s2 = { s1 with hub := { s1.hub with keys := s2.hub.keys } })) ∧
  (∀ (s : State) (d a ow om sc : Nat), (Instr.rkreg d a ow om sc).wf = true →
    (∀ t s1, checkAccess .control .read 32 32 (s.sreg a) s = .error (.trap t) s1 →
      exec (.rkreg d a ow om sc) s = .next (s1.takeTrap (if t.code = 0x03 then { t with i2 := 0, i3 := 0 } else t))) ∧
    ((s.sreg a).toNat < 2 ^ 47 → (s.sreg a).toNat % 32 ≠ 0 →
      exec (.rkreg d a ow om sc) s = .next (s.takeTrap { code := 0x03, i0 := s.sreg a, i1 := 32 })) ∧
    (2 ^ 48 ≤ (s.sreg a).toNat →
      exec (.rkreg d a ow om sc) s = .next (s.takeTrap { code := 0x05, i0 := s.sreg a, i1 := 1, i3 := s.regionInfo }))) ∧
  ∀ (s : State) (d a ow om sc : Nat), (Instr.rkrev d a ow om sc).wf = true → s.wf = true → s.setDone ow = true →
    let i := Instr.rkrev d a ow om sc
    let x := (s.sreg a).toNat
    let k : Key := Sparse.get {} s.hub.keys (x / 2 ^ 20 % 2 ^ 12)
    let valid := x < 2 ^ 32 ∧ k.live = true ∧ k.gen = x % 2 ^ 20
    (¬ valid → Finishes i s s d om (2 ^ 63 + 0x0F)) ∧
    (valid → ∃ s2, Finishes i s s2 d om 0 ∧ Sparse.get {} s2.hub.keys (x / 2 ^ 20 % 2 ^ 12) = { k with live := false } ∧
      (∀ j, j ≠ x / 2 ^ 20 % 2 ^ 12 → Sparse.get ({} : Key) s2.hub.keys j = Sparse.get {} s.hub.keys j) ∧
      s2 = { s with hub := { s.hub with keys := s2.hub.keys } })

/-- R380, R381: a message has arrived: from another node, or out of the loopback. -/
def arrived (s : State) (m : Msg) (s1 : State) : Prop :=
  s.hub.nvalid = true ∧ ((m.src ≠ s.hub.node ∧ s1 = s) ∨
    (m.src = s.hub.node ∧ m ∈ s.hub.loop ∧ s1 = { s with hub := { s.hub with loop := s.hub.loop.erase m } }))

/-- R382, R383: the response m answers operation op, of which no part is outstanding. -/
structure Answers (s : State) (m : Msg) (s1 : State) (op : HubOp) : Prop where
  arrived : arrived s m s1
  found : s.hub.ops.find? (fun o => o.node = m.src ∧ o.seq = some m.seq) = some op
  epoch : (s.conn m.src).epoch = m.epoch
  up : (s.conn m.src).st = 1 ∨ (s.conn m.src).st = 2
  whole : ∀ o ∈ s.hub.ops, o.parent = op.id → o.fn ≠ 16 ∧ o.fn ≠ 17
  calm : ∀ f, (s.tile op.core).firing = some f → f.fault = none

/-- R382, R383, R388, R392, R393, R396, R403, R384: the response to an operation completes it: DATA gives `xld` and `xamo` the value, extended
as SX says, and a member read its value in the `xovld`; ACK ends `xst`; EDNUM gives `edst` its edition number, and `fend` waits for it no more,
though a store to another home stays unperformed until every member that is not left out has applied it (R396); ERR and STALE trap the core
against the word that issued it. The connection is UP. Nothing else the core holds changes; a firing that has ended, or whose trap is presented
(R186), gets nothing; and a response no operation awaits does nothing. Model's choices: assumptions 24, 43, 56, 63. -/
def HubAnswers : Prop :=
  ∀ (s s1 : State) (src ep sq val : Nat) (op : HubOp), s.wf = true →
    let m (ty : Nat) : Msg := { ty := ty, src := src, dst := s.hub.node, epoch := ep, seq := sq }
    let gone (t : State) : Prop := t.hub.ops = s1.hub.ops.filter (fun o => o.id ≠ op.id) ∧ (t.conn src).st = 1
    let silent : Prop := op.orphan = true ∨ ∃ f, (s.tile op.core).firing = some f ∧ f.trapped = true
    let writes (t : State) (r : Nat) (x : Word) : Prop :=
      (¬ silent → ∀ n, (t.coreAt op.core).sreg n = if n = r ∧ n ≠ 0 then x else (s.coreAt op.core).sreg n) ∧
      (silent → t.cores = s.cores) ∧ (∀ n, n ≠ op.core → t.coreAt n = s.coreAt n) ∧ t.mem = s.mem ∧
      ∀ id, t.isLive id = (s.isLive id && id != op.id)
    (Answers s { m 0x20 with data := val } s1 op → op.fn = 0 ∨ op.fn = 2 → op.d < 32 → op.n ∈ [1, 2, 4, 8] → ∃ t, exec (.dataMsg src ep sq val) s = .next t ∧ gone t ∧
      writes t op.d (if op.sx then exact (sx (8 * op.n) val) else exact (val % 2 ^ (8 * op.n)))) ∧
    (∀ p, Answers s { m 0x20 with data := val } s1 op → op.fn = 17 → op.parent ≠ op.id → s.hub.ops.find? (fun o => o.id = op.parent) = some p →
      p.fn = 5 → (∃ o ∈ s.hub.ops, o.id ≠ op.id ∧ o.id ≠ p.id ∧ o.fn = 17 ∧ o.parent = p.id) → ∃ t, exec (.dataMsg src ep sq val) s = .next t ∧
        { p with got := p.got ++ [(op.member, val % 2 ^ (8 * op.n))] } ∈ t.hub.ops ∧ (∀ o ∈ t.hub.ops, o.id ≠ op.id) ∧ t.cores = s.cores) ∧
    (Answers s (m 0x21) s1 op → op.fn = 1 → ∃ t, exec (.ackMsg src ep sq) s = .next t ∧ gone t ∧ writes t 0 0) ∧
    (Answers s { m 0x24 with data := val } s1 op → op.fn = 3 → op.x < 32 →
      (op.node = s.hub.node → ∃ t, exec (.edNum src ep sq val) s = .next t ∧ gone t ∧ writes t op.x (exact val)) ∧
      (op.node ≠ s.hub.node → ∃ t, exec (.edNum src ep sq val) s = .next t ∧ (t.conn src).st = 1 ∧
        t.live = s.live.map (fun e => if e.id = op.id then { e with eng := false } else e) ∧
        (∀ o ∈ t.hub.ops, o.id = op.id → o = { op with edition := val, fn := 18, node := 1024 }) ∧ (∃ o ∈ t.hub.ops, o.id = op.id) ∧
        (¬ silent → ∀ n, (t.coreAt op.core).sreg n = if n = op.x ∧ n ≠ 0 then exact val else (s.coreAt op.core).sreg n))) ∧
    (∀ id p, s.hub.ops.find? (fun o => o.id = id) = some p → p.fn = 18 → (∀ o ∈ s.hub.ops, o.parent = id → o.fn ≠ 16 ∧ o.fn ≠ 17) →
      let e := s.edition p.target
      (∀ out, out = true ∨ e.member = false ∨ p.edition ≤ e.applied →
        (s.editionPerformed id out).hub.ops = s.hub.ops.filter (fun o => o.id ≠ id) ∧
        (∀ n, (s.editionPerformed id out).isLive n = (s.isLive n && n != id))) ∧
      (e.member = true → e.applied < p.edition → s.editionPerformed id false = s)) ∧
    (∀ code rsn pte, Answers s { m 0x22 with a := code, b := rsn, c := pte } s1 op → op.fn ≤ 3 → op.orphan = false → code < 256 →
      ∃ t, exec (.errMsg src ep sq code rsn pte) s = .next t ∧ (∀ o ∈ t.hub.ops, o.id ≠ op.id) ∧ trapRecorded s t op.core op.id op.pc
        { code := code, i0 := exact op.off, i1 := exact rsn, i2 := exact op.target, i3 := if code = 0x0F then 0 else exact pte }) ∧
    (Answers s (m 0x23) s1 op → op.fn = 2 → op.orphan = false → ∃ t, exec (.staleMsg src ep sq) s = .next t ∧
      (∀ o ∈ t.hub.ops, o.id ≠ op.id) ∧ trapRecorded s t op.core op.id op.pc { code := 0x1B, i0 := exact op.off, i2 := exact op.target, i3 := exact sq }) ∧
    (s.hub.nvalid = true → src ≠ s.hub.node → s.hub.ops.find? (fun o => o.node = src ∧ o.seq = some sq) = none →
      exec (.dataMsg src ep sq val) s = .next s ∧ exec (.ackMsg src ep sq) s = .next s ∧ exec (.edNum src ep sq val) s = .next s ∧
      exec (.staleMsg src ep sq) s = .next s)

/-- R383: a request is the next of its connection, and none held follows it. -/
structure InTurn (s : State) (m : Msg) (s1 : State) : Prop where
  arrived : arrived s m s1
  known : (s.source_ m.src).known = true
  epoch : (s.source_ m.src).epoch = m.epoch
  next : (s.source_ m.src).expect = m.seq ∧ m.seq < 2 ^ 32
  alone : ∀ h ∈ (s.source_ m.src).held, h.seq ≠ (m.seq + 1) % 2 ^ 32

/-- R388: the key check of a request: the reason of its refusal, in order; 0 where it passes. -/
def keyReason (s : State) (key off n : Nat) (rd wr amo : Bool) : Nat :=
  let e : Key := Sparse.get {} s.hub.keys (key / 2 ^ 20 % 2 ^ 12)
  if e.live = false ∨ e.gen ≠ key % 2 ^ 20 then 1
  else if e.len < off + n then 2
  else if rd = true ∧ e.perm % 2 = 0 then 3
  else if wr = true ∧ e.perm / 2 % 2 = 0 then 4
  else if amo = true ∧ e.perm / 4 % 2 = 0 then 5
  else if e.space ≤ 1 ∧ (s.region e.region).live = false then 6
  else 0

/-- R383, R384, R386, R388, R396, R397: a request in its turn at this device. A key refused answers RKEY with the first reason; else the bytes
at the home are read, written, or both in one operation, the answer leaves, and an atomic's is kept. A store to a group stamps the home's
next edition; an edition message that is a member's next is written to its copy and acknowledged, an early one held, another epoch's dropped,
and one for which there is no room not taken. A request early in its connection is held, a duplicate answered without being performed again, one
refused before refused again, and one of another epoch ignored. Model's choices: assumptions 24, 55, 56, 92, 93. -/
def HubRequests : Prop :=
  (∀ (s : State) (key off n : Nat) (rd wr amo : Bool),
    (keyReason s key off n rd wr amo ≠ 0 →
      keyed key off n rd wr amo s = .error { code := 0x0F, reason := keyReason s key off n rd wr amo } s) ∧
    ∀ p, keyReason s key off n rd wr amo = 0 →
      let e : Key := Sparse.get {} s.hub.keys (key / 2 ^ 20 % 2 ^ 12)
      e.space = 1 → (s.region e.region).resolve ((e.base + off) / 2 ^ 19 % 2 ^ 11) = some p → 1 ≤ n → (e.base + off) % 8 + n ≤ 8 →
      keyed key off n rd wr amo s = .ok [(tileBase p + (e.base + off) % 2 ^ 19, n)] s) ∧
  ∀ (s s1 : State) (src ep sq key off sz val : Nat), s.wf = true → sz ≤ 3 →
    let n := 2 ^ sz
    let answer (t u : State) (m : Msg) (ty a b c data : Nat) : Prop :=
      goesOut t u 0 { ty := ty, src := s.hub.node, dst := m.src, epoch := m.epoch, seq := m.seq, a := a, b := b, c := c, data := data } ∧
      (u.source_ m.src).expect = (m.seq + 1) % 2 ^ 32
    (let m : Msg := { ty := 0x10, src := src, dst := s.hub.node, epoch := ep, seq := sq, a := key, b := off, c := n }
     InTurn s m s1 → ∀ s2,
      (∀ r, keyed key off n true false false s1 = .error r s2 → ∃ t, exec (.ld src ep sq key off n) s = .next t ∧
        answer s2 t m 0x22 r.code r.reason r.pte 0 ∧ t.mem = s2.mem) ∧
      ∀ k, keyed key off n true false false s1 = .ok [(k, n)] s2 → s2.readBad k n = false → ∃ t, exec (.ld src ep sq key off n) s = .next t ∧
        answer s2 t m 0x20 0 0 0 (little s2 k n) ∧ t.mem = s2.mem ∧ t.cores = s2.cores ∧ t.tiles = s2.tiles) ∧
    (let m : Msg := { ty := 0x11, src := src, dst := s.hub.node, epoch := ep, seq := sq, a := key, b := off, c := n, data := val }
     InTurn s m s1 → ∀ s2 k, keyed key off n false true false s1 = .ok [(k, n)] s2 → s2.wf = true → s2.writeBad k n = false →
      ∃ t, exec (.st src ep sq key off sz val) s = .next t ∧ answer s2 t m 0x21 0 0 0 0 ∧ little t k n = val % 2 ^ (8 * n) ∧
        (∀ a, (a < k ∨ k + n ≤ a) → byteAt t a = byteAt s2 a) ∧ t.cores = s2.cores ∧ t.tiles = s2.tiles) ∧
    (∀ o cmp, let m : Msg := { ty := 0x12, src := src, dst := s.hub.node, epoch := ep, seq := sq, a := key, b := off, c := n, d := o, e := cmp,
                               data := val }
     InTurn s m s1 → ∀ s2 k, keyed key off n true true true s1 = .ok [(k, n)] s2 → s2.wf = true → s2.readBad k n = false →
      ∃ t, exec (.amo src ep sq key off sz o val cmp) s = .next t ∧ answer s2 t m 0x20 0 0 0 (little s2 k n) ∧
        little t k n = remoteAtomic o n (little s2 k n) val cmp % 2 ^ (8 * n) ∧ (∀ a, (a < k ∨ k + n ≤ a) → byteAt t a = byteAt s2 a) ∧
        t.hub.replies = s2.hub.replies ++ [{ src := src, epoch := ep, seq := sq, val := little s2 k n, at_ := s2.gtime }]) ∧
    (∀ g len ofs, let m : Msg := { ty := 0x13, src := src, dst := s.hub.node, epoch := ep, seq := sq, a := g, b := ofs, c := len, data := val }
     InTurn s m s1 → g < 4096 →
      let e := s.edition g
      (e.st ≠ 1 ∨ e.home = false → ∃ t, exec (.edstMessage src ep sq g len ofs val) s = .next t ∧ answer s1 t m 0x22 0x0E 3 0 0 ∧
        t.hub.editions = s1.hub.editions ∧ t.hub.ops = s1.hub.ops) ∧
      (e.st = 1 → e.home = true → e.edLen < ofs + len → ∃ t, exec (.edstMessage src ep sq g len ofs val) s = .next t ∧
        answer s1 t m 0x22 0x05 14 0 0 ∧ t.hub.editions = s1.hub.editions ∧ t.hub.ops = s1.hub.ops) ∧
      (e.st = 1 → e.home = true → ofs + len ≤ e.edLen → e.bitmap = 0 → HubQuiet s1 → ∃ t,
        exec (.edstMessage src ep sq g len ofs val) s = .next t ∧ answer s1 t m 0x24 0 0 0 e.next ∧
        t.edition g = { e with next := e.next + 1 } ∧ ∀ h, h ≠ g → t.edition h = s.edition h)) ∧
    (∀ g len ge ed ofs, let m : Msg := { ty := 0x14, src := src, dst := s.hub.node, epoch := ep, seq := sq, a := g, b := ofs, c := len, d := ge,
                                         e := ed, data := val }
     InTurn s m s1 → g < 4096 →
      let e := s.edition g
      let i := Instr.edApply src ep sq g len ge ed ofs val
      (ge ≠ e.epoch ∨ e.st = 0 ∨ e.st = 3 → ∃ t, exec i s = .next t ∧ answer s1 t m 0x21 0 0 0 0 ∧ t.mem = s.mem ∧
        t.edition g = { e with dropped := min (e.dropped + 1) (2 ^ 32 - 1) }) ∧
      (ge = e.epoch → e.st = 1 ∨ e.st = 2 →
        (ed ≤ e.applied → ∃ t, exec i s = .next t ∧ answer s1 t m 0x21 0 0 0 0 ∧ t.mem = s.mem ∧ t.edition g = e) ∧
        (e.applied + 1 < ed → (∀ h ∈ e.held, h.e ≠ ed) →
          (e.held.length < 64 → ∃ t, exec i s = .next t ∧ t.hub.loop = s1.hub.loop ∧ (∀ k, t.link k = s.link k) ∧ t.mem = s.mem ∧
            (t.source_ src).expect = (sq + 1) % 2 ^ 32 ∧
            t.edition g = { e with held := e.held ++ [m], gapFrom := e.gapFrom.or (some s.refClock) }) ∧
          (64 ≤ e.held.length → exec i s = .next s1)) ∧
        (∀ p, ed = e.applied + 1 → e.held = [] → e.copySpace = 1 → 1 ≤ len → (e.copyBase.toNat + ofs) % 8 + len ≤ 8 →
          (s.region e.region).resolve ((e.copyBase.toNat + ofs) / 2 ^ 19 % 2 ^ 11) = some p →
          let k := tileBase p + (e.copyBase.toNat + ofs) % 2 ^ 19
          s.writeBad k len = false → ∃ t, exec i s = .next t ∧ answer s1 t m 0x21 0 0 0 0 ∧ little t k len = val % 2 ^ (8 * len) ∧
            (∀ a, (a < k ∨ k + len ≤ a) → byteAt t a = byteAt s a) ∧
            t.edition g = { e with applied := ed, held := [], gapFrom := none, st := 1 }))) ∧
    (let m : Msg := { ty := 0x11, src := src, dst := s.hub.node, epoch := ep, seq := sq, a := key, b := off, c := n, data := val }
     arrived s m s1 →
      let x := s.source_ src
      let ahead := (sq + 2 ^ 32 - x.expect) % 2 ^ 32
      (x.known = false ∨ x.epoch ≠ ep → exec (.st src ep sq key off sz val) s = .next s1) ∧
      (x.known = true → x.epoch = ep → 0 < ahead → ahead < 2 ^ 31 → (∀ h ∈ x.held, h.seq ≠ sq) → ∃ t,
        exec (.st src ep sq key off sz val) s = .next t ∧ t.source_ src = { x with held := x.held ++ [m] } ∧ t.mem = s.mem) ∧
      (x.known = true → x.epoch = ep → 2 ^ 31 ≤ ahead → (∀ e ∈ x.refused, e.1 ≠ sq) → ∃ t, exec (.st src ep sq key off sz val) s = .next t ∧
        t.mem = s.mem ∧ goesOut s1 t 0 { ty := 0x21, src := s.hub.node, dst := src, epoch := ep, seq := sq }) ∧
      (∀ c r y, x.known = true → x.epoch = ep → 2 ^ 31 ≤ ahead → x.refused.find? (fun e => e.1 = sq) = some (sq, c, r, y) →
        ∃ t, exec (.st src ep sq key off sz val) s = .next t ∧ t.mem = s.mem ∧
          goesOut s1 t 0 { ty := 0x22, src := s.hub.node, dst := src, epoch := ep, seq := sq, a := c, b := r, c := y })) ∧
    (∀ o cmp r, let m : Msg := { ty := 0x12, src := src, dst := s.hub.node, epoch := ep, seq := sq, a := key, b := off, c := n, d := o, e := cmp,
                                 data := val }
     arrived s m s1 →
      let x := s.source_ src
      x.known = true → x.epoch = ep → 2 ^ 31 ≤ (sq + 2 ^ 32 - x.expect) % 2 ^ 32 → (∀ e ∈ x.refused, e.1 ≠ sq) →
      let live (r : Reply) : Bool := decide (r.src = src ∧ r.epoch = ep ∧ r.seq = sq ∧ s.gtime - r.at_ ≤ 1000000)
      (s.hub.replies.find? live = some r → ∃ t, exec (.amo src ep sq key off sz o val cmp) s = .next t ∧ t.mem = s.mem ∧
        goesOut s1 t 0 { ty := 0x20, src := s.hub.node, dst := src, epoch := ep, seq := sq, data := r.val }) ∧
      (s.hub.replies.find? live = none → ∃ t, exec (.amo src ep sq key off sz o val cmp) s = .next t ∧ t.mem = s.mem ∧
        goesOut s1 t 0 { ty := 0x23, src := s.hub.node, dst := src, epoch := ep, seq := sq }))

/-- R382 to R384, R397: OPEN of a new epoch discards what was held of the old one and is accepted; ACCEPT of the handshake in progress makes the
connection UP with the next epoch and sequence number 0; RTO makes a connection RETRYING and sends its requests again, in order, on the next
link that leads to the node, or by the loopback, and a device without a number sends none (R380); CTO ends the handshake,
or the connection with every request unanswered; a reply expires; a group whose gap clock has run becomes GAP and is reported.
Model's choices: assumptions 24, 56. -/
def HubConnections : Prop :=
  ∀ (s : State) (nd ep sq : Nat), s.wf = true → nd < 1024 →
    let c := s.conn nd
    let awaited (o : HubOp) : Prop := o.node = nd ∧ o.seq ≠ none
    let late (ns : Nat) : Prop := ∃ o ∈ s.hub.ops, awaited o ∧ o.at_ + ns ≤ s.refClock
    let rto := max 2 s.hub.rto * 1000
    let cto := max 10 s.hub.cto * 1000
    (s.hub.nvalid = true → nd ≠ s.hub.node → ∃ t, exec (.openMsg nd ep) s = .next t ∧
      t.source_ nd = (if (s.source_ nd).known = true ∧ (s.source_ nd).epoch = ep then s.source_ nd else { known := true, epoch := ep }) ∧
      (∀ k, k ≠ nd → t.source_ k = s.source_ k) ∧ goesOut s t 0 { ty := 2, src := s.hub.node, dst := nd, epoch := ep, seq := 0 }) ∧
    (s.hub.nvalid = true → c.hand = true → ep = (c.epoch + 1) % 2 ^ 16 → (∀ o ∈ s.hub.ops, o.seq ≠ none ∨ o.fn = 5 ∨ o.fn = 18) → ∃ t,
      exec (.acceptMsg nd ep) s = .next t ∧ t.conn nd = { c with st := 1, epoch := ep, nextSeq := 0, hand := false } ∧ t.hub.ops = s.hub.ops) ∧
    (c.hand = false ∨ ep ≠ (c.epoch + 1) % 2 ^ 16 → exec (.acceptMsg nd ep) s = .next s) ∧
    (s.hub.nvalid = true → c.st = 1 → late rto → c.sentAt + rto ≤ s.refClock → ∃ t, exec (.retransmitTimeout nd) s = .next t ∧ (t.conn nd).st = 2 ∧
      (t.conn nd).sentAt = s.refClock ∧ (t.conn nd).nextSeq = c.nextSeq ∧ t.hub.ops = s.hub.ops ∧
      let again := (s.hub.ops.filter (fun o => o.node == nd && o.seq.isSome)).map (fun o => o.msg s.hub.node c.epoch)
      (nd = s.hub.node → t.hub.loop = s.hub.loop ++ again) ∧
      (nd ≠ s.hub.node → t.hub.loop = s.hub.loop ∧
        (∀ l, nextRoute s nd c.link l → (t.conn nd).link = l ∧ t.link l = again.foldl Link.put (s.link l) ∧ ∀ k, k ≠ l → t.link k = s.link k) ∧
        ((∀ l, ¬ leads s nd l) → ∀ k, t.link k = s.link k))) ∧
    (s.hub.nvalid = false ∨ c.st ≠ 1 ∨ ¬ late rto → exec (.retransmitTimeout nd) s = .next s) ∧
    (c.hand = true → c.since + cto ≤ s.refClock → ∃ t, exec (.connectionTimeout nd) s = .next t ∧ (t.conn nd).hand = false ∧
      (t.conn nd).st = c.st ∧ ∀ o ∈ t.hub.ops, o.node = nd → o.seq = none → o.fn = 5) ∧
    (c.hand = false → c.st = 1 ∨ c.st = 2 → late cto → ∃ t, exec (.connectionTimeout nd) s = .next t ∧ (t.conn nd).st = 3 ∧
      ∀ o ∈ t.hub.ops, ¬ awaited o) ∧
    (∃ t, exec (.replyCacheExpiry nd ep sq) s = .next t ∧ t = { s with hub := { s.hub with replies := t.hub.replies } } ∧
      ∀ r, r ∈ t.hub.replies ↔ r ∈ s.hub.replies ∧ ¬ (r.src = nd ∧ r.epoch = ep ∧ r.seq = sq ∧ 1000000 ≤ s.gtime - r.at_)) ∧
    ∀ g from_, (s.edition g).gapFrom = some from_ →
      let e := s.edition g
      (e.st = 1 → from_ + e.gapt * 1000 ≤ s.refClock → ∃ t least, exec (.editionGapTimeout g) s = .next t ∧ t.edition g = { e with st := 2 } ∧
        t.hub.reports = s.hub.reports ++ [(0x0E, 0, g, e.applied, least)] ∧ (∀ h ∈ e.held, least ≤ h.e) ∧
        ((∀ h ∈ e.held, h.e < 2 ^ 64) → e.held ≠ [] → ∃ h ∈ e.held, h.e = least)) ∧
      (s.refClock < from_ + e.gapt * 1000 → exec (.editionGapTimeout g) s = .next s)

/-- Only the hub's record of link n differs. -/
def LinkOnly (s t : State) (n : Nat) (l : Link) : Prop :=
  t.link n = l ∧ (∀ k, k ≠ n → t.link k = s.link k) ∧ t = { s with hub := { s.hub with links := t.hub.links } }

/-- R371 to R374, R376, R379: a message goes out in flits of its class; a link locks its lanes, trains on two equal TRAIN records with NVALID, and
is UP once CREDIT_INIT has been sent and received; a lane's failure, a training that takes 100 ms, 1,000 ns of silence, the eighth replay in
succession to fail and DIS take it down. A flit in order takes its place among the 64 of its class's buffer, which returns a credit as it leaves;
a flit not in error releases what it acknowledges and returns credits; one with an uncorrectable codeword, which is counted, with a wrong CRC, of a
reserved kind, or beyond the next asks for a replay; that the flit expected fails again is a replay that failed.
Model's choices: assumptions 55, 58. -/
def HubLinks : Prop :=
  (∀ (l : Link) (m : Msg), onLink l m (l.put m)) ∧
  ∀ (s : State) (n : Nat), s.wf = true → n < 24 →
    let l := s.link n
    let down (t : State) : Prop := (t.link n).up = false ∧ (t.link n).locked = false ∧ (t.link n).held = [] ∧ t.mem = s.mem
    (l.dis = false → l.up = false → ∃ t, exec (.laneLock n) s = .next t ∧ LinkOnly s t n { l with
      locked := true, trained := none, trains := 0, initSent := false, initRecv := false, lockAt := s.refClock, fails := 0, asks := false,
      credit := #v[0, 0], inbuf := #v[0, 0], returned := #v[0, 0] }) ∧
    (l.locked = true → l.up = false → l.dis = false →
      (∃ t, exec (.trainSend n) s = .next t ∧ LinkOnly s t n { l with sentTrain := l.sentTrain + 1 }) ∧
      (∀ peer nv pl sq, l.trained ≠ some (peer, nv, pl, sq) ∨ l.trains = 0 ∨ nv ≠ 1 → ∃ t, exec (.train n peer nv pl sq) s = .next t ∧
        LinkOnly s t n { l with trained := some (peer, nv, pl, sq),
                                trains := if l.trained = some (peer, nv, pl, sq) then l.trains + 1 else 1 }) ∧
      (∀ peer pl sq, l.trained = some (peer, 1, pl, sq) → 1 ≤ l.trains → l.initRecv = false → ∃ t, exec (.train n peer 1 pl sq) s = .next t ∧
        LinkOnly s t n { l with trains := l.trains + 1, peer := peer % 1024, plink := pl % 32,
                                next := if l.initSent then l.next else sq % 4096, initSent := l.initSent || s.hub.nvalid }) ∧
      (l.initRecv = false → l.initSent = false → ∃ t, exec (.creditInit n) s = .next t ∧
        LinkOnly s t n { l with initRecv := true, credit := #v[64, 64] }) ∧
      (l.initRecv = false → l.initSent = true → ∃ t, exec (.creditInit n) s = .next t ∧ (t.link n).up = true) ∧
      (l.lockAt + 100000000 ≤ s.refClock → ∃ t, exec (.trainingTimeout n) s = .next t ∧ down t)) ∧
    (l.locked = true → ∃ t, exec (.laneFailure n) s = .next t ∧ down t) ∧
    (l.up = true → l.flitAt + 1000 ≤ s.refClock → ∃ t, exec (.linkSilenceTimeout n) s = .next t ∧ down t) ∧
    (∀ sq, l.up = true → l.waiting = #v[[], []] → ∃ t, exec (.replay n sq) s = .next t ∧
      (t.link n).count[2] = min (l.count[2] + 1) (2 ^ 64 - 1) ∧
      (t.link n).held = (if ∃ e ∈ l.held, e.1 = sq then l.held.dropWhile (fun e => e.1 ≠ sq) else l.held)) ∧
    (∀ kind sq ack cr ok corr disc, l.up = true → cr < 16 → l.waiting = #v[[], []] →
      let i := Instr.flitReceive n kind sq ack cr ok corr disc
      let room (c : Nat) : Nat := (l.inbuf[c]?).getD 0
      let beyond := (kind = 1 ∨ kind = 2) ∧ 0 < (sq + 4096 - l.expect) % 4096 ∧ (sq + 4096 - l.expect) % 4096 < 2048
      let bad := ok ≠ 1 ∨ 4 ≤ kind
      let served (t : State) : Prop := (t.link n).credit[cr / 8]? = some (min 64 ((l.credit[cr / 8]?).getD 0 + cr % 8)) ∧
        (t.link n).held = (if ∃ e ∈ l.held, e.1 = ack then (l.held.dropWhile (fun e => e.1 ≠ ack)).drop 1 else l.held)
      (ok = 1 → (kind = 1 ∨ kind = 2) → sq = l.expect → l.expect < 4096 → (room (kind - 1) < 64 → ∃ t, exec i s = .next t ∧
          (t.link n).expect = (sq + 1) % 4096 ∧ (t.link n).asks = false ∧ (t.link n).fails = 0 ∧ (t.link n).flitAt = s.refClock ∧ served t ∧
          (t.link n).inbuf = l.inbuf.setIfInBounds (kind - 1) (room (kind - 1) + 1)) ∧ (64 ≤ room (kind - 1) → exec i s = .next s)) ∧
      (ok ≤ 2 → l.expect < 4096 → sq < 4096 → bad ∨ beyond → (l.asks = false → ∃ t, exec i s = .next t ∧ (t.link n).asks = true ∧ (t.link n).fails = 0 ∧
          (t.link n).expect = l.expect ∧ (t.link n).up = true ∧ (t.link n).inbuf = l.inbuf ∧ (¬ bad → served t) ∧ (bad → (t.link n).held = l.held) ∧
          (t.link n).count[1] = (if ok = 0 then min (l.count[1] + 1) (2 ^ 64 - 1) else l.count[1])) ∧
        (l.asks = true → sq = l.expect → l.fails < 7 → ∃ t, exec i s = .next t ∧ (t.link n).fails = l.fails + 1 ∧ (t.link n).asks = true ∧
          (t.link n).expect = l.expect ∧ (t.link n).up = true) ∧
        (l.asks = true → sq = l.expect → 7 ≤ l.fails → ∃ t, exec i s = .next t ∧ down t) ∧
        (l.asks = true → sq ≠ l.expect → ∃ t, exec i s = .next t ∧ (t.link n).fails = l.fails ∧ (t.link n).asks = true ∧
          (t.link n).expect = l.expect ∧ (t.link n).up = true))) ∧
    (∀ c, c < 2 → let k := (l.inbuf[c]?).getD 0
      (k = 0 → s.bufferFree n c = s) ∧ (0 < k → LinkOnly s (s.bufferFree n c) n
        { l with inbuf := l.inbuf.setIfInBounds c (k - 1), returned := l.returned.setIfInBounds c ((l.returned[c]?).getD 0 + 1) })) ∧
    (l.up = false → ∀ kind sq ack cr ok corr disc, exec (.flitReceive n kind sq ack cr ok corr disc) s = .next s)

/-- R378 to R382, R387, R395, R400, R406, R417, R410: the hub's registers that firmware writes at level M, the reads that clear a source, and the
closing of a halted firing's operations 12,000 cycles after the pre-emption request: those already answered go without a trap, and the least
other takes LINK_UNKNOWN 2, an `xovld` with its least member not answered; and what an 8-byte store leaves in HUBCFG, PTPCFG, a peer group and
a peer member (R98 carries it there); a message that waits on a link when NVALID is cleared, and of which nothing has left, leaves no more
(R380). Model's choices: assumption 63. -/
def HubRegisters : Prop :=
  ∀ (s : State) (c : Nat), s.wf = true → c < 8 →
    let atM := (s.coreAt (2048 + c)).lvl = 1
    (∀ lk v, lk < 24 → atM → ∃ t, exec (.linkDisWrite c lk v) s = .next t ∧ (t.link lk).dis = decide (v % 2 = 1) ∧
      (v % 2 = 1 → (t.link lk).up = false) ∧ (v % 2 = 0 → LinkOnly s t lk { s.link lk with dis := false })) ∧
    (∀ nd v, nd < 1024 → v < 2 ^ 64 → atM → ∃ t, exec (.routeMaskWrite c nd v) s = .next t ∧ Sparse.get 0 t.hub.routes nd = v % 2 ^ 24 ∧
      (v % 2 ^ 24 = 0 → (s.conn nd).st = 1 ∨ (s.conn nd).st = 2 → (t.conn nd).st = 3) ∧
      (v % 2 ^ 24 ≠ 0 → t = { s with hub := { s.hub with routes := t.hub.routes } })) ∧
    (∀ g v, g < 4096 → v < 2 ^ 64 → atM →
      let e := s.edition g
      let writes (off : Nat) (e' : Edition) : Prop := ∃ t, exec (.editionEntryWrite c g off v) s = .next t ∧ t.edition g = e' ∧
        (∀ h, h ≠ g → t.edition h = s.edition h) ∧ t = { s with hub := { s.hub with editions := t.hub.editions } }
      writes 0 { e with
        st := v % 4, member := v.testBit 2, home := v.testBit 3, homeNode := v / 16 % 1024, epoch := v / 2 ^ 14 % 2 ^ 16,
        held := if v / 2 ^ 14 % 2 ^ 16 = e.epoch then e.held else [],
        gapFrom := if v / 2 ^ 14 % 2 ^ 16 = e.epoch then e.gapFrom else none } ∧
      (e.next < 2 ^ 64 → writes 8 { e with next := v }) ∧ (e.applied < 2 ^ 64 → writes 16 { e with applied := v }) ∧ writes 24 { e with copyBase := exact v } ∧
      writes 32 { e with edLen := v % 2 ^ 32, copySpace := v / 2 ^ 32 % 256, region := v / 2 ^ 40 % 256, gapt := v / 2 ^ 48 }) ∧
    (¬ atM → (s.coreAt (2048 + c)).lvl = 0 → ∀ x y v, x < 24 → y < 1024 → exec (.linkDisWrite c x v) s = .next s ∧
      exec (.routeMaskWrite c y v) s = .next s ∧ exec (.editionEntryWrite c y 0 v) s = .next s) ∧
    (∀ v, v < 2 ^ 64 →
      let puts (off : Nat) (h : Hub) : Prop := s.hubWrite off v (2 ^ 64 - 1) = { s with hub := h }
      (∃ ls, puts 0x400000 { s.hub with
          node := v % 1024, nvalid := v.testBit 10, cto := v / 2 ^ 16 % 2 ^ 16, rto := v / 2 ^ 32 % 2 ^ 16, links := ls } ∧
        (v.testBit 10 = true → ls = s.hub.links) ∧
        (v.testBit 10 = false → ∀ k, Sparse.get ({} : Link) ls k =
          { s.link k with waiting := (s.link k).waiting.map (fun (w : List (Msg × Nat)) => w.filter (fun e => decide (e.2 ≠ 0))) })) ∧
      puts 0x490000 { s.hub with ptp := { s.hub.ptp with cfg := v % 2 ^ 33 } } ∧
      (∀ g, g < 256 → ∃ gs, puts (0x410000 + 8 * g) { s.hub with groups := gs } ∧
        ∀ h, Sparse.get 0 gs h = if h = g then v % 2 ^ 12 + v / 2 ^ 13 % 2 ^ 13 * 2 ^ 13 else Sparse.get 0 s.hub.groups h) ∧
      ∀ m, m < 8192 → Sparse.get 0 s.hub.members m < 2 ^ 128 →
        let x := Sparse.get 0 s.hub.members m
        let one (off x' : Nat) : Prop := ∃ ms, puts (0x420000 + 16 * m + off) { s.hub with members := ms } ∧
          ∀ h, Sparse.get 0 ms h = if h = m then x' else Sparse.get 0 s.hub.members h
        one 0 (v % 2 ^ 10 + v / 2 ^ 32 * 2 ^ 32 + x / 2 ^ 64 * 2 ^ 64) ∧ one 8 (x % 2 ^ 64 + v * 2 ^ 64)) ∧
    exec .gtstatRead s = .next { s with hub := { s.hub with ptp := { s.hub.ptp with changed := false } } } ∧
    exec .editionReportRead s = .next { s with hub := { s.hub with reports := s.hub.reports.drop 1 } } ∧
    ∀ p f, p < 2048 → (s.tile p).firing = some f → f.trapped = false → ((s.tile p).slot f.slot).st = .firing →
      (s.region (s.regionOf p)).halted = true → (s.region (s.regionOf p)).haltFrom + 12000 ≤ s.cycle →
      (∀ o ∈ s.hub.ops, ∀ o' ∈ s.hub.ops, o.id = o'.id → o = o') →
      let own (o : HubOp) : Prop := o ∈ s.hub.ops ∧ o.core = p ∧ o.orphan = false
      ∃ t, exec (.hubCloseTimeout p) s = .next t ∧ t.mem = s.mem ∧
        (∀ o, own o → o.fn < 16 ∨ o.fn = 18 → t.isLive o.id = false) ∧
        (∀ o ∈ t.hub.ops, o.core = p → 16 ≤ o.fn ∧ o.fn ≠ 18 ∨ o.orphan = true) ∧
        ((∀ o, own o → 16 ≤ o.fn) → (t.tile p).firing = some f) ∧
        ∀ op ops, s.hub.ops.filter (fun o => decide (o.fn < 16) && decide (o.core = p) && !o.orphan) = op :: ops →
          let closed (i2 i3 : Nat) : Prop := (t.tile p).firing = some { f with closed := f.closed.or (some (op.pc,
            { code := 0x10, i0 := exact op.off, i1 := 2, i2 := exact i2, i3 := exact i3 })) }
          (t.coreAt p).waitOp = none ∧ (op.fn ≠ 5 → closed op.target (op.seq.getD 0)) ∧
          (op.fn = 5 → ∀ r ∈ s.hub.ops, r.fn = 17 → r.parent = op.id →
            (∀ r' ∈ s.hub.ops, r'.fn = 17 → r'.parent = op.id → r' ≠ r → r.member < r'.member) → closed r.member (r.seq.getD 0))

/-- R405: one announcement is better than another: of another grandmaster, by its dataset; of the same, by its steps removed and its sender. -/
def better (a b : Announced) : Prop :=
  if a.gm = b.gm then a.steps < b.steps ∨ a.steps = b.steps ∧ a.src < b.src else a.rank < b.rank

/-- A clock's dataset (assumption 59): priority1, class, accuracy, variance, priority2, identity, the first the weightiest. -/
def clockRank (p1 cls acc var p2 id : Nat) : Nat := ((((p1 * 256 + cls) * 256 + acc) * 65536 + var) * 256 + p2) * 2 ^ 64 + id

/-- The own clock's dataset, of PTPCFG's fields. -/
def ownRank (p : Ptp) : Nat :=
  clockRank (p.cfg / 2 ^ 8 % 256) (p.cfg / 2 ^ 24 % 256) (Config.clockAccuracy % 256) (Config.clockVariance % 65536) (p.cfg / 2 ^ 16 % 256)
    Config.clockId.toNat

/-- R405, R406: of the announcements heard, e is the master: the best, better than the own clock, which may take a master. -/
def leadsClock (p : Ptp) (heard : List (Nat × Announced)) (e : Nat × Announced) : Prop :=
  e ∈ heard ∧ (∀ e' ∈ heard, e' ≠ e → better e.2 e'.2) ∧ e.2.rank < ownRank p ∧ p.cfg / 2 ^ 32 % 2 = 0 ∧ 128 ≤ p.cfg / 2 ^ 24 % 256

/-- The device follows no clock: GMONLY, a class below 128, or none heard is better than its own. -/
def followsNone (p : Ptp) (heard : List (Nat × Announced)) : Prop :=
  p.cfg / 2 ^ 32 % 2 = 1 ∨ p.cfg / 2 ^ 24 % 256 < 128 ∨ ∀ e ∈ heard, ownRank p ≤ e.2.rank

/-- The time service after the announcements heard have become `heard`: it follows the master it had, LOCKING on a new one, or is grandmaster. -/
def Elected (s : State) (heard : List (Nat × Announced)) (q : Ptp) : Prop :=
  let p := s.hub.ptp
  let fresh : Ptp := { p with heard := heard, since := s.refClock, stepped := false, delay := none, ms := none, sync := none, req := none }
  (∀ e, leadsClock p heard e →
    (p.master.map Prod.fst = some e.1 → q = { p with heard := heard, master := some e, since := e.2.heard }) ∧
    (p.master.map Prod.fst ≠ some e.1 →
      q = { fresh with master := some e, gm := false, port := e.1, st := 1, changed := p.changed || decide (p.st ≠ 1) })) ∧
  (followsNone p heard →
    (p.master = none ∧ p.gm = true → q = { p with heard := heard }) ∧
    (p.master ≠ none ∨ p.gm = false → q = { fresh with master := none, gm := true }))

/-- R405 to R407: on a port of the domain an Announce is heard, and the best clock announced becomes the master, LOCKING on its link, or the
device is grandmaster; Sync is timed; Follow_Up gives the way from the master, Delay_Resp half the sum of both ways, and the two the offset,
of which the first above 1,000 ns steps GTIME, one within 50 ns is LOCKED and one above 1,000 ns LOCKING; Delay_Req is answered and the
intervals send, but by a passive port nothing; what any port heard an announce receipt timeout ago no longer counts, and with no master for that
long STATE is HOLDOVER. Model's choices: assumptions 58, 59. -/
def TimeService : Prop :=
  ∀ (s : State) (n dom : Nat), s.wf = true →
    let p := s.hub.ptp
    let locked := (s.link n).locked = true ∧ (s.link n).dis = false
    let port := locked ∧ dom = p.cfg % 256
    let slave := p.master.map Prod.fst = some n
    let puts (i : Instr) (q : Ptp) : Prop := exec i s = .next { s with hub := { s.hub with ptp := q } }
    (∀ p1 cls acc var p2 id steps src tp, p1 < 256 → cls < 256 → acc < 256 → var < 65536 → p2 < 256 → id < 2 ^ 64 → steps < 65536 → tp < 2 →
      let i := Instr.announce n dom p1 (cls * 2 ^ 24 + acc * 2 ^ 16 + var) p2 id (src * 2 ^ 17 + steps * 2 + tp)
      let a : Announced := { rank := clockRank p1 cls acc var p2 id, gm := id, steps := steps, src := src, ptp := tp == 1, heard := s.refClock }
      (port → ∃ q, puts i q ∧
        Elected s ((n, a) :: p.heard.filter (fun e => decide (e.1 ≠ n))) q) ∧
      (¬ port → exec i s = .next s)) ∧
    (∀ sq, port → slave → puts (.syncMsg n dom sq) { p with sync := some (sq, s.gtime) }) ∧
    (∀ sq t1 t2, port → slave → p.sync = some (sq, t2) →
      (p.delay = none → puts (.followUp n dom sq t1) { p with ms := some ((t2 : Int) - t1), sync := none }) ∧
      (∀ d : Int, p.delay = some d →
        let off : Int := d - ((t2 : Int) - t1)
        let q : Ptp := { p with ms := some ((t2 : Int) - t1), sync := none, offset := off, stepped := true,
                                ptpts := (p.master.map (fun m => m.2.ptp)).getD p.ptpts }
        let locking : Ptp := { q with st := 1, changed := p.changed || decide (p.st ≠ 1) }
        (p.st = 1 → p.stepped = false → 1000 < off → exec (.followUp n dom sq t1) s =
          .next { s with hub := { s.hub with ptp := q }, gtime := (s.gtime + off.toNat) % 2 ^ 64 }) ∧
        (off.natAbs ≤ 50 → puts (.followUp n dom sq t1) { q with st := 2, changed := p.changed || decide (p.st ≠ 2) }) ∧
        (50 < off.natAbs → off.natAbs ≤ 1000 → puts (.followUp n dom sq t1) (if p.st = 2 then q else locking)) ∧
        (1000 < off.natAbs → p.st ≠ 1 ∨ p.stepped = true ∨ off < 0 → puts (.followUp n dom sq t1) locking))) ∧
    (∀ sq, port → ¬ slave → p.passive n = false → puts (.delayReq n dom sq) { p with sent := p.sent ++ [(n, 4, sq, s.gtime)] }) ∧
    (∀ sq t3 t4 (ms : Int), port → slave → p.req = some (sq, t3) → p.ms = some ms →
      puts (.delayResp n dom sq t4) { p with delay := some ((ms + ((t4 : Int) - t3)) / 2), req := none }) ∧
    (locked →
      (slave → puts (.ptpInterval n 2) { p with
        req := some (p.reqSeq, s.gtime), reqSeq := (p.reqSeq + 1) % 2 ^ 16, sent := p.sent ++ [(n, 2, p.reqSeq, s.gtime)] }) ∧
      (¬ slave → p.passive n = false →
        puts (.ptpInterval n 0) { p with
          syncSeq := (p.syncSeq + 1) % 2 ^ 16, sent := p.sent ++ [(n, 0, p.syncSeq, s.gtime), (n, 3, p.syncSeq, s.gtime)] } ∧
        puts (.ptpInterval n 1) { p with sent := p.sent ++ [(n, 1, 0, s.gtime)] }) ∧
      (¬ slave → p.passive n = true → ∀ sq k, k < 3 → exec (.ptpInterval n k) s = .next s ∧ exec (.delayReq n dom sq) s = .next s)) ∧
    ((∀ e ∈ p.heard, e.1 ≠ n) → p.passive n = false) ∧
    (∀ l a b, p.heard = [(l, b), (n, a)] → l ≠ n → leadsClock p p.heard (l, b) → p.passive l = false ∧
      (p.passive n = true ↔ a.gm = b.gm ∧ (a.steps = b.steps ∨ a.steps = b.steps + 1 ∧ a.src < Config.clockId.toNat * 65536 + n + 1))) ∧
    let late := p.since + 375000000 ≤ s.refClock
    let heard := p.heard.filter (fun e => decide (s.refClock < e.2.heard + 375000000))
    (¬ late → heard = p.heard → exec .announceReceiptTimeout s = .next s) ∧
    (late ∨ heard ≠ p.heard → ∃ q, Elected s heard q ∧ ((∃ e, leadsClock p heard e) ∨ ¬ late → puts .announceReceiptTimeout q) ∧
      (late → followsNone p heard → puts .announceReceiptTimeout { q with st := 3, changed := p.changed || decide (p.st ≠ 3) }))

/-- R13, R14, R407, R458: time passes by at most as many cycles as are asked, by so many while no flit is on its way: CYCLE counts them, the
reference clock and GTIME count their ns, 16 / (3 · FSTEP) each, GTIME at its own rate, within 500 ppm of nominal while LOCKING or LOCKED and
else as it was. Model's choices: assumptions 1, 25. -/
def TimePasses : Prop :=
  ∀ (s : State) (n : Nat), s.wf = true → ∃ (c : Nat) (rate : Int), c ≤ n ∧ (s.flight = [] → s.queued = [] → c = n) ∧
    let p := s.hub.ptp
    let t := s.pass n
    let units := c * (11531520 / s.pkg.fstep)
    let fine := s.subG + units * (1000000000 + rate).toNat
    (p.st ≠ 1 → p.st ≠ 2 → rate = p.rate ∧ t.freeCtr = s.freeCtr) ∧
    (p.st = 1 ∨ p.st = 2 → -500000 ≤ rate ∧ rate ≤ 500000 ∧ t.freeCtr = s.freeCtr + 1) ∧
    t = { s with
      freeCtr := t.freeCtr, hub := { s.hub with ptp := { p with rate := rate } }, cycle := (s.cycle + c) % 2 ^ 64,
      refClock := s.refClock + (s.subNs + units) / 2162160, subNs := (s.subNs + units) % 2162160,
      gtime := (s.gtime + fine / 2162160000000000) % 2 ^ 64, subG := fine % 2162160000000000 }

end Sys2Proof.Claims

/-- R371 to R410: the instructions of the link hub and what answers them. -/
def Obligations.RemoteAccess : Prop := HubIssue ∧ HubWaits ∧ RemoteKeys ∧ HubAnswers

/-- R371 to R410: requests, connections, links and registers of the hub. -/
def Obligations.LinkHub : Prop := HubRequests ∧ HubConnections ∧ HubLinks ∧ HubRegisters

/-- R405 to R407: the time service; R13, R14, R458: the passing of time. -/
def Obligations.PrecisionTime : Prop := TimeService ∧ TimePasses

namespace Sys2Proof.Claims

/-! ## Queues, launches, pre-emption, firmware -/

/-- The current core works on region, queue or firmware k (R362, R443). -/
def held (s : State) (k : Nat) : State := s.mapCore (fun c => { c with holds := some k })

/-- No other core works on k. -/
def alone (s : State) (k : Nat) : Prop := ∀ e ∈ s.cores, e.1 ≠ s.cur → e.2.holds ≠ some k

/-- R362, R443: an address operand of a function is checked at issue, once: here no check stops it, and none has changed the state. -/
def addressOk (s : State) (rw : Rw) (n : Nat) (ea : Word) : Prop :=
  s.core.checked = true ∨ ∃ pl, checkAccess .control rw n n ea s = .ok pl s

/-- The state once the check of an address operand is behind its core. -/
def behind (s : State) : State := s.mapCore (fun c => { c with checked := true })

/-- Only queue q differs. -/
def QueueOnly (s t : State) (q : Nat) (x : Queue) : Prop :=
  t.queue q = x ∧ (∀ k, k ≠ q → t.queue k = s.queue k) ∧ t = { s with queues := t.queues }

/-- R420, R421, R423, R428, R429: `qpop` waits while another core works on the queue; answers 0x100 where the queue is not enabled, is stopped
or is empty; else reads the packet at HEAD, a failed read or copy being the status: one that bears NEXTSEQ is copied to the buffer and HEAD and NEXTSEQ go on; one that does not
is read again after 64 cycles, and after 1,024 reads more the queue stops with QUEUE_TORN and MSI-X vector 63. `qdone` writes the completion
record where CREC is not 0, sends the vector where FLAGS asks, and frees the region unless HOLD, once its tiles have nothing outstanding (R104);
it answers 0x14 where the instance has neither ended nor, in a pre-empted region, drained. A kick moves TAIL where it is within the ring or is TAIL, else sets ERR; CTL is written by its fields.
Model's choices: assumptions 54, 60. -/
def QueueOps : Prop :=
  (∀ (s : State) (d a b ow om : Nat), s.wf = true → s.setDone ow = true → (Instr.qpop d a b ow om).wf = true →
    addressOk s .write 64 (s.sreg b) →
    let i := Instr.qpop d a b ow om
    let u := behind s
    let q := (s.sreg a).toNat
    let x := s.queue q
    (256 ≤ q → Finishes i s s d om 0xC05) ∧
    (q < 256 → ¬ alone s (512 + q) → exec i s = .next u) ∧
    (q < 256 → alone s (512 + q) →
      (s.core.shut = false → x.en = false ∨ x.stopped = true ∨ x.head = x.tail → Finishes i s s d om 0x100) ∧
      (s.core.shut = true → s.cycle < x.readAt + 64 → Stays i s { u.core with holds := some (512 + q) }) ∧
      ((s.core.shut = false ∧ x.en = true ∧ x.stopped = false ∧ x.head ≠ x.tail) ∨ (s.core.shut = true ∧ x.readAt + 64 ≤ s.cycle) →
        let y : Queue := if s.core.shut then x else { x with tries := 0 }
        let s0 := if s.core.shut then held u (512 + q) else (held u (512 + q)).setQueue q y
        let ring := ringRead (x.base.toNat + 64 * (x.head % 2 ^ x.log2n)) s0
        (∀ r s1, ring = .error r s1 → s1.wf = true → ∃ s2, QueueOnly s1 s2 q { y with tries := 0 } ∧
          Finishes i s s2 d om (r.code + r.reason * 2 ^ 8)) ∧
        ∀ p s1, ring = .ok p s1 → s1.wf = true →
          (∀ s2, p % 2 ^ 16 = y.nextSeq → writeBytes (s.sreg b) (toBytes p 64) s1 = .ok () s2 → s2.wf = true → ∃ s3, Finishes i s s3 d om 0 ∧
            s3.queue q = { y with head := (x.head + 1) % 2 ^ 32, nextSeq := (x.nextSeq + 1) % 2 ^ 16, tries := 0 } ∧
            (∀ k, k ≠ q → s3.queue k = s2.queue k) ∧ Sparse.get 0 s3.pops (s.sreg b).toNat = q + 1 ∧
            s3 = { s2 with queues := s3.queues, pops := s3.pops }) ∧
          (∀ f s2, p % 2 ^ 16 = y.nextSeq → writeBytes (s.sreg b) (toBytes p 64) s1 = .error f s2 → s2.wf = true → ∃ s3,
            QueueOnly s2 s3 q { y with tries := 0 } ∧ Finishes i s s3 d om (f.code + f.reason * 2 ^ 8 + f.idx % 2 ^ 32 * 2 ^ 32)) ∧
          (p % 2 ^ 16 ≠ y.nextSeq → y.tries < 1024 → ∃ t, exec i s = .next t ∧ t.core = { s1.core with shut := true } ∧
            t.queue q = { y with tries := y.tries + 1, readAt := s1.cycle } ∧ (∀ k, k ≠ q → t.queue k = s1.queue k) ∧
            t = { s1 with queues := t.queues, cores := t.cores }) ∧
          (p % 2 ^ 16 ≠ y.nextSeq → 1024 ≤ y.tries → ∃ s2, Finishes i s s2 d om 0x1C ∧ s2.queue q = { y with stopped := true, tries := 0 } ∧
            s2.msix = s1.msix ++ [63] ∧ s2 = { s1 with queues := s2.queues, msix := s2.msix })))) ∧
  (∀ (s s1 : State) (d a b ow om pkt : Nat), s.wf = true → s.setDone ow = true → (Instr.qdone d a b ow om).wf = true →
    addressOk s .read 64 (s.sreg b) → readNum (s.sreg b) 64 (behind s) = .ok pkt s1 → s1.wf = true → s1.cur = s.cur →
    let i := Instr.qdone d a b ow om
    let g := (s.sreg a).toNat
    let st := (s1.sreg d).toNat
    let tag := pkt / 2 ^ 64 % 2 ^ 64
    let crec : Nat := pkt / 2 ^ 256 % 2 ^ 64
    let flags := pkt / 2 ^ 24 % 256
    let written (u v : State) (ws : List Nat) : Prop :=
      (crec = 0 ∧ v = u) ∨ (crec ≠ 0 ∧ writeBytes (exact crec) (ws.flatMap (fun w => toBytes w 8)) u = .ok () v ∧ v.wf = true)
    let told (u : State) : List Nat := if flags / 2 % 2 = 1 then u.msix ++ [pkt / 2 ^ 480 % 2 ^ 16 % 64] else u.msix
    let r := s1.region g
    (128 ≤ g → ∀ s2, written s1 s2 [tag, st % 256, 0, 0, 0, if st % 256 = 0x1F then st else 0, 0, 0] → ∃ s3, Finishes i s s3 d om 0 ∧
      s3 = { s2 with msix := told s2 }) ∧
    (g < 128 → r.live = false → Finishes i s s1 d om 0xC05) ∧
    let mine := alone s1 g ∧ (r.proofSt = .pulling → s1.core.holds = some g)
    let still (u : State) : Prop := flags % 2 = 1 ∨ u.unperformed g = false
    (g < 128 → r.live = true → ¬ mine → exec i s = .next s1) ∧
    (g < 128 → r.live = true → mine →
      (r.started = false ∨ s1.drained g = false → r.ended = none → Finishes i s s1 d om 0x14) ∧
      (r.started = false → r.ended ≠ none → ¬ still (held s1 g) → exec i s = .next (held s1 g)) ∧
      (∀ s2, r.started = true → r.halted = true → s1.drained g = true → r.proofSt ≠ .pulling → r.ended = none →
        (∃ u, still u ∧ written u s2 [tag, (if r.modeSplit then 2 ^ 8 else 0) + (r.sinkMode.getD 0) % 8 * 2 ^ 9 + (if r.replay then 2 ^ 12 else 0) +
            (if ∃ x, r.bound = some x ∧ x.pkt / 2 ^ 24 % 2 = 1 then 2 ^ 13 else 0) + min r.faults (2 ^ 32 - 1) * 2 ^ 32,
          r.startG % 2 ^ 64, r.drainAt.getD s1.gtime % 2 ^ 64, r.firings % 2 ^ 64, r.ffw.toNat, 0, 0] ∧
          u = ((held s1 g).mapRegion g (fun r => { r with drainMode := r.sinkMode.getD 0 })).endInstance g 0) →
        ∃ s3, Finishes i s s3 d om 0 ∧ s3.msix = told s2) ∧
      ∀ c s2, r.started = false → r.ended = some c → still (held s1 g) →
        written (held s1 g) s2
          [tag, c % 256 + (if r.modeSplit then 2 ^ 8 else 0) + r.drainMode % 8 * 2 ^ 9 + (if r.replay then 2 ^ 12 else 0) +
             (if ∃ x, r.bound = some x ∧ x.pkt / 2 ^ 24 % 2 = 1 then 2 ^ 13 else 0) + min r.faults (2 ^ 32 - 1) * 2 ^ 32,
           r.startG % 2 ^ 64, r.endG % 2 ^ 64, r.firings % 2 ^ 64, r.ffw.toNat, 0, 0] →
        ∃ s3, Finishes i s s3 d om 0 ∧ s3.msix = told s2 ∧
          (flags % 2 = 1 → s3.region g = { s2.region g with undone := false } ∧ s3 = { s2 with msix := s3.msix, regions := s3.regions }) ∧
          (flags % 2 = 0 → s3.region g = {}))) ∧
  ∀ (s : State) (q v : Nat), s.wf = true →
    let x := s.queue q
    let t32 := v % 2 ^ 32
    let within : Prop := (t32 + 2 ^ 32 - x.tail) % 2 ^ 32 ≤ 2 ^ x.log2n ∧ (t32 + 2 ^ 32 - x.head) % 2 ^ 32 ≤ 2 ^ x.log2n
    (x.en = true → within ∨ t32 = x.tail → ∃ t, exec (.kick q v) s = .next t ∧ QueueOnly s t q { x with tail := t32 }) ∧
    (x.en = false ∨ (¬ within ∧ t32 ≠ x.tail) → ∃ t, exec (.kick q v) s = .next t ∧ QueueOnly s t q { x with err := true }) ∧
    let n := if x.en then x.log2n else v / 8 % 32
    let lim := v / 2 ^ 13 % 16
    ∃ t, exec (.queueCtlWrite q v) s = .next t ∧ QueueOnly s t q { x with
      en := decide (v % 2 = 1 ∧ 1 ≤ n ∧ n ≤ 16 ∧ lim ≠ 0), err := x.err && decide (v / 2 % 2 = 0), stopped := x.stopped && decide (v % 2 = 0),
      log2n := n, prio := v / 2 ^ 8 % 8, pol4 := v / 2 ^ 11 % 4, lim4 := lim }

/-- R425, R426, R427, R430, R443, R53, R56, R310: `launch` waits for its OW set, no interrupt abandoning it there; refuses a packet whose KIND is
not 1; ends a cancelled job's with CANCELLED; waits, reading every 256 cycles, until the counter at DEPADDR reaches DEPVAL; takes an admission
number; checks the object (its header, its policies, its tables, its profile, then its placement record and stream, in this order), places it,
PLATES telling how many stream contexts are short, latches the packet, the seed and the instance key, and pulls; and answers the region once the
swap is made. A replay that is cancelled leaves nothing staged in the region that it had reserved. `cancel` takes an admission number,
sets the job's cancel point, ends the instances admitted before it, and answers how many. Model's choices: assumptions 1, 53, 54, 76. -/
def LaunchOps : Prop :=
  (∀ (s : State) (d a b ow om : Nat), s.wf = true → (Instr.launch d a b ow om).wf = true → addressOk s .read 64 (s.sreg a) →
    s.setDone ow = false →
    exec (.launch d a b ow om) s = .next ((behind s).mapCore (fun c => { c with shut := true }))) ∧
  (∀ (s : State) (d a b ow om : Nat), s.wf = true → s.setDone ow = true → (Instr.launch d a b ow om).wf = true →
    addressOk s .read 64 (s.sreg a) →
    let i := Instr.launch d a b ow om
    let v := (behind s).mapCore (fun c => { c with shut := false })
    let job (pkt : Nat) : Nat := pkt / 2 ^ 48 % 2 ^ 16
    let dep (pkt : Nat) : Nat := pkt / 2 ^ 320 % 2 ^ 64
    let cancelled (u : State) (pkt : Nat) : Prop := Sparse.get 0 u.cancels (job pkt) ≠ 0
    let starts (u : State) (pkt : Nat) : Prop :=
      (s.core.waitFrom = none ∧ readNum (s.sreg a) 64 v = .ok pkt u ∧ pkt / 2 ^ 16 % 256 = 1) ∨
      (∃ c n, s.core.waitFrom = some (c, n) ∧ c + 256 ≤ s.cycle ∧ u = v ∧ pkt = s.core.pkt)
    (s.core.adm = none →
      (∀ pkt s1, s.core.waitFrom = none → readNum (s.sreg a) 64 v = .ok pkt s1 → pkt / 2 ^ 16 % 256 ≠ 1 → Finishes i s s1 d om 0x11F) ∧
      (∀ c n, s.core.waitFrom = some (c, n) → s.cycle < c + 256 → ¬ cancelled s s.core.pkt → exec i s = .next v) ∧
      ∀ pkt s1, starts s1 pkt → s1.wf = true →
        (cancelled s1 pkt → Finishes i s s1 d om 0x1D) ∧
        (¬ cancelled s1 pkt →
          (dep pkt ≠ 0 → dep pkt % 8 ≠ 0 → Finishes i s s1 d om 0x803) ∧
          (∀ v s2, dep pkt ≠ 0 → dep pkt % 8 = 0 → readNum (exact (dep pkt)) 8 s1 = .ok v s2 → s2.wf = true → v < pkt / 2 ^ 384 % 2 ^ 64 →
            ∃ t, exec i s = .next t ∧ OnlyCore s2 t ∧ t.core = { s2.core with waitFrom := some (s2.cycle, s2.gtime), pkt := pkt }) ∧
          ∀ v s2, (dep pkt = 0 ∧ s2 = s1) ∨ (dep pkt ≠ 0 ∧ dep pkt % 8 = 0 ∧ readNum (exact (dep pkt)) 8 s1 = .ok v s2 ∧ pkt / 2 ^ 384 % 2 ^ 64 ≤ v) →
            s2.wf = true → s2.core.holds = none →
            let adm := s2.admission + 1
            let s3 := { s2 with admission := adm }.mapCore (fun c => { c with waitFrom := none, pkt := pkt, adm := some adm, shut := true })
            s3.heldRegion (pkt / 2 ^ 128 % 2 ^ 64) = none →
            (∀ st s4, launchCheck pkt s3 = .error st s4 → Finishes i s s4 d om st) ∧
            ∀ k s4, launchCheck pkt s3 = .ok k s4 →
              (∀ st s5, launchPlace k pkt adm (s4.queueOf (s.sreg a)) (s.sreg b) s4 = .error st s5 → Finishes i s s4 d om st) ∧
              ∀ g s5, launchPlace k pkt adm (s4.queueOf (s.sreg a)) (s.sreg b) s4 = .ok g s5 → s5.wf = true →
                ∃ t, exec i s = .next t ∧ OnlyCore s5 t ∧ t.core = { s5.core with holds := some g, want := none })) ∧
    (∀ g, s.core.adm ≠ none → s.core.holds = some g →
      ((s.region g).proofSt = .pulling → exec i s = .next (behind s)) ∧ ((s.region g).proofSt ≠ .pulling → Finishes i s s d om (g * 2 ^ 16))) ∧
    (∀ g n, s.core.holds = none → s.core.want ≠ none → s.core.adm = some n →
      s.heldRegion (s.core.pkt / 2 ^ 128 % 2 ^ 64) = some g → n < Sparse.get 0 s.cancels (job s.core.pkt) →
      ((s.region g).next ≠ some s.cur → Finishes i s s d om 0x1D) ∧
      ((s.region g).next = some s.cur → ∃ s1, Finishes i s s1 d om 0x1D ∧ (s1.region g).next = none ∧ (s1.region g).proofSt = .none ∧
        (s1.region g).bound = (s.region g).bound ∧ Sparse.get 0 s1.roots g = Sparse.get 0 s.roots g))) ∧
  (∀ (s s1 : State) (pkt x : Nat), readNum (exact (pkt / 2 ^ 128 % 2 ^ 64)) 64 s = .ok x s1 →
    let good : Prop := x % 2 ^ 32 = 0x4A47424F ∧ x / 2 ^ 48 % 2 ^ 16 = 0 ∧ x / 2 ^ 432 % 2 ^ 16 = 0 ∧ x / 2 ^ 32 % 256 ≠ 0 ∧
      x / 2 ^ 416 % 2 ^ 16 ≤ 256 ∧ x / 2 ^ 448 % 2 ^ 64 % 8 = 0 ∧ (x / 2 ^ 416 % 2 ^ 16 = 0 → x / 2 ^ 448 % 2 ^ 64 = 0)
    let pol2 := x / 2 ^ 40 % 256
    let policy : Prop := pol2 < 64 ∧ pol2 / 4 % 16 ≠ 0 ∧ pkt / 2 ^ 24 % 256 / 16 ≠ 0
    (¬ good → launchCheck pkt s = .error 0x11F s1) ∧ (good → ¬ policy → launchCheck pkt s = .error 0xB1F s1) ∧
    let a := exact (pkt / 2 ^ 128 % 2 ^ 64)
    let h := headerOf x
    let tables := readTables a h (h.place % 256 * (h.place / 2 ^ 8 % 256)) s1
    let status (f : RdFail) : Nat := f.code + f.reason * 2 ^ 8 + f.idx % 2 ^ 32 * 2 ^ 32
    let rejects (bad : Option Nat) (s3 : State) : Prop :=
      (∀ n, bad = some n → launchCheck pkt s = .error (0x11F + n % 2 ^ 16 * 2 ^ 32) s3) ∧
      (bad = none → 3 < x / 2 ^ 32 % 256 → launchCheck pkt s = .error 0x18 s3)
    (∀ f s2, good → policy → tables = .error f s2 → launchCheck pkt s = .error (status f) s2) ∧
    (∀ tb s2, good → policy → tables = .ok tb s2 →
      (∀ y s3, readPlan a h s2 = .ok y s3 → rejects (tb.bad (s3.sketch y.rec_ y.place y.words (tb.staged a []).obj)) s3) ∧
      ∀ st s3, readPlan a h s2 = .error st s3 → rejects (tb.badSect.or tb.badStr) s3 ∧
        (tb.badSect = none → tb.badStr = none → x / 2 ^ 32 % 256 ≤ 3 → launchCheck pkt s = .error st s3)) ∧
    (∀ s2 s3, readPlacing (a + 8) a s2 = .ok none s3 → readPlan a h s2 = .error 0x11F s3) ∧
    (∀ s2 s3 y, readPlacing (a + 8) a s2 = .ok (some y) s3 → h.etchLen < 2 ∨ 2 ^ 26 < h.etchLen → readPlan a h s2 = .error 0x11F s3) ∧
    ∀ s2 s3 s4 y, readPlacing (a + 8) a s2 = .ok (some y) s3 → 2 ≤ h.etchLen → h.etchLen ≤ 2 ^ 26 →
      (∀ f, readWords (a + exact h.etch) h.etchLen 0 [] s3 = .error f s4 → readPlan a h s2 = .error (status f) s4) ∧
      ∀ ws, readWords (a + exact h.etch) h.etchLen 0 [] s3 = .ok ws s4 →
        readPlan a h s2 = .ok { rec_ := y.1, place := y.2.1, legs := y.2.2, words := ws } s4) ∧
  (∀ (s s1 : State) (k : Checked) (pkt adm g : Nat) (q : Option Nat) (root : Word), s.alloc k.rec_ k.place k.legs = .ok (g, s1) →
    s1.shortCtx g k.obj.obj ≠ 0 → ∃ s2, launchPlace k pkt adm q root s = .error (0xC1F + s1.shortCtx g k.obj.obj % 2 ^ 16 * 2 ^ 48) s2) ∧
  (∀ (s t : State) (k : Checked) (pkt adm g : Nat) (q : Option Nat) (root : Word), s.wf = true → launchPlace k pkt adm q root s = .ok g t →
    let r := t.region g
    let flags := pkt / 2 ^ 24 % 256
    r.proofSt = .pulling ∧ r.bound = some { pkt := pkt, queue := q, adm := adm } ∧ r.seed = s.seedReg ∧
    r.instKey = exact (pkt / 2 ^ 448 % 2 ^ 32 : Nat) ∧ r.firings = 0 ∧ r.faults = 0 ∧ r.ended = none ∧ r.replay = false ∧
    r.pol = [(k.pol2 % 4, k.pol2 / 4 % 16), (flags / 4 % 4, flags / 16 % 16),
             match q with | some q => ((s.queue q).pol4, (s.queue q).lim4) | none => (2, 1)]) ∧
  ∀ (s : State) (d a ow om : Nat), s.wf = true → s.setDone ow = true → (Instr.cancel d a ow om).wf = true →
    let i := Instr.cancel d a ow om
    let job := (s.sreg a).toNat
    let n := s.admission + 1
    let swept (g : Nat) : Prop := (s.region g).live = true ∧ (s.region g).started = true ∧ (s.region g).ended = none ∧
      ∃ x, (s.region g).bound = some x ∧ x.pkt / 2 ^ 48 % 2 ^ 16 = job ∧ x.adm < n
    (65536 ≤ job → Finishes i s s d om 0xC05) ∧
    (job < 65536 → s.core.shut = false →
      (∀ e ∈ s.cores, e.1 ≠ s.cur → ∀ m, e.2.adm = some m → e.2.pkt / 2 ^ 48 % 2 ^ 16 = job → e.2.pkt / 2 ^ 16 % 256 = 1 → n ≤ m) →
      ∀ gs : List Nat, gs.Nodup → (∀ g, g ∈ gs ↔ swept g) → ∃ s1, Finishes i s s1 d om (gs.length % 2 ^ 16 * 2 ^ 16) ∧ s1.admission = n ∧
        Sparse.get 0 s1.cancels job = n ∧ ∀ g, (s1.region g).ended = if swept g then some 0x1D else (s.region g).ended)

/-- The number in n bytes of a list of bytes from an offset on, least significant first. -/
def field (bs : List Byte) (o n : Nat) : Nat := ofBytes ((bs.drop o).take n)

/-- R189 to R191, R431 to R435, R311, R335: `preempt` marks the region, halts its contexts, removes their translations, and waits until its
firings are halted or its instance has ended; a firing with nothing outstanding but what is saved halts, its record in the lower half of its
save frame, and of one that has trapped a held `barw` is withdrawn (R273, R277); `preempt.resume` takes a region at rest on again, each halted
firing from its record, the bits that PC and RPTST lack left out (R135, R151). `ctxsave` waits for what the region has not performed and writes
its image, whose first 4,096 bytes are R433's, or answers ECC_UNCORR; `ctxrest` refuses a malformed header, nothing having changed, its zero
fields before its profile and that before its placement record (assumption 31), and else takes an admission number and leaves a region HALTED
with the seed, the instance key, the root entry, the placement record and the packet of the image.
Model's choices: assumptions 28, 29, 30, 31, 61, 62. -/
def PreemptOps : Prop :=
  (∀ (s : State) (g : Nat), s.wf = true → g < 128 →
    let r := s.region g
    let code : Nat := match r.proofSt with | .none => 0 | .etching => 1 | .ready => 2 | .pulling => 3
    (∀ d a ow om, (Instr.preempt d a ow om).wf = true → Works s ow a g →
      let i := Instr.preempt d a ow om
      (s.core.shut = true → s.resting g = true ∨ r.halted = false → Finishes i s s d om 0) ∧
      (s.core.shut = true → s.resting g = false → r.halted = true → Stays i s { s.core with holds := some g }) ∧
      (s.core.shut = false → r.started = false ∨ r.halted = true → Finishes i s s d om (0x14 + code * 2 ^ 16)) ∧
      (s.core.shut = false → r.started = true → r.halted = false → (∀ p ∈ r.tiles, ∀ f, (s.tile p).firing = some f → f.fault = none) →
        ∃ t, exec i s = .next t ∧ t.region g = { r with halted := true, haltFrom := s.cycle } ∧ (∀ k, k ≠ g → t.region k = s.region k) ∧
        t.core = { s.core with holds := some g, shut := true } ∧
        (∀ c, c ∈ r.ctx.map Prod.snd → (s.ctxAt c).st ∈ [CtxSt.idle, .active, .frozen] →
          t.ctxAt c = { s.ctxAt c with st := .halted, left := (s.ctxAt c).st }) ∧
        (∀ c, c ∉ r.ctx.map Prod.snd → t.ctxAt c = s.ctxAt c) ∧
        (∀ k, Sparse.get [] t.tlb k = if k ∈ (r.ctx.map Prod.snd).map ctxTlbKey then [] else Sparse.get [] s.tlb k) ∧
        t = { s with regions := t.regions, ctxs := t.ctxs, cores := t.cores, tlb := t.tlb })) ∧
    (∀ d a ow om, (Instr.preemptResume d a ow om).wf = true → Works s ow a g →
      let i := Instr.preemptResume d a ow om
      (s.resting g = false → Finishes i s s d om (0x14 + code * 2 ^ 16)) ∧
      (s.resting g = true → 2048 ≤ s.cur → (∀ q ∈ r.tiles, ∀ f, (s.tile q).firing = some f → f.closed = none) → ∃ s1, Finishes i s s1 d om 0 ∧
        (s1.region g).halted = false ∧ s1.mem = s.mem ∧
        ∀ p f, p ∈ r.tiles → p < 2048 → (s.tile p).firing = some f → f.slot < 8 → ((s.tile p).slot f.slot).st = .halted →
          let at_ (o : Nat) : Word := exact (little s (tileBase p + o) 8)
          ((s1.tile p).slot f.slot).st = .firing ∧ (s1.coreAt p).pc = exact (little s (tileBase p + 0x7C000) 8 / 8 * 8) ∧
          (s1.coreAt p).rptst = exact (little s (tileBase p + 0x7C008) 8 % 128) ∧
          (s1.coreAt p).fstat = at_ 0x7C010 ∧ (∀ n, 1 ≤ n → n < 32 → (s1.coreAt p).sreg n = at_ (0x7C1C0 + 8 * n)) ∧
          (∀ n, 1 ≤ n → n < 8 → (s1.coreAt p).preg n = (little s (tileBase p + 0x7C018) 1).testBit n) ∧
          (∀ n, 1 ≤ n → n < 8 → (s1.coreAt p).mreg n = BitVec.ofNat 128 (little s (tileBase p + (0x7C140 + 16 * n)) 16))))) ∧
  (∀ (s : State) (p : Nat) (f : Firing), s.wf = true → p < 2048 → (s.tile p).firing = some f → f.slot < 8 →
    let c := s.coreAt p
    ((s.region (s.regionOf p)).halted = false → exec (.firingHalt p) s = .next s) ∧
    let waits (o : NetOp) : Bool := o.kind == .barw && !o.orphan
    ((s.region (s.regionOf p)).halted = true → f.trapped = false → ((s.tile p).slot f.slot).st ≠ .firing → exec (.firingHalt p) s = .next s) ∧
    ((s.region (s.regionOf p)).halted = true → f.trapped = true → ∃ t, exec (.firingHalt p) s = .next t ∧
      t = { s with netOps := t.netOps, live := t.live, cores := t.cores } ∧ t.netList p = (s.netList p).filter (fun o => !waits o) ∧
      (∀ q, q ≠ p → t.netList q = s.netList q ∧ t.coreAt q = s.coreAt q) ∧
      (∀ id, t.isLive id = (s.isLive id && !(s.netList p).any (fun o => waits o && o.id == id))) ∧
      ((∀ o ∈ s.netList p, waits o = false) → t = s)) ∧
    ((s.region (s.regionOf p)).halted = true → f.trapped = false → ((s.tile p).slot f.slot).st = .firing → c.waitOp = none →
      (∀ o ∈ s.netList p, waits o = false) →
      s.mayHalt p f.slot = true → f.journal.length ≤ 128 → (s.mat p).queue.length ≤ 32 → (s.savedCmds p).length ≤ 32 →
      ∃ t, exec (.firingHalt p) s = .next t ∧ ((t.tile p).slot f.slot).st = .halted ∧ t.coreAt p = c.settle ∧
        (∀ n, n ≠ p → t.coreAt n = s.coreAt n ∧ t.tile n = s.tile n) ∧
        t = { s with mem := t.mem, bad := t.bad, tiles := t.tiles, cores := t.cores } ∧
        (∀ k, k < tileBase p + 0x7C000 ∨ tileBase p + 0x7E000 ≤ k → byteAt t k = byteAt s k) ∧
        let rec_ (o : Nat) : Nat := little t (tileBase p + o) 8
        rec_ 0x7C000 = c.pc.toNat ∧ rec_ 0x7C008 = c.rptst.toNat ∧ rec_ 0x7C010 = c.fstat.toNat ∧ rec_ 0x7C028 = f.journal.length ∧
        (∀ n, n < 8 → (rec_ 0x7C018).testBit n = c.preg n) ∧ (∀ n, n < 32 → rec_ (0x7C1C0 + 8 * n) = (c.sreg n).toNat) ∧
        (∀ n, n < 8 → little t (tileBase p + (0x7C140 + 16 * n)) 16 = (c.mreg n).toNat) ∧
        (∀ k, (hk : k < f.journal.length) → little t (tileBase p + (0x7C040 + k)) 1 = f.journal[k] % 256))) ∧
  (∀ (s : State) (d a b ow om g : Nat), s.wf = true → (Instr.ctxsave d a b ow om).wf = true →
    addressOk s .write 4096 (s.sreg b) → Works s ow a g →
    let i := Instr.ctxsave d a b ow om
    let u := held (behind s) g
    let r := s.region g
    (s.resting g = false → Finishes i s s d om (0x14 + (s.region g).proofSt.code * 2 ^ 16)) ∧
    (s.resting g = true → s.unperformed g = true → Stays i s u.core) ∧
    (∀ w, s.resting g = true → s.unperformed g = false → s.imageBad g = some w →
      ∃ s1, Finishes i s s1 d om 0x116 ∧ s1 = { s with hardErr := s1.hardErr, counted := s1.counted }) ∧
    (∀ s1, s.resting g = true → s.unperformed g = false → s.imageBad g = none → writeBytes (s.sreg b) (u.image g) u = .ok () s1 →
      Finishes i s s1 d om 0) ∧
    (∀ f s1, s.resting g = true → s.unperformed g = false → s.imageBad g = none → writeBytes (s.sreg b) (u.image g) u = .error f s1 →
      Finishes i s s1 d om (f.code + f.reason * 2 ^ 8 + f.idx % 2 ^ 32 * 2 ^ 32)) ∧
    ∃ body, u.image g = (u.image g).take 4096 ++ body ∧ (u.image g).length = 4096 + body.length ∧
      let is (o n v : Nat) : Prop := field (u.image g) o n = v % 2 ^ (8 * n)
      is 0 4 0x4A435849 ∧ is 4 1 3 ∧ is 5 1 Config.revision ∧ is 6 2 0 ∧ is 8 16 r.place ∧ is 24 8 body.length ∧ is 32 8 r.seed.toNat ∧
      is 40 4 r.instKey.toNat ∧ is 46 2 0 ∧ is 48 8 (Sparse.get 0 s.roots g).toNat ∧ is 56 8 0 ∧ is 128 3968 0 ∧
      ∀ x, r.bound = some x → is 44 2 (x.pkt / 2 ^ 48) ∧ is 64 64 x.pkt) ∧
  ∀ (s : State) (d a ow om : Nat), s.wf = true → (Instr.ctxrest d a ow om).wf = true → s.setDone ow = true →
    addressOk s .read 4096 (s.sreg a) →
    let i := Instr.ctxrest d a ow om
    let u := behind s
    (∀ f s1, readNum (s.sreg a) 4096 u = .error f s1 → Finishes i s u d om (f.code + f.reason * 2 ^ 8 + f.idx % 2 ^ 32 * 2 ^ 32)) ∧
    ∀ h s1, readNum (s.sreg a) 4096 u = .ok h s1 →
      let form : Prop := h % 2 ^ 32 = 0x4A435849 ∧ h / 2 ^ 48 % 2 ^ 16 = 0 ∧ h / 2 ^ 368 % 2 ^ 16 = 0 ∧ h / 2 ^ 448 % 2 ^ 64 = 0 ∧
        h / 2 ^ 1024 % 2 ^ 31744 = 0
      let known : Prop := h / 2 ^ 32 % 256 ≤ 3
      (¬ form → Finishes i s u d om 0x11F) ∧ (form → ¬ known → Finishes i s u d om 0x18) ∧
      (form → known → placeOf (h / 2 ^ 64 % 2 ^ 128) = none → Finishes i s u d om 0x11F) ∧
      ∀ p, form → known → placeOf (h / 2 ^ 64 % 2 ^ 128) = some p →
      let admitted (x : State) : State := { x with admission := s.admission + 1 }
      (∀ st s2, restore (s.sreg a) h p (admitted s1) = .error st s2 → Finishes i s (admitted u) d om st) ∧
      ∀ g s2, restore (s.sreg a) h p (admitted s1) = .ok g s2 → Finishes i s s2 d om (g * 2 ^ 16) ∧
        let r := s2.region g
        r.live = true ∧ r.halted = true ∧ r.place = h / 2 ^ 64 % 2 ^ 128 ∧ r.seed = exact (h / 2 ^ 256 % 2 ^ 64) ∧
        r.instKey = exact (h / 2 ^ 320 % 2 ^ 32) ∧ Sparse.get 0 s2.roots g = exact (h / 2 ^ 384 % 2 ^ 64) ∧
        ∀ x, r.bound = some x → x.pkt = h / 2 ^ 512 % 2 ^ 512 ∧ x.adm = s.admission + 1

/-- The bytes of memory from a key on. -/
def bytesAt (s : State) (k n : Nat) : List Byte := (List.range n).map (fun i => byteAt s (k + i))

/-- R436: a firmware slot: its length, the form of its header, and its two signatures. -/
def slotLength (s : State) (b : Nat) : Nat := little s (2 ^ 46 + b * 2 ^ 23 + 4) 4
def slotWhole (s : State) (b : Nat) : Prop :=
  little s (2 ^ 46 + b * 2 ^ 23) 4 = 0x4A465731 ∧ 4096 ≤ slotLength s b ∧ slotLength s b ≤ 8371968 ∧ slotLength s b % 64 = 0 ∧
    little s (2 ^ 46 + b * 2 ^ 23 + 28) 228 = 0
def signedRsa (s : State) (b : Nat) : Prop :=
  slotWhole s b ∧ Config.rsaOk (bytesAt s (2 ^ 46 + b * 2 ^ 23) (slotLength s b)) (bytesAt s (2 ^ 46 + b * 2 ^ 23 + slotLength s b) 384) = true
def signedSlh (s : State) (b : Nat) : Prop :=
  slotWhole s b ∧
    Config.slhOk (bytesAt s (2 ^ 46 + b * 2 ^ 23) (slotLength s b)) (bytesAt s (2 ^ 46 + b * 2 ^ 23 + slotLength s b + 384) 16224) = true

/-- R463, R462, R440: the control cores have started from slot b with two values in s10 and s11: at level M, interrupts off, at the entry of the
slot's copy in HBM, their doorbells and store errors, which keep interrupt sources pending, as they were. -/
structure CoresStarted (s t : State) (b : Nat) (x : Word) (why : Nat) : Prop where
  cores : ∀ n, n < 8 → (t.coreAt (2048 + n)).pc = exact (0x7FFF800100 + little s (2 ^ 46 + b * 2 ^ 23 + 16) 8 : Nat) ∧
    (t.coreAt (2048 + n)).running = true ∧ (t.coreAt (2048 + n)).lvl = 1 ∧ (t.coreAt (2048 + n)).ie = 0 ∧
    (t.coreAt (2048 + n)).dbell = (s.coreAt (2048 + n)).dbell ∧ (t.coreAt (2048 + n)).storeErr = (s.coreAt (2048 + n)).storeErr ∧
    ∀ k, (t.coreAt (2048 + n)).sreg k = if k = 10 then x else if k = 11 then exact why else 0
  roots : t.ccroots = 0x7FFF000001 ∧ t.ccrootm = 0x7FFF000001
  table : little t 0x7FFF000000 8 = 0x7FFF001001 ∧ ∀ k, k < 512 → little t (0x7FFF001000 + 8 * k) 8 = k * 2 ^ 30 + 0x7F
  image : slotLength s b ≤ 2 ^ 23 → ∀ k, k < slotLength s b → byteAt t (0x7FFF800000 + k) = byteAt s (2 ^ 46 + b * 2 ^ 23 + k)
  flash : ∀ k, 2 ^ 46 ≤ k → k < 2 ^ 47 → byteAt t k = byteAt s k

/-- R436 to R438, R440, R462 to R465: the firmware instructions run one at a time. `fwload` writes the other slot and clears its VALID;
`fwverify` sets VALID by both signatures; `fwmeasure` appends to the log; `fwswitch` starts all cores from a VALID slot, pending; a heartbeat
is recorded and before the deadline confirms the switch; past it the switch is rolled back. The boot path stops at an error, and does nothing
more after one or without power (assumption 66), and else starts the cores from the slot of flash, or from the other where that one's signatures
fail, VALID as it was (R437). Model's choices: assumptions 32, 65, 66, 68. -/
def FirmwareOps : Prop :=
  (∀ (s : State) (d ow om b : Nat), s.wf = true → s.setDone ow = true → b < 2 →
    (∀ a n, (Instr.fwload d a n ow om b).wf = true → addressOk s .read 8 (s.sreg a) →
      let u := behind s
      let i := Instr.fwload d a n ow om b
      let len := (s.sreg n).toNat
      (¬ alone s 1024 → exec i s = .next u) ∧
      (alone s 1024 →
        (b = s.fw.active ∨ len < 4096 ∨ 2 ^ 23 < len → Finishes i s s d om 0x14) ∧
        (b ≠ s.fw.active → 4096 ≤ len → len ≤ 2 ^ 23 →
          (∀ f s1, readBytes (s.sreg a) len (held u 1024) = .error f s1 →
            Finishes i s s1 d om (f.code + f.reason * 2 ^ 8 + f.idx % 2 ^ 32 * 2 ^ 32)) ∧
          ∀ bs s1, readBytes (s.sreg a) len (held u 1024) = .ok bs s1 → s1.wf = true → ∃ s2, Finishes i s s2 d om 0 ∧
            (∀ k, (hk : k < bs.length) → byteAt s2 (2 ^ 46 + b * 2 ^ 23 + k) = bs[k]) ∧
            (∀ k, k < 2 ^ 46 + b * 2 ^ 23 ∨ 2 ^ 46 + b * 2 ^ 23 + bs.length ≤ k → byteAt s2 k = byteAt s1 k) ∧
            s2 = { s1 with mem := s2.mem, bad := s2.bad, fw := { s1.fw with valid := s1.fw.valid.setIfInBounds b false } }))) ∧
    ((Instr.fwverify d ow om b).wf = true → alone s 1024 →
      let i := Instr.fwverify d ow om b
      let left (v : Bool) : State := { s with fw := { s.fw with valid := s.fw.valid.setIfInBounds b v } }
      (signedRsa s b → signedSlh s b → Finishes i s (left true) d om 0) ∧
      (¬ signedRsa s b → signedSlh s b → Finishes i s (left false) d om 0x115) ∧
      (signedRsa s b → ¬ signedSlh s b → Finishes i s (left false) d om 0x215) ∧
      (¬ signedRsa s b → ¬ signedSlh s b → Finishes i s (left false) d om 0x315)) ∧
    ((Instr.fwmeasure d ow om b).wf = true → alone s 1024 →
      let i := Instr.fwmeasure d ow om b
      let n := s.fw.log.length
      (256 ≤ n → Finishes i s s d om 0x14) ∧
      (n < 256 → Finishes i s { s with fw := { s.fw with log := s.fw.log ++ [
        { slot := b, digest := sha384 (bytesAt s (2 ^ 46 + b * 2 ^ 23) (min (slotLength s b) (2 ^ 23))),
          version := little s (2 ^ 46 + b * 2 ^ 23 + 8) 8 }] } } d om (n * 2 ^ 16))) ∧
    (∀ a, (Instr.fwswitch d a ow om b).wf = true → addressOk s .read 8 (s.sreg a) → alone s 1024 →
      let i := Instr.fwswitch d a ow om b
      let quiet : Prop := ∀ e ∈ s.live, e.core < 2048 ∨ 2056 ≤ e.core
      (s.fw.valid[b]? ≠ some true ∨ b = s.fw.active → Finishes i s s d om 0x14) ∧
      (s.fw.valid[b]? = some true → b ≠ s.fw.active → ¬ quiet → Stays i s { (behind s).core with holds := some 1024 }) ∧
      (s.fw.valid[b]? = some true → b ≠ s.fw.active → quiet → ∃ t, exec i s = .next t ∧ CoresStarted s t b (s.sreg a) 1 ∧
        t.fw = { s.fw with active := b, pending := true, rollback := false, deadline := s.refClock + 50000000, handover := s.sreg a })) ∧
    (∀ a, (Instr.hbeat d a ow om).wf = true → alone s 1024 →
      let confirms : Prop := s.fw.pending = true ∧ s.refClock < s.fw.deadline
      let w := (s.sreg a).toNat % 2 ^ 48
      let n := (s.fw.wdogCount + 1) % 2 ^ 16
      (confirms → Finishes (.hbeat d a ow om) s
        { s with fw := { s.fw with wdogValue := w, wdogCount := n, pending := false, flash := s.fw.active } } d om 0) ∧
      (¬ confirms → Finishes (.hbeat d a ow om) s { s with fw := { s.fw with wdogValue := w, wdogCount := n } } d om 0))) ∧
  ∀ (s : State), s.wf = true →
    (s.fw.pending = true → s.fw.deadline ≤ s.refClock → ∃ t, exec .fwRollback s = .next t ∧
      t.fw = { s.fw with active := 1 - s.fw.active, pending := false, rollback := true } ∧ CoresStarted s t (1 - s.fw.active) s.fw.handover 2) ∧
    (s.fw.pending = false ∨ s.refClock < s.fw.deadline → exec .fwRollback s = .next s) ∧
    ∀ hbm copy,
      (s.booted = true ∨ s.pkg.err ≠ 0 ∨ s.pkg.powered = false → exec (.boot hbm copy) s = .next s) ∧
      (s.booted = false → s.pkg.err = 0 → s.pkg.powered = true →
        (hbm % 2 = 0 → exec (.boot hbm copy) s = .next { s with pkg := { s.pkg with step := 1, err := 1 } }) ∧
        (hbm % 2 = 1 →
          let b0 := s.fw.flash
          let good (b : Nat) : Prop := signedRsa s b ∧ signedSlh s b
          (¬ good b0 → ¬ good (1 - b0) → exec (.boot hbm copy) s = .next { s with pkg := { s.pkg with step := 2, err := 2 } }) ∧
          ∀ b, (good b0 ∧ b = b0) ∨ (¬ good b0 ∧ good (1 - b0) ∧ b = 1 - b0) → ∃ t, exec (.boot hbm copy) s = .next t ∧
            t.fw.active = b ∧ t.fw.valid = s.fw.valid ∧ t.fw.flash = b0 ∧ t.pkg.alt = decide (b ≠ b0) ∧
            (copy % 2 = 0 → t.pkg.err = 3 ∧ t.pkg.step = 4 ∧ t.booted = false ∧ t.cores = s.cores) ∧
            (copy % 2 = 1 → t.booted = true ∧ t.pkg.step = 6 ∧ t.pkg.err = 0 ∧
              CoresStarted s t b (if s.pkg.why = 2 then s.fw.handover else 0) s.pkg.why)))

/-- R413, R439, R466: the host reads and writes HBM below its end, an uncorrectable error that it meets being counted and what it gets then open
(assumption 103); the SPDM responder answers version, capabilities and algorithms in this order and
serves nothing else before; a plain answer joins the transcript, a signed one bears the signature over it; a session that FINISH has
confirmed is needed to end one and to set IDE keys. Model's choices: assumptions 33, 67, 103. -/
def HostRequests : Prop :=
  ∀ (s : State), s.wf = true →
    let x := s.spdm
    let spdm (y : Spdm) : State := { s with spdm := y }
    let refused (i : Instr) (code : Nat) : Prop := ∃ t, exec i s = .next t ∧ t.spdm = { x with answers := x.answers ++ [{ req := 0x7F, body := [code] }] }
    let plain (y : Spdm) (req : List Nat) (code : Nat) (body : List Nat) : Spdm :=
      { y with transcript := y.transcript ++ [req, body], answers := y.answers ++ [{ req := code, body := body }] }
    let signed (y : Spdm) (req : List Nat) (code : Nat) (body : List Nat) : Spdm :=
      let tr := y.transcript ++ [req, body]
      { y with transcript := tr, marks := y.marks ++ [tr],
               answers := y.answers ++ [{ req := code, body := body, rsa := some (Config.rsaSign tr) }] }
    let session : Prop := ∃ k, x.session = some (k, true)
    let nonce := Config.spdmNonce s.freeCtr
    (∀ wr addr len val, 2 ^ 39 < addr + len → exec (.hdmAccess wr addr len val) s = .next s) ∧
    (∀ wr addr len val, addr + len ≤ 2 ^ 39 → wr % 2 = 0 → s.readBad addr len = false →
      exec (.hdmAccess wr addr len val) s = .next { s with hdmData := little s addr len }) ∧
    (∀ wr addr len val, addr + len ≤ 2 ^ 39 → wr % 2 = 0 → s.readBad addr len = true → ∃ t, exec (.hdmAccess wr addr len val) s = .next t ∧
      t = { s with hdmData := t.hdmData, freeCtr := t.freeCtr, hardErr := t.hardErr, counted := t.counted } ∧ t.hdmData < 2 ^ (8 * len) ∧
      let k := 16 * (addr / 2 ^ 38) + 6
      Sparse.get 0 t.hardErr k = min (Sparse.get 0 s.hardErr k + 1) (2 ^ 64 - 1)) ∧
    (∀ wr addr len val, addr + len ≤ 2 ^ 39 → wr % 2 = 1 → ∃ t, exec (.hdmAccess wr addr len val) s = .next t ∧
      little t addr len = val % 2 ^ (8 * len) ∧ (∀ k, k < addr ∨ addr + len ≤ k → byteAt t k = byteAt s k) ∧
      t = { s with mem := t.mem, bad := t.bad }) ∧
    exec .getVersion s = .next (spdm (plain { x with stage := 1, transcript := [], session := none } [0x84] 0x84 [0x13])) ∧
    (x.stage = 1 → exec .getCapabilities s = .next (spdm (plain { x with stage := 2 } [0xE1] 0xE1 []))) ∧
    (x.stage ≠ 1 → refused .getCapabilities 4) ∧
    (∀ h k, x.stage = 2 → exec (.negotiateAlgorithms h k) s =
      .next (spdm (plain { x with stage := if h = 1 ∧ k = 1 then 3 else 2 } [0xE3, h, k] 0xE3 [h % 2, k % 2]))) ∧
    (∀ h k, x.stage ≠ 2 → refused (.negotiateAlgorithms h k) 4) ∧
    (x.stage ≠ 3 → refused .getDigests 4 ∧ refused (.getCertificate 0 0 0) 4 ∧ (∀ n, refused (.challenge n) 4) ∧
      (∀ k g n, refused (.getMeasurements k g n) 4) ∧ (∀ k n, refused (.keyExchange k n) 4) ∧ (∀ m, refused (.finish m) 4) ∧
      refused .endSession 4) ∧
    (x.stage = 3 →
      exec .getDigests s = .next (spdm (plain x [0x81] 0x81 [1, sha384 Config.certificate])) ∧
      (∀ off len, off < Config.certificate.length →
        let bs := (Config.certificate.drop off).take len
        exec (.getCertificate 0 off len) s =
          .next (spdm (plain x [0x82, 0, off, len] 0x82 [bs.length, Config.certificate.length - off - bs.length, ofBytes bs]))) ∧
      (∀ slot off len, slot ≠ 0 ∨ Config.certificate.length ≤ off → refused (.getCertificate slot off len) 1) ∧
      (∀ n, exec (.challenge n) s = .next { s with
        freeCtr := s.freeCtr + 1, spdm := signed x [0x83, n] 0x83 [sha384 Config.certificate, nonce] }) ∧
      (∀ k g n, 1 ≤ k → k < 255 → ∀ e, s.fw.log[k - 1]? = some e →
        (g % 2 = 1 → ∃ t, exec (.getMeasurements k g n) s = .next t ∧ t.spdm = signed x [0xE0, k, g, n] 0xE0 [e.digest, nonce]) ∧
        (g % 2 = 0 → ∃ t, exec (.getMeasurements k g n) s = .next t ∧ t.spdm = plain x [0xE0, k, g, n] 0xE0 [e.digest])) ∧
      (∀ k g n, 1 ≤ k → k < 255 → s.fw.log.length < k → refused (.getMeasurements k g n) 1) ∧
      (∀ k n, x.session = none → ∃ t, exec (.keyExchange k n) s = .next t ∧
        t.spdm = signed { x with session := some (k, false) } [0xE4, k, n] 0xE4 [k, nonce]) ∧
      (∀ k n, x.session ≠ none → refused (.keyExchange k n) 4) ∧
      (∀ k m, x.session = some (k, false) → m = Config.finishMac x.transcript →
        exec (.finish m) s = .next (spdm (plain { x with session := some (k, true) } [0xE5, m] 0xE5 []))) ∧
      (∀ k m, x.session = some (k, false) → m ≠ Config.finishMac x.transcript → ∃ t, exec (.finish m) s = .next t ∧ t.spdm.session = none) ∧
      (session → exec .endSession s = .next (spdm (plain { x with session := none } [0xEC] 0xEC []))) ∧ (¬ session → refused .endSession 4)) ∧
    (∀ r tr, x.marks[r]? = some tr → exec (.vendorDefinedRequest r) s =
      .next (spdm { x with answers := x.answers ++ [{ req := 0xFE, body := [r], slh := some (Config.slhSign tr) }] })) ∧
    (∀ r, x.marks[r]? = none → refused (.vendorDefinedRequest r) 1) ∧
    (∀ st k key, session → exec (.ideKeyManagement st k key) s = .next (spdm { x with ideKeys := Sparse.set 0 x.ideKeys (8 * st + k % 8) key })) ∧
    (∀ st k key, ¬ session → refused (.ideKeyManagement st k key) 4)

end Sys2Proof.Claims

/-- R420 to R435: queues, launches, pre-emption and context images. -/
def Obligations.GraphControl : Prop := QueueOps ∧ LaunchOps ∧ PreemptOps

/-- R413, R436 to R440, R462: firmware, boot and the host's requests. -/
def Obligations.FirmwareAndHost : Prop := FirmwareOps ∧ HostRequests

namespace Sys2Proof.Claims

/-! ## Translation and events of the module -/

/-- R108: the key of the table entry of an address at a level, in a table at a base. -/
def entryKey (va lvl tgt base : Nat) : Nat :=
  (if tgt = 1 then 2 ^ 64 else 0) + base +
    8 * (match lvl with | 0 => va / 2 ^ 39 % 2 ^ 8 | 1 => va / 2 ^ 30 % 2 ^ 9 | 2 => va / 2 ^ 21 % 2 ^ 9 | _ => va / 2 ^ 16 % 2 ^ 5)

/-- R108: the bytes of a leaf's page at levels 1 to 3, and of a table at levels 0 to 3. -/
def pageSize (lvl : Nat) : Nat := match lvl with | 1 => 2 ^ 30 | 2 => 2 ^ 21 | _ => 2 ^ 16
def tableSize (lvl : Nat) : Nat := match lvl with | 0 => 2048 | 1 => 4096 | 2 => 4096 | _ => 256

/-- A table entry lies in a memory of the device or the host. -/
def entryLies (tgt key : Nat) : Prop := tgt = 1 ∨ key < 2 ^ 39

/-- R108: an entry is valid, and its reserved bits and TGT are as they must be. -/
def shaped (e : Nat) : Prop := e % 2 = 1 ∧ e / 2 ^ 7 % 2 = 0 ∧ e / 2 ^ 54 % 2 ^ 10 = 0 ∧ e / 2 ^ 52 % 4 < 3

/-- R108: the entry that a level's table holds for an address. -/
def entryAt (s : State) (va lvl tgt base : Nat) : Nat := little s (entryKey va lvl tgt base) 8

/-- R107, R108: the walk of an address from a root reaches, at a level, the table at a base. -/
def reaches (s : State) (va r : Nat) : Nat → Nat → Nat → Prop
  | 0, tgt, base => r % 2 = 1 ∧ tgt = r / 2 % 4 ∧ tgt < 2 ∧ r / 2 ^ 3 % 2 ^ 8 = 0 ∧ r / 2 ^ 52 = 0 ∧ base = r / 2 ^ 11 % 2 ^ 41 * 2 ^ 11
  | lvl + 1, tgt, base => ∃ t b, reaches s va r lvl t b ∧ entryLies t (entryKey va lvl t b) ∧ s.readBad (entryKey va lvl t b) 8 = false ∧
      let e := entryAt s va lvl t b
      shaped e ∧ e / 2 % 2 = 0 ∧ tgt = e / 2 ^ 52 % 4 ∧ tgt < 2 ∧ base = e / 2 ^ 8 % 2 ^ 44 * 256 ∧ base % tableSize (lvl + 1) = 0

/-- R107, R108: the walk from a root: one that is not valid, names no memory or has a reserved bit set ends it with reason 1, 7 or 3; at each
level that it reaches, an entry with an uncorrectable error, one that is not valid or has a reserved bit set, a leaf at level 0, misaligned or
beyond its memory, and a table at level 3, in system space or misaligned end it, with the level; a leaf of 1 GiB, 2 MiB or 64 KiB gives the
page, its permissions and its place. Model's choices: assumption 13. -/
def Walks : Prop :=
  ∀ (s : State) (tag va : Nat) (root : Word), s.wf = true →
    let r := root.toNat
    let fails (n : Nat) (e : Word) : Prop := s.walk tag va root = .fail 0x04 (exact n) e
    (r % 2 = 0 → fails (1 + 256 * 15) root) ∧ (r % 2 = 1 → 2 ≤ r / 2 % 4 → fails (7 + 256 * 15) root) ∧
    (r % 2 = 1 → r / 2 % 4 < 2 → r / 2 ^ 3 % 2 ^ 8 ≠ 0 ∨ r / 2 ^ 52 ≠ 0 → fails (3 + 256 * 15) root) ∧
    ∀ lvl tgt base, lvl < 4 → reaches s va r lvl tgt base →
      let key := entryKey va lvl tgt base
      let e := entryAt s va lvl tgt base
      let pa := e / 2 ^ 8 % 2 ^ 44 * 256
      let goes := e / 2 ^ 52 % 4
      let size := pageSize lvl
      entryLies tgt key → (s.readBad key 8 = true → s.walk tag va root = .ecc lvl key) ∧
        (s.readBad key 8 = false →
          (e % 2 = 0 → fails (2 + 256 * lvl) (exact e)) ∧ (e % 2 = 1 → ¬ shaped e → fails (3 + 256 * lvl) (exact e)) ∧
          (shaped e → e / 2 % 2 = 1 → lvl = 0 → fails 4 (exact e)) ∧
          (shaped e → e / 2 % 2 = 1 → 0 < lvl →
            let beyond : Prop := (goes = 0 ∧ 2 ^ 39 < pa + size) ∨ (goes = 2 ∧ 2 ^ 40 < pa + size)
            (pa % size ≠ 0 → fails (5 + 256 * lvl) (exact e)) ∧ (pa % size = 0 → beyond → fails (6 + 256 * lvl) (exact e)) ∧
            (pa % size = 0 → ¬ beyond → s.walk tag va root = .leaf
              { tag := tag, va := va / size * size, size := size, pa := pa, tgt := goes, rp := e.testBit 2, wp := e.testBit 3,
                xp := e.testBit 4, dirty := e.testBit 6, lvl := lvl, pteTgt := tgt, pteAddr := if tgt = 1 then key - 2 ^ 64 else key, pte := e })) ∧
          (shaped e → e / 2 % 2 = 0 → (lvl = 3 ∨ goes = 2 → fails (4 + 256 * lvl) (exact e)) ∧
            (lvl < 3 → goes ≠ 2 → pa % tableSize (lvl + 1) ≠ 0 → fails (5 + 256 * lvl) (exact e))))

/-- R112 to R114, R418, R466: a walk for an agent whose caches hold no translation of the address puts the leaf into them, its A bit set in
memory; for a write that the leaf permits, its A and D bits; it changes nothing where it fails, but that an uncorrectable error in an entry is
counted, as is one that the D update of a translation held meets there, the entry unchanged (R108); TINV starts while the die is not busy, and removes what it matches as it completes; a write of a
control-core root at level M removes what was translated through it. TINV takes the firmware's stream contexts as of die 0 (assumption 83), and
a root's write removes what they translated through it too (assumption 86). Model's choices: assumptions 14, 38, 83, 86. -/
def TranslationEvents : Prop :=
  ∀ (s : State), s.wf = true →
    (∀ g va, g < 2056 ∨ (16384 ≤ g ∧ g < 18688) → va < 2 ^ 47 →
      let root := s.rootOf g (s.agentRegion g)
      let caches := cachesOf g
      (∀ k ∈ caches, ∀ e ∈ s.tlbAt k, ¬ (e.tag = root.1 ∧ e.va ≤ va ∧ va < e.va + e.size)) →
        (∀ c x y wr, s.walk root.1 va root.2 = .fail c x y → exec (.pageWalk g va wr) s = .next s) ∧
        (∀ lvl k wr, s.walk root.1 va root.2 = .ecc lvl k → ∃ t, exec (.pageWalk g va wr) s = .next t ∧ t = { s with hardErr := t.hardErr, counted := t.counted } ∧
          (k < 2 ^ 39 → Sparse.get 0 t.hardErr (16 * (k / 2 ^ 38) + 6) = min (Sparse.get 0 s.hardErr (16 * (k / 2 ^ 38) + 6) + 1) (2 ^ 64 - 1))) ∧
        ∀ e, s.walk root.1 va root.2 = .leaf e →
          let key := if e.pteTgt = 1 then 2 ^ 64 + e.pteAddr else e.pteAddr
          (e.wp = false ∨ e.dirty = true ∨ (e.tgt = 2 ∧ ¬ (2048 ≤ g ∧ g < 2056)) → exec (.pageWalk g va 1) s = exec (.pageWalk g va 0) s) ∧
          (e.wp = true → e.dirty = false → e.tgt ≠ 2 ∨ (2048 ≤ g ∧ g < 2056) → e.pteTgt = 1 ∨ e.pteAddr < 2 ^ 39 →
            ∃ t, exec (.pageWalk g va 1) s = .next t ∧ t = { s with tlb := t.tlb, mem := t.mem, bad := t.bad } ∧
              little t key 8 = little s key 8 ||| 96 ∧ (∀ a, a < key ∨ key + 8 ≤ a → byteAt t a = byteAt s a) ∧
              ∀ k ∈ caches, { e with pte := e.pte ||| 96, dirty := true } ∈ t.tlbAt k) ∧
          (e.pte / 32 % 2 = 1 → ∃ t, exec (.pageWalk g va 0) s = .next t ∧ t = { s with tlb := t.tlb } ∧ ∀ k ∈ caches, e ∈ t.tlbAt k) ∧
          (e.pte / 32 % 2 = 0 → e.pteTgt = 1 ∨ e.pteAddr < 2 ^ 39 →
            ∃ t, exec (.pageWalk g va 0) s = .next t ∧ t = { s with tlb := t.tlb, mem := t.mem, bad := t.bad } ∧
              little t key 8 = little s key 8 ||| 32 ∧ (∀ a, a < key ∨ key + 8 ≤ a → byteAt t a = byteAt s a) ∧
              ∀ k ∈ caches, { e with pte := e.pte ||| 32 } ∈ t.tlbAt k)) ∧
    (∀ g va e, g < 2056 ∨ (16384 ≤ g ∧ g < 18688) → va < 2 ^ 47 →
      let tag := (s.rootOf g (s.agentRegion g)).1
      (cachesOf g).findSome? (fun k => (s.tlbAt k).find? (fun e => decide (e.tag = tag ∧ e.va ≤ va ∧ va < e.va + e.size))) = some e →
      e.wp = true → e.dirty = false → e.tgt ≠ 2 ∨ (2048 ≤ g ∧ g < 2056) → e.pteTgt = 0 → e.pteAddr < 2 ^ 39 → s.readBad e.pteAddr 8 = true →
      ∃ t, exec (.pageWalk g va 1) s = .next t ∧ t = { s with tlb := t.tlb, hardErr := t.hardErr, counted := t.counted } ∧
        let k := 16 * (e.pteAddr / 2 ^ 38) + 6
        Sparse.get 0 t.hardErr k = min (Sparse.get 0 s.hardErr k + 1) (2 ^ 64 - 1)) ∧
    (∀ die, (hd : die < 2) →
      let starts (i : Instr) (v : Nat) : Prop :=
        (s.tinvBusy[die] = none → exec i s = .next { s with tinvBusy := s.tinvBusy.set die (some (exact v)) }) ∧
        (s.tinvBusy[die] ≠ none → exec i s = .next s)
      (∀ r va, starts (.tinvPage die r va) (r % 128 + va % 2 ^ 47 / 2 ^ 16 * 2 ^ 16)) ∧
      (∀ r, starts (.tinvRegion die r) (r % 128 + 2 ^ 8)) ∧ starts (.tinvAll die) (2 ^ 9) ∧
      (s.tinvBusy[die] = none → exec (.tinvComplete die) s = .next s) ∧
      ∀ v, s.tinvBusy[die] = some v →
        let x := v.toNat
        let page := x / 2 ^ 16 % 2 ^ 31 * 2 ^ 16
        let matched (e : TlbEntry) : Bool := decide (
          (x / 2 ^ 8 % 4 = 0 ∧ e.tag = x % 128 ∧ e.va ≤ page ∧ page < e.va + e.size) ∨ (x / 2 ^ 8 % 4 = 1 ∧ e.tag = x % 128) ∨ 2 ≤ x / 2 ^ 8 % 4)
        let on (k : Nat) : Prop := (k < 2048 ∧ k / 1024 = die) ∨ (4096 ≤ k ∧ k < 4224 ∧ (k - 4096) / 64 = die) ∨
          (8192 ≤ k ∧ k < 8200 ∧ (k - 8192) / 4 = die) ∨ (16384 ≤ k ∧ k < 18688 ∧ (k - 16384) / 1024 % 2 = die)
        let off (k : Nat) : Prop := (k < 2048 ∨ (4096 ≤ k ∧ k < 4224) ∨ (8192 ≤ k ∧ k < 8200) ∨ (16384 ≤ k ∧ k < 18688)) ∧ ¬ on k
        ∃ t, exec (.tinvComplete die) s = .next t ∧ t = { s with tlb := t.tlb, tinvBusy := s.tinvBusy.set die none } ∧
          (∀ k, on k → t.tlbAt k = (s.tlbAt k).filter (fun e => !matched e)) ∧ ∀ k, off k → t.tlbAt k = s.tlbAt k) ∧
    ∀ c m v, m < 2 →
      ((s.coreAt (2048 + c)).lvl = 1 → ∃ t, exec (.ccrootWrite c m v) s = .next t ∧
        t.ccrootm = (if m = 1 then exact v else s.ccrootm) ∧ t.ccroots = (if m = 0 then exact v else s.ccroots) ∧
        (∀ k, t.tlbAt k = (s.tlbAt k).filter (fun e => decide (e.tag ≠ 128 + m))) ∧
        t = { s with ccroots := t.ccroots, ccrootm := t.ccrootm, tlb := t.tlb }) ∧
      ((s.coreAt (2048 + c)).lvl = 0 → exec (.ccrootWrite c m v) s = .next s)

/-- R242, R323, R364, R398: the register that holds the limit of a bounded wait. -/
def limitReg : Instr → Option Nat
  | .wwait _ b _ => some b
  | .wwaito b _ => some b
  | .cwait d _ _ _ _ _ => some d
  | .pull _ _ b _ _ => some b
  | .drain _ _ b _ _ => some b
  | .drainFlush _ _ b _ _ => some b
  | .edwait d _ _ _ _ _ => some d
  | _ => none

/-- Core g may act: its firing runs and its region is not pre-empted, or it is a control core that runs. -/
def mayAct (s : State) (g : Nat) : Prop :=
  (g < 2048 ∧ ∃ f, (s.tile g).firing = some f ∧ f.trapped = false ∧ ((s.tile g).slot f.slot).st = .firing ∧
    (s.region (s.regionOf g)).halted = false) ∨
  (2048 ≤ g ∧ (s.coreAt g).running = true ∧ (s.coreAt g).halted = false)

/-- R149, R185, R242: `rpt` sets RPTST at the start of a pair; a wait past its limit, or one whose time may have come, is carried out again by
its core, and one within its limit is not. Model's choices: assumptions 1, 69. -/
def WaitEvents : Prop :=
  (∀ (s : State) n1 sd sa sb sc, s.wf = true → (s.core.rptst.toNat / 64 % 2 = 0 → ∃ t, exec (.rpt n1 sd sa sb sc) s = .next t ∧ OnlyCore s t ∧
      t.core = { s.core with rptst := 64 }) ∧ (s.core.rptst.toNat / 64 % 2 = 1 → exec (.rpt n1 sd sa sb sc) s = .next s)) ∧
  ∀ (s : State) (g w : Nat) (i : Instr) (x : Guard), s.wf = true → i.wf = true → x.pred < 8 → encode x i = some w → (s.coreAt g).ir = w →
    (∀ r c n, limitReg i = some r → (s.coreAt g).waitFrom = some (c, n) →
      (((s.coreAt g).sreg r).toNat ≤ s.cycle - c → mayAct s g → ∃ t, exec i { s with cur := g } = .next t ∧
        exec (.waitLimit g) s = .next { t with cur := s.cur }) ∧
      (s.cycle - c < ((s.coreAt g).sreg r).toNat → exec (.waitLimit g) s = .next s)) ∧
    (∀ a off c n, i = .sleepc a off ∨ i = .waittick a off → (s.coreAt g).waitFrom = some (c, n) → mayAct s g →
      ∃ t, exec i { s with cur := g } = .next t ∧ exec (.waitTargetReached g) s = .next { t with cur := s.cur }) ∧
    ((s.coreAt g).waitFrom = none → exec (.waitLimit g) s = .next s ∧ exec (.waitTargetReached g) s = .next s)

/-- A control core has started from the active slot (R419, R462), its doorbells and store error kept (R417). -/
def coreStarted (s t : State) (n : Nat) (x : Word) (why : Nat) : Prop :=
  let c := t.coreAt (2048 + n)
  c.pc = exact (0x7FFF800100 + little s (2 ^ 46 + s.fw.active * 2 ^ 23 + 16) 8 : Nat) ∧ c.running = true ∧ c.halted = false ∧ c.lvl = 1 ∧ c.ie = 0 ∧
    c.dbell = (s.coreAt (2048 + n)).dbell ∧ c.storeErr = (s.coreAt (2048 + n)).storeErr ∧ ∀ k, c.sreg k = if k = 10 then x else if k = 11 then exact why else 0

/-- R466: the increments of a counter in the present cycle: those of corrected errors from 32 on. -/
def madeNow (s : State) (k : Nat) : Nat := if (Sparse.get (0, 0) s.counted k).1 = s.cycle then (Sparse.get (0, 0) s.counted k).2 else 0

/-- R4, R193, R353, R415 to R419, R459, R466: writes of registers and reports: a reset at level M of another core starts it afresh, and what it was
staging is staged no more (the model's choice, assumption 91); doorbells, the CXL log, store errors, LIMIT, region roots and a queue's kick
take what is written, and an offset between two kicks takes nothing; a host's write within BASE replaces it from there on (assumption 104); a
write of an error counter stands below the increments of its cycle. Model's choices: assumptions 41, 60, 91, 104. -/
def RegisterEvents : Prop :=
  ∀ (s : State), s.wf = true →
    (∀ n x, n < 8 → x < 8 →
      (n = x ∨ (s.coreAt (2048 + n)).lvl = 0 → exec (.ccresetReset n x) s = .next s) ∧
      (n ≠ x → (s.coreAt (2048 + n)).lvl = 1 → ∃ t, exec (.ccresetReset n x) s = .next t ∧ coreStarted s t x 0 3 ∧
        (∀ k, k ≠ 2048 + x → t.coreAt k = s.coreAt k) ∧
        (∀ a, byteAt t a = if 2 ^ 42 + x * 2 ^ 19 ≤ a ∧ a < 2 ^ 42 + (x + 1) * 2 ^ 19 then 0 else byteAt s a) ∧
        ∀ g, (t.region g).proofSt = if ((s.coreAt (2048 + x)).holds = some g ∧ (s.region g).proofSt = .etching) ∨
            (s.region g).next = some (2048 + x) then .none else (s.region g).proofSt)) ∧
    (∀ x v, x < 8 → ∃ t, exec (.dbellWrite x v) s = .next t ∧ t.coreAt (2048 + x) = { s.coreAt (2048 + x) with dbell := v % 4 } ∧
      (∀ k, k ≠ 2048 + x → t.coreAt k = s.coreAt k) ∧ t = { s with cores := t.cores }) ∧
    exec .cxlErrorLogRead s = .next { s with cxlErr := [] } ∧
    (∀ v, exec (.cxlLinkError v) s = .next { s with cxlErr := s.cxlErr ++ [exact v] }) ∧
    (∀ n a c, n < 8 → ∃ t, exec (.storeErrorReport n a c) s = .next t ∧ (t.coreAt (2048 + n)) = { s.coreAt (2048 + n) with
      storeErr := (s.coreAt (2048 + n)).storeErr.or (some (a, c)) } ∧ (∀ k, k ≠ 2048 + n → t.coreAt k = s.coreAt k) ∧
      t = { s with cores := t.cores }) ∧
    (∀ n v, n < 8 → (s.coreAt (2048 + n)).lvl = 1 → exec (.registerWrite n 0xF40014800008 v) s =
      .next { s with pkg := { s.pkg with plim := v % 2 ^ 12 } }) ∧
    (∀ n v, n < 8 → (s.coreAt (2048 + n)).lvl = 0 → exec (.registerWrite n 0xF40014800008 v) s = .next s) ∧
    (∀ n g v, n < 8 → g < 128 → ∃ t, exec (.registerWrite n (0xF40000200000 + 8 * g) v) s = .next t ∧ t = { s with roots := t.roots } ∧
      Sparse.get 0 t.roots g = exact v ∧ ∀ k, k ≠ g → Sparse.get 0 t.roots k = Sparse.get 0 s.roots k) ∧
    (∀ q v, q < 256 → exec (.registerWrite 8 (0x1000 + 8 * q) v) s = exec (.kick q v) s) ∧
    (∀ o v, 0x1000 ≤ o → o < 0x1800 → o % 8 ≠ 0 → exec (.registerWrite 8 o v) s = .next s) ∧
    (∀ q v, q < 256 → exec (.registerWrite 8 (0x4008 + 64 * q) v) s = exec (.queueCtlWrite q v) s) ∧
    (∀ q k v, q < 256 → k < 8 → (s.queue q).en = false → ∃ t, exec (.registerWrite 8 (0x4000 + 64 * q + k) v) s = .next t ∧
      QueueOnly s t q { s.queue q with
        base := exact ((s.queue q).base.toNat % 2 ^ (8 * k) + v % 2 ^ (64 - 8 * k) * 2 ^ (8 * k) : Nat) }) ∧
    ∀ n d i v, n < 8 → d < 2 → i < 8 → v < 2 ^ 64 → (s.coreAt (2048 + n)).lvl = 1 →
      let at_ := 0xF40014801000 + 256 * d + 8 * i
      let k := 16 * d + i
      let left (m m' : Sparse Nat) (made : Nat) : Prop := ∀ j, Sparse.get 0 m' j = if j = k then min (v + made) (2 ^ 64 - 1) else Sparse.get 0 m j
      (Sparse.get 0 s.softErr k < 2 ^ 64 → ∃ t, exec (.registerWrite n at_ v) s = .next t ∧ t = { s with softErr := t.softErr } ∧
        left s.softErr t.softErr (madeNow s (32 + k))) ∧
      (Sparse.get 0 s.hardErr k < 2 ^ 64 → ∃ t, exec (.registerWrite n (at_ + 0x80) v) s = .next t ∧ t = { s with hardErr := t.hardErr } ∧
        left s.hardErr t.hardErr (madeNow s k))

/-- R415, R466, R468, R226, R373: what comes from outside and is no row of the opcode table: a corrected error is counted and is the die's latest;
an uncorrectable one makes its check word bad, or the word of a register, or is counted where a buffer held it; the host reads PROFILE,
REVISION, FWSTAT, the queues' descriptors and zero, from within a register what lies from there on (assumption 104); a flit leaves a buffer and
its credit is owed. Model's choices: assumptions 1, 95, 104. -/
def Inputs : Prop :=
  ∀ (s : State), s.wf = true →
    (∀ die cls unit off, (hd : die < 2) → cls < 8 → unit < 2 ^ 12 → off < 2 ^ 48 →
      let t := s.input (.softError die cls unit off)
      t = { s with softErr := t.softErr, counted := t.counted, lastSoft := s.lastSoft.set die (exact (cls + unit * 2 ^ 4 + off * 2 ^ 16)) } ∧
        ∀ k, Sparse.get 0 t.softErr k = if k = 16 * die + cls then min (Sparse.get 0 s.softErr k + 1) (2 ^ 64 - 1) else Sparse.get 0 s.softErr k) ∧
    (∀ die, die < 2 →
      let t := s.input (.bufferError die)
      t = { s with hardErr := t.hardErr, counted := t.counted } ∧
        ∀ k, Sparse.get 0 t.hardErr k = if k = 16 * die + 7 then min (Sparse.get 0 s.hardErr k + 1) (2 ^ 64 - 1) else Sparse.get 0 s.hardErr k) ∧
    (∀ key, key < 2 ^ 46 →
      let t := s.input (.hardError key)
      t = { s with bad := t.bad } ∧ ∀ w, w ∈ t.bad ↔ w = checkWord key ∨ w ∈ s.bad) ∧
    (∀ n code, n < 2048 → 32 ≤ code → code < 72 → code ≠ 64 →
      let t := s.input (.registerError n code)
      (∀ x, x ∈ (t.coreAt n).badReg ↔ x = code ∨ x ∈ (s.coreAt n).badReg) ∧ (∀ k, k ≠ n → t.coreAt k = s.coreAt k) ∧
        t = { s with cores := t.cores }) ∧
    (∀ off, ∃ w, s.input (.hostRead off) = { s with hostData := w } ∧ (off = 0 → w = 3) ∧ (off = 8 → w = exact Config.revision) ∧
      (off = 0x10 → w = exact s.fwstat) ∧ (∀ q, q < 256 → off = 0x4000 + 64 * q → w = (s.queue q).base) ∧
      (∀ x, s.input (.hostRead (off / 8 * 8)) = { s with hostData := x } → w = x >>> (8 * (off % 8))) ∧ (0x18 ≤ off → off < 0x4000 ∨ 0x8000 ≤ off → w = 0)) ∧
    ∀ n c, c < 2 →
      let l := s.link n
      let k := (l.inbuf[c]?).getD 0
      (k = 0 → s.input (.bufferFree n c) = s) ∧
      (0 < k → ∃ t, s.input (.bufferFree n c) = t ∧ LinkOnly s t n
        { l with inbuf := l.inbuf.setIfInBounds c (k - 1), returned := l.returned.setIfInBounds c ((l.returned[c]?).getD 0 + 1) })

/-- R419, R446, R458 to R461: a throttle tick moves FSTEP by one, down where the limit is exceeded or the die is hot, up where power is below 95 %
of the limit; 120 °C, a power cycle and a fundamental reset leave only flash, the host's memory and what the host has received, the last
also FWSTAT and the log, what the spec gives no reset value being zero (assumption 6) and the VALID bits and ACTIVE as flash has them (assumption
74); a secondary bus reset starts the control cores anew. Model's choices: assumptions 6, 7, 65, 66, 67, 74. -/
def PowerEvents : Prop :=
  ∀ (s : State), s.wf = true →
    let p := s.pkg
    let f := s.fw
    let kept (t : State) : Prop := ∀ a, byteAt t a = if (2 ^ 46 ≤ a ∧ a < 2 ^ 46 + 2 ^ 24) ∨ 2 ^ 64 ≤ a then byteAt s a else 0
    let fresh (t : State) (fw : Firmware) (pkg : Package) : Prop := kept t ∧ t = { State.reset with
      agenda := s.agenda, freeCtr := s.freeCtr, nextId := s.nextId, msix := s.msix, hdmData := s.hdmData, hostData := s.hostData, mem := t.mem,
      spdm := { answers := s.spdm.answers }, fw := fw, pkg := pkg }
    let start : Firmware := { flash := f.flash, active := f.flash, valid := f.valid }
    (∀ pwr temp, pwr < 2 ^ 12 → temp < 2 ^ 8 → 8 ≤ p.fstep → p.fstep ≤ 16 →
      let limit := max 600 (min 2600 p.plim)
      let beyond := decide (limit < pwr)
      let hot := decide (100 ≤ temp)
      let step := if beyond ∨ hot then max 8 (p.fstep - 1) else if 100 * pwr < 95 * limit then min 16 (p.fstep + 1) else p.fstep
      exec (.throttleTick pwr temp) s = .next { s with pkg := { p with
        fstep := step, pwr := pwr, temp := temp, tpow := decide (step < 16) && (p.tpow || beyond),
        ttherm := decide (step < 16) && (p.ttherm || hot) } }) ∧
    (∀ temp, temp < 120 → exec (.thermalShutdown temp) s = .next s) ∧
    (∀ temp, 120 ≤ temp → ∃ t, exec (.thermalShutdown temp) s = .next t ∧ fresh t start { powered := false }) ∧
    (∃ t, exec .powerCycle s = .next t ∧ fresh t start {}) ∧
    (∃ t, exec .fundamentalReset s = .next t ∧ fresh t
      { f with active := if f.pending then f.flash else f.active, pending := false, rollback := f.rollback || f.pending, wdogValue := 0, wdogCount := 0 }
      { why := if f.pending then 2 else 0 }) ∧
    (s.booted = false → exec .secondaryBusReset s = .next s) ∧
    (s.booted = true → ∃ t, exec .secondaryBusReset s = .next t ∧ (∀ n, n < 8 → coreStarted s t n 0 3) ∧
      (∀ k, k < 2048 → t.coreAt k = s.coreAt k) ∧ t.fw = s.fw ∧ t.pkg = s.pkg)

end Sys2Proof.Claims

/-- R107, R108, R112 to R114, R418: walks and what holds their results. -/
def Obligations.Translation : Prop := Walks ∧ TranslationEvents

/-- R4, R149, R185, R193, R415 to R419, R458 to R461, R466, R468: waits carried out again, register events, inputs, power and resets. -/
def Obligations.SystemEvents : Prop := WaitEvents ∧ RegisterEvents ∧ Inputs ∧ PowerEvents

namespace Sys2Proof.Claims

/-! ## Steps, encodings, reset -/

/-- Core u.cur, whose turn it is in u, executes: its firing runs, is not held by a pre-emption and is within its limit, or it is a control core
that runs and takes no interrupt, none being due or its word trapping first (R196). -/
def executes (u : State) : Prop :=
  (u.cur < 2048 ∧ ∃ f, u.myTile.firing = some f ∧ f.trapped = false ∧ (u.myTile.slot f.slot).st = .firing ∧
    ((u.region (u.regionOf u.cur)).halted = true → u.core.waitOp ≠ none) ∧ u.firingLate f = false) ∨
  (2048 ≤ u.cur ∧ u.core.running = true ∧ u.core.halted = false ∧ (u.takesInterrupt (u.cur - 2048) = false ∨ u.stepTraps = true))

/-- R136: the guard of a word. -/
def taken (c : Core) (w : Nat) : Prop := c.preg (w / 2 ^ 52 % 8) = decide (w / 2 ^ 55 % 2 = 0)

/-- The word of an instruction that is no repeat prefix, of guard g. -/
def guarded (g : Guard) (w : Nat) : Nat := w + (if g.neg then 2 ^ 55 else 0) + g.pred * 2 ^ 52

end Sys2Proof.Claims

/-- R135, R136, R146 to R149, R196, R198: a step in which a core's turn comes fetches the word at its program counter (a firing core from its instruction
memory below offset 0x1_0000); traps where a check of the word fails; else, where the guard is false, only goes on to the next word; waits where
it names a register that an `sfetch` of the firing not yet accepted will write (R160, R320; assumption 9); and is else `exec` of the instruction
decoded, with the word kept. A repeat pair is fetched and checked once, at its start, and each step then runs repeat DONE, its register fields
stepped, and after the last the program counter passes the pair. A control core whose interrupt is due enters it unless its word traps (R196). A firing past its limit takes FIRING_LIMIT (R40). What a step leaves has the drains of the regions noted (R428).
Model's choices: assumptions 9, 10, 39, 69, 71. -/
def Obligations.StepRunsDecoded : Prop :=
  (∀ (s : State) (ts : List Turn) (cycles n : Nat), s.agenda = ⟨cycles, .core n⟩ :: ts → s.pkg.powered = true → n < 2056 →
    let u := { ({ s with agenda := ts }).pass cycles with cur := n }
    let leaves (t : State) : Prop := step s = .next t.noteDrains
    let repeats (x : State) (w iw : Nat) : Prop :=
      let count := w / 2 ^ 46 % 2 ^ 6 + 1
      let done := x.core.rptst.toNat % 64
      (count ≤ done → leaves (x.mapCore (fun c => { c with rptst := 0, pc := c.pc + 16, pair := none }))) ∧
      ∀ i, done < count → decode (stepWord w iw done) = some i → guardOf iw = ⟨false, 0⟩ → x.awaitsPromise (stepWord w iw done) = false →
        ∀ t, exec i (x.mapCore (fun c => { c with ir := w, rep := some count })) = .next t → leaves (t.mapCore (fun c => { c with rep := none }))
    let going (c : Core) : Prop := c.rptst.toNat / 64 % 2 = 1
    (2048 ≤ n → u.core.running = true → u.core.halted = false → u.takesInterrupt (n - 2048) = true → u.stepTraps = false →
      ∀ t, exec (.interruptEntry (n - 2048)) u = .next t → leaves t) ∧
    (executes u → going u.core → ∀ w iw, u.core.pair = some (w, iw) → repeats u w iw) ∧
    (∀ f, n < 2048 → u.myTile.firing = some f → f.trapped = false → (u.myTile.slot f.slot).st = .firing →
      ((u.region (u.regionOf n)).halted = true → u.core.waitOp ≠ none) → u.firingLate f = true → u.core.waitOp = none →
      leaves (u.takeTrap { code := 0x17, i0 := exact (u.myTile.fmax f.slot), i1 := u.core.pc })) ∧
    (executes u → ¬ going u.core ∨ u.core.pair = none →
      (n < 2048 → u.core.pc.toNat < 0x10000 → u.readBad (2 ^ 41 + n * 2 ^ 16 + u.core.pc.toNat) 8 = false →
        fetchAt u.core.pc u = .ok (little u (2 ^ 41 + n * 2 ^ 16 + u.core.pc.toNat) 8) u) ∧
      (∀ t v, fetchAt u.core.pc u = .error (.trap t) v → leaves (v.takeTrap t)) ∧
      ∀ w v, fetchAt u.core.pc u = .ok w v →
        (w / 2 ^ 56 % 2 ^ 8 ≠ 0xE0 →
          (∀ t, v.wordTrap w = some t → leaves (v.takeTrap t)) ∧
          (v.wordTrap w = none →
            let x := v.mapCore (fun c => { c with ir := w, rep := none })
            (¬ taken x.core w → leaves x.advance) ∧ (taken x.core w → v.awaitsPromise w = true → leaves x) ∧
            (taken x.core w → v.awaitsPromise w = false → ∀ i, decode w = some i →
              (∀ t, exec i x = .next t → leaves t) ∧ (∀ f, exec i x = .fault f → step s = .fault f)))) ∧
        (w / 2 ^ 56 % 2 ^ 8 = 0xE0 → v.wordTrap w = none → ∀ iw x, fetchAt (v.core.pc + 8) v = .ok iw x →
          (∀ t, x.pairTrap w iw = some t → leaves (x.takeTrap t)) ∧
          (x.pairTrap w iw = none →
            (going x.core → repeats (x.mapCore (fun c => { c with pair := some (w, iw) })) w iw) ∧
            (¬ going x.core → repeats (x.mapCore (fun c => { c with pair := some (w, iw), ir := w, rep := none, rptst := 64 })) w iw))))) ∧
  (∀ (s : State) (w : Nat), 2048 ≤ s.cur ∨ s.promised s.cur = [] → s.awaitsPromise w = false) ∧
  ∀ (s : State), s.wf = true → s.noteDrains = { s with regions := s.noteDrains.regions } ∧
    ∀ g, s.noteDrains.region g = if (s.region g).started then
      { s.region g with drainAt := if s.drained g then (s.region g).drainAt.or (some s.gtime) else none } else s.region g

/-- R144: a word whose MAJ lies in 0xD0 to 0xDF takes ILLEGAL_OP with reason 12, one of any other reserved MAJ with reason 2. R145: a control
core that meets an instruction of an engine it lacks takes ILLEGAL_OP with reason 13; a firing core that meets one of the control cores, and a
control core at level S that meets one marked M, take PRIV with 1 and 2. R171: a bit-field word with a bit of IMM22[21:13] set takes reason 4
with the lowest such bit, one whose len is 0 or above 64 reason 6 with 6, one whose pos + len exceeds 64 reason 6 with 0; any other is the
instruction. -/
def Obligations.IllegalWords : Prop :=
  (∀ (s : State) (w : Nat), w < 2 ^ 64 →
    let maj := w / 2 ^ 56
    let fn := w / 2 ^ 46 % 64
    (0xD0 ≤ maj → maj ≤ 0xDF → s.wordTrap w = some { code := 1, i0 := exact w, i1 := 12 }) ∧
    (¬ (0xD0 ≤ maj ∧ maj ≤ 0xDF) → maj ∉ [0x00, 0x01, 0x02, 0x03, 0x04, 0x05, 0x10, 0x18, 0x19, 0x1A, 0x20, 0x28, 0x29, 0x30, 0x34, 0x38, 0x40,
        0x41, 0x42, 0x43, 0x44, 0x45, 0x46, 0x47, 0x48, 0x49, 0x4A, 0x70, 0x80, 0x81, 0x82, 0x90, 0xA0, 0xB0, 0xB8, 0xC0, 0xE0] →
      s.wordTrap w = some { code := 1, i0 := exact w, i1 := 2 }) ∧
    ∀ i, decode w = some i →
      (2048 ≤ s.cur → (0x40 ≤ maj ∧ maj ≤ 0x4A) ∨ maj ∈ [0x70, 0x80, 0x81, 0x82, 0x90] ∨ (maj = 0xA0 ∧ fn = 2) ∨ (maj = 0xB8 ∧ fn = 5) →
        s.wordTrap w = some { code := 1, i0 := exact w, i1 := 13 }) ∧
      (s.cur < 2048 → maj = 0xB0 ∨ maj = 0xC0 ∨ (maj = 0x38 ∧ fn = 1) ∨ (maj = 0xB8 ∧ (fn = 6 ∨ fn = 7)) →
        s.wordTrap w = some { code := 2, i0 := exact w, i1 := 1 }) ∧
      (2048 ≤ s.cur → s.core.lvl = 0 → maj = 0xC0 → 7 ≤ fn → fn ≤ 10 → s.wordTrap w = some { code := 2, i0 := exact w, i1 := 2 })) ∧
  ∀ (s : State) (guard fn d a x len pos : Nat), guard < 16 → fn ∈ [6, 7, 8] → d < 32 → a < 32 → x < 2 ^ 9 → len < 2 ^ 7 → pos < 2 ^ 6 →
    let w : Nat := 0x04 * 2 ^ 56 + guard * 2 ^ 52 + fn * 2 ^ 46 + d * 2 ^ 40 + a * 2 ^ 34 + x * 2 ^ 13 + len * 2 ^ 6 + pos
    let trap (reason bit : Nat) : Option Trap := some { code := 1, i0 := exact (w : Nat), i1 := exact reason, i3 := exact bit }
    (∀ k, x % 2 ^ (k + 1) = 2 ^ k → s.wordTrap w = trap 4 (13 + k)) ∧
    (x = 0 → len = 0 ∨ 64 < len → s.wordTrap w = trap 6 6) ∧
    (x = 0 → 1 ≤ len → len ≤ 64 → 64 < pos + len → s.wordTrap w = trap 6 0) ∧
    (x = 0 → 1 ≤ len → pos + len ≤ 64 → s.wordTrap w = none ∧
      decode w = some (if fn = 6 then .bfx d a pos len else if fn = 7 then .bfxn d a pos len else .bfi d a pos len))

/-- R137, R143 and the worked encodings of the chapters; R146, R147: words that name no instruction, with the reason and the bit. -/
def Obligations.DecodedWords : Prop :=
  (∀ p ∈ [((0x10020903FFFFFFFE : Nat), Instr.li 9 0x3FFFFFFFE), (0x0200051870000000, .add 5 6 7),
      (0x02A0051870000000, .add 5 6 7), (0x2801080C01200010, .ldw 8 3 1 2 0 16), (0xE000D50000000000, .rpt 3 1 1 1 0),
      (0x2000DF2400000000, .jrl 31 9 0), (0x0401851800000308, .bfx 5 6 8 12), (0x1800011460000000, .ceq 1 5 6),
      (0x3400001400060000, .fenceAcq 5 6), (0x3400C10830000000, .ojoin 1 2 3), (0x3401000004030000, .owait 4 3),
      (0x2900850C00100000, .stw 5 3 0 1 0 0), (0x3000070C80000008, .aadd 7 3 8 0 0 0 8), (0x3800C0180000000B, .sysw 6 11),
      (0x4200218A30318000, .vfadd 33 34 35 12 3 0), (0x4101258628FC0CC0, .vlop4 37 33 34 35 0xF 0 0xCC0),
      (0x4500018880140002, .vcmp 1 34 8 5 0 0 2), (0x4700611800140000, .vbcast 33 6 5 0 0), (0x4800099000140000, .vredsum 9 36 5 0 0),
      (0x4A00240E30005200, .vaadd 36 3 35 0 0 0 5 1 0), (0x7000211800000800, .wld 33 6 0 0 0 0 0 2 0), (0x7012000000000000, .weos 0)],
    decode p.1 = some p.2) ∧
  (∀ p ∈ [((0x8000051800008008 : Nat), Instr.rld 5 6 0 0 0 2 0 8), (0x800087188000C000, .ramo 7 6 8 0 0 0 3 0 0 0),
      (0x810022300000A000, .ovld 34 12 0 0 0 10 0 0), (0x82000828B0030000, .barr 8 10 11 0 0 3), (0x90008024A200F800, .mld 0 9 10 2 0 0 31),
      (0x9001C000200044A3, .mma 0 0 2 0 0 0 1 4 10 0 1 1), (0xA0004024A1030300, .scopy 9 10 1 0 3 3), (0xA000C024A0070400, .sput 9 10 0 0 7 4),
      (0xA001062CC0030000, .cwait 6 11 12 0 0 3), (0xB000055560000000, .etch 5 21 22 0 0), (0xB0008650A0000001, .drainFlush 6 20 10 0 0),
      (0xB001092000000000, .palloc 9 8 0 0), (0xB80089187000D250, .xamo 9 6 7 0 0 0 3 0 9 10), (0xB800C518B0093008, .edst 5 6 11 0 0 9 12 1),
      (0xB802001C00080000, .xfence 7 0 0 8), (0xC000051870000000, .qpop 5 6 7 0 0), (0xC000851870000000, .launch 5 6 7 0 0),
      (0xC001051800000001, .preemptResume 5 6 0 0), (0xC002855000000001, .fwswitch 5 20 0 0 1)],
    decode p.1 = some p.2) ∧
  ∀ p ∈ [((0 : Nat), (1 : Nat), (0 : Nat)), (0x0303000000000000, 3, 0), (0x0100000000000001, 4, 0), (0x0200211870000000, 6, 40),
      (0x2801080C012C0010, 9, 16), (0xD000000000000000, 12, 0), (0xE010000000000000, 5, 0)],
    decode p.1 = none ∧ wordFault .firing p.1 = some (p.2.1, p.2.2)

/-- R13, R14, R187, R166, R353, R380, R420, R446, R459, R461 to R464: the machine right after reset. Before the boot path no core runs; every byte
of memory reads zero (assumption 7), those of flash too (assumption 8); CYCLE and GTIME are 0; control cores stand at level M with interrupts off; every plate is FREE,
every queue off, no key is live, no region holds plates; LIMIT is 2,600 W and FSTEP 16; the hub has no number; each fault record bears LEVEL 6.
Registers whose reset value the spec does not give are 0 (assumption 6). The state is in canonical form. -/
def Obligations.ResetState : Prop :=
  let s := State.reset
  s.wf = true ∧ s.cycle = 0 ∧ s.gtime = 0 ∧ s.booted = false ∧ (∀ a, byteAt s a = 0) ∧ s.bad = [] ∧
  (∀ n, (s.coreAt n).running = false ∧ (s.coreAt n).lvl = 1 ∧ (s.coreAt n).ie = 0 ∧ (s.coreAt n).inh = 0 ∧ (s.coreAt n).pc = 0 ∧
    ∀ k, (s.coreAt n).sreg k = 0) ∧
  (∀ p, (s.tile p).firing = none ∧ (s.tile p).record[7] = 0x600 ∧ (∀ a, ((s.tile p).slot a).st = .unused) ∧
    ∀ d, (s.desc (descKey p d)).kind = 0) ∧
  (∀ g, (s.region g).live = false ∧ Sparse.get 0 s.roots g = 0) ∧ (∀ pl, (s.plate pl).st = 0 ∧ (s.plate pl).fence = false ∧ (s.plate pl).pfault = false) ∧
  (∀ q, (s.queue q).en = false ∧ (s.queue q).err = false ∧ (s.queue q).stopped = false) ∧
  s.hub.nvalid = false ∧ s.hub.cto = 4000 ∧ s.hub.rto = 20 ∧ (∀ n, (s.conn n).st = 0 ∧ (s.link n).up = false) ∧
  (∀ k, (Sparse.get ({} : Key) s.hub.keys k).live = false) ∧ s.pkg.fstep = 16 ∧ s.pkg.plim = 2600 ∧ s.fw.pending = false ∧ s.fw.log = []

/-- R135 to R139, R143, R146: decoding the word of a well-formed instruction, under any guard, gives the instruction and the guard back (a
prefix bears none); and a word that decodes is the word of the well-formed instruction it decodes to. -/
def Obligations.DecodeEncode : Prop :=
  (∀ (i : Instr) (w : Nat) (g : Guard), i.wf = true → i.word = some w → g.pred < 8 → (w / 2 ^ 56 = 0xE0 → g = ⟨false, 0⟩) →
    guarded g w < 2 ^ 64 ∧ decode (guarded g w) = some i ∧ guardOf (guarded g w) = g) ∧
  ∀ (i : Instr) (w : Nat), w < 2 ^ 64 → decode w = some i → i.wf = true ∧ encode (guardOf w) i = some w

/-- An invariant of the model's own (the spec stores no lists): memory and every table keep their canonical form, so that equal machines are
equal states, in every step, from every state that has it, whatever the instruction or event. -/
def Obligations.CanonicalForm : Prop := ∀ (s t : State), s.wf = true → step s = .next t → t.wf = true
end

