-- ==== Sys2Proof/Laws/Sparse.lean ====
section
/-! SUPPORT. Laws of the sparse maps: reading after writing, and the canonical form kept by every operation. -/

namespace Sys2Proof.Machine

theorem Sparse.okFrom_mono {α : Type} [DecidableEq α] {d : α} {b b' : Nat} {m : Sparse α} (h : b ≤ b')
    (hm : Sparse.okFrom d b' m = true) : Sparse.okFrom d b m = true := by
  cases m with
  | nil => rfl
  | cons e m => simp only [Sparse.okFrom, Bool.and_eq_true, decide_eq_true_eq] at hm ⊢; exact ⟨⟨by omega, hm.1.2⟩, hm.2⟩

theorem Sparse.get_below {α : Type} [DecidableEq α] {d : α} {b i : Nat} {m : Sparse α} (hm : Sparse.okFrom d b m = true)
    (h : i < b) : Sparse.get d m i = d := by
  cases m with
  | nil => rfl
  | cons e m =>
    simp only [Sparse.okFrom, Bool.and_eq_true, decide_eq_true_eq] at hm
    simp [Sparse.get, show i ≠ e.1 by omega, show i < e.1 by omega]

theorem Sparse.insert_okFrom {α : Type} [DecidableEq α] {d : α} {x : α} (hx : x ≠ d) {i : Nat} (m : Sparse α) :
    ∀ {b : Nat}, b ≤ i → Sparse.okFrom d b m = true → Sparse.okFrom d b (Sparse.insert m i x) = true := by
  induction m with
  | nil => intro b hb _; simp [Sparse.insert, Sparse.okFrom, hb, hx]
  | cons e m ih =>
    intro b hb hm
    simp only [Sparse.okFrom, Bool.and_eq_true, decide_eq_true_eq] at hm
    obtain ⟨⟨h1, h2⟩, h3⟩ := hm
    unfold Sparse.insert
    split
    · simp only [Sparse.okFrom, Bool.and_eq_true, decide_eq_true_eq]; exact ⟨⟨hb, hx⟩, ⟨by omega, h2⟩, h3⟩
    · split
      · subst_vars; simp only [Sparse.okFrom, Bool.and_eq_true, decide_eq_true_eq]; exact ⟨⟨h1, hx⟩, h3⟩
      · simp only [Sparse.okFrom, Bool.and_eq_true, decide_eq_true_eq]; exact ⟨⟨h1, h2⟩, ih (by omega) h3⟩

theorem Sparse.erase_okFrom {α : Type} [DecidableEq α] {d : α} {i : Nat} (m : Sparse α) :
    ∀ {b : Nat}, Sparse.okFrom d b m = true → Sparse.okFrom d b (Sparse.erase m i) = true := by
  induction m with
  | nil => intro b _; rfl
  | cons e m ih =>
    intro b hm
    have hm' := hm
    simp only [Sparse.okFrom, Bool.and_eq_true, decide_eq_true_eq] at hm
    obtain ⟨⟨h1, h2⟩, h3⟩ := hm
    unfold Sparse.erase
    split
    · exact hm'
    · split
      · exact Sparse.okFrom_mono (by omega) h3
      · simp only [Sparse.okFrom, Bool.and_eq_true, decide_eq_true_eq]; exact ⟨⟨h1, h2⟩, ih h3⟩

/-- Every write keeps the canonical form. -/
theorem Sparse.set_ok {α : Type} [DecidableEq α] {d x : α} {i : Nat} {m : Sparse α} (h : Sparse.ok d m = true) :
    Sparse.ok d (Sparse.set d m i x) = true := by
  unfold Sparse.set
  split
  · exact Sparse.erase_okFrom m h
  · exact Sparse.insert_okFrom ‹_› m (Nat.zero_le _) h

theorem Sparse.filter_okFrom {α : Type} [DecidableEq α] {d : α} (p : Nat × α → Bool) (m : Sparse α) :
    ∀ {b : Nat}, Sparse.okFrom d b m = true → Sparse.okFrom d b (m.filter p) = true := by
  induction m with
  | nil => intro b _; rfl
  | cons e m ih =>
    intro b hm
    simp only [Sparse.okFrom, Bool.and_eq_true, decide_eq_true_eq] at hm
    obtain ⟨⟨h1, h2⟩, h3⟩ := hm
    rw [List.filter_cons]
    split
    · simp only [Sparse.okFrom, Bool.and_eq_true, decide_eq_true_eq]; exact ⟨⟨h1, h2⟩, ih h3⟩
    · exact ih (Sparse.okFrom_mono (by omega) h3)

/-- Clearing a range keeps the canonical form. -/
theorem Sparse.clear_ok {α : Type} [DecidableEq α] {d : α} {m : Sparse α} (lo n : Nat) (h : Sparse.ok d m = true) :
    Sparse.ok d (Sparse.clear m lo n) = true := Sparse.filter_okFrom _ m h

/-- Writing a number byte by byte keeps the canonical form. -/
theorem Sparse.setBytes_ok (n : Nat) : ∀ {m : Sparse Byte} {i v : Nat}, Sparse.ok 0 m = true →
    Sparse.ok 0 (Sparse.setBytes m i n v) = true := by
  induction n with
  | zero => intro m i v h; exact h
  | succ n ih => intro m i v h; exact ih (Sparse.set_ok h)

theorem Sparse.get_insert {α : Type} (d x : α) (m : Sparse α) (i j : Nat) (h : i ≠ j) :
    Sparse.get d (Sparse.insert m i x) j = Sparse.get d m j := by
  induction m with
  | nil => simp only [Sparse.insert, Sparse.get]; split <;> [omega; split <;> rfl]
  | cons e m ih =>
    unfold Sparse.insert
    split
    · simp only [Sparse.get]; split_ifs <;> first | rfl | omega
    · split
      · subst_vars; simp only [Sparse.get]; split_ifs <;> first | rfl | omega
      · simp only [Sparse.get, ih]

theorem Sparse.get_insert_self {α : Type} (d x : α) (m : Sparse α) (i : Nat) : Sparse.get d (Sparse.insert m i x) i = x := by
  induction m with
  | nil => simp [Sparse.insert, Sparse.get]
  | cons e m ih =>
    unfold Sparse.insert
    split
    · simp [Sparse.get]
    · split
      · simp [Sparse.get]
      · rw [Sparse.get]; simp [show i ≠ e.1 by omega, show ¬ i < e.1 by omega, ih]

theorem Sparse.risingFrom_mono {α : Type} {b b' : Nat} {m : Sparse α} (h : b ≤ b') (hm : Sparse.risingFrom b' m = true) :
    Sparse.risingFrom b m = true := by
  cases m with
  | nil => rfl
  | cons e m => simp only [Sparse.risingFrom, Bool.and_eq_true, decide_eq_true_eq] at hm ⊢; exact ⟨by omega, hm.2⟩

/-- A map in canonical form has rising keys. -/
theorem Sparse.rising_of_okFrom {α : Type} [DecidableEq α] {d : α} (m : Sparse α) : ∀ {b : Nat}, Sparse.okFrom d b m = true →
    Sparse.risingFrom b m = true := by
  induction m with
  | nil => intros; rfl
  | cons e m ih =>
    intro b hm
    simp only [Sparse.okFrom, Sparse.risingFrom, Bool.and_eq_true, decide_eq_true_eq] at hm ⊢
    exact ⟨hm.1.1, ih hm.2⟩

theorem Sparse.rising_of_ok {α : Type} [DecidableEq α] {d : α} {m : Sparse α} (h : Sparse.ok d m = true) : Sparse.rising m = true :=
  Sparse.rising_of_okFrom m h

theorem Sparse.get_under {α : Type} {d : α} {b i : Nat} {m : Sparse α} (hm : Sparse.risingFrom b m = true) (h : i < b) :
    Sparse.get d m i = d := by
  cases m with
  | nil => rfl
  | cons e m =>
    simp only [Sparse.risingFrom, Bool.and_eq_true, decide_eq_true_eq] at hm
    simp [Sparse.get, show i ≠ e.1 by omega, show i < e.1 by omega]

theorem Sparse.insert_risingFrom {α : Type} {x : α} {i : Nat} (m : Sparse α) :
    ∀ {b : Nat}, b ≤ i → Sparse.risingFrom b m = true → Sparse.risingFrom b (Sparse.insert m i x) = true := by
  induction m with
  | nil => intro b hb _; simp [Sparse.insert, Sparse.risingFrom, hb]
  | cons e m ih =>
    intro b hb hm
    simp only [Sparse.risingFrom, Bool.and_eq_true, decide_eq_true_eq] at hm
    unfold Sparse.insert
    split
    · simp only [Sparse.risingFrom, Bool.and_eq_true, decide_eq_true_eq]; exact ⟨hb, by omega, hm.2⟩
    · split
      · subst_vars; simp only [Sparse.risingFrom, Bool.and_eq_true, decide_eq_true_eq]; exact hm
      · simp only [Sparse.risingFrom, Bool.and_eq_true, decide_eq_true_eq]; exact ⟨hm.1, ih (by omega) hm.2⟩

theorem Sparse.erase_risingFrom {α : Type} {i : Nat} (m : Sparse α) :
    ∀ {b : Nat}, Sparse.risingFrom b m = true → Sparse.risingFrom b (Sparse.erase m i) = true := by
  induction m with
  | nil => intro b _; rfl
  | cons e m ih =>
    intro b hm
    have hm' := hm
    simp only [Sparse.risingFrom, Bool.and_eq_true, decide_eq_true_eq] at hm
    unfold Sparse.erase
    split
    · exact hm'
    · split
      · exact Sparse.risingFrom_mono (by omega) hm.2
      · simp only [Sparse.risingFrom, Bool.and_eq_true, decide_eq_true_eq]; exact ⟨hm.1, ih hm.2⟩

/-- Every write keeps the keys rising. -/
theorem Sparse.set_rising {α : Type} [DecidableEq α] {d x : α} {i : Nat} {m : Sparse α} (h : Sparse.rising m = true) :
    Sparse.rising (Sparse.set d m i x) = true := by
  unfold Sparse.set
  split
  · exact Sparse.erase_risingFrom m h
  · exact Sparse.insert_risingFrom m (Nat.zero_le _) h

theorem Sparse.filter_risingFrom {α : Type} (p : Nat × α → Bool) (m : Sparse α) :
    ∀ {b : Nat}, Sparse.risingFrom b m = true → Sparse.risingFrom b (m.filter p) = true := by
  induction m with
  | nil => intro b _; rfl
  | cons e m ih =>
    intro b hm
    simp only [Sparse.risingFrom, Bool.and_eq_true, decide_eq_true_eq] at hm
    rw [List.filter_cons]
    split
    · simp only [Sparse.risingFrom, Bool.and_eq_true, decide_eq_true_eq]; exact ⟨hm.1, ih hm.2⟩
    · exact ih (Sparse.risingFrom_mono (by omega) hm.2)

theorem Sparse.filter_rising {α : Type} (p : Nat × α → Bool) {m : Sparse α} (h : Sparse.rising m = true) :
    Sparse.rising (m.filter p) = true := Sparse.filter_risingFrom p m h

theorem Sparse.map_risingFrom {α β : Type} (f : Nat × α → β) (m : Sparse α) :
    ∀ {b : Nat}, Sparse.risingFrom b m = true → Sparse.risingFrom b (m.map (fun e => (e.1, f e))) = true := by
  induction m with
  | nil => intro b _; rfl
  | cons e m ih =>
    intro b hm
    simp only [Sparse.risingFrom, Bool.and_eq_true, decide_eq_true_eq] at hm
    simp only [List.map_cons, Sparse.risingFrom, Bool.and_eq_true, decide_eq_true_eq]
    exact ⟨hm.1, ih hm.2⟩

/-- A change of every value keeps the keys rising. -/
theorem Sparse.map_rising {α β : Type} (f : Nat × α → β) {m : Sparse α} (h : Sparse.rising m = true) :
    Sparse.rising (m.map (fun e => (e.1, f e))) = true := Sparse.map_risingFrom f m h

theorem Sparse.get_erase {α : Type} (d : α) (m : Sparse α) (i j : Nat) (h : i ≠ j) : ∀ {b : Nat},
    Sparse.risingFrom b m = true → Sparse.get d (Sparse.erase m i) j = Sparse.get d m j := by
  induction m with
  | nil => intros; rfl
  | cons e m ih =>
    intro b hm
    simp only [Sparse.risingFrom, Bool.and_eq_true, decide_eq_true_eq] at hm
    unfold Sparse.erase
    split
    · rfl
    · split
      · subst_vars
        simp only [Sparse.get]
        split_ifs
        · omega
        · exact Sparse.get_under hm.2 (by omega)
        · rfl
      · simp only [Sparse.get, ih hm.2]

theorem Sparse.get_erase_self {α : Type} (d : α) (m : Sparse α) (i : Nat) : ∀ {b : Nat},
    Sparse.risingFrom b m = true → Sparse.get d (Sparse.erase m i) i = d := by
  induction m with
  | nil => intros; rfl
  | cons e m ih =>
    intro b hm
    simp only [Sparse.risingFrom, Bool.and_eq_true, decide_eq_true_eq] at hm
    unfold Sparse.erase
    split
    · simp [Sparse.get, show i ≠ e.1 by omega, *]
    · split
      · subst_vars; exact Sparse.get_under hm.2 (by omega)
      · rw [Sparse.get]; simp [show i ≠ e.1 by omega, show ¬ i < e.1 by omega, ih hm.2]

/-- A read after a write to the same key gives the value written. -/
theorem Sparse.get_set_self {α : Type} [DecidableEq α] {d x : α} {i : Nat} {m : Sparse α} (h : Sparse.rising m = true) :
    Sparse.get d (Sparse.set d m i x) i = x := by
  unfold Sparse.set
  split
  · subst_vars; exact Sparse.get_erase_self _ m i h
  · exact Sparse.get_insert_self d x m i

/-- A write leaves every other key alone. -/
theorem Sparse.get_set_ne {α : Type} [DecidableEq α] {d x : α} {i j : Nat} {m : Sparse α} (h : Sparse.rising m = true) (hij : i ≠ j) :
    Sparse.get d (Sparse.set d m i x) j = Sparse.get d m j := by
  unfold Sparse.set
  split
  · exact Sparse.get_erase d m i j hij h
  · exact Sparse.get_insert d x m i j hij

/-- A read after a write. -/
theorem Sparse.get_set {α : Type} [DecidableEq α] {d x : α} {i j : Nat} {m : Sparse α} (h : Sparse.rising m = true) :
    Sparse.get d (Sparse.set d m i x) j = if i = j then x else Sparse.get d m j := by
  split
  · subst_vars; exact Sparse.get_set_self h
  · exact Sparse.get_set_ne h ‹_›

/-- A multi-byte write leaves every key outside its bytes alone. -/
theorem Sparse.get_setBytes_ne (n : Nat) : ∀ {m : Sparse Byte} {i v j : Nat}, Sparse.ok 0 m = true → (j < i ∨ i + n ≤ j) →
    Sparse.get 0 (Sparse.setBytes m i n v) j = Sparse.get 0 m j := by
  induction n with
  | zero => intros; rfl
  | succ n ih =>
    intro m i v j h hj
    rw [Sparse.setBytes, ih (Sparse.set_ok h) (by omega), Sparse.get_set_ne (Sparse.rising_of_ok h) (by omega)]

/-- Reading back what a multi-byte write stored. -/
theorem Sparse.bytes_setBytes (n : Nat) : ∀ {m : Sparse Byte} {i v : Nat}, Sparse.ok 0 m = true →
    Sparse.bytes (Sparse.setBytes m i n v) i n = v % 256 ^ n := by
  induction n with
  | zero => intros; simp [Sparse.bytes, Nat.mod_one]
  | succ n ih =>
    intro m i v h
    rw [Sparse.bytes, Sparse.setBytes, ih (Sparse.set_ok h), Sparse.get_setBytes_ne n (Sparse.set_ok h) (by omega), Sparse.get_set_self (Sparse.rising_of_ok h),
      BitVec.toNat_ofNat, show 256 ^ (n + 1) = 256 * 256 ^ n by ring, Nat.mod_mul]

end Sys2Proof.Machine
end

