-- ==== Sys2Proof/Laws/Memory.lean ====
section
/-! SUPPORT. Laws of memory: every operation keeps its canonical form, a read after a write, and what a write leaves alone. -/

namespace Sys2Proof.Machine

/-! ## The canonical form -/

theorem State.wr_wf {s : State} {k n v : Nat} (h : Memory.wf s.mem = true) : Memory.wf (s.wr k n v).mem = true := Sparse.setBytes_ok n h

theorem State.zero_wf {s : State} {k n : Nat} (h : Memory.wf s.mem = true) : Memory.wf (s.zero k n).mem = true := Sparse.clear_ok k n h

theorem State.wrList_wf (bs : List Byte) : ∀ {s : State} {k : Nat}, Memory.wf s.mem = true → Memory.wf (s.wrList k bs).mem = true := by
  induction bs with
  | nil => intro s k h; exact h
  | cons b bs ih => intro s k h; exact ih (State.wr_wf h)

theorem State.wrBlock_wf {s : State} {k : Nat} {bs : List Byte} (h : Memory.wf s.mem = true) : Memory.wf (s.wrBlock k bs).mem = true :=
  State.wrList_wf bs h

theorem State.copyMem_wf {s : State} {src dst n : Nat} (h : Memory.wf s.mem = true) : Memory.wf (s.copyMem src dst n).mem = true :=
  State.wrList_wf _ (State.zero_wf h)

theorem State.orPte_wf {s : State} {tgt pa mask : Nat} (h : Memory.wf s.mem = true) : Memory.wf (s.orPte tgt pa mask).2.mem = true := by
  unfold State.orPte
  split
  · exact h
  · exact State.wr_wf h

/-! ## Reads after writes -/

/-- A read of the bytes just written gives the number written, as many bytes of it. -/
theorem State.rd_wr {s : State} {k n v : Nat} (h : Memory.wf s.mem = true) : (s.wr k n v).rd k n = v % 256 ^ n := Sparse.bytes_setBytes n h

/-- A write leaves every byte outside it alone. -/
theorem State.get_wr {s : State} {k n v a : Nat} (h : Memory.wf s.mem = true) (ha : a < k ∨ k + n ≤ a) :
    Sparse.get 0 (s.wr k n v).mem a = Sparse.get 0 s.mem a := Sparse.get_setBytes_ne n h ha

theorem Sparse.bytes_congr (n : Nat) : ∀ {m m' : Sparse Byte} {i : Nat}, (∀ j, i ≤ j → j < i + n → Sparse.get 0 m j = Sparse.get 0 m' j) →
    Sparse.bytes m i n = Sparse.bytes m' i n := by
  induction n with
  | zero => intros; rfl
  | succ n ih =>
    intro m m' i h
    rw [Sparse.bytes, Sparse.bytes, h i (Nat.le_refl i) (by omega), ih (fun j hj hn => h j (by omega) (by omega))]

/-- A read apart from a write gives what it gave before. -/
theorem State.rd_wr_apart {s : State} {k n v a m : Nat} (h : Memory.wf s.mem = true) (ha : a + m ≤ k ∨ k + n ≤ a) :
    (s.wr k n v).rd a m = s.rd a m :=
  Sparse.bytes_congr m (fun _ _ _ => State.get_wr h (by omega))

theorem State.get_wrList (bs : List Byte) : ∀ {s : State} {k a : Nat}, Memory.wf s.mem = true → (a < k ∨ k + bs.length ≤ a) →
    Sparse.get 0 (s.wrList k bs).mem a = Sparse.get 0 s.mem a := by
  induction bs with
  | nil => intros; rfl
  | cons b bs ih =>
    intro s k a h ha
    rw [List.length_cons] at ha
    rw [State.wrList, ih (State.wr_wf h) (by omega), State.get_wr h (by omega)]

theorem Sparse.get_filter {α : Type} {d : α} (p : Nat → Bool) (m : Sparse α) (i : Nat) : ∀ {b : Nat}, Sparse.risingFrom b m = true →
    Sparse.get d (m.filter (fun e => p e.1)) i = if p i then Sparse.get d m i else d := by
  induction m with
  | nil => intros; simp [Sparse.get]
  | cons e m ih =>
    intro b hm
    simp only [Sparse.risingFrom, Bool.and_eq_true, decide_eq_true_eq] at hm
    by_cases he : p e.1 <;> simp only [List.filter_cons, he, if_true, if_false, Bool.false_eq_true]
    · simp only [Sparse.get, ih hm.2]
      split_ifs <;> simp_all
    · rw [ih hm.2]
      by_cases hi : i = e.1
      · subst hi; simp [he]
      · by_cases hl : i < e.1
        · simp [Sparse.get, hi, hl, Sparse.get_under hm.2 (show i < e.1 + 1 by omega)]
        · simp [Sparse.get, hi, hl]

/-- A zeroed range reads zero, and every other byte as before. -/
theorem State.get_zero {s : State} {k n a : Nat} (h : Memory.wf s.mem = true) :
    Sparse.get 0 (s.zero k n).mem a = if k ≤ a ∧ a < k + n then 0 else Sparse.get 0 s.mem a := by
  rw [State.zero, Sparse.clear, Sparse.get_filter (fun j => decide (j < k) || decide (k + n ≤ j)) s.mem a (Sparse.rising_of_ok h)]
  simp only [Bool.or_eq_true, decide_eq_true_eq]
  split_ifs <;> first | rfl | omega

/-! ## Frames -/

theorem State.wrList_frame (bs : List Byte) : ∀ (s : State) (k : Nat),
    s.wrList k bs = { s with mem := (s.wrList k bs).mem, bad := (s.wrList k bs).bad } := by
  induction bs with
  | nil => intros; rfl
  | cons b bs ih => intro s k; conv_lhs => rw [State.wrList, ih]
                    rfl

theorem State.wrBlock_frame (s : State) (k : Nat) (bs : List Byte) :
    s.wrBlock k bs = { s with mem := (s.wrBlock k bs).mem, bad := (s.wrBlock k bs).bad } := rfl

theorem State.copyMem_frame (s : State) (src dst n : Nat) :
    s.copyMem src dst n = { s with mem := (s.copyMem src dst n).mem, bad := (s.copyMem src dst n).bad } := rfl

theorem State.orPte_frame (s : State) (tgt pa mask : Nat) :
    (s.orPte tgt pa mask).2 = { s with mem := (s.orPte tgt pa mask).2.mem, bad := (s.orPte tgt pa mask).2.bad } := by
  unfold State.orPte; split <;> rfl

theorem State.wr_tablesRise {s : State} {k n v : Nat} (h : s.tablesRise = true) : (s.wr k n v).tablesRise = true := h

theorem State.wr_stateWf {s : State} {k n v : Nat} (h : s.wf = true) : (s.wr k n v).wf = true := by
  simp only [State.wf, Bool.and_eq_true] at h ⊢
  exact ⟨State.wr_wf h.1, h.2⟩

theorem State.wrList_stateWf {s : State} {k : Nat} {bs : List Byte} (h : s.wf = true) : (s.wrList k bs).wf = true := by
  simp only [State.wf, Bool.and_eq_true] at h ⊢
  refine ⟨State.wrList_wf bs h.1, ?_⟩
  rw [State.wrList_frame]; exact h.2

end Sys2Proof.Machine
end

