-- ==== Sys2Proof/Laws/State.lean ====
section
/-! SUPPORT. One lemma per field per update of the state: a field that an update does not write is unchanged. -/

namespace Sys2Proof.Machine

/-! ## `setCore` -/

@[simp] theorem State.setCore_agenda (s : State) (c : Core) : (s.setCore c).agenda = s.agenda := rfl
@[simp] theorem State.setCore_cur (s : State) (c : Core) : (s.setCore c).cur = s.cur := rfl
@[simp] theorem State.setCore_freeCtr (s : State) (c : Core) : (s.setCore c).freeCtr = s.freeCtr := rfl
@[simp] theorem State.setCore_nextId (s : State) (c : Core) : (s.setCore c).nextId = s.nextId := rfl
@[simp] theorem State.setCore_live (s : State) (c : Core) : (s.setCore c).live = s.live := rfl
@[simp] theorem State.setCore_cycle (s : State) (c : Core) : (s.setCore c).cycle = s.cycle := rfl
@[simp] theorem State.setCore_gtime (s : State) (c : Core) : (s.setCore c).gtime = s.gtime := rfl
@[simp] theorem State.setCore_booted (s : State) (c : Core) : (s.setCore c).booted = s.booted := rfl
@[simp] theorem State.setCore_seedReg (s : State) (c : Core) : (s.setCore c).seedReg = s.seedReg := rfl
@[simp] theorem State.setCore_mem (s : State) (c : Core) : (s.setCore c).mem = s.mem := rfl
@[simp] theorem State.setCore_bad (s : State) (c : Core) : (s.setCore c).bad = s.bad := rfl
@[simp] theorem State.setCore_tiles (s : State) (c : Core) : (s.setCore c).tiles = s.tiles := rfl
@[simp] theorem State.setCore_descs (s : State) (c : Core) : (s.setCore c).descs = s.descs := rfl
@[simp] theorem State.setCore_queued (s : State) (c : Core) : (s.setCore c).queued = s.queued := rfl
@[simp] theorem State.setCore_entered (s : State) (c : Core) : (s.setCore c).entered = s.entered := rfl
@[simp] theorem State.setCore_flight (s : State) (c : Core) : (s.setCore c).flight = s.flight := rfl
@[simp] theorem State.setCore_regions (s : State) (c : Core) : (s.setCore c).regions = s.regions := rfl
@[simp] theorem State.setCore_roots (s : State) (c : Core) : (s.setCore c).roots = s.roots := rfl
@[simp] theorem State.setCore_ccroots (s : State) (c : Core) : (s.setCore c).ccroots = s.ccroots := rfl
@[simp] theorem State.setCore_ccrootm (s : State) (c : Core) : (s.setCore c).ccrootm = s.ccrootm := rfl
@[simp] theorem State.setCore_tlb (s : State) (c : Core) : (s.setCore c).tlb = s.tlb := rfl
@[simp] theorem State.setCore_netOps (s : State) (c : Core) : (s.setCore c).netOps = s.netOps := rfl
@[simp] theorem State.setCore_mats (s : State) (c : Core) : (s.setCore c).mats = s.mats := rfl
@[simp] theorem State.setCore_ctxs (s : State) (c : Core) : (s.setCore c).ctxs = s.ctxs := rfl
@[simp] theorem State.setCore_plates (s : State) (c : Core) : (s.setCore c).plates = s.plates := rfl
@[simp] theorem State.setCore_groups (s : State) (c : Core) : (s.setCore c).groups = s.groups := rfl
@[simp] theorem State.setCore_queues (s : State) (c : Core) : (s.setCore c).queues = s.queues := rfl
@[simp] theorem State.setCore_pops (s : State) (c : Core) : (s.setCore c).pops = s.pops := rfl
@[simp] theorem State.setCore_admission (s : State) (c : Core) : (s.setCore c).admission = s.admission := rfl
@[simp] theorem State.setCore_cancels (s : State) (c : Core) : (s.setCore c).cancels = s.cancels := rfl
@[simp] theorem State.setCore_msix (s : State) (c : Core) : (s.setCore c).msix = s.msix := rfl
@[simp] theorem State.setCore_fw (s : State) (c : Core) : (s.setCore c).fw = s.fw := rfl
@[simp] theorem State.setCore_pkg (s : State) (c : Core) : (s.setCore c).pkg = s.pkg := rfl
@[simp] theorem State.setCore_hub (s : State) (c : Core) : (s.setCore c).hub = s.hub := rfl
@[simp] theorem State.setCore_spdm (s : State) (c : Core) : (s.setCore c).spdm = s.spdm := rfl
@[simp] theorem State.setCore_cxlErr (s : State) (c : Core) : (s.setCore c).cxlErr = s.cxlErr := rfl
@[simp] theorem State.setCore_hdmData (s : State) (c : Core) : (s.setCore c).hdmData = s.hdmData := rfl
@[simp] theorem State.setCore_hostData (s : State) (c : Core) : (s.setCore c).hostData = s.hostData := rfl
@[simp] theorem State.setCore_refClock (s : State) (c : Core) : (s.setCore c).refClock = s.refClock := rfl
@[simp] theorem State.setCore_subNs (s : State) (c : Core) : (s.setCore c).subNs = s.subNs := rfl
@[simp] theorem State.setCore_subG (s : State) (c : Core) : (s.setCore c).subG = s.subG := rfl
@[simp] theorem State.setCore_hardErr (s : State) (c : Core) : (s.setCore c).hardErr = s.hardErr := rfl
@[simp] theorem State.setCore_softErr (s : State) (c : Core) : (s.setCore c).softErr = s.softErr := rfl
@[simp] theorem State.setCore_counted (s : State) (c : Core) : (s.setCore c).counted = s.counted := rfl
@[simp] theorem State.setCore_lastSoft (s : State) (c : Core) : (s.setCore c).lastSoft = s.lastSoft := rfl
@[simp] theorem State.setCore_tinvBusy (s : State) (c : Core) : (s.setCore c).tinvBusy = s.tinvBusy := rfl
@[simp] theorem State.setCore_tinvErr (s : State) (c : Core) : (s.setCore c).tinvErr = s.tinvErr := rfl

/-! ## `setCoreAt` -/

@[simp] theorem State.setCoreAt_agenda (s : State) (n : Nat) (c : Core) : (s.setCoreAt n c).agenda = s.agenda := rfl
@[simp] theorem State.setCoreAt_cur (s : State) (n : Nat) (c : Core) : (s.setCoreAt n c).cur = s.cur := rfl
@[simp] theorem State.setCoreAt_freeCtr (s : State) (n : Nat) (c : Core) : (s.setCoreAt n c).freeCtr = s.freeCtr := rfl
@[simp] theorem State.setCoreAt_nextId (s : State) (n : Nat) (c : Core) : (s.setCoreAt n c).nextId = s.nextId := rfl
@[simp] theorem State.setCoreAt_live (s : State) (n : Nat) (c : Core) : (s.setCoreAt n c).live = s.live := rfl
@[simp] theorem State.setCoreAt_cycle (s : State) (n : Nat) (c : Core) : (s.setCoreAt n c).cycle = s.cycle := rfl
@[simp] theorem State.setCoreAt_gtime (s : State) (n : Nat) (c : Core) : (s.setCoreAt n c).gtime = s.gtime := rfl
@[simp] theorem State.setCoreAt_booted (s : State) (n : Nat) (c : Core) : (s.setCoreAt n c).booted = s.booted := rfl
@[simp] theorem State.setCoreAt_seedReg (s : State) (n : Nat) (c : Core) : (s.setCoreAt n c).seedReg = s.seedReg := rfl
@[simp] theorem State.setCoreAt_mem (s : State) (n : Nat) (c : Core) : (s.setCoreAt n c).mem = s.mem := rfl
@[simp] theorem State.setCoreAt_bad (s : State) (n : Nat) (c : Core) : (s.setCoreAt n c).bad = s.bad := rfl
@[simp] theorem State.setCoreAt_tiles (s : State) (n : Nat) (c : Core) : (s.setCoreAt n c).tiles = s.tiles := rfl
@[simp] theorem State.setCoreAt_descs (s : State) (n : Nat) (c : Core) : (s.setCoreAt n c).descs = s.descs := rfl
@[simp] theorem State.setCoreAt_queued (s : State) (n : Nat) (c : Core) : (s.setCoreAt n c).queued = s.queued := rfl
@[simp] theorem State.setCoreAt_entered (s : State) (n : Nat) (c : Core) : (s.setCoreAt n c).entered = s.entered := rfl
@[simp] theorem State.setCoreAt_flight (s : State) (n : Nat) (c : Core) : (s.setCoreAt n c).flight = s.flight := rfl
@[simp] theorem State.setCoreAt_regions (s : State) (n : Nat) (c : Core) : (s.setCoreAt n c).regions = s.regions := rfl
@[simp] theorem State.setCoreAt_roots (s : State) (n : Nat) (c : Core) : (s.setCoreAt n c).roots = s.roots := rfl
@[simp] theorem State.setCoreAt_ccroots (s : State) (n : Nat) (c : Core) : (s.setCoreAt n c).ccroots = s.ccroots := rfl
@[simp] theorem State.setCoreAt_ccrootm (s : State) (n : Nat) (c : Core) : (s.setCoreAt n c).ccrootm = s.ccrootm := rfl
@[simp] theorem State.setCoreAt_tlb (s : State) (n : Nat) (c : Core) : (s.setCoreAt n c).tlb = s.tlb := rfl
@[simp] theorem State.setCoreAt_netOps (s : State) (n : Nat) (c : Core) : (s.setCoreAt n c).netOps = s.netOps := rfl
@[simp] theorem State.setCoreAt_mats (s : State) (n : Nat) (c : Core) : (s.setCoreAt n c).mats = s.mats := rfl
@[simp] theorem State.setCoreAt_ctxs (s : State) (n : Nat) (c : Core) : (s.setCoreAt n c).ctxs = s.ctxs := rfl
@[simp] theorem State.setCoreAt_plates (s : State) (n : Nat) (c : Core) : (s.setCoreAt n c).plates = s.plates := rfl
@[simp] theorem State.setCoreAt_groups (s : State) (n : Nat) (c : Core) : (s.setCoreAt n c).groups = s.groups := rfl
@[simp] theorem State.setCoreAt_queues (s : State) (n : Nat) (c : Core) : (s.setCoreAt n c).queues = s.queues := rfl
@[simp] theorem State.setCoreAt_pops (s : State) (n : Nat) (c : Core) : (s.setCoreAt n c).pops = s.pops := rfl
@[simp] theorem State.setCoreAt_admission (s : State) (n : Nat) (c : Core) : (s.setCoreAt n c).admission = s.admission := rfl
@[simp] theorem State.setCoreAt_cancels (s : State) (n : Nat) (c : Core) : (s.setCoreAt n c).cancels = s.cancels := rfl
@[simp] theorem State.setCoreAt_msix (s : State) (n : Nat) (c : Core) : (s.setCoreAt n c).msix = s.msix := rfl
@[simp] theorem State.setCoreAt_fw (s : State) (n : Nat) (c : Core) : (s.setCoreAt n c).fw = s.fw := rfl
@[simp] theorem State.setCoreAt_pkg (s : State) (n : Nat) (c : Core) : (s.setCoreAt n c).pkg = s.pkg := rfl
@[simp] theorem State.setCoreAt_hub (s : State) (n : Nat) (c : Core) : (s.setCoreAt n c).hub = s.hub := rfl
@[simp] theorem State.setCoreAt_spdm (s : State) (n : Nat) (c : Core) : (s.setCoreAt n c).spdm = s.spdm := rfl
@[simp] theorem State.setCoreAt_cxlErr (s : State) (n : Nat) (c : Core) : (s.setCoreAt n c).cxlErr = s.cxlErr := rfl
@[simp] theorem State.setCoreAt_hdmData (s : State) (n : Nat) (c : Core) : (s.setCoreAt n c).hdmData = s.hdmData := rfl
@[simp] theorem State.setCoreAt_hostData (s : State) (n : Nat) (c : Core) : (s.setCoreAt n c).hostData = s.hostData := rfl
@[simp] theorem State.setCoreAt_refClock (s : State) (n : Nat) (c : Core) : (s.setCoreAt n c).refClock = s.refClock := rfl
@[simp] theorem State.setCoreAt_subNs (s : State) (n : Nat) (c : Core) : (s.setCoreAt n c).subNs = s.subNs := rfl
@[simp] theorem State.setCoreAt_subG (s : State) (n : Nat) (c : Core) : (s.setCoreAt n c).subG = s.subG := rfl
@[simp] theorem State.setCoreAt_hardErr (s : State) (n : Nat) (c : Core) : (s.setCoreAt n c).hardErr = s.hardErr := rfl
@[simp] theorem State.setCoreAt_softErr (s : State) (n : Nat) (c : Core) : (s.setCoreAt n c).softErr = s.softErr := rfl
@[simp] theorem State.setCoreAt_counted (s : State) (n : Nat) (c : Core) : (s.setCoreAt n c).counted = s.counted := rfl
@[simp] theorem State.setCoreAt_lastSoft (s : State) (n : Nat) (c : Core) : (s.setCoreAt n c).lastSoft = s.lastSoft := rfl
@[simp] theorem State.setCoreAt_tinvBusy (s : State) (n : Nat) (c : Core) : (s.setCoreAt n c).tinvBusy = s.tinvBusy := rfl
@[simp] theorem State.setCoreAt_tinvErr (s : State) (n : Nat) (c : Core) : (s.setCoreAt n c).tinvErr = s.tinvErr := rfl

/-! ## `mapCore` -/

@[simp] theorem State.mapCore_agenda (s : State) (f : Core → Core) : (s.mapCore f).agenda = s.agenda := rfl
@[simp] theorem State.mapCore_cur (s : State) (f : Core → Core) : (s.mapCore f).cur = s.cur := rfl
@[simp] theorem State.mapCore_freeCtr (s : State) (f : Core → Core) : (s.mapCore f).freeCtr = s.freeCtr := rfl
@[simp] theorem State.mapCore_nextId (s : State) (f : Core → Core) : (s.mapCore f).nextId = s.nextId := rfl
@[simp] theorem State.mapCore_live (s : State) (f : Core → Core) : (s.mapCore f).live = s.live := rfl
@[simp] theorem State.mapCore_cycle (s : State) (f : Core → Core) : (s.mapCore f).cycle = s.cycle := rfl
@[simp] theorem State.mapCore_gtime (s : State) (f : Core → Core) : (s.mapCore f).gtime = s.gtime := rfl
@[simp] theorem State.mapCore_booted (s : State) (f : Core → Core) : (s.mapCore f).booted = s.booted := rfl
@[simp] theorem State.mapCore_seedReg (s : State) (f : Core → Core) : (s.mapCore f).seedReg = s.seedReg := rfl
@[simp] theorem State.mapCore_mem (s : State) (f : Core → Core) : (s.mapCore f).mem = s.mem := rfl
@[simp] theorem State.mapCore_bad (s : State) (f : Core → Core) : (s.mapCore f).bad = s.bad := rfl
@[simp] theorem State.mapCore_tiles (s : State) (f : Core → Core) : (s.mapCore f).tiles = s.tiles := rfl
@[simp] theorem State.mapCore_descs (s : State) (f : Core → Core) : (s.mapCore f).descs = s.descs := rfl
@[simp] theorem State.mapCore_queued (s : State) (f : Core → Core) : (s.mapCore f).queued = s.queued := rfl
@[simp] theorem State.mapCore_entered (s : State) (f : Core → Core) : (s.mapCore f).entered = s.entered := rfl
@[simp] theorem State.mapCore_flight (s : State) (f : Core → Core) : (s.mapCore f).flight = s.flight := rfl
@[simp] theorem State.mapCore_regions (s : State) (f : Core → Core) : (s.mapCore f).regions = s.regions := rfl
@[simp] theorem State.mapCore_roots (s : State) (f : Core → Core) : (s.mapCore f).roots = s.roots := rfl
@[simp] theorem State.mapCore_ccroots (s : State) (f : Core → Core) : (s.mapCore f).ccroots = s.ccroots := rfl
@[simp] theorem State.mapCore_ccrootm (s : State) (f : Core → Core) : (s.mapCore f).ccrootm = s.ccrootm := rfl
@[simp] theorem State.mapCore_tlb (s : State) (f : Core → Core) : (s.mapCore f).tlb = s.tlb := rfl
@[simp] theorem State.mapCore_netOps (s : State) (f : Core → Core) : (s.mapCore f).netOps = s.netOps := rfl
@[simp] theorem State.mapCore_mats (s : State) (f : Core → Core) : (s.mapCore f).mats = s.mats := rfl
@[simp] theorem State.mapCore_ctxs (s : State) (f : Core → Core) : (s.mapCore f).ctxs = s.ctxs := rfl
@[simp] theorem State.mapCore_plates (s : State) (f : Core → Core) : (s.mapCore f).plates = s.plates := rfl
@[simp] theorem State.mapCore_groups (s : State) (f : Core → Core) : (s.mapCore f).groups = s.groups := rfl
@[simp] theorem State.mapCore_queues (s : State) (f : Core → Core) : (s.mapCore f).queues = s.queues := rfl
@[simp] theorem State.mapCore_pops (s : State) (f : Core → Core) : (s.mapCore f).pops = s.pops := rfl
@[simp] theorem State.mapCore_admission (s : State) (f : Core → Core) : (s.mapCore f).admission = s.admission := rfl
@[simp] theorem State.mapCore_cancels (s : State) (f : Core → Core) : (s.mapCore f).cancels = s.cancels := rfl
@[simp] theorem State.mapCore_msix (s : State) (f : Core → Core) : (s.mapCore f).msix = s.msix := rfl
@[simp] theorem State.mapCore_fw (s : State) (f : Core → Core) : (s.mapCore f).fw = s.fw := rfl
@[simp] theorem State.mapCore_pkg (s : State) (f : Core → Core) : (s.mapCore f).pkg = s.pkg := rfl
@[simp] theorem State.mapCore_hub (s : State) (f : Core → Core) : (s.mapCore f).hub = s.hub := rfl
@[simp] theorem State.mapCore_spdm (s : State) (f : Core → Core) : (s.mapCore f).spdm = s.spdm := rfl
@[simp] theorem State.mapCore_cxlErr (s : State) (f : Core → Core) : (s.mapCore f).cxlErr = s.cxlErr := rfl
@[simp] theorem State.mapCore_hdmData (s : State) (f : Core → Core) : (s.mapCore f).hdmData = s.hdmData := rfl
@[simp] theorem State.mapCore_hostData (s : State) (f : Core → Core) : (s.mapCore f).hostData = s.hostData := rfl
@[simp] theorem State.mapCore_refClock (s : State) (f : Core → Core) : (s.mapCore f).refClock = s.refClock := rfl
@[simp] theorem State.mapCore_subNs (s : State) (f : Core → Core) : (s.mapCore f).subNs = s.subNs := rfl
@[simp] theorem State.mapCore_subG (s : State) (f : Core → Core) : (s.mapCore f).subG = s.subG := rfl
@[simp] theorem State.mapCore_hardErr (s : State) (f : Core → Core) : (s.mapCore f).hardErr = s.hardErr := rfl
@[simp] theorem State.mapCore_softErr (s : State) (f : Core → Core) : (s.mapCore f).softErr = s.softErr := rfl
@[simp] theorem State.mapCore_counted (s : State) (f : Core → Core) : (s.mapCore f).counted = s.counted := rfl
@[simp] theorem State.mapCore_lastSoft (s : State) (f : Core → Core) : (s.mapCore f).lastSoft = s.lastSoft := rfl
@[simp] theorem State.mapCore_tinvBusy (s : State) (f : Core → Core) : (s.mapCore f).tinvBusy = s.tinvBusy := rfl
@[simp] theorem State.mapCore_tinvErr (s : State) (f : Core → Core) : (s.mapCore f).tinvErr = s.tinvErr := rfl

/-! ## `setS` -/

@[simp] theorem State.setS_agenda (s : State) (n : Nat) (x : Word) : (s.setS n x).agenda = s.agenda := rfl
@[simp] theorem State.setS_cur (s : State) (n : Nat) (x : Word) : (s.setS n x).cur = s.cur := rfl
@[simp] theorem State.setS_freeCtr (s : State) (n : Nat) (x : Word) : (s.setS n x).freeCtr = s.freeCtr := rfl
@[simp] theorem State.setS_nextId (s : State) (n : Nat) (x : Word) : (s.setS n x).nextId = s.nextId := rfl
@[simp] theorem State.setS_live (s : State) (n : Nat) (x : Word) : (s.setS n x).live = s.live := rfl
@[simp] theorem State.setS_cycle (s : State) (n : Nat) (x : Word) : (s.setS n x).cycle = s.cycle := rfl
@[simp] theorem State.setS_gtime (s : State) (n : Nat) (x : Word) : (s.setS n x).gtime = s.gtime := rfl
@[simp] theorem State.setS_booted (s : State) (n : Nat) (x : Word) : (s.setS n x).booted = s.booted := rfl
@[simp] theorem State.setS_seedReg (s : State) (n : Nat) (x : Word) : (s.setS n x).seedReg = s.seedReg := rfl
@[simp] theorem State.setS_mem (s : State) (n : Nat) (x : Word) : (s.setS n x).mem = s.mem := rfl
@[simp] theorem State.setS_bad (s : State) (n : Nat) (x : Word) : (s.setS n x).bad = s.bad := rfl
@[simp] theorem State.setS_tiles (s : State) (n : Nat) (x : Word) : (s.setS n x).tiles = s.tiles := rfl
@[simp] theorem State.setS_descs (s : State) (n : Nat) (x : Word) : (s.setS n x).descs = s.descs := rfl
@[simp] theorem State.setS_queued (s : State) (n : Nat) (x : Word) : (s.setS n x).queued = s.queued := rfl
@[simp] theorem State.setS_entered (s : State) (n : Nat) (x : Word) : (s.setS n x).entered = s.entered := rfl
@[simp] theorem State.setS_flight (s : State) (n : Nat) (x : Word) : (s.setS n x).flight = s.flight := rfl
@[simp] theorem State.setS_regions (s : State) (n : Nat) (x : Word) : (s.setS n x).regions = s.regions := rfl
@[simp] theorem State.setS_roots (s : State) (n : Nat) (x : Word) : (s.setS n x).roots = s.roots := rfl
@[simp] theorem State.setS_ccroots (s : State) (n : Nat) (x : Word) : (s.setS n x).ccroots = s.ccroots := rfl
@[simp] theorem State.setS_ccrootm (s : State) (n : Nat) (x : Word) : (s.setS n x).ccrootm = s.ccrootm := rfl
@[simp] theorem State.setS_tlb (s : State) (n : Nat) (x : Word) : (s.setS n x).tlb = s.tlb := rfl
@[simp] theorem State.setS_netOps (s : State) (n : Nat) (x : Word) : (s.setS n x).netOps = s.netOps := rfl
@[simp] theorem State.setS_mats (s : State) (n : Nat) (x : Word) : (s.setS n x).mats = s.mats := rfl
@[simp] theorem State.setS_ctxs (s : State) (n : Nat) (x : Word) : (s.setS n x).ctxs = s.ctxs := rfl
@[simp] theorem State.setS_plates (s : State) (n : Nat) (x : Word) : (s.setS n x).plates = s.plates := rfl
@[simp] theorem State.setS_groups (s : State) (n : Nat) (x : Word) : (s.setS n x).groups = s.groups := rfl
@[simp] theorem State.setS_queues (s : State) (n : Nat) (x : Word) : (s.setS n x).queues = s.queues := rfl
@[simp] theorem State.setS_pops (s : State) (n : Nat) (x : Word) : (s.setS n x).pops = s.pops := rfl
@[simp] theorem State.setS_admission (s : State) (n : Nat) (x : Word) : (s.setS n x).admission = s.admission := rfl
@[simp] theorem State.setS_cancels (s : State) (n : Nat) (x : Word) : (s.setS n x).cancels = s.cancels := rfl
@[simp] theorem State.setS_msix (s : State) (n : Nat) (x : Word) : (s.setS n x).msix = s.msix := rfl
@[simp] theorem State.setS_fw (s : State) (n : Nat) (x : Word) : (s.setS n x).fw = s.fw := rfl
@[simp] theorem State.setS_pkg (s : State) (n : Nat) (x : Word) : (s.setS n x).pkg = s.pkg := rfl
@[simp] theorem State.setS_hub (s : State) (n : Nat) (x : Word) : (s.setS n x).hub = s.hub := rfl
@[simp] theorem State.setS_spdm (s : State) (n : Nat) (x : Word) : (s.setS n x).spdm = s.spdm := rfl
@[simp] theorem State.setS_cxlErr (s : State) (n : Nat) (x : Word) : (s.setS n x).cxlErr = s.cxlErr := rfl
@[simp] theorem State.setS_hdmData (s : State) (n : Nat) (x : Word) : (s.setS n x).hdmData = s.hdmData := rfl
@[simp] theorem State.setS_hostData (s : State) (n : Nat) (x : Word) : (s.setS n x).hostData = s.hostData := rfl
@[simp] theorem State.setS_refClock (s : State) (n : Nat) (x : Word) : (s.setS n x).refClock = s.refClock := rfl
@[simp] theorem State.setS_subNs (s : State) (n : Nat) (x : Word) : (s.setS n x).subNs = s.subNs := rfl
@[simp] theorem State.setS_subG (s : State) (n : Nat) (x : Word) : (s.setS n x).subG = s.subG := rfl
@[simp] theorem State.setS_hardErr (s : State) (n : Nat) (x : Word) : (s.setS n x).hardErr = s.hardErr := rfl
@[simp] theorem State.setS_softErr (s : State) (n : Nat) (x : Word) : (s.setS n x).softErr = s.softErr := rfl
@[simp] theorem State.setS_counted (s : State) (n : Nat) (x : Word) : (s.setS n x).counted = s.counted := rfl
@[simp] theorem State.setS_lastSoft (s : State) (n : Nat) (x : Word) : (s.setS n x).lastSoft = s.lastSoft := rfl
@[simp] theorem State.setS_tinvBusy (s : State) (n : Nat) (x : Word) : (s.setS n x).tinvBusy = s.tinvBusy := rfl
@[simp] theorem State.setS_tinvErr (s : State) (n : Nat) (x : Word) : (s.setS n x).tinvErr = s.tinvErr := rfl

/-! ## `setP` -/

@[simp] theorem State.setP_agenda (s : State) (n : Nat) (x : Bool) : (s.setP n x).agenda = s.agenda := rfl
@[simp] theorem State.setP_cur (s : State) (n : Nat) (x : Bool) : (s.setP n x).cur = s.cur := rfl
@[simp] theorem State.setP_freeCtr (s : State) (n : Nat) (x : Bool) : (s.setP n x).freeCtr = s.freeCtr := rfl
@[simp] theorem State.setP_nextId (s : State) (n : Nat) (x : Bool) : (s.setP n x).nextId = s.nextId := rfl
@[simp] theorem State.setP_live (s : State) (n : Nat) (x : Bool) : (s.setP n x).live = s.live := rfl
@[simp] theorem State.setP_cycle (s : State) (n : Nat) (x : Bool) : (s.setP n x).cycle = s.cycle := rfl
@[simp] theorem State.setP_gtime (s : State) (n : Nat) (x : Bool) : (s.setP n x).gtime = s.gtime := rfl
@[simp] theorem State.setP_booted (s : State) (n : Nat) (x : Bool) : (s.setP n x).booted = s.booted := rfl
@[simp] theorem State.setP_seedReg (s : State) (n : Nat) (x : Bool) : (s.setP n x).seedReg = s.seedReg := rfl
@[simp] theorem State.setP_mem (s : State) (n : Nat) (x : Bool) : (s.setP n x).mem = s.mem := rfl
@[simp] theorem State.setP_bad (s : State) (n : Nat) (x : Bool) : (s.setP n x).bad = s.bad := rfl
@[simp] theorem State.setP_tiles (s : State) (n : Nat) (x : Bool) : (s.setP n x).tiles = s.tiles := rfl
@[simp] theorem State.setP_descs (s : State) (n : Nat) (x : Bool) : (s.setP n x).descs = s.descs := rfl
@[simp] theorem State.setP_queued (s : State) (n : Nat) (x : Bool) : (s.setP n x).queued = s.queued := rfl
@[simp] theorem State.setP_entered (s : State) (n : Nat) (x : Bool) : (s.setP n x).entered = s.entered := rfl
@[simp] theorem State.setP_flight (s : State) (n : Nat) (x : Bool) : (s.setP n x).flight = s.flight := rfl
@[simp] theorem State.setP_regions (s : State) (n : Nat) (x : Bool) : (s.setP n x).regions = s.regions := rfl
@[simp] theorem State.setP_roots (s : State) (n : Nat) (x : Bool) : (s.setP n x).roots = s.roots := rfl
@[simp] theorem State.setP_ccroots (s : State) (n : Nat) (x : Bool) : (s.setP n x).ccroots = s.ccroots := rfl
@[simp] theorem State.setP_ccrootm (s : State) (n : Nat) (x : Bool) : (s.setP n x).ccrootm = s.ccrootm := rfl
@[simp] theorem State.setP_tlb (s : State) (n : Nat) (x : Bool) : (s.setP n x).tlb = s.tlb := rfl
@[simp] theorem State.setP_netOps (s : State) (n : Nat) (x : Bool) : (s.setP n x).netOps = s.netOps := rfl
@[simp] theorem State.setP_mats (s : State) (n : Nat) (x : Bool) : (s.setP n x).mats = s.mats := rfl
@[simp] theorem State.setP_ctxs (s : State) (n : Nat) (x : Bool) : (s.setP n x).ctxs = s.ctxs := rfl
@[simp] theorem State.setP_plates (s : State) (n : Nat) (x : Bool) : (s.setP n x).plates = s.plates := rfl
@[simp] theorem State.setP_groups (s : State) (n : Nat) (x : Bool) : (s.setP n x).groups = s.groups := rfl
@[simp] theorem State.setP_queues (s : State) (n : Nat) (x : Bool) : (s.setP n x).queues = s.queues := rfl
@[simp] theorem State.setP_pops (s : State) (n : Nat) (x : Bool) : (s.setP n x).pops = s.pops := rfl
@[simp] theorem State.setP_admission (s : State) (n : Nat) (x : Bool) : (s.setP n x).admission = s.admission := rfl
@[simp] theorem State.setP_cancels (s : State) (n : Nat) (x : Bool) : (s.setP n x).cancels = s.cancels := rfl
@[simp] theorem State.setP_msix (s : State) (n : Nat) (x : Bool) : (s.setP n x).msix = s.msix := rfl
@[simp] theorem State.setP_fw (s : State) (n : Nat) (x : Bool) : (s.setP n x).fw = s.fw := rfl
@[simp] theorem State.setP_pkg (s : State) (n : Nat) (x : Bool) : (s.setP n x).pkg = s.pkg := rfl
@[simp] theorem State.setP_hub (s : State) (n : Nat) (x : Bool) : (s.setP n x).hub = s.hub := rfl
@[simp] theorem State.setP_spdm (s : State) (n : Nat) (x : Bool) : (s.setP n x).spdm = s.spdm := rfl
@[simp] theorem State.setP_cxlErr (s : State) (n : Nat) (x : Bool) : (s.setP n x).cxlErr = s.cxlErr := rfl
@[simp] theorem State.setP_hdmData (s : State) (n : Nat) (x : Bool) : (s.setP n x).hdmData = s.hdmData := rfl
@[simp] theorem State.setP_hostData (s : State) (n : Nat) (x : Bool) : (s.setP n x).hostData = s.hostData := rfl
@[simp] theorem State.setP_refClock (s : State) (n : Nat) (x : Bool) : (s.setP n x).refClock = s.refClock := rfl
@[simp] theorem State.setP_subNs (s : State) (n : Nat) (x : Bool) : (s.setP n x).subNs = s.subNs := rfl
@[simp] theorem State.setP_subG (s : State) (n : Nat) (x : Bool) : (s.setP n x).subG = s.subG := rfl
@[simp] theorem State.setP_hardErr (s : State) (n : Nat) (x : Bool) : (s.setP n x).hardErr = s.hardErr := rfl
@[simp] theorem State.setP_softErr (s : State) (n : Nat) (x : Bool) : (s.setP n x).softErr = s.softErr := rfl
@[simp] theorem State.setP_counted (s : State) (n : Nat) (x : Bool) : (s.setP n x).counted = s.counted := rfl
@[simp] theorem State.setP_lastSoft (s : State) (n : Nat) (x : Bool) : (s.setP n x).lastSoft = s.lastSoft := rfl
@[simp] theorem State.setP_tinvBusy (s : State) (n : Nat) (x : Bool) : (s.setP n x).tinvBusy = s.tinvBusy := rfl
@[simp] theorem State.setP_tinvErr (s : State) (n : Nat) (x : Bool) : (s.setP n x).tinvErr = s.tinvErr := rfl

/-! ## `setV` -/

@[simp] theorem State.setV_agenda (s : State) (n : Nat) (x : VReg) : (s.setV n x).agenda = s.agenda := rfl
@[simp] theorem State.setV_cur (s : State) (n : Nat) (x : VReg) : (s.setV n x).cur = s.cur := rfl
@[simp] theorem State.setV_freeCtr (s : State) (n : Nat) (x : VReg) : (s.setV n x).freeCtr = s.freeCtr := rfl
@[simp] theorem State.setV_nextId (s : State) (n : Nat) (x : VReg) : (s.setV n x).nextId = s.nextId := rfl
@[simp] theorem State.setV_live (s : State) (n : Nat) (x : VReg) : (s.setV n x).live = s.live := rfl
@[simp] theorem State.setV_cycle (s : State) (n : Nat) (x : VReg) : (s.setV n x).cycle = s.cycle := rfl
@[simp] theorem State.setV_gtime (s : State) (n : Nat) (x : VReg) : (s.setV n x).gtime = s.gtime := rfl
@[simp] theorem State.setV_booted (s : State) (n : Nat) (x : VReg) : (s.setV n x).booted = s.booted := rfl
@[simp] theorem State.setV_seedReg (s : State) (n : Nat) (x : VReg) : (s.setV n x).seedReg = s.seedReg := rfl
@[simp] theorem State.setV_mem (s : State) (n : Nat) (x : VReg) : (s.setV n x).mem = s.mem := rfl
@[simp] theorem State.setV_bad (s : State) (n : Nat) (x : VReg) : (s.setV n x).bad = s.bad := rfl
@[simp] theorem State.setV_tiles (s : State) (n : Nat) (x : VReg) : (s.setV n x).tiles = s.tiles := rfl
@[simp] theorem State.setV_descs (s : State) (n : Nat) (x : VReg) : (s.setV n x).descs = s.descs := rfl
@[simp] theorem State.setV_queued (s : State) (n : Nat) (x : VReg) : (s.setV n x).queued = s.queued := rfl
@[simp] theorem State.setV_entered (s : State) (n : Nat) (x : VReg) : (s.setV n x).entered = s.entered := rfl
@[simp] theorem State.setV_flight (s : State) (n : Nat) (x : VReg) : (s.setV n x).flight = s.flight := rfl
@[simp] theorem State.setV_regions (s : State) (n : Nat) (x : VReg) : (s.setV n x).regions = s.regions := rfl
@[simp] theorem State.setV_roots (s : State) (n : Nat) (x : VReg) : (s.setV n x).roots = s.roots := rfl
@[simp] theorem State.setV_ccroots (s : State) (n : Nat) (x : VReg) : (s.setV n x).ccroots = s.ccroots := rfl
@[simp] theorem State.setV_ccrootm (s : State) (n : Nat) (x : VReg) : (s.setV n x).ccrootm = s.ccrootm := rfl
@[simp] theorem State.setV_tlb (s : State) (n : Nat) (x : VReg) : (s.setV n x).tlb = s.tlb := rfl
@[simp] theorem State.setV_netOps (s : State) (n : Nat) (x : VReg) : (s.setV n x).netOps = s.netOps := rfl
@[simp] theorem State.setV_mats (s : State) (n : Nat) (x : VReg) : (s.setV n x).mats = s.mats := rfl
@[simp] theorem State.setV_ctxs (s : State) (n : Nat) (x : VReg) : (s.setV n x).ctxs = s.ctxs := rfl
@[simp] theorem State.setV_plates (s : State) (n : Nat) (x : VReg) : (s.setV n x).plates = s.plates := rfl
@[simp] theorem State.setV_groups (s : State) (n : Nat) (x : VReg) : (s.setV n x).groups = s.groups := rfl
@[simp] theorem State.setV_queues (s : State) (n : Nat) (x : VReg) : (s.setV n x).queues = s.queues := rfl
@[simp] theorem State.setV_pops (s : State) (n : Nat) (x : VReg) : (s.setV n x).pops = s.pops := rfl
@[simp] theorem State.setV_admission (s : State) (n : Nat) (x : VReg) : (s.setV n x).admission = s.admission := rfl
@[simp] theorem State.setV_cancels (s : State) (n : Nat) (x : VReg) : (s.setV n x).cancels = s.cancels := rfl
@[simp] theorem State.setV_msix (s : State) (n : Nat) (x : VReg) : (s.setV n x).msix = s.msix := rfl
@[simp] theorem State.setV_fw (s : State) (n : Nat) (x : VReg) : (s.setV n x).fw = s.fw := rfl
@[simp] theorem State.setV_pkg (s : State) (n : Nat) (x : VReg) : (s.setV n x).pkg = s.pkg := rfl
@[simp] theorem State.setV_hub (s : State) (n : Nat) (x : VReg) : (s.setV n x).hub = s.hub := rfl
@[simp] theorem State.setV_spdm (s : State) (n : Nat) (x : VReg) : (s.setV n x).spdm = s.spdm := rfl
@[simp] theorem State.setV_cxlErr (s : State) (n : Nat) (x : VReg) : (s.setV n x).cxlErr = s.cxlErr := rfl
@[simp] theorem State.setV_hdmData (s : State) (n : Nat) (x : VReg) : (s.setV n x).hdmData = s.hdmData := rfl
@[simp] theorem State.setV_hostData (s : State) (n : Nat) (x : VReg) : (s.setV n x).hostData = s.hostData := rfl
@[simp] theorem State.setV_refClock (s : State) (n : Nat) (x : VReg) : (s.setV n x).refClock = s.refClock := rfl
@[simp] theorem State.setV_subNs (s : State) (n : Nat) (x : VReg) : (s.setV n x).subNs = s.subNs := rfl
@[simp] theorem State.setV_subG (s : State) (n : Nat) (x : VReg) : (s.setV n x).subG = s.subG := rfl
@[simp] theorem State.setV_hardErr (s : State) (n : Nat) (x : VReg) : (s.setV n x).hardErr = s.hardErr := rfl
@[simp] theorem State.setV_softErr (s : State) (n : Nat) (x : VReg) : (s.setV n x).softErr = s.softErr := rfl
@[simp] theorem State.setV_counted (s : State) (n : Nat) (x : VReg) : (s.setV n x).counted = s.counted := rfl
@[simp] theorem State.setV_lastSoft (s : State) (n : Nat) (x : VReg) : (s.setV n x).lastSoft = s.lastSoft := rfl
@[simp] theorem State.setV_tinvBusy (s : State) (n : Nat) (x : VReg) : (s.setV n x).tinvBusy = s.tinvBusy := rfl
@[simp] theorem State.setV_tinvErr (s : State) (n : Nat) (x : VReg) : (s.setV n x).tinvErr = s.tinvErr := rfl

/-! ## `setM` -/

@[simp] theorem State.setM_agenda (s : State) (n : Nat) (x : MReg) : (s.setM n x).agenda = s.agenda := rfl
@[simp] theorem State.setM_cur (s : State) (n : Nat) (x : MReg) : (s.setM n x).cur = s.cur := rfl
@[simp] theorem State.setM_freeCtr (s : State) (n : Nat) (x : MReg) : (s.setM n x).freeCtr = s.freeCtr := rfl
@[simp] theorem State.setM_nextId (s : State) (n : Nat) (x : MReg) : (s.setM n x).nextId = s.nextId := rfl
@[simp] theorem State.setM_live (s : State) (n : Nat) (x : MReg) : (s.setM n x).live = s.live := rfl
@[simp] theorem State.setM_cycle (s : State) (n : Nat) (x : MReg) : (s.setM n x).cycle = s.cycle := rfl
@[simp] theorem State.setM_gtime (s : State) (n : Nat) (x : MReg) : (s.setM n x).gtime = s.gtime := rfl
@[simp] theorem State.setM_booted (s : State) (n : Nat) (x : MReg) : (s.setM n x).booted = s.booted := rfl
@[simp] theorem State.setM_seedReg (s : State) (n : Nat) (x : MReg) : (s.setM n x).seedReg = s.seedReg := rfl
@[simp] theorem State.setM_mem (s : State) (n : Nat) (x : MReg) : (s.setM n x).mem = s.mem := rfl
@[simp] theorem State.setM_bad (s : State) (n : Nat) (x : MReg) : (s.setM n x).bad = s.bad := rfl
@[simp] theorem State.setM_tiles (s : State) (n : Nat) (x : MReg) : (s.setM n x).tiles = s.tiles := rfl
@[simp] theorem State.setM_descs (s : State) (n : Nat) (x : MReg) : (s.setM n x).descs = s.descs := rfl
@[simp] theorem State.setM_queued (s : State) (n : Nat) (x : MReg) : (s.setM n x).queued = s.queued := rfl
@[simp] theorem State.setM_entered (s : State) (n : Nat) (x : MReg) : (s.setM n x).entered = s.entered := rfl
@[simp] theorem State.setM_flight (s : State) (n : Nat) (x : MReg) : (s.setM n x).flight = s.flight := rfl
@[simp] theorem State.setM_regions (s : State) (n : Nat) (x : MReg) : (s.setM n x).regions = s.regions := rfl
@[simp] theorem State.setM_roots (s : State) (n : Nat) (x : MReg) : (s.setM n x).roots = s.roots := rfl
@[simp] theorem State.setM_ccroots (s : State) (n : Nat) (x : MReg) : (s.setM n x).ccroots = s.ccroots := rfl
@[simp] theorem State.setM_ccrootm (s : State) (n : Nat) (x : MReg) : (s.setM n x).ccrootm = s.ccrootm := rfl
@[simp] theorem State.setM_tlb (s : State) (n : Nat) (x : MReg) : (s.setM n x).tlb = s.tlb := rfl
@[simp] theorem State.setM_netOps (s : State) (n : Nat) (x : MReg) : (s.setM n x).netOps = s.netOps := rfl
@[simp] theorem State.setM_mats (s : State) (n : Nat) (x : MReg) : (s.setM n x).mats = s.mats := rfl
@[simp] theorem State.setM_ctxs (s : State) (n : Nat) (x : MReg) : (s.setM n x).ctxs = s.ctxs := rfl
@[simp] theorem State.setM_plates (s : State) (n : Nat) (x : MReg) : (s.setM n x).plates = s.plates := rfl
@[simp] theorem State.setM_groups (s : State) (n : Nat) (x : MReg) : (s.setM n x).groups = s.groups := rfl
@[simp] theorem State.setM_queues (s : State) (n : Nat) (x : MReg) : (s.setM n x).queues = s.queues := rfl
@[simp] theorem State.setM_pops (s : State) (n : Nat) (x : MReg) : (s.setM n x).pops = s.pops := rfl
@[simp] theorem State.setM_admission (s : State) (n : Nat) (x : MReg) : (s.setM n x).admission = s.admission := rfl
@[simp] theorem State.setM_cancels (s : State) (n : Nat) (x : MReg) : (s.setM n x).cancels = s.cancels := rfl
@[simp] theorem State.setM_msix (s : State) (n : Nat) (x : MReg) : (s.setM n x).msix = s.msix := rfl
@[simp] theorem State.setM_fw (s : State) (n : Nat) (x : MReg) : (s.setM n x).fw = s.fw := rfl
@[simp] theorem State.setM_pkg (s : State) (n : Nat) (x : MReg) : (s.setM n x).pkg = s.pkg := rfl
@[simp] theorem State.setM_hub (s : State) (n : Nat) (x : MReg) : (s.setM n x).hub = s.hub := rfl
@[simp] theorem State.setM_spdm (s : State) (n : Nat) (x : MReg) : (s.setM n x).spdm = s.spdm := rfl
@[simp] theorem State.setM_cxlErr (s : State) (n : Nat) (x : MReg) : (s.setM n x).cxlErr = s.cxlErr := rfl
@[simp] theorem State.setM_hdmData (s : State) (n : Nat) (x : MReg) : (s.setM n x).hdmData = s.hdmData := rfl
@[simp] theorem State.setM_hostData (s : State) (n : Nat) (x : MReg) : (s.setM n x).hostData = s.hostData := rfl
@[simp] theorem State.setM_refClock (s : State) (n : Nat) (x : MReg) : (s.setM n x).refClock = s.refClock := rfl
@[simp] theorem State.setM_subNs (s : State) (n : Nat) (x : MReg) : (s.setM n x).subNs = s.subNs := rfl
@[simp] theorem State.setM_subG (s : State) (n : Nat) (x : MReg) : (s.setM n x).subG = s.subG := rfl
@[simp] theorem State.setM_hardErr (s : State) (n : Nat) (x : MReg) : (s.setM n x).hardErr = s.hardErr := rfl
@[simp] theorem State.setM_softErr (s : State) (n : Nat) (x : MReg) : (s.setM n x).softErr = s.softErr := rfl
@[simp] theorem State.setM_counted (s : State) (n : Nat) (x : MReg) : (s.setM n x).counted = s.counted := rfl
@[simp] theorem State.setM_lastSoft (s : State) (n : Nat) (x : MReg) : (s.setM n x).lastSoft = s.lastSoft := rfl
@[simp] theorem State.setM_tinvBusy (s : State) (n : Nat) (x : MReg) : (s.setM n x).tinvBusy = s.tinvBusy := rfl
@[simp] theorem State.setM_tinvErr (s : State) (n : Nat) (x : MReg) : (s.setM n x).tinvErr = s.tinvErr := rfl

/-! ## `advance` -/

@[simp] theorem State.advance_agenda (s : State) : (s.advance).agenda = s.agenda := rfl
@[simp] theorem State.advance_cur (s : State) : (s.advance).cur = s.cur := rfl
@[simp] theorem State.advance_freeCtr (s : State) : (s.advance).freeCtr = s.freeCtr := rfl
@[simp] theorem State.advance_nextId (s : State) : (s.advance).nextId = s.nextId := rfl
@[simp] theorem State.advance_live (s : State) : (s.advance).live = s.live := rfl
@[simp] theorem State.advance_cycle (s : State) : (s.advance).cycle = s.cycle := rfl
@[simp] theorem State.advance_gtime (s : State) : (s.advance).gtime = s.gtime := rfl
@[simp] theorem State.advance_booted (s : State) : (s.advance).booted = s.booted := rfl
@[simp] theorem State.advance_seedReg (s : State) : (s.advance).seedReg = s.seedReg := rfl
@[simp] theorem State.advance_mem (s : State) : (s.advance).mem = s.mem := rfl
@[simp] theorem State.advance_bad (s : State) : (s.advance).bad = s.bad := rfl
@[simp] theorem State.advance_tiles (s : State) : (s.advance).tiles = s.tiles := rfl
@[simp] theorem State.advance_descs (s : State) : (s.advance).descs = s.descs := rfl
@[simp] theorem State.advance_queued (s : State) : (s.advance).queued = s.queued := rfl
@[simp] theorem State.advance_entered (s : State) : (s.advance).entered = s.entered := rfl
@[simp] theorem State.advance_flight (s : State) : (s.advance).flight = s.flight := rfl
@[simp] theorem State.advance_regions (s : State) : (s.advance).regions = s.regions := rfl
@[simp] theorem State.advance_roots (s : State) : (s.advance).roots = s.roots := rfl
@[simp] theorem State.advance_ccroots (s : State) : (s.advance).ccroots = s.ccroots := rfl
@[simp] theorem State.advance_ccrootm (s : State) : (s.advance).ccrootm = s.ccrootm := rfl
@[simp] theorem State.advance_tlb (s : State) : (s.advance).tlb = s.tlb := rfl
@[simp] theorem State.advance_netOps (s : State) : (s.advance).netOps = s.netOps := rfl
@[simp] theorem State.advance_mats (s : State) : (s.advance).mats = s.mats := rfl
@[simp] theorem State.advance_ctxs (s : State) : (s.advance).ctxs = s.ctxs := rfl
@[simp] theorem State.advance_plates (s : State) : (s.advance).plates = s.plates := rfl
@[simp] theorem State.advance_groups (s : State) : (s.advance).groups = s.groups := rfl
@[simp] theorem State.advance_queues (s : State) : (s.advance).queues = s.queues := rfl
@[simp] theorem State.advance_pops (s : State) : (s.advance).pops = s.pops := rfl
@[simp] theorem State.advance_admission (s : State) : (s.advance).admission = s.admission := rfl
@[simp] theorem State.advance_cancels (s : State) : (s.advance).cancels = s.cancels := rfl
@[simp] theorem State.advance_msix (s : State) : (s.advance).msix = s.msix := rfl
@[simp] theorem State.advance_fw (s : State) : (s.advance).fw = s.fw := rfl
@[simp] theorem State.advance_pkg (s : State) : (s.advance).pkg = s.pkg := rfl
@[simp] theorem State.advance_hub (s : State) : (s.advance).hub = s.hub := rfl
@[simp] theorem State.advance_spdm (s : State) : (s.advance).spdm = s.spdm := rfl
@[simp] theorem State.advance_cxlErr (s : State) : (s.advance).cxlErr = s.cxlErr := rfl
@[simp] theorem State.advance_hdmData (s : State) : (s.advance).hdmData = s.hdmData := rfl
@[simp] theorem State.advance_hostData (s : State) : (s.advance).hostData = s.hostData := rfl
@[simp] theorem State.advance_refClock (s : State) : (s.advance).refClock = s.refClock := rfl
@[simp] theorem State.advance_subNs (s : State) : (s.advance).subNs = s.subNs := rfl
@[simp] theorem State.advance_subG (s : State) : (s.advance).subG = s.subG := rfl
@[simp] theorem State.advance_hardErr (s : State) : (s.advance).hardErr = s.hardErr := rfl
@[simp] theorem State.advance_softErr (s : State) : (s.advance).softErr = s.softErr := rfl
@[simp] theorem State.advance_counted (s : State) : (s.advance).counted = s.counted := rfl
@[simp] theorem State.advance_lastSoft (s : State) : (s.advance).lastSoft = s.lastSoft := rfl
@[simp] theorem State.advance_tinvBusy (s : State) : (s.advance).tinvBusy = s.tinvBusy := rfl
@[simp] theorem State.advance_tinvErr (s : State) : (s.advance).tinvErr = s.tinvErr := rfl

/-! ## `setTile` -/

@[simp] theorem State.setTile_agenda (s : State) (p : Nat) (t : Tile) : (s.setTile p t).agenda = s.agenda := rfl
@[simp] theorem State.setTile_cur (s : State) (p : Nat) (t : Tile) : (s.setTile p t).cur = s.cur := rfl
@[simp] theorem State.setTile_freeCtr (s : State) (p : Nat) (t : Tile) : (s.setTile p t).freeCtr = s.freeCtr := rfl
@[simp] theorem State.setTile_nextId (s : State) (p : Nat) (t : Tile) : (s.setTile p t).nextId = s.nextId := rfl
@[simp] theorem State.setTile_live (s : State) (p : Nat) (t : Tile) : (s.setTile p t).live = s.live := rfl
@[simp] theorem State.setTile_cycle (s : State) (p : Nat) (t : Tile) : (s.setTile p t).cycle = s.cycle := rfl
@[simp] theorem State.setTile_gtime (s : State) (p : Nat) (t : Tile) : (s.setTile p t).gtime = s.gtime := rfl
@[simp] theorem State.setTile_booted (s : State) (p : Nat) (t : Tile) : (s.setTile p t).booted = s.booted := rfl
@[simp] theorem State.setTile_seedReg (s : State) (p : Nat) (t : Tile) : (s.setTile p t).seedReg = s.seedReg := rfl
@[simp] theorem State.setTile_mem (s : State) (p : Nat) (t : Tile) : (s.setTile p t).mem = s.mem := rfl
@[simp] theorem State.setTile_bad (s : State) (p : Nat) (t : Tile) : (s.setTile p t).bad = s.bad := rfl
@[simp] theorem State.setTile_cores (s : State) (p : Nat) (t : Tile) : (s.setTile p t).cores = s.cores := rfl
@[simp] theorem State.setTile_descs (s : State) (p : Nat) (t : Tile) : (s.setTile p t).descs = s.descs := rfl
@[simp] theorem State.setTile_queued (s : State) (p : Nat) (t : Tile) : (s.setTile p t).queued = s.queued := rfl
@[simp] theorem State.setTile_entered (s : State) (p : Nat) (t : Tile) : (s.setTile p t).entered = s.entered := rfl
@[simp] theorem State.setTile_flight (s : State) (p : Nat) (t : Tile) : (s.setTile p t).flight = s.flight := rfl
@[simp] theorem State.setTile_regions (s : State) (p : Nat) (t : Tile) : (s.setTile p t).regions = s.regions := rfl
@[simp] theorem State.setTile_roots (s : State) (p : Nat) (t : Tile) : (s.setTile p t).roots = s.roots := rfl
@[simp] theorem State.setTile_ccroots (s : State) (p : Nat) (t : Tile) : (s.setTile p t).ccroots = s.ccroots := rfl
@[simp] theorem State.setTile_ccrootm (s : State) (p : Nat) (t : Tile) : (s.setTile p t).ccrootm = s.ccrootm := rfl
@[simp] theorem State.setTile_tlb (s : State) (p : Nat) (t : Tile) : (s.setTile p t).tlb = s.tlb := rfl
@[simp] theorem State.setTile_netOps (s : State) (p : Nat) (t : Tile) : (s.setTile p t).netOps = s.netOps := rfl
@[simp] theorem State.setTile_mats (s : State) (p : Nat) (t : Tile) : (s.setTile p t).mats = s.mats := rfl
@[simp] theorem State.setTile_ctxs (s : State) (p : Nat) (t : Tile) : (s.setTile p t).ctxs = s.ctxs := rfl
@[simp] theorem State.setTile_plates (s : State) (p : Nat) (t : Tile) : (s.setTile p t).plates = s.plates := rfl
@[simp] theorem State.setTile_groups (s : State) (p : Nat) (t : Tile) : (s.setTile p t).groups = s.groups := rfl
@[simp] theorem State.setTile_queues (s : State) (p : Nat) (t : Tile) : (s.setTile p t).queues = s.queues := rfl
@[simp] theorem State.setTile_pops (s : State) (p : Nat) (t : Tile) : (s.setTile p t).pops = s.pops := rfl
@[simp] theorem State.setTile_admission (s : State) (p : Nat) (t : Tile) : (s.setTile p t).admission = s.admission := rfl
@[simp] theorem State.setTile_cancels (s : State) (p : Nat) (t : Tile) : (s.setTile p t).cancels = s.cancels := rfl
@[simp] theorem State.setTile_msix (s : State) (p : Nat) (t : Tile) : (s.setTile p t).msix = s.msix := rfl
@[simp] theorem State.setTile_fw (s : State) (p : Nat) (t : Tile) : (s.setTile p t).fw = s.fw := rfl
@[simp] theorem State.setTile_pkg (s : State) (p : Nat) (t : Tile) : (s.setTile p t).pkg = s.pkg := rfl
@[simp] theorem State.setTile_hub (s : State) (p : Nat) (t : Tile) : (s.setTile p t).hub = s.hub := rfl
@[simp] theorem State.setTile_spdm (s : State) (p : Nat) (t : Tile) : (s.setTile p t).spdm = s.spdm := rfl
@[simp] theorem State.setTile_cxlErr (s : State) (p : Nat) (t : Tile) : (s.setTile p t).cxlErr = s.cxlErr := rfl
@[simp] theorem State.setTile_hdmData (s : State) (p : Nat) (t : Tile) : (s.setTile p t).hdmData = s.hdmData := rfl
@[simp] theorem State.setTile_hostData (s : State) (p : Nat) (t : Tile) : (s.setTile p t).hostData = s.hostData := rfl
@[simp] theorem State.setTile_refClock (s : State) (p : Nat) (t : Tile) : (s.setTile p t).refClock = s.refClock := rfl
@[simp] theorem State.setTile_subNs (s : State) (p : Nat) (t : Tile) : (s.setTile p t).subNs = s.subNs := rfl
@[simp] theorem State.setTile_subG (s : State) (p : Nat) (t : Tile) : (s.setTile p t).subG = s.subG := rfl
@[simp] theorem State.setTile_hardErr (s : State) (p : Nat) (t : Tile) : (s.setTile p t).hardErr = s.hardErr := rfl
@[simp] theorem State.setTile_softErr (s : State) (p : Nat) (t : Tile) : (s.setTile p t).softErr = s.softErr := rfl
@[simp] theorem State.setTile_counted (s : State) (p : Nat) (t : Tile) : (s.setTile p t).counted = s.counted := rfl
@[simp] theorem State.setTile_lastSoft (s : State) (p : Nat) (t : Tile) : (s.setTile p t).lastSoft = s.lastSoft := rfl
@[simp] theorem State.setTile_tinvBusy (s : State) (p : Nat) (t : Tile) : (s.setTile p t).tinvBusy = s.tinvBusy := rfl
@[simp] theorem State.setTile_tinvErr (s : State) (p : Nat) (t : Tile) : (s.setTile p t).tinvErr = s.tinvErr := rfl

/-! ## `mapFiring` -/

@[simp] theorem State.mapFiring_agenda (s : State) (f : Firing → Firing) : (s.mapFiring f).agenda = s.agenda := rfl
@[simp] theorem State.mapFiring_cur (s : State) (f : Firing → Firing) : (s.mapFiring f).cur = s.cur := rfl
@[simp] theorem State.mapFiring_freeCtr (s : State) (f : Firing → Firing) : (s.mapFiring f).freeCtr = s.freeCtr := rfl
@[simp] theorem State.mapFiring_nextId (s : State) (f : Firing → Firing) : (s.mapFiring f).nextId = s.nextId := rfl
@[simp] theorem State.mapFiring_live (s : State) (f : Firing → Firing) : (s.mapFiring f).live = s.live := rfl
@[simp] theorem State.mapFiring_cycle (s : State) (f : Firing → Firing) : (s.mapFiring f).cycle = s.cycle := rfl
@[simp] theorem State.mapFiring_gtime (s : State) (f : Firing → Firing) : (s.mapFiring f).gtime = s.gtime := rfl
@[simp] theorem State.mapFiring_booted (s : State) (f : Firing → Firing) : (s.mapFiring f).booted = s.booted := rfl
@[simp] theorem State.mapFiring_seedReg (s : State) (f : Firing → Firing) : (s.mapFiring f).seedReg = s.seedReg := rfl
@[simp] theorem State.mapFiring_mem (s : State) (f : Firing → Firing) : (s.mapFiring f).mem = s.mem := rfl
@[simp] theorem State.mapFiring_bad (s : State) (f : Firing → Firing) : (s.mapFiring f).bad = s.bad := rfl
@[simp] theorem State.mapFiring_cores (s : State) (f : Firing → Firing) : (s.mapFiring f).cores = s.cores := rfl
@[simp] theorem State.mapFiring_descs (s : State) (f : Firing → Firing) : (s.mapFiring f).descs = s.descs := rfl
@[simp] theorem State.mapFiring_queued (s : State) (f : Firing → Firing) : (s.mapFiring f).queued = s.queued := rfl
@[simp] theorem State.mapFiring_entered (s : State) (f : Firing → Firing) : (s.mapFiring f).entered = s.entered := rfl
@[simp] theorem State.mapFiring_flight (s : State) (f : Firing → Firing) : (s.mapFiring f).flight = s.flight := rfl
@[simp] theorem State.mapFiring_regions (s : State) (f : Firing → Firing) : (s.mapFiring f).regions = s.regions := rfl
@[simp] theorem State.mapFiring_roots (s : State) (f : Firing → Firing) : (s.mapFiring f).roots = s.roots := rfl
@[simp] theorem State.mapFiring_ccroots (s : State) (f : Firing → Firing) : (s.mapFiring f).ccroots = s.ccroots := rfl
@[simp] theorem State.mapFiring_ccrootm (s : State) (f : Firing → Firing) : (s.mapFiring f).ccrootm = s.ccrootm := rfl
@[simp] theorem State.mapFiring_tlb (s : State) (f : Firing → Firing) : (s.mapFiring f).tlb = s.tlb := rfl
@[simp] theorem State.mapFiring_netOps (s : State) (f : Firing → Firing) : (s.mapFiring f).netOps = s.netOps := rfl
@[simp] theorem State.mapFiring_mats (s : State) (f : Firing → Firing) : (s.mapFiring f).mats = s.mats := rfl
@[simp] theorem State.mapFiring_ctxs (s : State) (f : Firing → Firing) : (s.mapFiring f).ctxs = s.ctxs := rfl
@[simp] theorem State.mapFiring_plates (s : State) (f : Firing → Firing) : (s.mapFiring f).plates = s.plates := rfl
@[simp] theorem State.mapFiring_groups (s : State) (f : Firing → Firing) : (s.mapFiring f).groups = s.groups := rfl
@[simp] theorem State.mapFiring_queues (s : State) (f : Firing → Firing) : (s.mapFiring f).queues = s.queues := rfl
@[simp] theorem State.mapFiring_pops (s : State) (f : Firing → Firing) : (s.mapFiring f).pops = s.pops := rfl
@[simp] theorem State.mapFiring_admission (s : State) (f : Firing → Firing) : (s.mapFiring f).admission = s.admission := rfl
@[simp] theorem State.mapFiring_cancels (s : State) (f : Firing → Firing) : (s.mapFiring f).cancels = s.cancels := rfl
@[simp] theorem State.mapFiring_msix (s : State) (f : Firing → Firing) : (s.mapFiring f).msix = s.msix := rfl
@[simp] theorem State.mapFiring_fw (s : State) (f : Firing → Firing) : (s.mapFiring f).fw = s.fw := rfl
@[simp] theorem State.mapFiring_pkg (s : State) (f : Firing → Firing) : (s.mapFiring f).pkg = s.pkg := rfl
@[simp] theorem State.mapFiring_hub (s : State) (f : Firing → Firing) : (s.mapFiring f).hub = s.hub := rfl
@[simp] theorem State.mapFiring_spdm (s : State) (f : Firing → Firing) : (s.mapFiring f).spdm = s.spdm := rfl
@[simp] theorem State.mapFiring_cxlErr (s : State) (f : Firing → Firing) : (s.mapFiring f).cxlErr = s.cxlErr := rfl
@[simp] theorem State.mapFiring_hdmData (s : State) (f : Firing → Firing) : (s.mapFiring f).hdmData = s.hdmData := rfl
@[simp] theorem State.mapFiring_hostData (s : State) (f : Firing → Firing) : (s.mapFiring f).hostData = s.hostData := rfl
@[simp] theorem State.mapFiring_refClock (s : State) (f : Firing → Firing) : (s.mapFiring f).refClock = s.refClock := rfl
@[simp] theorem State.mapFiring_subNs (s : State) (f : Firing → Firing) : (s.mapFiring f).subNs = s.subNs := rfl
@[simp] theorem State.mapFiring_subG (s : State) (f : Firing → Firing) : (s.mapFiring f).subG = s.subG := rfl
@[simp] theorem State.mapFiring_hardErr (s : State) (f : Firing → Firing) : (s.mapFiring f).hardErr = s.hardErr := rfl
@[simp] theorem State.mapFiring_softErr (s : State) (f : Firing → Firing) : (s.mapFiring f).softErr = s.softErr := rfl
@[simp] theorem State.mapFiring_counted (s : State) (f : Firing → Firing) : (s.mapFiring f).counted = s.counted := rfl
@[simp] theorem State.mapFiring_lastSoft (s : State) (f : Firing → Firing) : (s.mapFiring f).lastSoft = s.lastSoft := rfl
@[simp] theorem State.mapFiring_tinvBusy (s : State) (f : Firing → Firing) : (s.mapFiring f).tinvBusy = s.tinvBusy := rfl
@[simp] theorem State.mapFiring_tinvErr (s : State) (f : Firing → Firing) : (s.mapFiring f).tinvErr = s.tinvErr := rfl

/-! ## `mapTiles` -/

@[simp] theorem State.mapTiles_agenda (s : State) (f : Tile → Tile) : (s.mapTiles f).agenda = s.agenda := rfl
@[simp] theorem State.mapTiles_cur (s : State) (f : Tile → Tile) : (s.mapTiles f).cur = s.cur := rfl
@[simp] theorem State.mapTiles_freeCtr (s : State) (f : Tile → Tile) : (s.mapTiles f).freeCtr = s.freeCtr := rfl
@[simp] theorem State.mapTiles_nextId (s : State) (f : Tile → Tile) : (s.mapTiles f).nextId = s.nextId := rfl
@[simp] theorem State.mapTiles_live (s : State) (f : Tile → Tile) : (s.mapTiles f).live = s.live := rfl
@[simp] theorem State.mapTiles_cycle (s : State) (f : Tile → Tile) : (s.mapTiles f).cycle = s.cycle := rfl
@[simp] theorem State.mapTiles_gtime (s : State) (f : Tile → Tile) : (s.mapTiles f).gtime = s.gtime := rfl
@[simp] theorem State.mapTiles_booted (s : State) (f : Tile → Tile) : (s.mapTiles f).booted = s.booted := rfl
@[simp] theorem State.mapTiles_seedReg (s : State) (f : Tile → Tile) : (s.mapTiles f).seedReg = s.seedReg := rfl
@[simp] theorem State.mapTiles_mem (s : State) (f : Tile → Tile) : (s.mapTiles f).mem = s.mem := rfl
@[simp] theorem State.mapTiles_bad (s : State) (f : Tile → Tile) : (s.mapTiles f).bad = s.bad := rfl
@[simp] theorem State.mapTiles_cores (s : State) (f : Tile → Tile) : (s.mapTiles f).cores = s.cores := rfl
@[simp] theorem State.mapTiles_descs (s : State) (f : Tile → Tile) : (s.mapTiles f).descs = s.descs := rfl
@[simp] theorem State.mapTiles_queued (s : State) (f : Tile → Tile) : (s.mapTiles f).queued = s.queued := rfl
@[simp] theorem State.mapTiles_entered (s : State) (f : Tile → Tile) : (s.mapTiles f).entered = s.entered := rfl
@[simp] theorem State.mapTiles_flight (s : State) (f : Tile → Tile) : (s.mapTiles f).flight = s.flight := rfl
@[simp] theorem State.mapTiles_regions (s : State) (f : Tile → Tile) : (s.mapTiles f).regions = s.regions := rfl
@[simp] theorem State.mapTiles_roots (s : State) (f : Tile → Tile) : (s.mapTiles f).roots = s.roots := rfl
@[simp] theorem State.mapTiles_ccroots (s : State) (f : Tile → Tile) : (s.mapTiles f).ccroots = s.ccroots := rfl
@[simp] theorem State.mapTiles_ccrootm (s : State) (f : Tile → Tile) : (s.mapTiles f).ccrootm = s.ccrootm := rfl
@[simp] theorem State.mapTiles_tlb (s : State) (f : Tile → Tile) : (s.mapTiles f).tlb = s.tlb := rfl
@[simp] theorem State.mapTiles_netOps (s : State) (f : Tile → Tile) : (s.mapTiles f).netOps = s.netOps := rfl
@[simp] theorem State.mapTiles_mats (s : State) (f : Tile → Tile) : (s.mapTiles f).mats = s.mats := rfl
@[simp] theorem State.mapTiles_ctxs (s : State) (f : Tile → Tile) : (s.mapTiles f).ctxs = s.ctxs := rfl
@[simp] theorem State.mapTiles_plates (s : State) (f : Tile → Tile) : (s.mapTiles f).plates = s.plates := rfl
@[simp] theorem State.mapTiles_groups (s : State) (f : Tile → Tile) : (s.mapTiles f).groups = s.groups := rfl
@[simp] theorem State.mapTiles_queues (s : State) (f : Tile → Tile) : (s.mapTiles f).queues = s.queues := rfl
@[simp] theorem State.mapTiles_pops (s : State) (f : Tile → Tile) : (s.mapTiles f).pops = s.pops := rfl
@[simp] theorem State.mapTiles_admission (s : State) (f : Tile → Tile) : (s.mapTiles f).admission = s.admission := rfl
@[simp] theorem State.mapTiles_cancels (s : State) (f : Tile → Tile) : (s.mapTiles f).cancels = s.cancels := rfl
@[simp] theorem State.mapTiles_msix (s : State) (f : Tile → Tile) : (s.mapTiles f).msix = s.msix := rfl
@[simp] theorem State.mapTiles_fw (s : State) (f : Tile → Tile) : (s.mapTiles f).fw = s.fw := rfl
@[simp] theorem State.mapTiles_pkg (s : State) (f : Tile → Tile) : (s.mapTiles f).pkg = s.pkg := rfl
@[simp] theorem State.mapTiles_hub (s : State) (f : Tile → Tile) : (s.mapTiles f).hub = s.hub := rfl
@[simp] theorem State.mapTiles_spdm (s : State) (f : Tile → Tile) : (s.mapTiles f).spdm = s.spdm := rfl
@[simp] theorem State.mapTiles_cxlErr (s : State) (f : Tile → Tile) : (s.mapTiles f).cxlErr = s.cxlErr := rfl
@[simp] theorem State.mapTiles_hdmData (s : State) (f : Tile → Tile) : (s.mapTiles f).hdmData = s.hdmData := rfl
@[simp] theorem State.mapTiles_hostData (s : State) (f : Tile → Tile) : (s.mapTiles f).hostData = s.hostData := rfl
@[simp] theorem State.mapTiles_refClock (s : State) (f : Tile → Tile) : (s.mapTiles f).refClock = s.refClock := rfl
@[simp] theorem State.mapTiles_subNs (s : State) (f : Tile → Tile) : (s.mapTiles f).subNs = s.subNs := rfl
@[simp] theorem State.mapTiles_subG (s : State) (f : Tile → Tile) : (s.mapTiles f).subG = s.subG := rfl
@[simp] theorem State.mapTiles_hardErr (s : State) (f : Tile → Tile) : (s.mapTiles f).hardErr = s.hardErr := rfl
@[simp] theorem State.mapTiles_softErr (s : State) (f : Tile → Tile) : (s.mapTiles f).softErr = s.softErr := rfl
@[simp] theorem State.mapTiles_counted (s : State) (f : Tile → Tile) : (s.mapTiles f).counted = s.counted := rfl
@[simp] theorem State.mapTiles_lastSoft (s : State) (f : Tile → Tile) : (s.mapTiles f).lastSoft = s.lastSoft := rfl
@[simp] theorem State.mapTiles_tinvBusy (s : State) (f : Tile → Tile) : (s.mapTiles f).tinvBusy = s.tinvBusy := rfl
@[simp] theorem State.mapTiles_tinvErr (s : State) (f : Tile → Tile) : (s.mapTiles f).tinvErr = s.tinvErr := rfl

/-! ## `setRegion` -/

@[simp] theorem State.setRegion_agenda (s : State) (g : Nat) (r : Region) : (s.setRegion g r).agenda = s.agenda := rfl
@[simp] theorem State.setRegion_cur (s : State) (g : Nat) (r : Region) : (s.setRegion g r).cur = s.cur := rfl
@[simp] theorem State.setRegion_freeCtr (s : State) (g : Nat) (r : Region) : (s.setRegion g r).freeCtr = s.freeCtr := rfl
@[simp] theorem State.setRegion_nextId (s : State) (g : Nat) (r : Region) : (s.setRegion g r).nextId = s.nextId := rfl
@[simp] theorem State.setRegion_live (s : State) (g : Nat) (r : Region) : (s.setRegion g r).live = s.live := rfl
@[simp] theorem State.setRegion_cycle (s : State) (g : Nat) (r : Region) : (s.setRegion g r).cycle = s.cycle := rfl
@[simp] theorem State.setRegion_gtime (s : State) (g : Nat) (r : Region) : (s.setRegion g r).gtime = s.gtime := rfl
@[simp] theorem State.setRegion_booted (s : State) (g : Nat) (r : Region) : (s.setRegion g r).booted = s.booted := rfl
@[simp] theorem State.setRegion_seedReg (s : State) (g : Nat) (r : Region) : (s.setRegion g r).seedReg = s.seedReg := rfl
@[simp] theorem State.setRegion_mem (s : State) (g : Nat) (r : Region) : (s.setRegion g r).mem = s.mem := rfl
@[simp] theorem State.setRegion_bad (s : State) (g : Nat) (r : Region) : (s.setRegion g r).bad = s.bad := rfl
@[simp] theorem State.setRegion_cores (s : State) (g : Nat) (r : Region) : (s.setRegion g r).cores = s.cores := rfl
@[simp] theorem State.setRegion_tiles (s : State) (g : Nat) (r : Region) : (s.setRegion g r).tiles = s.tiles := rfl
@[simp] theorem State.setRegion_descs (s : State) (g : Nat) (r : Region) : (s.setRegion g r).descs = s.descs := rfl
@[simp] theorem State.setRegion_queued (s : State) (g : Nat) (r : Region) : (s.setRegion g r).queued = s.queued := rfl
@[simp] theorem State.setRegion_entered (s : State) (g : Nat) (r : Region) : (s.setRegion g r).entered = s.entered := rfl
@[simp] theorem State.setRegion_flight (s : State) (g : Nat) (r : Region) : (s.setRegion g r).flight = s.flight := rfl
@[simp] theorem State.setRegion_roots (s : State) (g : Nat) (r : Region) : (s.setRegion g r).roots = s.roots := rfl
@[simp] theorem State.setRegion_ccroots (s : State) (g : Nat) (r : Region) : (s.setRegion g r).ccroots = s.ccroots := rfl
@[simp] theorem State.setRegion_ccrootm (s : State) (g : Nat) (r : Region) : (s.setRegion g r).ccrootm = s.ccrootm := rfl
@[simp] theorem State.setRegion_tlb (s : State) (g : Nat) (r : Region) : (s.setRegion g r).tlb = s.tlb := rfl
@[simp] theorem State.setRegion_netOps (s : State) (g : Nat) (r : Region) : (s.setRegion g r).netOps = s.netOps := rfl
@[simp] theorem State.setRegion_mats (s : State) (g : Nat) (r : Region) : (s.setRegion g r).mats = s.mats := rfl
@[simp] theorem State.setRegion_ctxs (s : State) (g : Nat) (r : Region) : (s.setRegion g r).ctxs = s.ctxs := rfl
@[simp] theorem State.setRegion_plates (s : State) (g : Nat) (r : Region) : (s.setRegion g r).plates = s.plates := rfl
@[simp] theorem State.setRegion_groups (s : State) (g : Nat) (r : Region) : (s.setRegion g r).groups = s.groups := rfl
@[simp] theorem State.setRegion_queues (s : State) (g : Nat) (r : Region) : (s.setRegion g r).queues = s.queues := rfl
@[simp] theorem State.setRegion_pops (s : State) (g : Nat) (r : Region) : (s.setRegion g r).pops = s.pops := rfl
@[simp] theorem State.setRegion_admission (s : State) (g : Nat) (r : Region) : (s.setRegion g r).admission = s.admission := rfl
@[simp] theorem State.setRegion_cancels (s : State) (g : Nat) (r : Region) : (s.setRegion g r).cancels = s.cancels := rfl
@[simp] theorem State.setRegion_msix (s : State) (g : Nat) (r : Region) : (s.setRegion g r).msix = s.msix := rfl
@[simp] theorem State.setRegion_fw (s : State) (g : Nat) (r : Region) : (s.setRegion g r).fw = s.fw := rfl
@[simp] theorem State.setRegion_pkg (s : State) (g : Nat) (r : Region) : (s.setRegion g r).pkg = s.pkg := rfl
@[simp] theorem State.setRegion_hub (s : State) (g : Nat) (r : Region) : (s.setRegion g r).hub = s.hub := rfl
@[simp] theorem State.setRegion_spdm (s : State) (g : Nat) (r : Region) : (s.setRegion g r).spdm = s.spdm := rfl
@[simp] theorem State.setRegion_cxlErr (s : State) (g : Nat) (r : Region) : (s.setRegion g r).cxlErr = s.cxlErr := rfl
@[simp] theorem State.setRegion_hdmData (s : State) (g : Nat) (r : Region) : (s.setRegion g r).hdmData = s.hdmData := rfl
@[simp] theorem State.setRegion_hostData (s : State) (g : Nat) (r : Region) : (s.setRegion g r).hostData = s.hostData := rfl
@[simp] theorem State.setRegion_refClock (s : State) (g : Nat) (r : Region) : (s.setRegion g r).refClock = s.refClock := rfl
@[simp] theorem State.setRegion_subNs (s : State) (g : Nat) (r : Region) : (s.setRegion g r).subNs = s.subNs := rfl
@[simp] theorem State.setRegion_subG (s : State) (g : Nat) (r : Region) : (s.setRegion g r).subG = s.subG := rfl
@[simp] theorem State.setRegion_hardErr (s : State) (g : Nat) (r : Region) : (s.setRegion g r).hardErr = s.hardErr := rfl
@[simp] theorem State.setRegion_softErr (s : State) (g : Nat) (r : Region) : (s.setRegion g r).softErr = s.softErr := rfl
@[simp] theorem State.setRegion_counted (s : State) (g : Nat) (r : Region) : (s.setRegion g r).counted = s.counted := rfl
@[simp] theorem State.setRegion_lastSoft (s : State) (g : Nat) (r : Region) : (s.setRegion g r).lastSoft = s.lastSoft := rfl
@[simp] theorem State.setRegion_tinvBusy (s : State) (g : Nat) (r : Region) : (s.setRegion g r).tinvBusy = s.tinvBusy := rfl
@[simp] theorem State.setRegion_tinvErr (s : State) (g : Nat) (r : Region) : (s.setRegion g r).tinvErr = s.tinvErr := rfl

/-! ## `mapRegion` -/

@[simp] theorem State.mapRegion_agenda (s : State) (g : Nat) (f : Region → Region) : (s.mapRegion g f).agenda = s.agenda := rfl
@[simp] theorem State.mapRegion_cur (s : State) (g : Nat) (f : Region → Region) : (s.mapRegion g f).cur = s.cur := rfl
@[simp] theorem State.mapRegion_freeCtr (s : State) (g : Nat) (f : Region → Region) : (s.mapRegion g f).freeCtr = s.freeCtr := rfl
@[simp] theorem State.mapRegion_nextId (s : State) (g : Nat) (f : Region → Region) : (s.mapRegion g f).nextId = s.nextId := rfl
@[simp] theorem State.mapRegion_live (s : State) (g : Nat) (f : Region → Region) : (s.mapRegion g f).live = s.live := rfl
@[simp] theorem State.mapRegion_cycle (s : State) (g : Nat) (f : Region → Region) : (s.mapRegion g f).cycle = s.cycle := rfl
@[simp] theorem State.mapRegion_gtime (s : State) (g : Nat) (f : Region → Region) : (s.mapRegion g f).gtime = s.gtime := rfl
@[simp] theorem State.mapRegion_booted (s : State) (g : Nat) (f : Region → Region) : (s.mapRegion g f).booted = s.booted := rfl
@[simp] theorem State.mapRegion_seedReg (s : State) (g : Nat) (f : Region → Region) : (s.mapRegion g f).seedReg = s.seedReg := rfl
@[simp] theorem State.mapRegion_mem (s : State) (g : Nat) (f : Region → Region) : (s.mapRegion g f).mem = s.mem := rfl
@[simp] theorem State.mapRegion_bad (s : State) (g : Nat) (f : Region → Region) : (s.mapRegion g f).bad = s.bad := rfl
@[simp] theorem State.mapRegion_cores (s : State) (g : Nat) (f : Region → Region) : (s.mapRegion g f).cores = s.cores := rfl
@[simp] theorem State.mapRegion_tiles (s : State) (g : Nat) (f : Region → Region) : (s.mapRegion g f).tiles = s.tiles := rfl
@[simp] theorem State.mapRegion_descs (s : State) (g : Nat) (f : Region → Region) : (s.mapRegion g f).descs = s.descs := rfl
@[simp] theorem State.mapRegion_queued (s : State) (g : Nat) (f : Region → Region) : (s.mapRegion g f).queued = s.queued := rfl
@[simp] theorem State.mapRegion_entered (s : State) (g : Nat) (f : Region → Region) : (s.mapRegion g f).entered = s.entered := rfl
@[simp] theorem State.mapRegion_flight (s : State) (g : Nat) (f : Region → Region) : (s.mapRegion g f).flight = s.flight := rfl
@[simp] theorem State.mapRegion_roots (s : State) (g : Nat) (f : Region → Region) : (s.mapRegion g f).roots = s.roots := rfl
@[simp] theorem State.mapRegion_ccroots (s : State) (g : Nat) (f : Region → Region) : (s.mapRegion g f).ccroots = s.ccroots := rfl
@[simp] theorem State.mapRegion_ccrootm (s : State) (g : Nat) (f : Region → Region) : (s.mapRegion g f).ccrootm = s.ccrootm := rfl
@[simp] theorem State.mapRegion_tlb (s : State) (g : Nat) (f : Region → Region) : (s.mapRegion g f).tlb = s.tlb := rfl
@[simp] theorem State.mapRegion_netOps (s : State) (g : Nat) (f : Region → Region) : (s.mapRegion g f).netOps = s.netOps := rfl
@[simp] theorem State.mapRegion_mats (s : State) (g : Nat) (f : Region → Region) : (s.mapRegion g f).mats = s.mats := rfl
@[simp] theorem State.mapRegion_ctxs (s : State) (g : Nat) (f : Region → Region) : (s.mapRegion g f).ctxs = s.ctxs := rfl
@[simp] theorem State.mapRegion_plates (s : State) (g : Nat) (f : Region → Region) : (s.mapRegion g f).plates = s.plates := rfl
@[simp] theorem State.mapRegion_groups (s : State) (g : Nat) (f : Region → Region) : (s.mapRegion g f).groups = s.groups := rfl
@[simp] theorem State.mapRegion_queues (s : State) (g : Nat) (f : Region → Region) : (s.mapRegion g f).queues = s.queues := rfl
@[simp] theorem State.mapRegion_pops (s : State) (g : Nat) (f : Region → Region) : (s.mapRegion g f).pops = s.pops := rfl
@[simp] theorem State.mapRegion_admission (s : State) (g : Nat) (f : Region → Region) : (s.mapRegion g f).admission = s.admission := rfl
@[simp] theorem State.mapRegion_cancels (s : State) (g : Nat) (f : Region → Region) : (s.mapRegion g f).cancels = s.cancels := rfl
@[simp] theorem State.mapRegion_msix (s : State) (g : Nat) (f : Region → Region) : (s.mapRegion g f).msix = s.msix := rfl
@[simp] theorem State.mapRegion_fw (s : State) (g : Nat) (f : Region → Region) : (s.mapRegion g f).fw = s.fw := rfl
@[simp] theorem State.mapRegion_pkg (s : State) (g : Nat) (f : Region → Region) : (s.mapRegion g f).pkg = s.pkg := rfl
@[simp] theorem State.mapRegion_hub (s : State) (g : Nat) (f : Region → Region) : (s.mapRegion g f).hub = s.hub := rfl
@[simp] theorem State.mapRegion_spdm (s : State) (g : Nat) (f : Region → Region) : (s.mapRegion g f).spdm = s.spdm := rfl
@[simp] theorem State.mapRegion_cxlErr (s : State) (g : Nat) (f : Region → Region) : (s.mapRegion g f).cxlErr = s.cxlErr := rfl
@[simp] theorem State.mapRegion_hdmData (s : State) (g : Nat) (f : Region → Region) : (s.mapRegion g f).hdmData = s.hdmData := rfl
@[simp] theorem State.mapRegion_hostData (s : State) (g : Nat) (f : Region → Region) : (s.mapRegion g f).hostData = s.hostData := rfl
@[simp] theorem State.mapRegion_refClock (s : State) (g : Nat) (f : Region → Region) : (s.mapRegion g f).refClock = s.refClock := rfl
@[simp] theorem State.mapRegion_subNs (s : State) (g : Nat) (f : Region → Region) : (s.mapRegion g f).subNs = s.subNs := rfl
@[simp] theorem State.mapRegion_subG (s : State) (g : Nat) (f : Region → Region) : (s.mapRegion g f).subG = s.subG := rfl
@[simp] theorem State.mapRegion_hardErr (s : State) (g : Nat) (f : Region → Region) : (s.mapRegion g f).hardErr = s.hardErr := rfl
@[simp] theorem State.mapRegion_softErr (s : State) (g : Nat) (f : Region → Region) : (s.mapRegion g f).softErr = s.softErr := rfl
@[simp] theorem State.mapRegion_counted (s : State) (g : Nat) (f : Region → Region) : (s.mapRegion g f).counted = s.counted := rfl
@[simp] theorem State.mapRegion_lastSoft (s : State) (g : Nat) (f : Region → Region) : (s.mapRegion g f).lastSoft = s.lastSoft := rfl
@[simp] theorem State.mapRegion_tinvBusy (s : State) (g : Nat) (f : Region → Region) : (s.mapRegion g f).tinvBusy = s.tinvBusy := rfl
@[simp] theorem State.mapRegion_tinvErr (s : State) (g : Nat) (f : Region → Region) : (s.mapRegion g f).tinvErr = s.tinvErr := rfl

/-! ## `setDesc` -/

@[simp] theorem State.setDesc_agenda (s : State) (k : Nat) (d : Desc) : (s.setDesc k d).agenda = s.agenda := rfl
@[simp] theorem State.setDesc_cur (s : State) (k : Nat) (d : Desc) : (s.setDesc k d).cur = s.cur := rfl
@[simp] theorem State.setDesc_freeCtr (s : State) (k : Nat) (d : Desc) : (s.setDesc k d).freeCtr = s.freeCtr := rfl
@[simp] theorem State.setDesc_nextId (s : State) (k : Nat) (d : Desc) : (s.setDesc k d).nextId = s.nextId := rfl
@[simp] theorem State.setDesc_live (s : State) (k : Nat) (d : Desc) : (s.setDesc k d).live = s.live := rfl
@[simp] theorem State.setDesc_cycle (s : State) (k : Nat) (d : Desc) : (s.setDesc k d).cycle = s.cycle := rfl
@[simp] theorem State.setDesc_gtime (s : State) (k : Nat) (d : Desc) : (s.setDesc k d).gtime = s.gtime := rfl
@[simp] theorem State.setDesc_booted (s : State) (k : Nat) (d : Desc) : (s.setDesc k d).booted = s.booted := rfl
@[simp] theorem State.setDesc_seedReg (s : State) (k : Nat) (d : Desc) : (s.setDesc k d).seedReg = s.seedReg := rfl
@[simp] theorem State.setDesc_mem (s : State) (k : Nat) (d : Desc) : (s.setDesc k d).mem = s.mem := rfl
@[simp] theorem State.setDesc_bad (s : State) (k : Nat) (d : Desc) : (s.setDesc k d).bad = s.bad := rfl
@[simp] theorem State.setDesc_cores (s : State) (k : Nat) (d : Desc) : (s.setDesc k d).cores = s.cores := rfl
@[simp] theorem State.setDesc_tiles (s : State) (k : Nat) (d : Desc) : (s.setDesc k d).tiles = s.tiles := rfl
@[simp] theorem State.setDesc_queued (s : State) (k : Nat) (d : Desc) : (s.setDesc k d).queued = s.queued := rfl
@[simp] theorem State.setDesc_entered (s : State) (k : Nat) (d : Desc) : (s.setDesc k d).entered = s.entered := rfl
@[simp] theorem State.setDesc_flight (s : State) (k : Nat) (d : Desc) : (s.setDesc k d).flight = s.flight := rfl
@[simp] theorem State.setDesc_regions (s : State) (k : Nat) (d : Desc) : (s.setDesc k d).regions = s.regions := rfl
@[simp] theorem State.setDesc_roots (s : State) (k : Nat) (d : Desc) : (s.setDesc k d).roots = s.roots := rfl
@[simp] theorem State.setDesc_ccroots (s : State) (k : Nat) (d : Desc) : (s.setDesc k d).ccroots = s.ccroots := rfl
@[simp] theorem State.setDesc_ccrootm (s : State) (k : Nat) (d : Desc) : (s.setDesc k d).ccrootm = s.ccrootm := rfl
@[simp] theorem State.setDesc_tlb (s : State) (k : Nat) (d : Desc) : (s.setDesc k d).tlb = s.tlb := rfl
@[simp] theorem State.setDesc_netOps (s : State) (k : Nat) (d : Desc) : (s.setDesc k d).netOps = s.netOps := rfl
@[simp] theorem State.setDesc_mats (s : State) (k : Nat) (d : Desc) : (s.setDesc k d).mats = s.mats := rfl
@[simp] theorem State.setDesc_ctxs (s : State) (k : Nat) (d : Desc) : (s.setDesc k d).ctxs = s.ctxs := rfl
@[simp] theorem State.setDesc_plates (s : State) (k : Nat) (d : Desc) : (s.setDesc k d).plates = s.plates := rfl
@[simp] theorem State.setDesc_groups (s : State) (k : Nat) (d : Desc) : (s.setDesc k d).groups = s.groups := rfl
@[simp] theorem State.setDesc_queues (s : State) (k : Nat) (d : Desc) : (s.setDesc k d).queues = s.queues := rfl
@[simp] theorem State.setDesc_pops (s : State) (k : Nat) (d : Desc) : (s.setDesc k d).pops = s.pops := rfl
@[simp] theorem State.setDesc_admission (s : State) (k : Nat) (d : Desc) : (s.setDesc k d).admission = s.admission := rfl
@[simp] theorem State.setDesc_cancels (s : State) (k : Nat) (d : Desc) : (s.setDesc k d).cancels = s.cancels := rfl
@[simp] theorem State.setDesc_msix (s : State) (k : Nat) (d : Desc) : (s.setDesc k d).msix = s.msix := rfl
@[simp] theorem State.setDesc_fw (s : State) (k : Nat) (d : Desc) : (s.setDesc k d).fw = s.fw := rfl
@[simp] theorem State.setDesc_pkg (s : State) (k : Nat) (d : Desc) : (s.setDesc k d).pkg = s.pkg := rfl
@[simp] theorem State.setDesc_hub (s : State) (k : Nat) (d : Desc) : (s.setDesc k d).hub = s.hub := rfl
@[simp] theorem State.setDesc_spdm (s : State) (k : Nat) (d : Desc) : (s.setDesc k d).spdm = s.spdm := rfl
@[simp] theorem State.setDesc_cxlErr (s : State) (k : Nat) (d : Desc) : (s.setDesc k d).cxlErr = s.cxlErr := rfl
@[simp] theorem State.setDesc_hdmData (s : State) (k : Nat) (d : Desc) : (s.setDesc k d).hdmData = s.hdmData := rfl
@[simp] theorem State.setDesc_hostData (s : State) (k : Nat) (d : Desc) : (s.setDesc k d).hostData = s.hostData := rfl
@[simp] theorem State.setDesc_refClock (s : State) (k : Nat) (d : Desc) : (s.setDesc k d).refClock = s.refClock := rfl
@[simp] theorem State.setDesc_subNs (s : State) (k : Nat) (d : Desc) : (s.setDesc k d).subNs = s.subNs := rfl
@[simp] theorem State.setDesc_subG (s : State) (k : Nat) (d : Desc) : (s.setDesc k d).subG = s.subG := rfl
@[simp] theorem State.setDesc_hardErr (s : State) (k : Nat) (d : Desc) : (s.setDesc k d).hardErr = s.hardErr := rfl
@[simp] theorem State.setDesc_softErr (s : State) (k : Nat) (d : Desc) : (s.setDesc k d).softErr = s.softErr := rfl
@[simp] theorem State.setDesc_counted (s : State) (k : Nat) (d : Desc) : (s.setDesc k d).counted = s.counted := rfl
@[simp] theorem State.setDesc_lastSoft (s : State) (k : Nat) (d : Desc) : (s.setDesc k d).lastSoft = s.lastSoft := rfl
@[simp] theorem State.setDesc_tinvBusy (s : State) (k : Nat) (d : Desc) : (s.setDesc k d).tinvBusy = s.tinvBusy := rfl
@[simp] theorem State.setDesc_tinvErr (s : State) (k : Nat) (d : Desc) : (s.setDesc k d).tinvErr = s.tinvErr := rfl

/-! ## `wr` -/

@[simp] theorem State.wr_agenda (s : State) (k n v : Nat) : (s.wr k n v).agenda = s.agenda := rfl
@[simp] theorem State.wr_cur (s : State) (k n v : Nat) : (s.wr k n v).cur = s.cur := rfl
@[simp] theorem State.wr_freeCtr (s : State) (k n v : Nat) : (s.wr k n v).freeCtr = s.freeCtr := rfl
@[simp] theorem State.wr_nextId (s : State) (k n v : Nat) : (s.wr k n v).nextId = s.nextId := rfl
@[simp] theorem State.wr_live (s : State) (k n v : Nat) : (s.wr k n v).live = s.live := rfl
@[simp] theorem State.wr_cycle (s : State) (k n v : Nat) : (s.wr k n v).cycle = s.cycle := rfl
@[simp] theorem State.wr_gtime (s : State) (k n v : Nat) : (s.wr k n v).gtime = s.gtime := rfl
@[simp] theorem State.wr_booted (s : State) (k n v : Nat) : (s.wr k n v).booted = s.booted := rfl
@[simp] theorem State.wr_seedReg (s : State) (k n v : Nat) : (s.wr k n v).seedReg = s.seedReg := rfl
@[simp] theorem State.wr_cores (s : State) (k n v : Nat) : (s.wr k n v).cores = s.cores := rfl
@[simp] theorem State.wr_tiles (s : State) (k n v : Nat) : (s.wr k n v).tiles = s.tiles := rfl
@[simp] theorem State.wr_descs (s : State) (k n v : Nat) : (s.wr k n v).descs = s.descs := rfl
@[simp] theorem State.wr_queued (s : State) (k n v : Nat) : (s.wr k n v).queued = s.queued := rfl
@[simp] theorem State.wr_entered (s : State) (k n v : Nat) : (s.wr k n v).entered = s.entered := rfl
@[simp] theorem State.wr_flight (s : State) (k n v : Nat) : (s.wr k n v).flight = s.flight := rfl
@[simp] theorem State.wr_regions (s : State) (k n v : Nat) : (s.wr k n v).regions = s.regions := rfl
@[simp] theorem State.wr_roots (s : State) (k n v : Nat) : (s.wr k n v).roots = s.roots := rfl
@[simp] theorem State.wr_ccroots (s : State) (k n v : Nat) : (s.wr k n v).ccroots = s.ccroots := rfl
@[simp] theorem State.wr_ccrootm (s : State) (k n v : Nat) : (s.wr k n v).ccrootm = s.ccrootm := rfl
@[simp] theorem State.wr_tlb (s : State) (k n v : Nat) : (s.wr k n v).tlb = s.tlb := rfl
@[simp] theorem State.wr_netOps (s : State) (k n v : Nat) : (s.wr k n v).netOps = s.netOps := rfl
@[simp] theorem State.wr_mats (s : State) (k n v : Nat) : (s.wr k n v).mats = s.mats := rfl
@[simp] theorem State.wr_ctxs (s : State) (k n v : Nat) : (s.wr k n v).ctxs = s.ctxs := rfl
@[simp] theorem State.wr_plates (s : State) (k n v : Nat) : (s.wr k n v).plates = s.plates := rfl
@[simp] theorem State.wr_groups (s : State) (k n v : Nat) : (s.wr k n v).groups = s.groups := rfl
@[simp] theorem State.wr_queues (s : State) (k n v : Nat) : (s.wr k n v).queues = s.queues := rfl
@[simp] theorem State.wr_pops (s : State) (k n v : Nat) : (s.wr k n v).pops = s.pops := rfl
@[simp] theorem State.wr_admission (s : State) (k n v : Nat) : (s.wr k n v).admission = s.admission := rfl
@[simp] theorem State.wr_cancels (s : State) (k n v : Nat) : (s.wr k n v).cancels = s.cancels := rfl
@[simp] theorem State.wr_msix (s : State) (k n v : Nat) : (s.wr k n v).msix = s.msix := rfl
@[simp] theorem State.wr_fw (s : State) (k n v : Nat) : (s.wr k n v).fw = s.fw := rfl
@[simp] theorem State.wr_pkg (s : State) (k n v : Nat) : (s.wr k n v).pkg = s.pkg := rfl
@[simp] theorem State.wr_hub (s : State) (k n v : Nat) : (s.wr k n v).hub = s.hub := rfl
@[simp] theorem State.wr_spdm (s : State) (k n v : Nat) : (s.wr k n v).spdm = s.spdm := rfl
@[simp] theorem State.wr_cxlErr (s : State) (k n v : Nat) : (s.wr k n v).cxlErr = s.cxlErr := rfl
@[simp] theorem State.wr_hdmData (s : State) (k n v : Nat) : (s.wr k n v).hdmData = s.hdmData := rfl
@[simp] theorem State.wr_hostData (s : State) (k n v : Nat) : (s.wr k n v).hostData = s.hostData := rfl
@[simp] theorem State.wr_refClock (s : State) (k n v : Nat) : (s.wr k n v).refClock = s.refClock := rfl
@[simp] theorem State.wr_subNs (s : State) (k n v : Nat) : (s.wr k n v).subNs = s.subNs := rfl
@[simp] theorem State.wr_subG (s : State) (k n v : Nat) : (s.wr k n v).subG = s.subG := rfl
@[simp] theorem State.wr_hardErr (s : State) (k n v : Nat) : (s.wr k n v).hardErr = s.hardErr := rfl
@[simp] theorem State.wr_softErr (s : State) (k n v : Nat) : (s.wr k n v).softErr = s.softErr := rfl
@[simp] theorem State.wr_counted (s : State) (k n v : Nat) : (s.wr k n v).counted = s.counted := rfl
@[simp] theorem State.wr_lastSoft (s : State) (k n v : Nat) : (s.wr k n v).lastSoft = s.lastSoft := rfl
@[simp] theorem State.wr_tinvBusy (s : State) (k n v : Nat) : (s.wr k n v).tinvBusy = s.tinvBusy := rfl
@[simp] theorem State.wr_tinvErr (s : State) (k n v : Nat) : (s.wr k n v).tinvErr = s.tinvErr := rfl

/-! ## `zero` -/

@[simp] theorem State.zero_agenda (s : State) (k n : Nat) : (s.zero k n).agenda = s.agenda := rfl
@[simp] theorem State.zero_cur (s : State) (k n : Nat) : (s.zero k n).cur = s.cur := rfl
@[simp] theorem State.zero_freeCtr (s : State) (k n : Nat) : (s.zero k n).freeCtr = s.freeCtr := rfl
@[simp] theorem State.zero_nextId (s : State) (k n : Nat) : (s.zero k n).nextId = s.nextId := rfl
@[simp] theorem State.zero_live (s : State) (k n : Nat) : (s.zero k n).live = s.live := rfl
@[simp] theorem State.zero_cycle (s : State) (k n : Nat) : (s.zero k n).cycle = s.cycle := rfl
@[simp] theorem State.zero_gtime (s : State) (k n : Nat) : (s.zero k n).gtime = s.gtime := rfl
@[simp] theorem State.zero_booted (s : State) (k n : Nat) : (s.zero k n).booted = s.booted := rfl
@[simp] theorem State.zero_seedReg (s : State) (k n : Nat) : (s.zero k n).seedReg = s.seedReg := rfl
@[simp] theorem State.zero_cores (s : State) (k n : Nat) : (s.zero k n).cores = s.cores := rfl
@[simp] theorem State.zero_tiles (s : State) (k n : Nat) : (s.zero k n).tiles = s.tiles := rfl
@[simp] theorem State.zero_descs (s : State) (k n : Nat) : (s.zero k n).descs = s.descs := rfl
@[simp] theorem State.zero_queued (s : State) (k n : Nat) : (s.zero k n).queued = s.queued := rfl
@[simp] theorem State.zero_entered (s : State) (k n : Nat) : (s.zero k n).entered = s.entered := rfl
@[simp] theorem State.zero_flight (s : State) (k n : Nat) : (s.zero k n).flight = s.flight := rfl
@[simp] theorem State.zero_regions (s : State) (k n : Nat) : (s.zero k n).regions = s.regions := rfl
@[simp] theorem State.zero_roots (s : State) (k n : Nat) : (s.zero k n).roots = s.roots := rfl
@[simp] theorem State.zero_ccroots (s : State) (k n : Nat) : (s.zero k n).ccroots = s.ccroots := rfl
@[simp] theorem State.zero_ccrootm (s : State) (k n : Nat) : (s.zero k n).ccrootm = s.ccrootm := rfl
@[simp] theorem State.zero_tlb (s : State) (k n : Nat) : (s.zero k n).tlb = s.tlb := rfl
@[simp] theorem State.zero_netOps (s : State) (k n : Nat) : (s.zero k n).netOps = s.netOps := rfl
@[simp] theorem State.zero_mats (s : State) (k n : Nat) : (s.zero k n).mats = s.mats := rfl
@[simp] theorem State.zero_ctxs (s : State) (k n : Nat) : (s.zero k n).ctxs = s.ctxs := rfl
@[simp] theorem State.zero_plates (s : State) (k n : Nat) : (s.zero k n).plates = s.plates := rfl
@[simp] theorem State.zero_groups (s : State) (k n : Nat) : (s.zero k n).groups = s.groups := rfl
@[simp] theorem State.zero_queues (s : State) (k n : Nat) : (s.zero k n).queues = s.queues := rfl
@[simp] theorem State.zero_pops (s : State) (k n : Nat) : (s.zero k n).pops = s.pops := rfl
@[simp] theorem State.zero_admission (s : State) (k n : Nat) : (s.zero k n).admission = s.admission := rfl
@[simp] theorem State.zero_cancels (s : State) (k n : Nat) : (s.zero k n).cancels = s.cancels := rfl
@[simp] theorem State.zero_msix (s : State) (k n : Nat) : (s.zero k n).msix = s.msix := rfl
@[simp] theorem State.zero_fw (s : State) (k n : Nat) : (s.zero k n).fw = s.fw := rfl
@[simp] theorem State.zero_pkg (s : State) (k n : Nat) : (s.zero k n).pkg = s.pkg := rfl
@[simp] theorem State.zero_hub (s : State) (k n : Nat) : (s.zero k n).hub = s.hub := rfl
@[simp] theorem State.zero_spdm (s : State) (k n : Nat) : (s.zero k n).spdm = s.spdm := rfl
@[simp] theorem State.zero_cxlErr (s : State) (k n : Nat) : (s.zero k n).cxlErr = s.cxlErr := rfl
@[simp] theorem State.zero_hdmData (s : State) (k n : Nat) : (s.zero k n).hdmData = s.hdmData := rfl
@[simp] theorem State.zero_hostData (s : State) (k n : Nat) : (s.zero k n).hostData = s.hostData := rfl
@[simp] theorem State.zero_refClock (s : State) (k n : Nat) : (s.zero k n).refClock = s.refClock := rfl
@[simp] theorem State.zero_subNs (s : State) (k n : Nat) : (s.zero k n).subNs = s.subNs := rfl
@[simp] theorem State.zero_subG (s : State) (k n : Nat) : (s.zero k n).subG = s.subG := rfl
@[simp] theorem State.zero_hardErr (s : State) (k n : Nat) : (s.zero k n).hardErr = s.hardErr := rfl
@[simp] theorem State.zero_softErr (s : State) (k n : Nat) : (s.zero k n).softErr = s.softErr := rfl
@[simp] theorem State.zero_counted (s : State) (k n : Nat) : (s.zero k n).counted = s.counted := rfl
@[simp] theorem State.zero_lastSoft (s : State) (k n : Nat) : (s.zero k n).lastSoft = s.lastSoft := rfl
@[simp] theorem State.zero_tinvBusy (s : State) (k n : Nat) : (s.zero k n).tinvBusy = s.tinvBusy := rfl
@[simp] theorem State.zero_tinvErr (s : State) (k n : Nat) : (s.zero k n).tinvErr = s.tinvErr := rfl

/-! ## `retire` -/

@[simp] theorem State.retire_agenda (s : State) (i : Nat) : (s.retire i).agenda = s.agenda := rfl
@[simp] theorem State.retire_cur (s : State) (i : Nat) : (s.retire i).cur = s.cur := rfl
@[simp] theorem State.retire_freeCtr (s : State) (i : Nat) : (s.retire i).freeCtr = s.freeCtr := rfl
@[simp] theorem State.retire_nextId (s : State) (i : Nat) : (s.retire i).nextId = s.nextId := rfl
@[simp] theorem State.retire_cycle (s : State) (i : Nat) : (s.retire i).cycle = s.cycle := rfl
@[simp] theorem State.retire_gtime (s : State) (i : Nat) : (s.retire i).gtime = s.gtime := rfl
@[simp] theorem State.retire_booted (s : State) (i : Nat) : (s.retire i).booted = s.booted := rfl
@[simp] theorem State.retire_seedReg (s : State) (i : Nat) : (s.retire i).seedReg = s.seedReg := rfl
@[simp] theorem State.retire_mem (s : State) (i : Nat) : (s.retire i).mem = s.mem := rfl
@[simp] theorem State.retire_bad (s : State) (i : Nat) : (s.retire i).bad = s.bad := rfl
@[simp] theorem State.retire_cores (s : State) (i : Nat) : (s.retire i).cores = s.cores := rfl
@[simp] theorem State.retire_tiles (s : State) (i : Nat) : (s.retire i).tiles = s.tiles := rfl
@[simp] theorem State.retire_descs (s : State) (i : Nat) : (s.retire i).descs = s.descs := rfl
@[simp] theorem State.retire_queued (s : State) (i : Nat) : (s.retire i).queued = s.queued := rfl
@[simp] theorem State.retire_entered (s : State) (i : Nat) : (s.retire i).entered = s.entered := rfl
@[simp] theorem State.retire_flight (s : State) (i : Nat) : (s.retire i).flight = s.flight := rfl
@[simp] theorem State.retire_regions (s : State) (i : Nat) : (s.retire i).regions = s.regions := rfl
@[simp] theorem State.retire_roots (s : State) (i : Nat) : (s.retire i).roots = s.roots := rfl
@[simp] theorem State.retire_ccroots (s : State) (i : Nat) : (s.retire i).ccroots = s.ccroots := rfl
@[simp] theorem State.retire_ccrootm (s : State) (i : Nat) : (s.retire i).ccrootm = s.ccrootm := rfl
@[simp] theorem State.retire_tlb (s : State) (i : Nat) : (s.retire i).tlb = s.tlb := rfl
@[simp] theorem State.retire_netOps (s : State) (i : Nat) : (s.retire i).netOps = s.netOps := rfl
@[simp] theorem State.retire_mats (s : State) (i : Nat) : (s.retire i).mats = s.mats := rfl
@[simp] theorem State.retire_ctxs (s : State) (i : Nat) : (s.retire i).ctxs = s.ctxs := rfl
@[simp] theorem State.retire_plates (s : State) (i : Nat) : (s.retire i).plates = s.plates := rfl
@[simp] theorem State.retire_groups (s : State) (i : Nat) : (s.retire i).groups = s.groups := rfl
@[simp] theorem State.retire_queues (s : State) (i : Nat) : (s.retire i).queues = s.queues := rfl
@[simp] theorem State.retire_pops (s : State) (i : Nat) : (s.retire i).pops = s.pops := rfl
@[simp] theorem State.retire_admission (s : State) (i : Nat) : (s.retire i).admission = s.admission := rfl
@[simp] theorem State.retire_cancels (s : State) (i : Nat) : (s.retire i).cancels = s.cancels := rfl
@[simp] theorem State.retire_msix (s : State) (i : Nat) : (s.retire i).msix = s.msix := rfl
@[simp] theorem State.retire_fw (s : State) (i : Nat) : (s.retire i).fw = s.fw := rfl
@[simp] theorem State.retire_pkg (s : State) (i : Nat) : (s.retire i).pkg = s.pkg := rfl
@[simp] theorem State.retire_hub (s : State) (i : Nat) : (s.retire i).hub = s.hub := rfl
@[simp] theorem State.retire_spdm (s : State) (i : Nat) : (s.retire i).spdm = s.spdm := rfl
@[simp] theorem State.retire_cxlErr (s : State) (i : Nat) : (s.retire i).cxlErr = s.cxlErr := rfl
@[simp] theorem State.retire_hdmData (s : State) (i : Nat) : (s.retire i).hdmData = s.hdmData := rfl
@[simp] theorem State.retire_hostData (s : State) (i : Nat) : (s.retire i).hostData = s.hostData := rfl
@[simp] theorem State.retire_refClock (s : State) (i : Nat) : (s.retire i).refClock = s.refClock := rfl
@[simp] theorem State.retire_subNs (s : State) (i : Nat) : (s.retire i).subNs = s.subNs := rfl
@[simp] theorem State.retire_subG (s : State) (i : Nat) : (s.retire i).subG = s.subG := rfl
@[simp] theorem State.retire_hardErr (s : State) (i : Nat) : (s.retire i).hardErr = s.hardErr := rfl
@[simp] theorem State.retire_softErr (s : State) (i : Nat) : (s.retire i).softErr = s.softErr := rfl
@[simp] theorem State.retire_counted (s : State) (i : Nat) : (s.retire i).counted = s.counted := rfl
@[simp] theorem State.retire_lastSoft (s : State) (i : Nat) : (s.retire i).lastSoft = s.lastSoft := rfl
@[simp] theorem State.retire_tinvBusy (s : State) (i : Nat) : (s.retire i).tinvBusy = s.tinvBusy := rfl
@[simp] theorem State.retire_tinvErr (s : State) (i : Nat) : (s.retire i).tinvErr = s.tinvErr := rfl

/-! ## `tlbPut` -/

@[simp] theorem State.tlbPut_agenda (s : State) (k : Nat) (e : TlbEntry) : (s.tlbPut k e).agenda = s.agenda := rfl
@[simp] theorem State.tlbPut_cur (s : State) (k : Nat) (e : TlbEntry) : (s.tlbPut k e).cur = s.cur := rfl
@[simp] theorem State.tlbPut_freeCtr (s : State) (k : Nat) (e : TlbEntry) : (s.tlbPut k e).freeCtr = s.freeCtr := rfl
@[simp] theorem State.tlbPut_nextId (s : State) (k : Nat) (e : TlbEntry) : (s.tlbPut k e).nextId = s.nextId := rfl
@[simp] theorem State.tlbPut_live (s : State) (k : Nat) (e : TlbEntry) : (s.tlbPut k e).live = s.live := rfl
@[simp] theorem State.tlbPut_cycle (s : State) (k : Nat) (e : TlbEntry) : (s.tlbPut k e).cycle = s.cycle := rfl
@[simp] theorem State.tlbPut_gtime (s : State) (k : Nat) (e : TlbEntry) : (s.tlbPut k e).gtime = s.gtime := rfl
@[simp] theorem State.tlbPut_booted (s : State) (k : Nat) (e : TlbEntry) : (s.tlbPut k e).booted = s.booted := rfl
@[simp] theorem State.tlbPut_seedReg (s : State) (k : Nat) (e : TlbEntry) : (s.tlbPut k e).seedReg = s.seedReg := rfl
@[simp] theorem State.tlbPut_mem (s : State) (k : Nat) (e : TlbEntry) : (s.tlbPut k e).mem = s.mem := rfl
@[simp] theorem State.tlbPut_bad (s : State) (k : Nat) (e : TlbEntry) : (s.tlbPut k e).bad = s.bad := rfl
@[simp] theorem State.tlbPut_cores (s : State) (k : Nat) (e : TlbEntry) : (s.tlbPut k e).cores = s.cores := rfl
@[simp] theorem State.tlbPut_tiles (s : State) (k : Nat) (e : TlbEntry) : (s.tlbPut k e).tiles = s.tiles := rfl
@[simp] theorem State.tlbPut_descs (s : State) (k : Nat) (e : TlbEntry) : (s.tlbPut k e).descs = s.descs := rfl
@[simp] theorem State.tlbPut_queued (s : State) (k : Nat) (e : TlbEntry) : (s.tlbPut k e).queued = s.queued := rfl
@[simp] theorem State.tlbPut_entered (s : State) (k : Nat) (e : TlbEntry) : (s.tlbPut k e).entered = s.entered := rfl
@[simp] theorem State.tlbPut_flight (s : State) (k : Nat) (e : TlbEntry) : (s.tlbPut k e).flight = s.flight := rfl
@[simp] theorem State.tlbPut_regions (s : State) (k : Nat) (e : TlbEntry) : (s.tlbPut k e).regions = s.regions := rfl
@[simp] theorem State.tlbPut_roots (s : State) (k : Nat) (e : TlbEntry) : (s.tlbPut k e).roots = s.roots := rfl
@[simp] theorem State.tlbPut_ccroots (s : State) (k : Nat) (e : TlbEntry) : (s.tlbPut k e).ccroots = s.ccroots := rfl
@[simp] theorem State.tlbPut_ccrootm (s : State) (k : Nat) (e : TlbEntry) : (s.tlbPut k e).ccrootm = s.ccrootm := rfl
@[simp] theorem State.tlbPut_netOps (s : State) (k : Nat) (e : TlbEntry) : (s.tlbPut k e).netOps = s.netOps := rfl
@[simp] theorem State.tlbPut_mats (s : State) (k : Nat) (e : TlbEntry) : (s.tlbPut k e).mats = s.mats := rfl
@[simp] theorem State.tlbPut_ctxs (s : State) (k : Nat) (e : TlbEntry) : (s.tlbPut k e).ctxs = s.ctxs := rfl
@[simp] theorem State.tlbPut_plates (s : State) (k : Nat) (e : TlbEntry) : (s.tlbPut k e).plates = s.plates := rfl
@[simp] theorem State.tlbPut_groups (s : State) (k : Nat) (e : TlbEntry) : (s.tlbPut k e).groups = s.groups := rfl
@[simp] theorem State.tlbPut_queues (s : State) (k : Nat) (e : TlbEntry) : (s.tlbPut k e).queues = s.queues := rfl
@[simp] theorem State.tlbPut_pops (s : State) (k : Nat) (e : TlbEntry) : (s.tlbPut k e).pops = s.pops := rfl
@[simp] theorem State.tlbPut_admission (s : State) (k : Nat) (e : TlbEntry) : (s.tlbPut k e).admission = s.admission := rfl
@[simp] theorem State.tlbPut_cancels (s : State) (k : Nat) (e : TlbEntry) : (s.tlbPut k e).cancels = s.cancels := rfl
@[simp] theorem State.tlbPut_msix (s : State) (k : Nat) (e : TlbEntry) : (s.tlbPut k e).msix = s.msix := rfl
@[simp] theorem State.tlbPut_fw (s : State) (k : Nat) (e : TlbEntry) : (s.tlbPut k e).fw = s.fw := rfl
@[simp] theorem State.tlbPut_pkg (s : State) (k : Nat) (e : TlbEntry) : (s.tlbPut k e).pkg = s.pkg := rfl
@[simp] theorem State.tlbPut_hub (s : State) (k : Nat) (e : TlbEntry) : (s.tlbPut k e).hub = s.hub := rfl
@[simp] theorem State.tlbPut_spdm (s : State) (k : Nat) (e : TlbEntry) : (s.tlbPut k e).spdm = s.spdm := rfl
@[simp] theorem State.tlbPut_cxlErr (s : State) (k : Nat) (e : TlbEntry) : (s.tlbPut k e).cxlErr = s.cxlErr := rfl
@[simp] theorem State.tlbPut_hdmData (s : State) (k : Nat) (e : TlbEntry) : (s.tlbPut k e).hdmData = s.hdmData := rfl
@[simp] theorem State.tlbPut_hostData (s : State) (k : Nat) (e : TlbEntry) : (s.tlbPut k e).hostData = s.hostData := rfl
@[simp] theorem State.tlbPut_refClock (s : State) (k : Nat) (e : TlbEntry) : (s.tlbPut k e).refClock = s.refClock := rfl
@[simp] theorem State.tlbPut_subNs (s : State) (k : Nat) (e : TlbEntry) : (s.tlbPut k e).subNs = s.subNs := rfl
@[simp] theorem State.tlbPut_subG (s : State) (k : Nat) (e : TlbEntry) : (s.tlbPut k e).subG = s.subG := rfl
@[simp] theorem State.tlbPut_hardErr (s : State) (k : Nat) (e : TlbEntry) : (s.tlbPut k e).hardErr = s.hardErr := rfl
@[simp] theorem State.tlbPut_softErr (s : State) (k : Nat) (e : TlbEntry) : (s.tlbPut k e).softErr = s.softErr := rfl
@[simp] theorem State.tlbPut_counted (s : State) (k : Nat) (e : TlbEntry) : (s.tlbPut k e).counted = s.counted := rfl
@[simp] theorem State.tlbPut_lastSoft (s : State) (k : Nat) (e : TlbEntry) : (s.tlbPut k e).lastSoft = s.lastSoft := rfl
@[simp] theorem State.tlbPut_tinvBusy (s : State) (k : Nat) (e : TlbEntry) : (s.tlbPut k e).tinvBusy = s.tinvBusy := rfl
@[simp] theorem State.tlbPut_tinvErr (s : State) (k : Nat) (e : TlbEntry) : (s.tlbPut k e).tinvErr = s.tinvErr := rfl

/-! ## `countHard` -/

@[simp] theorem State.countHard_agenda (s : State) (die cls : Nat) : (s.countHard die cls).agenda = s.agenda := rfl
@[simp] theorem State.countHard_cur (s : State) (die cls : Nat) : (s.countHard die cls).cur = s.cur := rfl
@[simp] theorem State.countHard_freeCtr (s : State) (die cls : Nat) : (s.countHard die cls).freeCtr = s.freeCtr := rfl
@[simp] theorem State.countHard_nextId (s : State) (die cls : Nat) : (s.countHard die cls).nextId = s.nextId := rfl
@[simp] theorem State.countHard_live (s : State) (die cls : Nat) : (s.countHard die cls).live = s.live := rfl
@[simp] theorem State.countHard_cycle (s : State) (die cls : Nat) : (s.countHard die cls).cycle = s.cycle := rfl
@[simp] theorem State.countHard_gtime (s : State) (die cls : Nat) : (s.countHard die cls).gtime = s.gtime := rfl
@[simp] theorem State.countHard_booted (s : State) (die cls : Nat) : (s.countHard die cls).booted = s.booted := rfl
@[simp] theorem State.countHard_seedReg (s : State) (die cls : Nat) : (s.countHard die cls).seedReg = s.seedReg := rfl
@[simp] theorem State.countHard_mem (s : State) (die cls : Nat) : (s.countHard die cls).mem = s.mem := rfl
@[simp] theorem State.countHard_bad (s : State) (die cls : Nat) : (s.countHard die cls).bad = s.bad := rfl
@[simp] theorem State.countHard_cores (s : State) (die cls : Nat) : (s.countHard die cls).cores = s.cores := rfl
@[simp] theorem State.countHard_tiles (s : State) (die cls : Nat) : (s.countHard die cls).tiles = s.tiles := rfl
@[simp] theorem State.countHard_descs (s : State) (die cls : Nat) : (s.countHard die cls).descs = s.descs := rfl
@[simp] theorem State.countHard_queued (s : State) (die cls : Nat) : (s.countHard die cls).queued = s.queued := rfl
@[simp] theorem State.countHard_entered (s : State) (die cls : Nat) : (s.countHard die cls).entered = s.entered := rfl
@[simp] theorem State.countHard_flight (s : State) (die cls : Nat) : (s.countHard die cls).flight = s.flight := rfl
@[simp] theorem State.countHard_regions (s : State) (die cls : Nat) : (s.countHard die cls).regions = s.regions := rfl
@[simp] theorem State.countHard_roots (s : State) (die cls : Nat) : (s.countHard die cls).roots = s.roots := rfl
@[simp] theorem State.countHard_ccroots (s : State) (die cls : Nat) : (s.countHard die cls).ccroots = s.ccroots := rfl
@[simp] theorem State.countHard_ccrootm (s : State) (die cls : Nat) : (s.countHard die cls).ccrootm = s.ccrootm := rfl
@[simp] theorem State.countHard_tlb (s : State) (die cls : Nat) : (s.countHard die cls).tlb = s.tlb := rfl
@[simp] theorem State.countHard_netOps (s : State) (die cls : Nat) : (s.countHard die cls).netOps = s.netOps := rfl
@[simp] theorem State.countHard_mats (s : State) (die cls : Nat) : (s.countHard die cls).mats = s.mats := rfl
@[simp] theorem State.countHard_ctxs (s : State) (die cls : Nat) : (s.countHard die cls).ctxs = s.ctxs := rfl
@[simp] theorem State.countHard_plates (s : State) (die cls : Nat) : (s.countHard die cls).plates = s.plates := rfl
@[simp] theorem State.countHard_groups (s : State) (die cls : Nat) : (s.countHard die cls).groups = s.groups := rfl
@[simp] theorem State.countHard_queues (s : State) (die cls : Nat) : (s.countHard die cls).queues = s.queues := rfl
@[simp] theorem State.countHard_pops (s : State) (die cls : Nat) : (s.countHard die cls).pops = s.pops := rfl
@[simp] theorem State.countHard_admission (s : State) (die cls : Nat) : (s.countHard die cls).admission = s.admission := rfl
@[simp] theorem State.countHard_cancels (s : State) (die cls : Nat) : (s.countHard die cls).cancels = s.cancels := rfl
@[simp] theorem State.countHard_msix (s : State) (die cls : Nat) : (s.countHard die cls).msix = s.msix := rfl
@[simp] theorem State.countHard_fw (s : State) (die cls : Nat) : (s.countHard die cls).fw = s.fw := rfl
@[simp] theorem State.countHard_pkg (s : State) (die cls : Nat) : (s.countHard die cls).pkg = s.pkg := rfl
@[simp] theorem State.countHard_hub (s : State) (die cls : Nat) : (s.countHard die cls).hub = s.hub := rfl
@[simp] theorem State.countHard_spdm (s : State) (die cls : Nat) : (s.countHard die cls).spdm = s.spdm := rfl
@[simp] theorem State.countHard_cxlErr (s : State) (die cls : Nat) : (s.countHard die cls).cxlErr = s.cxlErr := rfl
@[simp] theorem State.countHard_hdmData (s : State) (die cls : Nat) : (s.countHard die cls).hdmData = s.hdmData := rfl
@[simp] theorem State.countHard_hostData (s : State) (die cls : Nat) : (s.countHard die cls).hostData = s.hostData := rfl
@[simp] theorem State.countHard_refClock (s : State) (die cls : Nat) : (s.countHard die cls).refClock = s.refClock := rfl
@[simp] theorem State.countHard_subNs (s : State) (die cls : Nat) : (s.countHard die cls).subNs = s.subNs := rfl
@[simp] theorem State.countHard_subG (s : State) (die cls : Nat) : (s.countHard die cls).subG = s.subG := rfl
@[simp] theorem State.countHard_softErr (s : State) (die cls : Nat) : (s.countHard die cls).softErr = s.softErr := rfl
@[simp] theorem State.countHard_lastSoft (s : State) (die cls : Nat) : (s.countHard die cls).lastSoft = s.lastSoft := rfl
@[simp] theorem State.countHard_tinvBusy (s : State) (die cls : Nat) : (s.countHard die cls).tinvBusy = s.tinvBusy := rfl
@[simp] theorem State.countHard_tinvErr (s : State) (die cls : Nat) : (s.countHard die cls).tinvErr = s.tinvErr := rfl

end Sys2Proof.Machine
end

