-- ==== Sys2Proof/Laws/Registers.lean ====
section
/-! SUPPORT. Laws of the cores' registers: what a write leaves and what it leaves unchanged, and how an instruction ends. -/

namespace Sys2Proof.Machine

/-! ## The invariant -/

theorem State.wf_mem {s : State} (h : s.wf = true) : Sparse.ok 0 s.mem = true := by
  simp only [State.wf, Bool.and_eq_true] at h; exact h.1

theorem State.wf_tables {s : State} (h : s.wf = true) : s.tablesRise = true := by
  simp only [State.wf, Bool.and_eq_true] at h; exact h.2

theorem State.wf_cores {s : State} (h : s.wf = true) : Sparse.rising s.cores = true := by
  simp only [State.wf, State.tablesRise, Bool.and_eq_true] at h; simp [h]

theorem State.wf_tiles {s : State} (h : s.wf = true) : Sparse.rising s.tiles = true := by
  simp only [State.wf, State.tablesRise, Bool.and_eq_true] at h; simp [h]

theorem State.wf_descs {s : State} (h : s.wf = true) : Sparse.rising s.descs = true := by
  simp only [State.wf, State.tablesRise, Bool.and_eq_true] at h; simp [h]

theorem State.wf_queued {s : State} (h : s.wf = true) : Sparse.rising s.queued = true := by
  simp only [State.wf, State.tablesRise, Bool.and_eq_true] at h; simp [h]

theorem State.wf_entered {s : State} (h : s.wf = true) : Sparse.rising s.entered = true := by
  simp only [State.wf, State.tablesRise, Bool.and_eq_true] at h; simp [h]

theorem State.wf_flight {s : State} (h : s.wf = true) : Sparse.rising s.flight = true := by
  simp only [State.wf, State.tablesRise, Bool.and_eq_true] at h; simp [h]

theorem State.wf_regions {s : State} (h : s.wf = true) : Sparse.rising s.regions = true := by
  simp only [State.wf, State.tablesRise, Bool.and_eq_true] at h; simp [h]

theorem State.wf_netOps {s : State} (h : s.wf = true) : Sparse.rising s.netOps = true := by
  simp only [State.wf, State.tablesRise, Bool.and_eq_true] at h; simp [h]

theorem State.wf_mats {s : State} (h : s.wf = true) : Sparse.rising s.mats = true := by
  simp only [State.wf, State.tablesRise, Bool.and_eq_true] at h; simp [h]

theorem State.wf_ctxs {s : State} (h : s.wf = true) : Sparse.rising s.ctxs = true := by
  simp only [State.wf, State.tablesRise, Bool.and_eq_true] at h; simp [h]

theorem State.wf_plates {s : State} (h : s.wf = true) : Sparse.rising s.plates = true := by
  simp only [State.wf, State.tablesRise, Bool.and_eq_true] at h; simp [h]

theorem State.wf_queues {s : State} (h : s.wf = true) : Sparse.rising s.queues = true := by
  simp only [State.wf, State.tablesRise, Bool.and_eq_true] at h; simp [h]

theorem State.wf_reset : State.reset.wf = true := by decide

/-! ## Cores -/

theorem State.core_setCore {s : State} (h : Sparse.rising s.cores = true) (c : Core) : (s.setCore c).core = c := Sparse.get_set_self h

theorem State.coreAt_setCore {s : State} (h : Sparse.rising s.cores = true) (c : Core) {n : Nat} (hn : n ≠ s.cur) :
    (s.setCore c).coreAt n = s.coreAt n := Sparse.get_set_ne h (Ne.symm hn)

theorem State.cores_setCore {s : State} (h : Sparse.rising s.cores = true) (c : Core) : Sparse.rising (s.setCore c).cores = true :=
  Sparse.set_rising h

theorem State.core_mapCore {s : State} (h : Sparse.rising s.cores = true) (f : Core → Core) : (s.mapCore f).core = f s.core :=
  State.core_setCore h _

theorem State.cores_mapCore {s : State} (h : Sparse.rising s.cores = true) (f : Core → Core) : Sparse.rising (s.mapCore f).cores = true :=
  Sparse.set_rising h

theorem State.coreAt_mapCore {s : State} (h : Sparse.rising s.cores = true) (f : Core → Core) {n : Nat} (hn : n ≠ s.cur) :
    (s.mapCore f).coreAt n = s.coreAt n := State.coreAt_setCore h _ hn

theorem State.coreAt_setCoreAt {s : State} (h : Sparse.rising s.cores = true) (n : Nat) (c : Core) : (s.setCoreAt n c).coreAt n = c :=
  Sparse.get_set_self h

theorem State.coreAt_setCoreAt_ne {s : State} (h : Sparse.rising s.cores = true) {n k : Nat} (c : Core) (hk : k ≠ n) :
    (s.setCoreAt n c).coreAt k = s.coreAt k := Sparse.get_set_ne h (Ne.symm hk)

/-! ## Registers of one core -/

theorem Core.sreg_zero (c : Core) : c.sreg 0 = 0 := rfl

theorem Core.sreg_setS (c : Core) {n : Nat} (hn : n < 32) (x : Word) : (c.setS n x).sreg n = if n = 0 then 0 else x := by
  by_cases h : n = 0 <;> simp [Core.setS, Core.sreg, h, hn]

theorem Core.sreg_setS_ne (c : Core) {n k : Nat} (x : Word) (h : k ≠ n) : (c.setS n x).sreg k = c.sreg k := by
  by_cases h0 : n = 0
  · simp [Core.setS, h0]
  · by_cases hk : k = 0
    · simp [Core.sreg, hk]
    · simp only [Core.setS, Core.sreg, h0, hk, if_false]; rw [Vector.getElem?_setIfInBounds_ne (Ne.symm h)]

theorem Core.setS_eq (c : Core) (n : Nat) (x : Word) : c.setS n x = { c with s := (c.setS n x).s } := by
  unfold Core.setS; split <;> rfl

theorem Core.preg_setP (c : Core) {n : Nat} (hn : n < 8) (x : Bool) : (c.setP n x).preg n = if n = 0 then true else x := by
  by_cases h : n = 0 <;> simp [Core.setP, Core.preg, h, hn]

theorem Core.preg_setP_ne (c : Core) {n k : Nat} (x : Bool) (h : k ≠ n) : (c.setP n x).preg k = c.preg k := by
  by_cases h0 : n = 0
  · simp [Core.setP, h0]
  · by_cases hk : k = 0
    · simp [Core.preg, hk]
    · simp only [Core.setP, Core.preg, h0, hk, if_false]; rw [Vector.getElem?_setIfInBounds_ne (Ne.symm h)]

theorem Core.setP_eq (c : Core) (n : Nat) (x : Bool) : c.setP n x = { c with p := (c.setP n x).p } := by
  unfold Core.setP; split <;> rfl

theorem Core.vreg_setV (c : Core) {n : Nat} (h32 : 32 ≤ n) (hn : n < 64) (x : VReg) : (c.setV n x).vreg n = x := by
  simp [Core.setV, Core.vreg, show n - 32 < 32 by omega]

theorem Core.vreg_setV_ne (c : Core) {n k : Nat} (x : VReg) (hn : 32 ≤ n) (hk : 32 ≤ k) (h : k ≠ n) : (c.setV n x).vreg k = c.vreg k := by
  simp only [Core.setV, Core.vreg]; rw [Vector.getElem?_setIfInBounds_ne (by omega)]

/-- The end of an instruction writes no register file. -/
theorem Core.advance_eq (c : Core) : c.advance = { c.settle with pc := c.advance.pc, rptst := c.advance.rptst, pair := c.advance.pair } := by
  unfold Core.advance; split <;> [rfl; (split <;> rfl)]

/-- The end of an instruction commutes with a change of a register file. -/
theorem Core.advance_s (c : Core) (v : Vector Word 32) : Core.advance { c with s := v } = { c.advance with s := v } := by
  unfold Core.advance
  cases hr : c.rep with
  | none => rfl
  | some n => by_cases h : c.rptDone + 1 < n <;> simp only [Core.settle, Core.rptDone] at h ⊢ <;> simp [h]

theorem Core.advance_p (c : Core) (v : Vector Bool 8) : Core.advance { c with p := v } = { c.advance with p := v } := by
  unfold Core.advance
  cases hr : c.rep with
  | none => rfl
  | some n => by_cases h : c.rptDone + 1 < n <;> simp only [Core.settle, Core.rptDone] at h ⊢ <;> simp [h]

theorem Core.advance_v (c : Core) (v : Vector VReg 32) (b : List Nat) :
    Core.advance { c with v := v, badReg := b } = { c.advance with v := v, badReg := b } := by
  unfold Core.advance
  cases hr : c.rep with
  | none => rfl
  | some n => by_cases h : c.rptDone + 1 < n <;> simp only [Core.settle, Core.rptDone] at h ⊢ <;> simp [h]

theorem Core.advance_setS (c : Core) (n : Nat) (x : Word) : (c.setS n x).advance = { c.advance with s := (c.setS n x).s } := by
  rw [Core.setS_eq, Core.advance_s]

theorem Core.advance_setP (c : Core) (n : Nat) (x : Bool) : (c.setP n x).advance = { c.advance with p := (c.setP n x).p } := by
  rw [Core.setP_eq, Core.advance_p]

theorem Core.advance_setV (c : Core) (n : Nat) (x : VReg) :
    (c.setV n x).advance = { c.advance with v := (c.setV n x).v, badReg := (c.setV n x).badReg } := Core.advance_v c _ _

/-- What a meaning that writes s register d and ends answers. -/
theorem State.core_putS {s : State} (h : Sparse.rising s.cores = true) (d : Nat) (x : Word) :
    ((s.setS d x).advance).core = { s.core.advance with s := (s.core.setS d x).s } := by
  rw [← Core.advance_setS, ← State.core_mapCore h (fun c => c.setS d x)]
  exact State.core_mapCore (State.cores_mapCore h _) _

theorem State.core_putP {s : State} (h : Sparse.rising s.cores = true) (d : Nat) (x : Bool) :
    ((s.setP d x).advance).core = { s.core.advance with p := (s.core.setP d x).p } := by
  rw [← Core.advance_setP, ← State.core_mapCore h (fun c => c.setP d x)]
  exact State.core_mapCore (State.cores_mapCore h _) _

theorem State.coreAt_mapCore_mapCore {s : State} (h : Sparse.rising s.cores = true) (f g : Core → Core) {n : Nat} (hn : n ≠ s.cur) :
    ((s.mapCore f).mapCore g).coreAt n = s.coreAt n := by
  rw [State.coreAt_mapCore (State.cores_mapCore h _) _ hn, State.coreAt_mapCore h _ hn]

end Sys2Proof.Machine
end

