-- ==== Sys2Proof/Laws/Shared.lean ====
section
/-! SUPPORT. One lemma for each shared operation that says what it does: how an instruction ends, waits and traps, and what the checks of an
access change. -/

namespace Sys2Proof.Machine

/-! ## Ends, waits and traps -/

theorem runM_ok {m : M Unit} {s t : State} (h : m s = .ok () t) : runM m s = .next t := by simp [runM, h]

theorem runM_trap {m : M Unit} {s t : State} {x : Trap} (h : m s = .error (.trap x) t) : runM m s = .next (t.takeTrap x) := by simp [runM, h]

theorem runM_wait {m : M Unit} {s t : State} (h : m s = .error .wait t) : runM m s = .next t := by simp [runM, h]

/-- An instruction written as an operation never faults or refuses. -/
theorem runM_next (m : M Unit) (s : State) : ∃ t, runM m s = .next t := by
  unfold runM; split <;> exact ⟨_, rfl⟩

theorem advanceM_eq (s : State) : advanceM s = .ok () s.advance := rfl

theorem raiseTrap_eq {α : Type} (t : Trap) (s : State) : (raiseTrap t : M α) s = .error (.trap t) s := rfl

theorem waitHere_eq {α : Type} (s : State) : (waitHere : M α) s = .error .wait s := rfl

/-- A sequence goes on where its first part ended. -/
theorem bind_ok {α β : Type} {m : M α} {f : α → M β} {s s1 : State} {x : α} (h : m s = .ok x s1) : (m >>= f) s = f x s1 := by
  simp [bind, EStateM.bind, h]

theorem bind_error {α β : Type} {m : M α} {f : α → M β} {s s1 : State} {e : Stop} (h : m s = .error e s1) : (m >>= f) s = .error e s1 := by
  simp [bind, EStateM.bind, h]

/-- R122: `waitOw` goes on when the set is performed, else waits; it changes nothing. -/
theorem waitOw_eq (ow : Nat) (s : State) : waitOw ow s = if s.setDone ow = true then .ok () s else .error .wait s := by
  unfold waitOw
  simp only [bind, EStateM.bind, get, getThe, MonadStateOf.get, EStateM.get]
  split <;> rfl

/-- R242: what a bounded wait does. -/
theorem boundedWait_eq (lim : Nat) (t : Trap) (s : State) : boundedWait lim t s =
    match s.core.waitFrom with
    | none => if lim = 0 then .error (.trap t) s else .error .wait (s.mapCore (fun c => { c with waitFrom := some (s.cycle, s.gtime) }))
    | some (c, _) => if lim ≤ s.cycle - c then .error (.trap t) s else .error .wait s := by
  unfold boundedWait
  simp only [bind, EStateM.bind, get, getThe, MonadStateOf.get, EStateM.get]
  cases s.core.waitFrom with
  | none => by_cases h : lim = 0 <;> simp [h] <;> rfl
  | some e => by_cases h : lim ≤ s.cycle - e.1 <;> simp [h] <;> rfl

/-- R324: an access waiting since a cycle for the bytes of an `sfetch`. -/
def State.sinceIssue (s : State) : State := s.mapCore (fun c => { c with issued := some (c.issued.getD s.cycle) })

/-- R324: the check of a pending `sfetch` changes nothing, but that a wait keeps the cycle of its issue. -/
theorem awaitFetch_state (k n : Nat) (s : State) :
    awaitFetch k n s = .ok () s ∨ awaitFetch k n s = .error .wait s.sinceIssue ∨ ∃ t, awaitFetch k n s = .error (.trap t) s := by
  unfold awaitFetch
  simp only [bind, EStateM.bind, get, getThe, MonadStateOf.get, EStateM.get]
  split
  · generalize List.filterMap _ _ = l
    cases l with
    | nil => exact .inl rfl
    | cons x xs =>
      dsimp only
      generalize List.foldl _ x xs = z
      by_cases h : z.2.2.accepted = true ∧ z.2.2.promise ≤ s.core.issued.getD s.cycle
      · simp only [h, and_self, if_true]; exact .inr (.inr ⟨_, rfl⟩)
      · simp only [h, if_false]; exact .inr (.inl rfl)
  · exact .inl rfl

/-- R194: a control core's trap changes that core alone. -/
theorem takeTrap_control {s : State} (h : 2048 ≤ s.cur) (t : Trap) : s.takeTrap t = s.mapCore (fun c => c.enter t false 0) := by
  simp [State.takeTrap, State.isFiring, show ¬ s.cur < 2048 by omega]

theorem takeTrap_control_core {s : State} (h : 2048 ≤ s.cur) (hr : Sparse.rising s.cores = true) (t : Trap) :
    (s.takeTrap t).core = s.core.enter t false 0 := by
  rw [takeTrap_control h]; exact State.core_mapCore hr _

/-- R362, R443: an instruction of an engine that completes gives D its status and OM's set an operation that is performed, and goes on. -/
theorem finish_eq (d om st : Nat) (s : State) :
    finish d om st s = .ok () ((((s.issueOp om false).2.retire (s.issueOp om false).1).setS d (word st)).advance) := rfl

/-! ## The checks of an access -/

/-- Nothing but what a table walk writes has changed, memory, the held translations and the error counters, and each keeps its canonical form. -/
structure WalkOnly (s t : State) : Prop where
  frame : t = { s with mem := t.mem, bad := t.bad, tlb := t.tlb, hardErr := t.hardErr, counted := t.counted }
  mem : Memory.wf s.mem = true → Memory.wf t.mem = true
  tlb : Sparse.rising s.tlb = true → Sparse.rising t.tlb = true
  hard : Sparse.rising s.hardErr = true → Sparse.rising t.hardErr = true
  counted : Sparse.rising s.counted = true → Sparse.rising t.counted = true

theorem WalkOnly.refl (s : State) : WalkOnly s s := ⟨rfl, id, id, id, id⟩

theorem WalkOnly.trans {s t u : State} (h : WalkOnly s t) (k : WalkOnly t u) : WalkOnly s u :=
  ⟨by rw [k.frame, h.frame], k.mem ∘ h.mem, k.tlb ∘ h.tlb, k.hard ∘ h.hard, k.counted ∘ h.counted⟩

theorem WalkOnly.tlbPut (s : State) (k : Nat) (e : TlbEntry) : WalkOnly s (s.tlbPut k e) := ⟨rfl, id, Sparse.set_rising, id, id⟩

theorem WalkOnly.countHard (s : State) (die cls : Nat) : WalkOnly s (s.countHard die cls) := ⟨rfl, id, id, Sparse.set_rising, Sparse.set_rising⟩

theorem WalkOnly.orPte (s : State) (tgt pa mask : Nat) : WalkOnly s (s.orPte tgt pa mask).2 :=
  ⟨by unfold State.orPte; split <;> rfl, State.orPte_wf, by unfold State.orPte; split <;> exact id, by unfold State.orPte; split <;> exact id,
   by unfold State.orPte; split <;> exact id⟩

theorem WalkOnly.foldl (f : State → Nat → State) (hf : ∀ s k, WalkOnly s (f s k)) (l : List Nat) : ∀ s, WalkOnly s (l.foldl f s) := by
  induction l with
  | nil => exact fun s => WalkOnly.refl s
  | cons k l ih => exact fun s => (hf s k).trans (ih _)

theorem translate_walkOnly (s : State) (agent region va : Nat) : WalkOnly s (s.translate agent region va).2 := by
  unfold State.translate
  split
  dsimp only
  split
  · exact WalkOnly.foldl _ (fun s k => by split <;> [exact .refl s; exact .tlbPut s k _]) _ s
  · split
    · exact .refl s
    · exact .countHard s _ _
    · split
      · exact WalkOnly.foldl _ (fun s k => .tlbPut s k _) _ s
      · split
        · exact .orPte s _ _ _
        · exact (WalkOnly.orPte s _ _ _).trans (WalkOnly.foldl _ (fun s k => .tlbPut s k _) _ _)

theorem useLeaf_walkOnly (s : State) (agent va : Nat) (e : TlbEntry) (rw : Rw) (cc : Bool) : WalkOnly s (s.useLeaf agent va e rw cc).2 := by
  have h := WalkOnly.orPte s e.pteTgt e.pteAddr 0x60
  unfold State.useLeaf
  dsimp only
  split
  · exact .refl s
  · split
    · split
      · exact .countHard s _ _
      · split
        · exact h
        · split
          · exact h
          · split
            · exact h
            · rename_i e' _
              have k := h.trans (WalkOnly.foldl (fun s k => s.tlbPut k e') (fun s k => .tlbPut s k e') (cachesOf agent) _)
              split <;> exact k
    · exact .refl s

theorem access_walkOnly (s : State) (agent region va : Nat) (rw : Rw) (cc : Bool) : WalkOnly s (s.access agent region va rw cc).2 := by
  have h := translate_walkOnly s agent region va
  unfold State.access
  split
  · rename_i heq; rw [heq] at h; exact h
  · rename_i heq; rw [heq] at h; exact h
  · rename_i heq; rw [heq] at h; exact h.trans (useLeaf_walkOnly _ _ _ _ _ _)

/-- The state an operation ends or stops in. -/
def stateOf {ε α : Type} : EStateM.Result ε State α → State
  | .ok _ s => s
  | .error _ s => s

/-- R115: whatever the checks of an access answer, nothing but what a table walk writes has changed. -/
theorem checkAccess_walkOnly (reach : Reach) (rw : Rw) (n align : Nat) (ea : Word) (s : State) :
    WalkOnly s (stateOf (checkAccess reach rw n align ea s)) := by
  unfold checkAccess
  simp only [bind, EStateM.bind, get, getThe, MonadStateOf.get, EStateM.get]
  cases s.locate reach n ea.toNat with
  | error e => exact .refl s
  | ok spot =>
    by_cases ha : ea.toNat % align ≠ 0
    · simp only [ha, ne_eq, not_false_eq_true, if_true]; exact .refl s
    · simp only [ha, if_false]
      cases spot with
      | tile p off => exact .refl s
      | group g off => exact .refl s
      | system a => exact .refl s
      | translated va =>
        have h := access_walkOnly s s.cur (s.regionOf s.cur) va rw (!s.isFiring)
        dsimp only [set, MonadStateOf.set, EStateM.set, EStateM.bind]
        cases (s.access s.cur (s.regionOf s.cur) va rw (!s.isFiring)).1 <;> exact h

/-- The cores, the tiles and everything but memory, translations and error counters are as before an access that passed its checks. -/
theorem checkAccess_ok {reach : Reach} {rw : Rw} {n align : Nat} {ea : Word} {s t : State} {pl : Place}
    (h : checkAccess reach rw n align ea s = .ok pl t) : WalkOnly s t := by
  simpa [h, stateOf] using checkAccess_walkOnly reach rw n align ea s

theorem checkAccess_error {reach : Reach} {rw : Rw} {n align : Nat} {ea : Word} {s t : State} {e : Stop}
    (h : checkAccess reach rw n align ea s = .error e t) : WalkOnly s t := by
  simpa [h, stateOf] using checkAccess_walkOnly reach rw n align ea s

theorem WalkOnly.cores {s t : State} (h : WalkOnly s t) : t.cores = s.cores := by rw [h.frame]
theorem WalkOnly.tiles {s t : State} (h : WalkOnly s t) : t.tiles = s.tiles := by rw [h.frame]
theorem WalkOnly.regions {s t : State} (h : WalkOnly s t) : t.regions = s.regions := by rw [h.frame]
theorem WalkOnly.live {s t : State} (h : WalkOnly s t) : t.live = s.live := by rw [h.frame]

/-- The invariant is kept. -/
theorem WalkOnly.wf {s t : State} (h : WalkOnly s t) (hs : s.wf = true) : t.wf = true := by
  have hm := h.mem; have ht := h.tlb; have hh := h.hard; have hc := h.counted
  rw [h.frame]
  simp only [State.wf, State.tablesRise, Bool.and_eq_true] at hs ⊢
  simp_all

end Sys2Proof.Machine
end

