-- ==== Sys2Proof/Tests/Slice0.lean ====
section
/-! SUPPORT. Tests: what the decoder reads from words written out from the spec, what well-formedness refuses, and states that meet the
hypotheses of the statements. -/

namespace Sys2Proof.Tests

set_option Elab.async false

open Sys2Proof.Machine Sys2Proof.Claims

/-! ## States -/

/-- What an operation answers, where it does not stop; and where it stops. -/
def answered {ε α : Type} (r : EStateM.Result ε State α) : Option (α × State) :=
  match r with
  | .ok a s => some (a, s)
  | .error _ _ => none

def stopped {ε α : Type} (r : EStateM.Result ε State α) : Option (ε × State) :=
  match r with
  | .ok _ _ => none
  | .error e s => some (e, s)

theorem answered_ok {ε α : Type} {r : EStateM.Result ε State α} {a : α} {s : State} (h : answered r = some (a, s)) : r = .ok a s := by
  cases r <;> simp_all [answered]

theorem stopped_error {ε α : Type} {r : EStateM.Result ε State α} {e : ε} {s : State} (h : stopped r = some (e, s)) : r = .error e s := by
  cases r <;> simp_all [stopped]

/-- The state after an outcome; none where there is no next state. -/
def after (o : Out) : Option State :=
  match o with
  | .next s => some s
  | _ => none

/-- Control core 0 at level M, after boot, with numbers in s5 to s7. -/
def ctl : State :=
  let s : State := { State.reset with booted := true, cores := [(2048, { pc := 0x100, running := true })] }
  ((s.setS 5 30).setS 6 12).setS 7 5

/-- Tile 0 of a running instance of region 0, its slot 0 firing. -/
def fir : State :=
  let s : State := { State.reset with
    cur := 0, booted := true, tiles := [(0, { firing := some {}, slots := #v[{ st := .firing }, {}, {}, {}, {}, {}, {}, {}] })]
    regions := [(0, { live := true, npl := 1, map := [0], started := true })] }
  ((s.setS 5 30).setS 6 12).setS 7 5

/-- A core whose program counter's word is w. -/
def at_ (s : State) (w : Nat) : State := if s.isFiring then s.wr (imemBase s.cur + s.core.pc.toNat) 8 w else s.wr (privBase 0) 8 w

/-- Control core 0 with its program counter in its private memory. -/
def ctlAt (w : Nat) : State := at_ (ctl.mapCore (fun c => { c with pc := 0xF40000000000 })) w

/-- The firing core of `fir` at the word w. -/
def firAt (w : Nat) : State := at_ fir w

theorem test_states_wf : ctl.wf = true ∧ fir.wf = true ∧ (ctlAt 1).wf = true ∧ (firAt 1).wf = true := by decide +kernel

/-! ## Decoding

The words come from the worked encodings of the chapters, and, where a major opcode has none there, from its format (R137) and its codes
(R143): MAJ · 2^56 + FN · 2^46 + D · 2^40 + A · 2^34 + B · 2^28 + the low fields. -/

/-- Every word of a list reads as its instruction. -/
def reads (l : List (Nat × Instr)) : Prop := ∀ p ∈ l, decode p.1 = some p.2

theorem test_decode_control_flow : reads [(0x0100000000000000, .nop), (0x20000003FFFFFFF9, .br 0x3FFFFFFF9), (0x20F000000000000A, .br 10),
    (0x2000DF2400000000, .jrl 31 9 0), (0xE000D50000000000, .rpt 3 1 1 1 0)] := by unfold reads; decide +kernel

theorem test_decode_arithmetic : reads [(0x0200051870000000, .add 5 6 7), (0x0200851870000000, .mul 5 6 7), (0x0202451872000000, .madd 5 6 7 8),
    (0x0302C51872000000, .sel 5 6 7 8), (0x0400051800000000, .clz 5 6), (0x0401851800000308, .bfx 5 6 8 12)] := by unfold reads; decide +kernel

theorem test_decode_addresses : reads [(0x05000518701FFFFF, .lea 5 6 7 0x7FFFF 3), (0x0500451000000040, .tla 5 4 0 0x40),
    (0x1002050001280040, .li 5 0x1280040), (0x1002451400003C40, .lih 5 5 0x3C40)] := by unfold reads; decide +kernel

theorem test_decode_predicates : reads [(0x1800011460000000, .ceq 1 5 6), (0x19000117FFFFFFFE, .ceqi 1 5 0x3FFFFFFFE),
    (0x1A00010830000000, .pand 1 2 3), (0x1A01420000000001, .pset 2 1)] := by unfold reads; decide +kernel

theorem test_decode_memory : reads [(0x2801840C00000004, .ldd 4 3 0 0 0 4), (0x2900850C00100000, .stw 5 3 0 1 0 0),
    (0x3000070C80000008, .aadd 7 3 8 0 0 0 8), (0x3400400000040000, .fenceRel 0 4), (0x3401400000400000, .oclr 4)] := by
  unfold reads; decide +kernel

theorem test_decode_system : reads [(0x3800850000000000, .sysr 5 0), (0x3800C0180000000B, .sysw 6 11), (0x3800400000000000, .tret)] := by
  unfold reads; decide +kernel

theorem test_decode_vector : reads [(0x4000218A30148000, .vadd 33 34 35 5 1), (0x4100A18A30000000, .vxor 33 34 35 0),
    (0x4200209280300000, .vfadd 32 36 40 12 0 0), (0x4300218A30300000, .vfdiv 33 34 35 12 0 0), (0x440021880028000C, .vcvt 33 34 10 0 0 12)] := by
  unfold reads; decide +kernel

theorem test_decode_vector_moves : reads [(0x4500018880140002, .vcmp 1 34 8 5 0 0 2), (0x4600010830000000, .mand 1 2 3),
    (0x4601090400000000, .mpop 9 1), (0x4700611800140000, .vbcast 33 6 5 0 0), (0x4801A18400140000, .vscan 33 33 5 0 0 0)] := by
  unfold reads; decide +kernel

theorem test_decode_vector_memory : reads [(0x4900210C0120C001, .vld 33 3 1 2 0 12 0 1), (0x4A00640E30005200, .vaor 36 3 35 0 0 0 5 1 0)] := by
  unfold reads; decide +kernel

theorem test_decode_arc : reads [(0x7000211800000800, .wld 33 6 0 0 0 0 0 2 0), (0x7000450000000400, .wlds 5 0 0 0 0 0 0 1 0),
    (0x7000A20000008800, .wst 34 0 0 0 0 0 8 2 0), (0x7001801460001000, .wwait 5 6 1), (0x7002800000000000, .fend),
    (0x7003070000000000, .wovf 7 0)] := by unfold reads; decide +kernel

theorem test_decode_network : reads [(0x8000451800008008, .rst 5 6 0 0 0 2 8), (0x8100623000000000, .ovst 34 12 0 0 0 0 0 0),
    (0x8200892880030000, .barw 9 10 8 0 0 3)] := by unfold reads; decide +kernel

theorem test_decode_matrix : reads [(0x9000000000000003, .mclaim 0 0 0 0 0 3), (0x90008224A200F800, .mld 2 9 10 2 0 0 31),
    (0x9002400C00104400, .mdrain 0 3 0 1 0 1 4 0 0), (0x9002800000000000, .mwait)] := by unfold reads; decide +kernel

theorem test_decode_streamer : reads [(0xA000002400000100, .sbind 9 0 0 0 1), (0xA0008524A0030200, .sfetch 5 9 10 0 0 3 2),
    (0xA001400000000300, .sresume 3), (0xA001870000000301, .sstat 7 3 1)] := by unfold reads; decide +kernel

theorem test_decode_configuration : reads [(0xB0004750A0000000, .pull 7 20 10 0 0), (0xB000C95000000001, .qstat 9 20 0 0 1),
    (0xB001092000000000, .palloc 9 8 0 0)] := by unfold reads; decide +kernel

theorem test_decode_hub : reads [(0xB80005187000C000, .xld 5 6 7 0 0 0 3 0), (0xB800481870008000, .xst 8 6 7 0 0 0 2),
    (0xB801062CD0000000, .edwait 6 11 13 0 0 0), (0xB80162187000A000, .xovld 34 6 7 0 0 0 10 0 0), (0xB801862800000000, .rkreg 6 10 0 0 0),
    (0xB801C52400000000, .rkrev 5 9 0 0 0)] := by unfold reads; decide +kernel

theorem test_decode_control : reads [(0xC002050000000001, .fwverify 5 0 0 1), (0xC002C51800000000, .hbeat 5 6 0 0),
    (0xC000051870000000, .qpop 5 6 7 0 0)] := by unfold reads; decide +kernel

/-- Words that name no instruction, with the reason and the bit that the table of R147 gives. -/
theorem test_decode_refused : ∀ p ∈ [((0 : Nat), (1 : Nat), (0 : Nat)), (0x0303000000000000, 3, 0), (0x0100000000000001, 4, 0),
    (0x0200211870000000, 6, 40), (0x2801080C012C0010, 9, 16), (0xD000000000000000, 12, 0), (0xE010000000000000, 5, 0), (0x7F00000000000000, 2, 0)],
    decode p.1 = none ∧ wordFault .firing p.1 = some (p.2.1, p.2.2) := by decide +kernel

/-- R145: a control core has no vector engine; a firing core may not execute `pull`, nor `fwswitch` a core at level S. -/
theorem test_core_kinds : wordFault .control 0x4000218A30148000 = some (13, 0) ∧ privFault .firing false 0xB0004750A0000000 = some 1 ∧
    privFault .control false 0xC002855000000001 = some 2 ∧ privFault .control true 0xC002855000000001 = none := by decide +kernel

/-- The encoder writes the words of the worked encodings (R137). -/
theorem test_encode : encode ⟨true, 2⟩ (.add 5 6 7) = some 0x02A0051870000000 ∧ encode ⟨false, 1⟩ (.weos 0) = some 0x7012000000000000 ∧
    encode ⟨false, 0⟩ (.mma 0 0 2 0 0 0 1 4 10 0 1 1) = some 0x9001C000200044A3 ∧
    encode ⟨false, 0⟩ (.xamo 9 6 7 0 0 0 3 0 9 10) = some 0xB80089187000D250 ∧
    encode ⟨false, 0⟩ (.drainFlush 6 20 10 0 0) = some 0xB0008650A0000001 := by decide +kernel

/-! ## Well-formedness

One ill-formed term for each check of `Instr.wf`: a register code beyond its kind, an operand beyond its field, a type, rounding or scope
code that the chapter does not accept, a limit of the chapter broken, an event of a thing that does not exist. The terms differ from well-formed
ones in the operand checked alone. -/

theorem test_illFormed_1 : ∀ i ∈ ([.add 32 1 1, .bfx 1 1 64 4, .bfx 1 1 0 128, .bfx 1 1 61 4, .lea 1 1 1 524288 0, .lea 1 1 1 0 8, .tla 1
    1 1 4194304, .addi 1 1 17179869184, .slli 1 1 64, .lih 1 1 1073741824, .ceq 8 1 1, .pset 1 2, .ldb 1 1 16 0 0 0, .ldb 1 1 0 0 0 65536,
    .ldb 1 1 0 0 15 0, .fenceAcq 0 15, .fenceAcq 1 0, .ojoin 16 1 1, .ojoin 0 1 1, .owait 0 0, .oclr 0, .trap 1 1 0] : List Instr),
    i.wf = false := by decide +kernel

theorem test_illFormed_2 : ∀ i ∈ ([.sysr 1 31, .vadd 5 33 33 5 0, .vadd 33 33 64 5 0, .vadd 33 33 33 15 0, .vmin 33 33 33 15 0, .vminn 33
    33 33 15 0, .vlop4 33 33 33 33 0 0 4096, .vfadd 33 33 33 15 0 0, .vfadd 33 33 33 12 0 7, .vfmin 33 33 33 12 0 7, .vdot2 33 33 33 15 0
    0, .vfdiv 33 33 33 15 0 0, .vcvt 33 33 15 0 0 12, .vcvt 33 33 10 0 0 15, .vcvt 33 33 10 0 7 12, .vpack 33 33 33 15 0 0 12, .vpack 33
    33 33 10 0 0 10, .vunpack 33 33 12 0 0 10 2, .vunpack 33 33 15 0 0 10 0, .vunpack 33 33 12 0 0 12 0, .vcmp 8 33 33 5 0 0 0, .vcmp 1 33
    33 15 0 0 0] : List Instr),
    i.wf = false := by decide +kernel

theorem test_illFormed_3 : ∀ i ∈ ([.vcmp 1 33 33 5 0 0 6, .mmov 0 0 4, .mmov 0 0 1, .vperm 33 33 33 15 0, .vbcast 33 33 15 0 0, .vbcast 33
    33 5 0 64, .vslide 33 33 33 5 0 65, .vfredsum 1 33 12 0 7, .vscan 33 33 5 0 0 3, .vfscan 33 33 12 0 5 0, .vld 33 1 0 0 0 5 0 512,
    .vldx 33 1 33 0 0 0 15 0 0, .vaor 33 1 33 0 0 0 15 0 0, .wld 33 1 1 0 0 0 0 0 1024, .wld 33 1 1 0 0 0 0 3 0, .wlds 1 1 1 0 0 0 8 0 0,
    .wst 33 1 1 0 0 0 8 3 0, .wsend 1 0 0 0 7, .rld 1 1 0 0 0 3 1 0, .ramo 1 1 1 0 0 0 3 0 10 0, .ovld 33 1 0 0 15 10 0 0, .ovld 33 1 0 0
    0 10 0 200] : List Instr),
    i.wf = false := by decide +kernel

theorem test_illFormed_4 : ∀ i ∈ ([.ovst 1 1 0 0 0 15 0 0, .ovst 1 1 0 0 0 0 0 2, .grpstat 1 1 0 0 0 0 0 33, .mclaim 64 0 0 0 0 0, .mclaim
    63 0 0 0 0 1, .mld 1 1 1 0 0 0 32, .mgath 1 1 1 0 0 0 15 0, .mtr 8 8 0 0 0 10, .mzero 64 0 0 0 0 0 12 0, .mzero 0 0 0 0 0 0 15 0,
    .mzero 63 0 0 0 0 7 12 0, .mma 0 0 63 0 0 0 1 4 10 0 0 0, .mmag 0 63 1 0 0 0 0 4 10 0 0, .mstat 1 12, .sbind 1 0 0 0 256, .sstat 1 0
    4, .qstat 1 1 0 0 35, .xld 1 1 1 0 0 15 0 0, .edst 33 1 1 0 0 15 1 0, .edst 1 1 1 0 0 0 1 2, .xovld 33 1 1 0 0 15 10 0 0, .rkreg 1 1 0
    0 15] : List Instr),
    i.wf = false := by decide +kernel

theorem test_illFormed_5 : ∀ i ∈ ([.xfence 1 0 0 0, .firingStart 2048, .interruptEntry 8, .pageWalk 32768 0 0, .pageWalk 0
    18446744073709551616 0, .pageWalk 0 0 2, .flitInject 589824, .markerForward 18432, .regionDrained 128, .overprintMemberAccess 0 0
    2048, .mmagGangStart 128, .streamSourceFiring 2304, .waitLimit 2056, .laneLock 24, .train 0 1024 0 0 0, .train 0 0 2 0 0, .train 0 0 0
    256 0, .train 0 0 0 0 4096, .flitReceive 0 16 0 0 0 0 0 0, .flitReceive 0 0 0 4096 0 0 0 0, .flitReceive 0 0 0 0 16 0 0 0,
    .flitReceive 0 0 0 0 0 3 0 0] : List Instr),
    i.wf = false := by decide +kernel

theorem test_illFormed_6 : ∀ i ∈ ([.flitReceive 0 0 0 0 0 0 2 0, .flitReceive 0 0 0 0 0 0 0 64, .openMsg 1024 0, .openMsg 0 65536, .ld 0 0
    4294967296 0 0 0, .ld 0 0 0 4294967296 0 0, .ld 0 0 0 0 18446744073709551616 0, .ld 0 0 0 0 0 257, .st 0 0 0 0 0 4 0, .st 0 0 0 0 0 0
    18446744073709551616, .amo 0 0 0 0 0 0 10 0 0, .amo 0 0 0 0 0 0 0 0 18446744073709551616, .edstMessage 0 0 0 65536 0 0 0, .edApply 0 0
    0 0 0 65536 0 0 0, .edApply 0 0 0 0 0 0 18446744073709551616 0 0, .errMsg 0 0 0 256 0 0, .errMsg 0 0 0 0 256 0, .errMsg 0 0 0 0 0
    18446744073709551616, .retransmitTimeout 1024, .editionGapTimeout 4096, .announce 0 256 0 0 0 0 0, .announce 0 0 256 0 0 0 0] : List Instr),
    i.wf = false := by decide +kernel

theorem test_illFormed_7 : ∀ i ∈ ([.announce 0 0 0 4294967296 0 0 0, .announce 0 0 0 0 256 0 0, .announce 0 0 0 0 0 18446744073709551616 0,
    .announce 0 0 0 0 0 0 158456325028528675187087900672, .syncMsg 0 0 65536, .followUp 0 0 0 18446744073709551616, .delayResp 0 0 0 18446744073709551616, .ptpInterval
    0 3, .kick 256 0, .kick 0 4294967296, .queueCtlWrite 0 18446744073709551616, .hdmAccess 0 549755813888 0 0, .hdmAccess 0 0 65 0,
    .negotiateAlgorithms 2 0, .negotiateAlgorithms 0 2, .getCertificate 8 0 0, .getCertificate 0 65536 0, .getCertificate 0 0 65536,
    .getMeasurements 256 0 0, .getMeasurements 0 2 0, .keyExchange 65536 0, .tinvPage 2 0 0] : List Instr),
    i.wf = false := by decide +kernel

theorem test_illFormed_8 : ∀ i ∈ ([.ccrootWrite 0 2 0, .ccresetReset 0 8, .dbellWrite 0 4, .plateFenceWrite 0 0 2, .linkDisWrite 0 24 0,
    .editionEntryWrite 0 0 256 0, .storeErrorReport 0 18446744073709551616 0, .registerWrite 9 0 0, .throttleTick 4096 0, .throttleTick 0
    256, .boot 2 0, .boot 0 2, .ideKeyManagement 256 0 0, .ideKeyManagement 0 8 0] : List Instr),
    i.wf = false := by decide +kernel

theorem test_wellFormed_1 : ∀ i ∈ ([.add 1 1 1, .bfx 1 1 0 4, .lea 1 1 1 0 0, .tla 1 1 1 0, .addi 1 1 0, .slli 1 1 0, .lih 1 1 0, .ceq 1 1
    1, .pset 1 0, .ldb 1 1 0 0 0 0, .fenceAcq 0 0, .ojoin 1 1 1, .owait 1 0, .oclr 1, .trap 1 1 1, .sysr 1 0, .vadd 33 33 33 5 0, .vmin 33
    33 33 5 0, .vminn 33 33 33 6 0, .vlop4 33 33 33 33 0 0 0, .vfadd 33 33 33 12 0 0, .vfmin 33 33 33 12 0 0] : List Instr),
    i.wf = true := by decide +kernel

theorem test_wellFormed_2 : ∀ i ∈ ([.vdot2 33 33 33 10 0 0, .vfdiv 33 33 33 12 0 0, .vcvt 33 33 10 0 0 12, .vpack 33 33 33 10 0 0 12,
    .vunpack 33 33 12 0 0 10 0, .vcmp 1 33 33 5 0 0 0, .mmov 0 0 0, .vperm 33 33 33 5 0, .vbcast 33 33 5 0 0, .vslide 33 33 33 5 0 0,
    .vfredsum 1 33 12 0 0, .vscan 33 33 5 0 0 0, .vfscan 33 33 12 0 0 0, .vld 33 1 0 0 0 5 0 0, .vldx 33 1 33 0 0 0 5 0 0, .vaor 33 1 33 0
    0 0 5 0 0, .wld 33 1 1 0 0 0 0 0 0, .wlds 1 1 1 0 0 0 0 0 0, .wst 33 1 1 0 0 0 8 0 0, .wsend 1 0 0 0 8, .rld 1 1 0 0 0 2 0 0, .ramo 1
    1 1 0 0 0 3 0 0 0] : List Instr),
    i.wf = true := by decide +kernel

theorem test_wellFormed_3 : ∀ i ∈ ([.ovld 33 1 0 0 0 10 0 0, .ovst 1 1 0 0 0 0 0 0, .grpstat 1 1 0 0 0 0 0 0, .mclaim 0 0 0 0 0 0, .mld 1
    1 1 0 0 0 0, .mgath 1 1 1 0 0 0 10 0, .mtr 8 0 0 0 0 10, .mzero 0 0 0 0 0 0 12 0, .mma 0 0 2 0 0 0 1 4 10 0 0 0, .mmag 0 1 1 0 0 0 0 4
    10 0 0, .mstat 1 0, .sbind 1 0 0 0 0, .sstat 1 0 0, .qstat 1 1 0 0 0, .xld 1 1 1 0 0 0 0 0, .edst 33 1 1 0 0 0 1 0, .xovld 33 1 1 0 0
    0 10 0 0, .rkreg 1 1 0 0 0, .xfence 0 0 0 0, .firingStart 0, .interruptEntry 0, .pageWalk 0 0 0] : List Instr),
    i.wf = true := by decide +kernel

theorem test_wellFormed_4 : ∀ i ∈ ([.flitInject 0, .markerForward 0, .regionDrained 0, .overprintMemberAccess 0 0 0, .mmagGangStart 0,
    .streamSourceFiring 0, .waitLimit 0, .laneLock 0, .train 0 0 0 0 0, .flitReceive 0 0 0 0 0 0 0 0, .openMsg 0 0, .ld 0 0 0 0 0 0, .st 0
    0 0 0 0 0 0, .amo 0 0 0 0 0 0 0 0 0, .edstMessage 0 0 0 0 0 0 0, .edApply 0 0 0 0 0 0 0 0 0, .errMsg 0 0 0 0 0 0, .retransmitTimeout
    0, .editionGapTimeout 0, .announce 0 0 0 0 0 0 0, .syncMsg 0 0 0, .followUp 0 0 0 0] : List Instr),
    i.wf = true := by decide +kernel

theorem test_wellFormed_5 : ∀ i ∈ ([.delayResp 0 0 0 0, .ptpInterval 0 0, .kick 0 0, .queueCtlWrite 0 0, .hdmAccess 0 0 0 0,
    .negotiateAlgorithms 0 0, .getCertificate 0 0 0, .getMeasurements 0 0 0, .keyExchange 0 0, .tinvPage 0 0 0, .ccrootWrite 0 0 0,
    .ccresetReset 0 0, .dbellWrite 0 0, .plateFenceWrite 0 0 0, .linkDisWrite 0 0 0, .editionEntryWrite 0 0 0 0, .storeErrorReport 0 0 0,
    .registerWrite 0 0 0, .throttleTick 0 0, .boot 0 0, .ideKeyManagement 0 0 0] : List Instr),
    i.wf = true := by decide +kernel

/-! ## The scalar engine

Registers: s5 = 30, s6 = 12, s7 = 5. -/

/-- Each instruction with the value that its rule gives register 9; the statement's function gives it, and the model writes it. -/
def givesS (f : State → Instr → Option (Nat × Word)) (p : Instr × Word) : Prop :=
  p.1.wf = true ∧ f ctl p.1 = some (9, p.2) ∧ (after (exec p.1 ctl)).map (fun t => t.sreg 9) = some p.2

theorem test_arithmetic : ∀ p ∈ [(Instr.add 9 5 6, 42), (.sub 9 6 5, -18), (.mul 9 5 6, 360), (.mulh 9 5 6, 0), (.mulhn 9 5 6, 0),
    (.div 9 5 7, 6), (.divn 9 5 6, 2), (.rem 9 5 6, 6), (.remn 9 5 7, 0), (.madd 9 5 6 7, 365), (.msub 9 5 6 7, -355), (.min 9 5 6, 12),
    (.max 9 5 6, 30), (.minn 9 5 6, 12), (.maxn 9 5 6, 30), (.abs 9 5, 30), (.div 9 5 0, -1), (.divn 9 5 0, -1), (.rem 9 5 0, 30),
    (.remn 9 5 0, (30 : Word))], givesS arithmetic p := by unfold givesS; decide +kernel

theorem test_logicShift : ∀ p ∈ [(Instr.and 9 5 6, 12), (.or 9 5 6, 30), (.xor 9 5 6, 18), (.andn 9 5 6, 18), (.orn 9 6 5, -19),
    (.xnor 9 5 6, -19), (.sll 9 6 7, 384), (.srl 9 5 7, 0), (.sra 9 5 7, 0), (.rol 9 5 7, 960), (.ror 9 5 7, 0xF000000000000000),
    (.sel 9 5 6 7, (12 : Word))], givesS logicShift p := by unfold givesS; decide +kernel

theorem test_bitManipulation : ∀ p ∈ [(Instr.clz 9 5, 59), (.ctz 9 6, 2), (.popc 9 5, 4), (.bswap 9 5, 0x1E00000000000000), (.bext 9 5 6, 3),
    (.bdep 9 7 6, 4), (.bfx 9 5 1 4, -1), (.bfxn 9 5 1 4, 15), (.bfi 9 5 60 4, (0xE000000000000000 : Word))], givesS bitManipulation p := by
  unfold givesS; decide +kernel

theorem test_addressImmediate : ∀ p ∈ [(Instr.lea 9 5 6 0x7FFFF 3, 125), (.tla 9 7 6 0x3FFFFC, 0xF10000280008), (.gla 9 7 6 4, 0xF20000280010),
    (.addi 9 5 0x3FFFFFFFF, 29), (.muli 9 5 2, 60), (.andi 9 5 0x3FFFFFFFE, 30), (.ori 9 6 3, 15), (.xori 9 5 0x3FFFFFFFF, -31),
    (.slli 9 5 2, 120), (.srli 9 5 1, 15), (.srai 9 5 63, 0), (.li 9 0x3FFFFFFFE, -2), (.lih 9 5 1, (0x40000001E : Word))],
    givesS addressImmediate p := by unfold givesS; decide +kernel

theorem test_predicates : ∀ p ∈ [(Instr.ceq 1 5 6, false), (.cne 1 5 6, true), (.clt 1 5 6, false), (.cle 1 6 5, true), (.cltn 1 6 5, true),
    (.clen 1 5 5, true), (.ceqi 1 5 30, true), (.cnei 1 5 30, false), (.clti 1 5 0x3FFFFFFFF, false), (.clei 1 5 30, true),
    (.cltni 1 5 0x3FFFFFFFF, true), (.cleni 1 5 29, false), (.pand 1 0 2, false), (.por 1 0 2, true), (.pxor 1 0 0, false), (.pandn 1 0 2, true),
    (.pmov 1 0, true), (.pset 1 1, true)],
    p.1.wf = true ∧ predicate ctl p.1 = some (1, p.2) ∧ (after (exec p.1 ctl)).map (fun t => t.preg 1) = some p.2 := by decide +kernel

/-- R140: s0 and p0 are not written; the program counter goes on. -/
theorem test_hardwired : (after (exec (.add 0 5 6) ctl)).map (fun t => (t.sreg 0, t.core.pc)) = some (0, 0x108) ∧
    (after (exec (.pset 0 0) ctl)).map (fun t => (t.preg 0, t.core.pc)) = some (true, 0x108) := by decide +kernel

/-- R176, R177: branches with an aligned and with a misaligned target, the link read before it is written. -/
theorem test_branches : branch ctl (.br 2) = some (none, 0x110) ∧ branch ctl (.brl 31 0x3FFFFFFFF) = some (some 31, 0xF8) ∧
    branch ctl (.jr 5 0) = some (none, 30) ∧ branch (ctl.setS 5 64) (.jrl 5 5 1) = some (some 5, 72) ∧
    (after (exec (.jrl 5 5 1) (ctl.setS 5 64))).map (fun t => (t.core.pc, t.sreg 5)) = some (72, 0x108) ∧
    (after (exec (.jr 5 0) ctl)).map (fun t => (t.core.trapcause, t.core.trapinfo0, t.core.trapinfo1)) = some (0x10003, 30, 8) := by
  decide +kernel

/-- `InstructionEnd`: no repeat, a repeat that goes on, the last repeat. -/
theorem test_witness_instructionEnd : ctl.core.rep = none ∧
    (∀ p ∈ [(3, 64), (3, 66)], let s := ctl.mapCore (fun c => { c with rep := some p.1, rptst := p.2 })
      s.wf = true ∧ s.core.rep = some p.1 ∧ (s.core.rptDone + 1 < p.1 ↔ p.2 = 64)) := by decide +kernel

/-- `NopAndGuard`: words that fail a check, whose guard is false, and whose guard is true, each fetched. -/
theorem test_witness_guard : (∀ w ∈ [0x0303000000000000, 0x0220051870000000, 0x02A0051870000000, 0x0280051870000000],
      answered (fetchAt (ctlAt w).core.pc (ctlAt w)) = some (w, ctlAt w) ∧ (ctlAt w).wf = true ∧ bits w 56 8 ≠ majRpt) ∧
    (ctlAt 0x0303000000000000).wordTrap 0x0303000000000000 ≠ none ∧
    (∀ w ∈ [0x0220051870000000, 0x02A0051870000000, 0x0280051870000000], (ctlAt w).wordTrap w = none) ∧
    (ctlAt 0x0220051870000000).preg 2 = false ∧ decode 0x02A0051870000000 = some (.add 5 6 7) ∧ bits 0x0280051870000000 52 3 = 0 := by decide +kernel

/-- `TimedWaits`: a target reached, and one that is not. -/
theorem test_witness_timedWaits : ∀ s ∈ [ctl, { ctl with cycle := 30, gtime := 30 }], s.wf = true ∧
    ((s.cycle : Int) < 30 ↔ s = ctl) ∧ ((after (exec (.sleepc 5 0) s)).map (fun t => t.core.pc) = some (if s = ctl then 0x100 else 0x108)) ∧
    (after (exec (.waittick 5 0) s)).map (fun t => t.core.pc) = some (if s = ctl then 0x100 else 0x108) := by decide +kernel

/-! ## Memory of a firing core -/

/-- `FiringAccess`: an address for each clause, at its boundary. -/
theorem test_witness_firingAccess : fir.ltileOf 0 = 0 ∧
    (∀ p ∈ [((0xF0000007BFF8 : Word), some (tileBase 0 + 0x7BFF8)), (0xF1000007BFF8, some (tileBase 0 + 0x7BFF8)), (0x1000000000000, none),
        (0x800000000000, none), (0xEFFFFFFFFFF8, none), (0xF30000000000, none), (0xF50000000000, none), (0xFFFFFFFFFFF8, none),
        (0xF40000000000, none), (0xF0000007BFFC, none), (0xF10000080000, none), (0xF00000000001, none)],
      (answered (checkAccess .loadStore .read 8 8 p.1 fir)).map (fun x => x.1) = p.2.map Place.mem) ∧
    (∀ p ∈ [((0xF10040000000 : Word), (9 : Nat)), (0xF00000080000, 9), (0xF20000000000, 8), (0xF1000007C000, 7)],
      stopped (checkAccess .loadStore .read 8 8 p.1 fir) = some (.trap { code := 5, i0 := p.1, i1 := exact p.2, i3 := fir.regionInfo }, fir)) ∧
    (match (fir.access 0 (fir.regionOf 0) 0 .read false).1 with
      | .error e => e == (4, 0xF01, 0)
      | .ok _ => false) = true := by decide +kernel

/-- A firing core whose s3 is the base of its tile memory, with a word of 8 bytes at offset 64; and the same with that word in error. -/
def mem0 : State := (fir.setS 3 0xF00000000000).wr (tileBase 0 + 64) 8 0x8877665544332211
def mem0Bad : State := { mem0 with bad := [tileBase 0 + 64] }

theorem test_loads : ∀ p ∈ [(Instr.ldb 9 3 0 0 0 71, 0xFFFFFFFFFFFFFF88), (.ldbn 9 3 0 0 0 71, 0x88), (.ldh 9 3 0 0 0 70, 0xFFFFFFFFFFFF8877),
    (.ldhn 9 3 0 0 0 64, 0x2211), (.ldw 9 3 0 0 0 68, 0xFFFFFFFF88776655), (.ldwn 9 3 0 0 0 68, 0x88776655), (.ldd 9 3 0 0 0 64, 0x8877665544332211)],
    (after (exec p.1 mem0)).map (fun t => t.sreg 9) = some (p.2 : Word) := by decide +kernel

theorem test_stores : ∀ p ∈ [(Instr.stb 5 3 0 0 0 64, 0x887766554433221E), (.sth 5 3 0 0 0 64, 0x887766554433001E),
    (.stw 5 3 0 0 0 68, 0x0000001E44332211), (.std 5 3 0 0 0 64, 30)],
    (after (exec p.1 mem0)).map (fun t => t.rd (tileBase 0 + 64) 8) = some p.2 := by decide +kernel

theorem test_atomics : ∀ p ∈ [(Instr.aadd 9 3 5 0 0 0 64, 0x887766554433222F), (.aand 9 3 5 0 0 0 64, 0x10), (.aor 9 3 5 0 0 0 64, 0x887766554433221F),
    (.axor 9 3 5 0 0 0 64, 0x887766554433220F), (.amin 9 3 5 0 0 0 64, 0x8877665544332211), (.amax 9 3 5 0 0 0 64, 30), (.aminn 9 3 5 0 0 0 64, 30),
    (.amaxn 9 3 5 0 0 0 64, 0x8877665544332211), (.aswap 9 3 5 0 0 0 64, 30), (.acas 9 3 5 0 0 0 64, 0x8877665544332211)],
    (after (exec p.1 mem0)).map (fun t => (t.rd (tileBase 0 + 64) 8, t.sreg 9)) = some (p.2, 0x8877665544332211) := by decide +kernel

/-- `ScalarLoads`, `ScalarStores`, `LocalAtomics`: checks that reach tile memory, with nothing to wait for; a word in error; a trap. -/
theorem test_witness_memory :
    (∀ rw ∈ [Rw.read, .write], answered (checkAccess mem0.reach rw 8 8 (mem0.sreg 3 + 64) mem0) = some (.mem (tileBase 0 + 64), mem0)) ∧
    answered (checkAccess mem0.atomicReach .atomic 8 8 (mem0.sreg 3 + 64) mem0) = some (.mem (tileBase 0 + 64), mem0) ∧ mem0.wf = true ∧
    mem0.setDone 0 = true ∧ answered (awaitFetch (tileBase 0 + 64) 8 mem0) = some ((), mem0) ∧ mem0.readBad (tileBase 0 + 64) 8 = false ∧
    mem0.myTile.stateLen mem0.firingNow.slot ≤ 0x2000 ∧ tileBase 0 + 64 + 8 ≤ tileBase mem0.cur + 0x7E000 ∧
    answered (awaitFetch (tileBase 0 + 64) 8 mem0Bad) = some ((), mem0Bad) ∧ mem0Bad.readBad (tileBase 0 + 64) 8 = true ∧
    stopped (checkAccess mem0.reach .read 8 8 (mem0.sreg 3 + 65) mem0) =
      some (.trap { code := 3, i0 := mem0.sreg 3 + 65, i1 := 8, i3 := 0 }, mem0) := by decide +kernel

/-- `FencesAndOrder`: states with and without an outstanding operation. -/
theorem test_witness_fences : let busy : State := { ctl with live := [⟨0, 2048, true⟩] }.mapCore (fun c => c.setO 1 [0])
    let known : State := { ctl with
      groups := [(1023, some { skip := false, region := 0, lgroup := 0, mbase := 0, members := [] })],
      hub := { node := 5, routes := [(1023, 1)], editions := [(4095, { st := 1 })] } }
    known.wf = true ∧ (∀ p ∈ [(6, 1023), (8, 5), (8, 1023), (9, 4095)], known.knownObject p.1 p.2 = true) ∧
    (∀ p ∈ [(6, 1022), (8, 6), (9, 4094)], known.knownObject p.1 p.2 = false) ∧ ctl.wf = true ∧ busy.wf = true ∧ ctl.noneLive 3 = true ∧ busy.noneLive 3 = false ∧ ctl.setDone 1 = true ∧ busy.setDone 1 = false ∧
    after (exec (.owait 1 3) busy) = some busy ∧ (after (exec (.fenceFull 0 3) ctl)).map (fun t => t.core.pc) = some 0x108 := by decide +kernel

/-! ## Exceptions and system registers -/

/-- `ControlTrapEntry`: at level M, delegated at level S, and nested. -/
theorem test_witness_trapEntry : ∀ p ∈ [((3 : Word), (0x1 : Nat), (0x0 : Nat), (0x1000 : Word)), (0x20, 0, 0, 0x1200), (0x33, 1, 1, 0x100)],
    let s := ctl.mapCore (fun c => { c with cstat := p.1, trapbase := 0x1000 })
    s.wf = true ∧ 2048 ≤ s.cur ∧ s.core.lvl = p.2.1 ∧ (s.core.inh = 1 ↔ p.2.2.1 = 1) ∧
    (after (exec (.brk 7) s)).map (fun t => (t.core.pc, t.core.trapinfo0, t.core.trappc, t.core.halted)) =
      some (p.2.2.2, 7, 0x100, decide (p.2.2.1 = 1)) := by decide +kernel

/-- `InterruptEntry`: a doorbell of a core that has interrupts on. -/
def rung : State := ctl.mapCore (fun c => { c with cstat := 5, ien := 0x800, dbell := 1, trapbase := 0x2000 })
theorem test_witness_interrupt : rung.wf = true ∧ rung.takesInterrupt 0 = true ∧ rung.source 0 = some 11 ∧
    (after (exec (.interruptEntry 0) rung)).map (fun t => (t.core.pc, t.core.trapcause, t.core.trappc)) = some (0x2100, 0x12E00, 0x100) := by
  decide +kernel

/-- `TrapReturn`: a return to level S, and one that would raise the level. -/
theorem test_witness_tret : (∀ p ∈ [((0x31 : Word), (1 : Nat), (0 : Nat)), (0x32, 0, 1)],
      let s := ctl.mapCore (fun c => { c with cstat := p.1, trappc := 0x203 })
      s.wf = true ∧ s.core.lvl = p.2.1 ∧ s.core.plv = p.2.2) ∧
    (after (exec .tret (ctl.mapCore (fun c => { c with cstat := 0x31, trappc := 0x203 })))).map (fun t => (t.core.pc, t.core.cstat)) =
      some (0x200, 0x20) := by decide +kernel

/-- `SystemRegisters`: a read that is answered, reads that lack a control core or level M, and writes. -/
theorem test_witness_systemRegisters : let low := ctl.mapCore (fun c => { c with cstat := 0 })
    systemValue { ctl with cycle := 77 } 0 = some 77 ∧ systemValue fir 3 = some 0 ∧ ctl.cores.all (fun e => e.2.storeErr.isNone) = true ∧
    fir.cur < 2048 ∧ fir.wf = true ∧ low.wf = true ∧ 2048 ≤ low.cur ∧ low.atM = false ∧ ctl.atM = true ∧
    systemWrite ctl.core 20 0xFFFFFFFFFFFFFFFF = some { ctl.core with trapbase := 0xFFFFFFFFF000 } ∧
    (after (exec (.sysw 6 11) fir)).map (fun t => t.core.fstat) = some 12 ∧
    (after (exec (.sysw 5 23) ctl)).map (fun t => t.core.cstat) = some 0x1F ∧
    (after (exec (.sysr 9 22) ctl)).map (fun t => t.core.pc) = some 0x108 ∧
    (∀ n ∈ [5, 6, 7, 8, 12], systemValue fir n = some 0) ∧ (∀ n ∈ [13, 19], (systemWrite low.core n 5).isSome = true) ∧
    (after (exec (.sysw 5 25) fir)).map (fun t => (t.myTile.record[0], t.myTile.record[3], t.myTile.record[5])) = some (2, 1, 25) := by decide +kernel

/-! ## Firings and arcs

Tiles 0 and 1 of region 0. Slot 0 of tile 0 reads 2 tokens at w0 (descriptor 0) and writes 1 at w8 (descriptor 1), both arcs with tile 1, and
joins its ports 1 and 9 (descriptors 2 and 3) by a self-loop that its one phase does not use. Windows hold 4 tokens of 64 bytes. -/

def put (t : Tile) (f o i v : Nat) : Tile := { t with plane := Sparse.set 0 t.plane (cfgKey f o 0 i) v }

/-- Slot 0 as an actor of one copy and one phase, its w0 and w8 counts, its policies, FMAX and a schedule of one entry. -/
def actor (t : Tile) (r w pol fmax : Nat) : Tile :=
  put (put (put (put (put (put (put (put (put t 2 0 0 64) 4 0 0 1) 6 0 0 fmax) 9 0 0 pol) 10 0 0 0x40) 12 0 0 r) 12 0 8 w) 13 0 0 1) 113 0 0 2

def inDesc (port l d : Nat) : Desc := { kind := 1, port := port, base := 0x400, tsz := 15, cap := 4, wr := 2, peerL := l, peerD := d }
def outDesc (port l d : Nat) : Desc := { kind := 2, port := port, tsz := 15, cap := 4, peerL := l, peerD := d }

def arcState (pol fmax : Nat) : State :=
  let s : State := { State.reset with
    cur := 0, booted := true
    tiles := [(0, actor { firing := some {}, slots := #v[{ st := .firing }, {}, {}, {}, {}, {}, {}, {}] } 2 1 pol fmax), (1, actor {} 1 2 0 0)]
    regions := [(0, { live := true, npl := 1, map := [0], started := true })]
    descs := [(0, inDesc 0 1 0), (1, outDesc 0 1 1), (2, inDesc 1 0 3), (3, outDesc 1 0 2), (32, outDesc 0 0 0), (33, inDesc 0 0 1)] }
  (s.setS 5 1).setS 6 2

def arc : State := arcState 0xFF 0
/-- Tile 0 with its firing over and slot 0 waiting. -/
def idle (s : State) : State := s.setTile 0 { s.tile 0 with firing := none, slots := #v[{ st := .waiting }, {}, {}, {}, {}, {}, {}, {}] }

theorem test_arc_wf : arc.wf = true ∧ (idle arc).wf = true ∧ arc.aRate 0 = 2 ∧ arc.aRate 8 = 1 ∧ arc.peerKey 0 = some 32 ∧ arc.peerKey 1 = some 33 ∧
    arc.peerKey 3 = some 2 := by decide +kernel

/-- `TokenChecks`: no arc; a token past the window; one past a marker; bytes past the token; a misaligned address; a token that passes. -/
theorem test_witness_tokenChecks : arc.wDescs 3 = [] ∧ arc.wDescs 0 = [0] ∧ arc.wCap (arc.wDescs 0) = 4 ∧ arc.wToken 0 3 = some (0, 3) ∧
    (let s := arc.setDesc 0 { inDesc 0 1 0 with mark := true }; s.wToken 0 2 = some (0, 2) ∧ (s.desc 0).mark = true ∧ (s.desc 0).count = 2) ∧
    (∀ x ∈ [((4 : Nat), (0 : Nat), (4 : Nat), (none : Option Nat)), (1, 60, 8, none), (1, 2, 4, none), (1, 4, 4, some 0x444)],
      (answered (tokenAddr x.1 x.2.1 x.2.2.1 0 arc)).map (fun y => y.1) = x.2.2.2.map (fun a => (0, x.1, a))) := by decide +kernel

/-- `TokenReads`: a token there, and one the window does not hold. -/
theorem test_form_wlds : tokenForm (.wlds 9 5 0 0 0 0 0 2 1) = some (false, 9, 5, 0, 0, 0, 4, 4) := rfl

theorem test_witness_tokenReads : (Instr.wlds 9 5 0 0 0 0 0 2 1).wf = true ∧
    answered (tokenAddr 1 4 4 0 arc) = some ((0, 1, 0x444), arc) ∧ answered (tokenAddr 2 4 4 0 arc) = some ((0, 2, 0x484), arc) ∧
    arc.setDone 0 = true ∧ 1 < arc.aRate 0 ∧ (arc.desc 0).count = 2 ∧ answered (awaitFetch (tileBase 0 + 0x444) 4 arc) = some ((), arc) ∧
    arc.readBad (tileBase 0 + 0x444) 4 = false ∧
    (after (exec (.wlds 9 5 0 0 0 0 0 2 1) (arc.wr (tileBase 0 + 0x444) 4 0x12345678))).map (fun t => t.sreg 9) = some 0x12345678 ∧
    after (exec (.wlds 9 6 0 0 0 0 0 2 1) arc) = some arc := by decide +kernel

/-- `TokenWrites`: token 0, within the phase's count, and token 1, beyond it. -/
theorem test_witness_tokenWrites : (Instr.wst 6 0 0 0 1 0 8 2 0).wf = true ∧ answered (writeCheck 4 0 0 8 arc) = some ((), arc) ∧
    answered (writeCheck 4 0 1 8 arc) = some ((), arc) ∧ arc.aRate 8 ≤ 1 ∧ arc.wToken 8 0 = some (1, 0) ∧ arc.peerKey 1 = some 33 ∧
    (flits arc 1).length + 1 ≤ 8 ∧
    (after (exec (.wst 6 0 0 0 1 0 8 2 0) arc)).map (fun t => flits t 1) = some [.data 0x400 [2, 0, 0, 0] (some 0)] ∧
    (after (exec (.wst 6 5 0 0 1 0 8 2 0) arc)).map (fun t => (t.queued, t.firingNow.high[0])) = some ([], 2) := by decide +kernel

/-- `TokenCommit`: nothing more, too many, an order set not done, and one token. -/
theorem test_witness_tokenCommit : let busy : State := { arc with live := [⟨0, 0, true⟩] }.mapCore (fun c => c.setO 1 [0])
    (Instr.wsend 5 1 2 0 8).wf = true ∧ arc.wDescs 8 = [1] ∧ sentOf arc 8 = 0 ∧ (arc.desc 1).side = false ∧ busy.setDone 1 = false ∧ busy.wf = true ∧
    arc.setDone 1 = true ∧ arc.myTile.firing = some {} ∧
    (after (exec (.wsend 0 1 2 0 8) arc)).map (fun t => t.queued) = some [] ∧
    (after (exec (.wsend 5 1 2 0 8) arc)).map (fun t => (flits t 1, t.firingNow.sent[0], t.firingNow.ext)) =
      some ([.pointer 1 0 (some 0)], 1, true) := by decide +kernel

/-- `TokenPorts`: a port no arc joins, tokens behind the phase's, a marker behind them, neither. -/
theorem test_witness_portValues : arc.wDescs 3 = [] ∧ arc.wDescs 0 ≠ [] ∧ arc.wToken 0 (arc.aRate 0) = some (0, 2) ∧ (arc.desc 0).count = 2 ∧
    (arc.desc 0).mark = false ∧ after (exec (.wmode 9 0) arc) = some arc ∧
    (let s := arc.setDesc 0 { inDesc 0 1 0 with wr := 3 }; s.wToken 0 (s.aRate 0) = some (0, 2) ∧ 2 < (s.desc 0).count ∧ s.wf = true) ∧
    (let s := arc.setDesc 0 { inDesc 0 1 0 with mark := true, mmode := 3, mflt := true }
     (s.desc 0).mark = true ∧ (after (exec (.wmode 9 0) s)).map (fun t => t.sreg 9) = some 0x10B) ∧
    (after (exec (.wavail 9 0) arc)).map (fun t => t.sreg 9) = some 2 ∧ (after (exec (.wfree 9 8) arc)).map (fun t => t.sreg 9) = some 1 ∧
    (after (exec (.weos 6) arc)).map (fun t => t.firingNow.eos) = some (some 2) := by decide +kernel

theorem test_witness_portWaits : let late (w : Option (Nat × Nat)) : State := (arc.mapCore (fun c => { c with waitFrom := w })).setS 7 3
    arc.wCap (arc.wDescs 0) < 5 ∧ (∀ e ∈ arc.wShares 0 2, e.2 ≤ (arc.desc e.1).cap ∧ e.2 ≤ (arc.desc e.1).count) ∧
    (∀ e ∈ arc.wShares 0 3, e.2 ≤ (arc.desc e.1).cap ∧ ((arc.desc e.1).mark = true → e.2 ≤ (arc.desc e.1).count)) ∧
    (arc.wShares 0 3).find? (fun e => decide ((arc.desc e.1).count < e.2)) = some (0, 3) ∧
    (late none).core.waitFrom = none ∧ (late (some (0, 0))).core.waitFrom = some (0, 0) ∧
    (after (exec (.wwait 7 0 0) (late none))).map (fun t => (t.core.trapcause, t.myTile.record[0], t.myTile.record[2])) = some (0, 7, 0) ∧
    (after (exec (.wwait 6 0 0) arc)).map (fun t => t.core.pc) = some 8 ∧
    (let s := (arc.setDesc 0 { inDesc 0 1 0 with mark := true }).setS 7 3
     s.wf = true ∧ (s.wShares 0 3).find? (fun e => decide ((s.desc e.1).cap < e.2 ∨ ((s.desc e.1).mark = true ∧ (s.desc e.1).count < e.2))) = some (0, 3) ∧
     (after (exec (.wwait 7 0 0) s)).map (fun t => (t.myTile.record[0], t.myTile.record[4])) = some (0x0A, 2)) ∧
    (let s := arc.mapFiring (fun f => { f with sends := [(8, 0)] }); s.isLive 0 = false ∧ ({ s with live := [⟨0, 0, true⟩] } : State).isLive 0 = true) := by
  decide +kernel

/-- `FiringEnd`: an engine operation outstanding, an open block, a port short of its count, and a commit. -/
theorem test_witness_firingEnd : let busy : State := { arc with live := [⟨0, 0, true⟩] }
    let opened : State := { arc with mats := [(0, { blocks := [(3, { tag := 1 })] })] }
    let done : State := arc.mapFiring (fun f => { f with high := f.high.set 0 1 })
    busy.wf = true ∧ busy.engDone = false ∧ opened.engDone = true ∧ (opened.mat 0).openBlock = some (3, 1) ∧
    arc.aRate 8 ≠ highOf arc 8 ∧ (done.mat 0).openBlock = none ∧ done.wf = true ∧
    (∀ i, i < 8 → done.wDescs (i + 8) = [] ∨ done.aRate (i + 8) = highOf done (i + 8)) ∧
    (after (exec .fend done)).map (fun t => ((t.tile 0).firing, ((t.tile 0).slot 0).firing, (t.desc 0).rd, (t.desc 1).wr, flits t 0)) =
      some (none, 1, 2, 1, [.ret 2]) := by decide +kernel

/-- A firing that asked for a marker: of an actor with inputs, and of one with none; and a commit with a side port. -/
theorem test_witness_firingMarks : (let s := arc.mapFiring (fun f => { f with high := f.high.set 0 1, eos := some 2 })
      s.wf = true ∧ s.inDescs 0 0 ≠ [] ∧ s.aFiring = 0 ∧
      (after (exec .fend s)).map (fun t => (t.myTile.record[0], t.myTile.record[3], t.myTile.record[4])) = some (8, 1, 1)) ∧
    (let s : State := ({ arc with descs := [(1, outDesc 0 1 1), (33, inDesc 0 0 1)] } : State).mapFiring (fun f => { f with high := f.high.set 0 1, eos := some 2 })
     s.wf = true ∧ s.inDescs 0 0 = [] ∧ s.myTile.aq 0 (s.modeOf 0) - s.myTile.arep 0 ≤ s.aFiring % s.myTile.aq 0 (s.modeOf 0) ∧
     (after (exec .fend s)).map (fun t => (flits t 1, ((t.tile 0).slot 0).st)) = some ([.pointer 1 0 none, .marker 2 false], .quiescent)) ∧
    (let s := ((arc.setTile 0 (put arc.myTile 12 0 9 1)).setDesc 3 { outDesc 1 0 2 with side := true, sideof := 0 }).mapFiring (fun f => { f with high := f.high.set 0 1 })
     s.wf = true ∧ s.wShares 9 (s.aRate 9) = [(3, 1)] ∧ s.wToken 9 0 = some (3, 0) ∧ s.peerKey 3 = some 2 ∧
     (after (exec .fend s)).map (fun t => (flits t 1, flits t 3)) =
       some ([.pointer 1 0 none], [.data 0x400 (List.replicate 16 0) none, .pointer 1 0 none])) := by decide +kernel

/-- `FiringTrap`: policies by which containment passes a fault on, ignores it, retries, and stops the copy. -/
theorem test_witness_firingTrap : (∀ p ∈ [((0xFF : Nat), (none : Option (Nat × Nat))), (0xFFC, some (0, 0)), (0xFC5, some (0, 1)), (0xFC2, some (0, 2)),
      (0x143, some (1, 1))], absorbs (arcState p.1 0) {} = p.2 ∧ (arcState p.1 0).wf = true ∧ (arcState p.1 0).aPhase < 16) ∧
    (after (exec (.fabort 6) arc)).map (fun t => (t.myTile.record[0], t.myTile.record[2], (t.firingNow).decide)) = some (0x100, 2, some 2) := by
  decide +kernel

/-- `ContainmentDecision`: KILL_SELF of level 2 alone; of three levels IGNORE, RETRY and KILL_SELF at each, and none that takes the fault. -/
theorem test_witness_containment : ∀ p ∈ [([(2, 1)], some (2, 2)), ([(0, 1), (2, 1), (2, 1)], some (2, 0)), ([(1, 1), (2, 1), (2, 1)], some (2, 1)),
      ([(3, 1), (2, 1), (2, 1)], some (3, 2)), ([(3, 1), (3, 1), (2, 1)], some (4, 2)), ([(3, 1), (3, 1), (3, 1)], none)],
    let s := (arc.mapRegion 0 (fun r => { r with pol := p.1 })).mapFiring (fun f => { f with trapped := true, decide := some 2 })
    s.wf = true ∧ (s.tile 0).firing = some { trapped := true, decide := some 2 } ∧ (s.region (s.regionOf 0)).pol = p.1 ∧ s.regionOf 0 = 0 ∧
    (s.region 0).live = true ∧ (s.region 0).started = true ∧ (s.region 0).ended = none ∧ settles s 0 { trapped := true, decide := some 2 } = p.2 ∧
    (after (exec (.containmentDecision 0) s)).map (fun t => ((t.tile 0).record[7].toNat / 256 % 8, (t.region 0).ended.isSome, t.msix)) =
      some (if p.2 = none then 5 else (p.2.getD (0, 0)).1, p.2.all (fun x => x.2 == 2), if p.2 = none then [63] else []) := by decide +kernel

/-- `FiringStart`: a slot whose rule holds, one whose does not, and ready-first order. -/
theorem test_witness_firingStart : let s := idle arc
    let short := s.setDesc 0 { inDesc 0 1 0 with wr := 1 }
    let ready := s.setTile 0 (put (s.tile 0) 113 0 0 1)
    s.wf = true ∧ (s.tile 0).firing = none ∧ s.owner 0 ≠ none ∧ (s.region (s.regionOf 0)).started = true ∧ (s.tile 0).readyFirst = false ∧
    (s.tile 0).schedLen = 1 ∧ (s.tile 0).schedEntry ((s.tile 0).passOver 1 0) = 0 ∧ ((s.tile 0).slot 0).st = .waiting ∧
    (∀ j, j < 8 → (∀ e ∈ s.shares 0 1 0 j 0 ((s.tile 0).rate 0 0 j 0), e.2 ≤ (s.desc e.1).count) ∧
      ∀ e ∈ s.shares 0 2 0 j 0 ((s.tile 0).rate 0 0 (j + 8) 0), e.2 ≤ (s.desc e.1).space) ∧ s.faultedMarker 0 0 = false ∧
    (∃ e ∈ short.shares 0 1 0 0 0 2, ¬ e.2 ≤ (short.desc e.1).count) ∧ (ready.tile 0).readyFirst = true ∧
    (after (exec (.firingStart 0) s)).map (fun t => ((t.tile 0).firing.isSome, (t.coreAt 0).pc, (t.coreAt 0).sreg 3)) = some (true, 0x200, 0xF00000000000) ∧
    (after (exec (.firingStart 0) short)).map (fun t => (t.tile 0).firing.isSome) = some false := by decide +kernel

theorem test_witness_firingLimit : let s : State := { arcState 0xFF 10 with cycle := 11 }
    (s.tile 0).fmax 0 = 10 ∧ ((s.tile 0).slot 0).st = .firing ∧ 10 + 1 < 0 + (s.cycle - 0) + 1 ∧ (arc.tile 0).fmax 0 = 0 ∧
    (after (exec (.firingLimit 0) s)).map (fun t => ((t.tile 0).record[0], (t.tile 0).record[2])) = some (0x17, 10) := by decide +kernel

/-- `CircuitFlits`: a flit that may leave its buffer, and one of each kind that arrives; a descriptor that discards. -/
theorem test_witness_flits : arc.peerKey 3 = some 2 ∧ arc.peerKey 0 = some 32 ∧
    (let s := arc.queueFlit 3 (.ret 1); flits s 3 = [.ret 1] ∧ endOf 3 = endOf 2 ∧ s.departs 3 s.cycle = some 0 ∧ s.departed 3 s.cycle = false ∧
      s.wf = true ∧ (after (exec (.flitInject 3) s)).map (fun t => (flits t 3, inFlight t 3)) = some ([], [⟨0, 0, .ret 1⟩])) ∧
    (∀ f ∈ [Flit.data 0x400 [1, 2] none, .pointer 7 3 none, .marker 2 true, .ret 1], ∀ due ∈ [0, 1], let s : State := { arc with flight := [(3, [⟨0, due, f⟩])] }
     inFlight s 3 = [⟨0, due, f⟩] ∧ s.wf = true ∧ s.discards 2 = false ∧ s.writeBad (winBase 2 + 0x400) 2 = false ∧ (due ≤ s.cycle ↔ due = 0)) ∧
    (let s : State := { arc with flight := [(3, [⟨0, 0, .data 0x400 [1, 2] none⟩])], bad := [winBase 2 + 0x400] }
     s.wf = true ∧ s.writeBad (winBase 2 + 0x400) 2 = true ∧ (after (exec (.dataFlit 3) s)).map (fun t => Sys2Proof.Claims.byteAt t (winBase 2 + 0x400)) = some 0) ∧
    (arc.setTile 0 { arc.tile 0 with slots := #v[{ st := .quiescent }, {}, {}, {}, {}, {}, {}, {}] }).discards 2 = true := by decide +kernel

/-- `Markers`: a clean marker at every input; a faulted one; a partial period at phase 1. -/
def marked (flt : Bool) : State :=
  let s := (idle arc).setDesc 0 { inDesc 0 1 0 with wr := 0, mark := true, mmode := 3, mflt := flt }
  s.setDesc 2 { inDesc 1 0 3 with wr := 0, mark := true, mmode := 1, mflt := flt }
def partialPeriod : State :=
  let s := marked false
  let t := put (put (s.tile 0) 4 0 0 2) 12 0 16 2
  s.setTile 0 (t.setSlot 0 { st := .waiting, firing := 1 })

theorem test_witness_markers : (marked false).wf = true ∧ (marked false).inPorts 0 0 = [0, 1] ∧ (marked false).faultedMarker 0 0 = false ∧
    (∀ j ∈ (marked false).inPorts 0 0, (marked false).cleanMarker 0 0 j = true) ∧ (marked true).faultedMarker 0 0 = true ∧
    (partialPeriod.tile 0).undecided 0 = false ∧ (partialPeriod.tile 0).firing = none ∧
    (let s := partialPeriod.setTile 0 { partialPeriod.tile 0 with firing := some { slot := 0, partialPeriod := true } }
     s.wf = true ∧ (s.tile 0).undecided 0 = true ∧ after (exec (.markerForward 0) s) = some s) ∧
    (let s := partialPeriod.setTile 0 { partialPeriod.tile 0 with firing := some { slot := 1 } }
     s.wf = true ∧ s.partialPort 0 0 = some 0 ∧ (s.tile 0).undecided 0 = false) ∧
    ((partialPeriod).tile 0).phase 0 0 = 1 ∧ partialPeriod.partialPort 0 0 = some 0 ∧ partialPeriod.faultedMarker 0 0 = false ∧
    (after (exec (.markerForward 0) (marked false))).map (fun t => (((t.tile 0).slot 0).st, flits t 1)) = some (.quiescent, [.marker 3 false]) ∧
    (after (exec (.faultedMarkerEffect 0) (marked true))).map (fun t => (((t.tile 0).slot 0).st, flits t 1)) = some (.quiescent, [.marker 0 true]) := by
  decide +kernel

/-! ## Vectors

Registers of `vec`: v1 holds 3 and 5 in its first two 32-bit elements and zeros; v2 holds -1 and 2; v3 the f32 values 1.5 and a quiet NaN;
m1 has the bits of elements 0 and 1; m2 none. -/

def vec : State :=
  fir.mapCore (fun c => ((((c.setV 33 (5 * 2 ^ 32 + 3)).setV 34 (2 * 2 ^ 32 + 0xFFFFFFFF)).setV 35 (0x7FC00000 * 2 ^ 32 + 0x3FC00000)).setM 1 5).setM 2 0)

theorem test_vec_wf : vec.wf = true ∧ lane vec 32 33 1 = 5 ∧ vec.mreg 1 = 5 ∧ vec.core.badReg = [] ∧
    (vec.mapCore (fun c => { c with badReg := [33] })).core.badReg.contains 33 = true := by decide +kernel

/-- The form of an instruction, met at `vec`: it is well formed, its registers can be read, and the first two elements that the rule gives
and the model writes, where the mask m1 makes them active. -/
def givesLanes (f : State → Instr → Option LaneForm) (p : Instr × Nat × Nat) : Prop :=
  p.1.wf = true ∧ (f vec p.1).map (fun F => (F.reads.all (fun c => !vec.core.badReg.contains c), F.on vec 0, F.value 0 % 2 ^ F.w, F.value 1 % 2 ^ F.w)) =
    some (true, true, p.2.1, p.2.2) ∧
  (f vec p.1).bind (fun F => (after (exec p.1 vec)).map (fun t => (lane t F.w F.d 0, lane t F.w F.d 1))) = some (p.2.1, p.2.2)

theorem test_vectorInteger : ∀ p ∈ [(Instr.vadd 36 33 34 5 1, 2, 7), (.vsub 36 33 34 5 1, 4, 3), (.vmul 36 33 34 5 1, 0xFFFFFFFD, 10),
    (.vmulh 36 33 34 5 1, 0xFFFFFFFF, 0), (.vmin 36 33 34 5 1, 0xFFFFFFFF, 2), (.vmaxn 36 33 34 6 1, 0xFFFFFFFF, 5), (.vabs 36 34 5 1, 1, 2),
    (.vneg 36 33 5 1, 0xFFFFFFFD, 0xFFFFFFFB), (.vadds 36 33 34 6 1, 0xFFFFFFFF, 7), (.vsubs 36 33 34 6 1, 0, 3)],
    givesLanes integerForm p := by unfold givesLanes; decide +kernel

theorem test_vectorShift : ∀ p ∈ [(Instr.vshl 36 33 34 5 1, 0x80000000, 20), (.vshr 36 34 33 5 1, 0x1FFFFFFF, 0), (.vsra 36 34 33 5 1, 0xFFFFFFFF, 0)],
    givesLanes shiftForm p := by unfold givesLanes; decide +kernel

theorem test_vectorFloat : (∀ p ∈ [(Instr.vfadd 36 35 35 12 1 0, 0x40400000, 0x7FC00000), (.vfsub 36 35 35 12 1 0, 0, 0x7FC00000),
    (.vfmul 36 35 35 12 1 0, 0x40100000, 0x7FC00000), (.vffma 36 35 35 35 12 1 0, 0x40700000, 0x7FC00000), (.vfdiv 36 35 35 12 1 0, 0x3F800000, 0x7FC00000),
    (.vfsqrt 36 35 12 1 0, 0x3F9CC471, 0x7FC00000), (.vfexp2 36 35 12 1 0, 0x403504F3, 0x7FC00000), (.vscale 36 35 33 12 1 0, 0x41400000, 0x7FC00000)],
    givesLanes floatForm p) ∧
    (∀ p ∈ [(Instr.vfmin 36 35 33 12 1 0, 3, 5), (.vfneg 36 35 12 1 0, 0xBFC00000, 0x7FC00000), (.vfclass 36 35 12 1 0, 64, 256)],
      givesLanes floatBitsForm p) ∧
    ∀ p ∈ [(Instr.vcvt 36 33 12 1 0 5, 0x40400000, 0x40A00000), (.vpack 36 33 34 3 0 0 5, 3, 5), (.vunpack 36 33 5 1 0 3 0, 3, 0)],
      givesLanes convertForm p := by unfold givesLanes; decide +kernel

theorem test_vectorMoves : ∀ p ∈ [(Instr.vperm 36 33 34 5 1, 0, 0), (.vbcast 36 33 5 1 1, 5, 5), (.vins 36 5 6 5 0 52, 30, 0), (.vslide 36 33 34 5 1 1, 5, 0),
    (.vsel 36 33 34 5 2, 0xFFFFFFFF, 2), (.vmov 36 33 5 1, 3, 5), (.vcompress 36 33 5 1, 3, 5)],
    givesLanes moveForm p := by unfold givesLanes; decide +kernel

theorem test_vectorScan : ∀ p ∈ [(Instr.vscan 36 33 5 1 0 0, 3, 8), (.vscan 36 34 5 1 0 1, 0xFFFFFFFF, 2), (.vfscan 36 35 12 1 0 0, 0x3FC00000, 0x7FC00000)],
    givesLanes scanForm p := by unfold givesLanes; decide +kernel

/-- `VectorLogicShift`: the bit functions, each bit under its sub-lane's mask bit. -/
theorem test_vectorBits : ∀ p ∈ [(Instr.vand 36 33 34 1, (3 : Nat)), (.vor 36 33 34 1, 0xFFFFFFFF), (.vxor 36 33 34 1, 0xFFFFFFFC), (.vandn 36 33 34 1, 0),
    (.vlop4 36 33 34 35 0xF 1 0x000, 3)],
    p.1.wf = true ∧ (bitForm vec p.1).map (fun r => (r.1, r.2.1, r.2.2.1.all (fun c => !vec.core.badReg.contains c))) = some (36, 1, true) ∧
    (after (exec p.1 vec)).map (fun t => (lane t 32 36 0) % 65536) = some (p.2 % 65536) := by decide +kernel

theorem test_vectorMasks : (∀ p ∈ [(Instr.vcmp 3 33 34 5 1 0 2, (0 : MReg)), (.vcmp 3 33 34 6 0 0 2, 1), (.vfcmp 3 35 35 12 1 0 3, 1)],
      p.1.wf = true ∧ (compareForm vec p.1).isSome = true ∧ (after (exec p.1 vec)).map (fun t => t.mreg 3 &&& 5) = some (p.2 &&& 5)) ∧
    (∀ p ∈ [(Instr.mand 3 0 1, (5 : MReg)), (.mor 3 1 2, 5), (.mxor 3 1 1, 0), (.mnot 3 0, 0)],
      p.1.wf = true ∧ (maskForm vec p.1).map (fun r => r.2) = some (3, p.2) ∧ (after (exec p.1 vec)).map (fun t => t.mreg 3) = some p.2) ∧
    (∀ p ∈ [(Instr.mpop 9 1, (2 : Word)), (.mfirst 9 2, 128), (.mfirst 9 1, 0)],
      p.1.wf = true ∧ (after (exec p.1 vec)).map (fun t => t.sreg 9) = some p.2) ∧
    (∀ i ∈ [Instr.mmov 3 1 0, .mmov 3 33 1, .mmov 36 1 2, .vext 9 33 5 5 35], i.wf = true ∧ (after (exec i vec)).isSome = true) ∧
    (after (exec (.vext 9 33 5 5 35) vec)).map (fun t => t.sreg 9) = some 5 := by decide +kernel

theorem test_vectorReductions : ∀ p ∈ [(Instr.vredsum 9 34 5 1 0, (1 : Word)), (.vredmax 9 34 5 1 0, 2), (.vredmin 9 34 5 1 0, -1),
    (.vredmax 9 34 5 2 0, -0x80000000), (.vredsum 9 34 6 1 0, 0x100000001), (.vfredsum 9 35 12 1 0, 0x7FC00000), (.vfredmax 9 35 12 2 0, 0xFF800000),
    (.vfredmin 9 35 12 1 0, 0x3FC00000)],
    p.1.wf = true ∧ (after (exec p.1 vec)).map (fun t => t.sreg 9) = some p.2 := by decide +kernel

/-- `VectorMemory`, `VectorAtomics`: no active element; checks that pass at the tile's scratch, with the elements found; an address that
stops; and what the instructions leave. -/
def vecAt (x : Word) : State := vec.setS 5 x
def foundAt (rw : Rw) (reach : Reach) (u : Nat) (f : State → Instr → Option (Nat × (Nat → Word))) (i : Instr) (s : State) : Prop :=
  i.wf = true ∧ s.wf = true ∧ ∀ r, f s i = some r → activeUnits s r.1 (8 * u) ≠ [] ∧ s.setDone 0 = true ∧
    let es := (activeUnits s r.1 (8 * u)).map (fun k => ElemAt.mk k (r.2 k) (.mem (tileBase 0 + (r.2 k).toNat % 2 ^ 19)))
    answered (checkElems rw reach u r.2 (activeUnits s r.1 (8 * u)) s) = some (es, s) ∧ answered (awaitElems u es s) = some ((), s) ∧
    (∀ e ∈ es, s.readBad ((e.pl.key).getD 0) u = false) ∧ s.badStore u es = none

theorem test_witness_vectorMemory : (∀ i ∈ [Instr.vld 36 5 0 0 0 5 1 0, .vlds 36 5 7 0 0 0 5 1 0, .vldx 36 5 33 0 0 0 5 2 0, .vldb 36 5 0 0 0 5 1 0],
      (loadAt (vecAt 0xF00000001000) i).map (fun r => (r.1, r.2.1.all (fun c => !vec.core.badReg.contains c), r.2.2.1, r.2.2.2.1)) = some (36, true, 0, 5)) ∧
    (loadAt (vecAt 0xF00000001000) (.vldx 36 5 33 0 0 0 5 2 0)).map (fun r => activeUnits (vecAt 0xF00000001000) r.2.2.2.2.1 32) = some [] ∧
    (stopped (checkElems .read .loadStore 4 (fun _ => 2) [0, 1] vec)).isSome = true ∧
    (vecAt 0xF00000001000).myTile.stateLen (vecAt 0xF00000001000).firingNow.slot ≤ 0x2000 := by decide +kernel

theorem test_vectorLoad : let s := (vecAt 0xF00000001000).wr (tileBase 0 + 0x1000) 8 0x2200000011
    (after (exec (.vld 36 5 0 0 0 5 1 0) s)).map (fun t => (lane t 32 36 0, lane t 32 36 1, lane t 32 36 2)) = some (0x11, 0x22, 0) ∧
    (after (exec (.vst 34 5 0 0 0 5 1 0) s)).map (fun t => (little t (tileBase 0 + 0x1000) 8, byteAt t (tileBase 0 + 0x1008))) =
      some (0x2FFFFFFFF, 0) ∧
    (after (exec (.vaadd 33 5 36 0 0 0 5 1 0) s)).map (fun t => (little t (tileBase 0 + 0x1000) 8, lane t 32 33 0, lane t 32 33 1)) =
      some (0x2200000019, 0x11, 0x14) := by decide +kernel

theorem test_found : foundAt .read .loadStore 4 (fun s i => (loadAt s i).map (fun r => (r.2.2.2.2.1, r.2.2.2.2.2))) (.vld 36 5 0 0 0 5 1 0) (vecAt 0xF00000001000) := by
  refine ⟨by decide +kernel, by decide +kernel, fun r h => ?_⟩
  simp only [loadAt, Option.map_some, Option.some.injEq] at h
  subst h
  decide +kernel
theorem test_found_store : foundAt .write .loadStore 4 (fun s i => (storeAt s i).map (fun r => (r.2.2.2.2.1, r.2.2.2.2.2))) (.vsts 34 5 6 0 0 0 5 1 0) (vecAt 0xF00000001000) := by
  refine ⟨by decide +kernel, by decide +kernel, fun r h => ?_⟩
  simp only [storeAt, Option.map_some, Option.some.injEq] at h
  subst h
  decide +kernel
theorem test_found_atomic : foundAt .atomic .localAtomic 4 (fun s i => (atomicAt s i).map (fun r => (r.2.2.2.1, r.2.2.2.2.1))) (.vaor 33 5 36 0 0 0 5 1 0) (vecAt 0xF00000001000) := by
  refine ⟨by decide +kernel, by decide +kernel, fun r h => ?_⟩
  simp only [atomicAt, Option.map_some, Option.some.injEq] at h
  subst h
  decide +kernel
/-! ## The network

Tile 0 of `fir` with one operation; group 0 of its region has logical tiles 0, 1 and 20 as members, the last of no plate of the region. -/

def net (op : NetOp) : State :=
  { fir with
    netOps := [(0, [op])], live := [⟨7, 0, true⟩], nextId := 8
    groups := [(0, some { skip := false, region := 0, lgroup := 0, mbase := 0, members := [0, 1, 20] })] }

def opOf (kind : NetKind) (st : NetSt) : NetOp := { id := 7, kind := kind, st := st, pc := 0x100, d := 9, n := 4, key := tileBase 1 + 0x1000, ea := 0xF10000081000 }

/-- `FiringTrap`, `FiringLimit`: an operation issued before that may still trap; a trap that waits; a held `barw` that the limit withdraws. -/
theorem test_witness_pendingTrap : (let s : State := { arc with netOps := [(0, [opOf .rst .sent])], live := [⟨7, 0, true⟩], nextId := 8 }
      s.wf = true ∧ s.mayTrap 0 8 = true ∧ arc.mayTrap 0 0 = false ∧
      (after (exec (.fabort 6) s)).map (fun t => (t.firingNow.trapped, t.firingNow.fault.isSome, t.firingNow.decide)) = some (true, true, none) ∧
      (let u := s.mapFiring (fun f => { f with trapped := true, fault := some (9, 0, { code := 3, i0 := 0 }) }); u.wf = true ∧ u.mayTrap 0 (min 8 9) = true)) ∧
    (let s : State := ({ arcState 0xFF 10 with cycle := 11, netOps := [(0, [opOf .barw .held])], live := [⟨7, 0, true⟩], nextId := 8 } : State).mapCore
       (fun c => { c with waitOp := some 7 })
     s.wf = true ∧ (s.coreAt 0).waitOp = some 7 ∧
     (after (exec (.firingLimit 0) s)).map (fun t => (Sparse.get [] t.netOps 0, t.isLive 7)) = some ([], false)) := by decide +kernel

theorem test_net_wf : ∀ kind ∈ [NetKind.rld, .rst, .ramo, .ovld, .ovst, .grpstat, .barr, .barx, .barw], ∀ st ∈ [NetSt.sent, .held, .refused, .applied],
    (net (opOf kind st)).wf = true ∧ ((net (opOf kind st)).netList 0)[0]? = some (opOf kind st) := by decide +kernel

/-- `NetworkIssue`: an address that passes, one beyond the tiles of the region, one beyond a tile's bytes; a list with room; the wait. -/
theorem test_witness_networkIssue : (Instr.rld 9 5 0 0 0 2 0 0).wf = true ∧ (Instr.rst 6 5 0 3 0 2 4).wf = true ∧ (Instr.ramo 9 5 6 0 0 0 2 0 0 0).wf = true ∧
    (Instr.barw 9 5 6 0 0 0).wf = true ∧
    (let s := fir.setS 5 0xF10000081000
     (∀ rw ∈ [Rw.read, .write, .atomic], answered (checkAccess .remote rw 4 4 (s.sreg 5) s) = some (.mem (tileBase 128 + 0x1000), s) ∨
       answered (checkAccess .remote rw 4 4 (s.sreg 5) s) = some (.mem (tileBase 1 + 0x1000), s)) ∧
     s.setDone 0 = true ∧ (s.netList 0).length < 32 ∧ s.core.waitOp = none ∧ (s.region 0).resolve 1 = some 1 ∧ (s.region 0).resolve 20 = none ∧
     (after (exec (.rst 6 5 0 3 0 2 4) s)).map (fun t => ((t.netList 0).map (fun o => (o.key, o.data)), t.core.oset 3, t.core.pc)) =
       some ([(tileBase 1 + 0x1004, 12)], [s.nextId], 8) ∧
     (after (exec (.rld 9 5 0 0 0 2 0 0) s)).map (fun t => ((t.netList 0).length, t.core.waitOp, t.core.pc)) = some (1, some s.nextId, 0)) ∧
    (stopped (checkAccess .remote .read 4 4 0xF10000A00000 fir)).map (fun x => x.1) =
      some (.trap { code := 0x06, i0 := 0xF10000A00000, i1 := 20, i3 := fir.regionInfo }) ∧
    (stopped (checkAccess .remote .read 4 4 0xF1000007C000 fir)).map (fun x => x.1) =
      some (.trap { code := 0x05, i0 := 0xF1000007C000, i1 := 7, i3 := fir.regionInfo }) := by decide +kernel

theorem test_witness_groups : (Instr.ovld 36 5 0 0 0 12 0 1).wf = true ∧ (Instr.ovst 36 5 0 0 0 0 0 1).wf = true ∧
    (let s : State := { net (opOf .rst .sent) with netOps := [] }
     s.groupOf 0 0 ≠ none ∧ s.groupOf 0 1 = none ∧
     (∀ p ∈ [((0xF20000080000 : Word), (6 : Nat), (1 : Nat)), (0xF2000007C002, 5, 7), (0xF20020000000, 5, 9), (0xF10000000000, 5, 8)],
       (stopped (groupAccess p.1 8 s)).map (fun x => x.1) = some (.trap { code := p.2.1, i0 := p.1, i1 := exact p.2.2, i3 := s.regionInfo })) ∧
     answered (groupAccess 0xF20000001000 8 s) = some ((0, 0x1000), s) ∧ (stopped (groupAccess 0xF20000001002 8 s)).isSome = true ∧ s.wf = true) := by
  decide +kernel

/-- `RemoteEffects`: each operation sent to its bank, and its response. -/
theorem test_witness_remoteEffects :
    (∀ kind ∈ [NetKind.rld, .rst, .ramo], (net (opOf kind .sent)).readBad (tileBase 1 + 0x1000) 4 = false ∧
      (net (opOf kind .sent)).writeBad (tileBase 1 + 0x1000) 4 = false ∧
      ({ net (opOf kind .sent) with bad := [tileBase 1 + 0x1000] } : State).readBad (tileBase 1 + 0x1000) 4 = true ∧
      ({ net (opOf kind .sent) with bad := [tileBase 1 + 0x1000] } : State).writeBad (tileBase 1 + 0x1000) 4 = true) ∧
    (let s := (net { opOf .ramo .sent with b := 3 }).wr (tileBase 1 + 0x1000) 4 0xFFFFFFFE
     (after (exec (.remoteAccessApply 0 0) s)).map (fun t => (little t (tileBase 1 + 0x1000) 4, (t.netList 0).map (fun o => o.val))) = some (1, [0xFFFFFFFE])) ∧
    (after (exec (.remoteResponse 0 0) (net { opOf .rld .applied with val := 0xFFFFFFFE, sx := true }))).map
      (fun t => (t.sreg 9, t.netList 0, t.isLive 7)) = some (-2, [], false) ∧
    (net { opOf .rld .applied with trap := some { code := 0x16, i0 := 1, i1 := 1 } }).myTile.firing = some {} := by decide +kernel
/-- An access behind an earlier one of its bytes; a response of a firing that has ended; a trap behind an operation that may still trap. -/
theorem test_witness_remoteOrder :
    (let s : State := { net (opOf .rst .sent) with netOps := [(0, [{ opOf .rst .sent with id := 6 }, opOf .rld .sent])] }
     s.wf = true ∧ s.precedes 0 ((s.netList 0).take 1) false (tileBase 1 + 0x1000) 4 = true ∧
     s.precedes 0 ((s.netList 0).take 0) false (tileBase 1 + 0x1000) 4 = false ∧ after (exec (.remoteAccessApply 0 1) s) = some s) ∧
    (after (exec (.remoteResponse 0 0) (net { opOf .rld .applied with orphan := true }))).map (fun t => (t.netList 0, t.isLive 7)) = some ([], false) ∧
    (let s : State := { net (opOf .rst .sent) with
       netOps := [(0, [{ opOf .rst .sent with id := 6 }, { opOf .rld .applied with trap := some { code := 0x16, i0 := 1 } }])] }
     s.wf = true ∧ (withoutOp s 0 1 ((s.netList 0)[1]?.getD (opOf .rst .sent))).mayTrap 0 7 = true ∧ (withoutOp s 0 0 (opOf .rst .sent)).mayTrap 0 6 = false ∧
     (after (exec (.remoteResponse 0 1) s)).map (fun t => (t.firingNow.trapped, t.firingNow.fault.isSome)) = some (true, true)) := by decide +kernel

/-- `Barriers`: a record of two participants with one arrived; an ill-formed one; a wait held and one refused. -/
def barrier (op : NetOp) (target arrived phase : Nat) : State :=
  (((net { op with key := tileBase 1 + 0x1000, b := 0 }).wr (tileBase 1 + 0x1000) 4 target).wr (tileBase 1 + 0x1004) 4 arrived).wr (tileBase 1 + 0x1010) 8 phase
theorem test_witness_barriers :
    (∀ kind ∈ [NetKind.barr, .barx], let s := barrier (opOf kind .sent) 2 1 5
      s.wf = true ∧ s.readBad (tileBase 1 + 0x1000) 32 = false ∧ little s (tileBase 1 + 0x1000) 4 = 2 ∧ little s (tileBase 1 + 0x1018) 8 = 0) ∧
    little (barrier (opOf .barr .sent) 0 1 5) (tileBase 1 + 0x1000) 4 = 0 ∧
    (after (exec (.barrierUpdate 0 0) (barrier (opOf .barr .sent) 2 1 5))).map (fun t =>
      (little t (tileBase 1 + 0x1004) 4, little t (tileBase 1 + 0x1010) 8, (t.netList 0).map (fun o => o.val))) = some (0, 6, [5]) ∧
    (∀ phase ∈ [0, 1], let s := barrier (opOf .barw .held) 2 0 phase; s.wf = true ∧ little s (tileBase 1 + 0x1010) 8 = phase) ∧
    (barrier (opOf .barw .refused) 2 0 0).heldAt (tileBase 1 + 0x1000) < 64 ∧
    (let s := (barrier (opOf .barr .sent) 2 1 5).wr (tileBase 1 + 0x1018) 8 3
     s.wf = true ∧ s.readBad (tileBase 1 + 0x1000) 32 = false ∧ little s (tileBase 1 + 0x1000) 4 ≠ 0 ∧ little s (tileBase 1 + 0x1018) 8 ≠ 0 ∧
     (after (exec (.barrierUpdate 0 0) s)).map (fun t => (t.netList 0).map (fun o => o.trap)) = some [some { code := 0x15, i0 := 3, i1 := 24 }]) ∧
    (let s := barrier (opOf .barw .held) 0 1 5
     s.wf = true ∧ s.readBad (tileBase 1 + 0x1000) 32 = false ∧ (withoutOp s 0 0 (opOf .barw .held)).mayTrap 0 7 = false ∧
     (after (exec (.barwRelease 0 0) s)).map (fun t => (t.netList 0, t.myTile.record[0], t.myTile.record[3])) = some ([], 0x15, 0)) := by decide +kernel

/-- `Overprint`: a group with an absent member, sampled, read, completed; and one with a member in error. -/
theorem test_witness_overprint : let done (op : NetOp) : NetOp := { op with abs := some [2], got := [(0, 1), (1, 2)], key := 0, off := 0x1000 }
    ((List.range 3).filter (fun j => (net (opOf .ovld .sent)).absentTile 0 (([0, 1, 20][j]?).getD 0)) = [2]) ∧
    (net (opOf .ovld .sent)).readBad (tileBase 1 + 0x1000) 4 = false ∧
    (after (exec (.overprintMemberAccess 0 0 1) (net { opOf .ovld .sent with abs := some [2], key := 0, off := 0x1000 }))).map
      (fun t => (t.netList 0).map (fun o => o.got)) = some [[(1, 0)]] ∧
    (net { done (opOf .ovld .sent) with d := 36, ty := 12 }).wf = true ∧
    (after (exec (.overprintComplete 0 0) (net { done (opOf .ovst .sent) with key := 0 }))).map (fun t => (t.netList 0, t.core.fstat)) = some ([], 64) ∧
    (after (exec (.overprintComplete 0 0) (net { done (opOf .ovld .sent) with d := 36, faulty := [1] }))).map (fun t => t.myTile.record[0]) = some 0x0D := by
  decide +kernel
/-- A sample of `grpstat` 1; an access behind an earlier one of its member's bytes; the tree over three members, one absent. -/
theorem test_witness_overprintTree : (let s := net { opOf .grpstat .sent with n := 1, key := 0 }
      s.wf = true ∧ (after (exec (.overprintSample 0 0) s)).map (fun t => (t.netList 0).map (fun o => o.val)) = some [4]) ∧
    (let op : NetOp := { opOf .ovst .sent with abs := some [2], key := 0, off := 0x1000 }
     let s : State := { net op with netOps := [(0, [{ op with id := 6 }, { op with kind := .ovld }])] }
     s.wf = true ∧ (s.region 0).resolve 1 = some 1 ∧ after (exec (.overprintMemberAccess 0 1 1) s) = some s) ∧
    (overResult 0 6 8 [some 0x300000001, some 0xFFFFFFFFFFFFFFFF, none]).1 = 0x200000000 ∧
    memberNode 0 6 3 (fun k => memberLeaf 0 6 32 0 (([some 0x300000001, some 0xFFFFFFFFFFFFFFFF, none][k]?).getD none)) 12 0 = (0, 64) := by decide +kernel
/-- `Rounding`: an exact magnitude and one with more below. -/
theorem test_witness_rounding : hasMagnitude 3 0 false 3 ∧ hasMagnitude (2 ^ 64) 0 true (2 ^ 64 + 1 / 2) := by
  refine ⟨.inl ⟨rfl, ?_⟩, .inr ⟨rfl, le_refl _, ?_, ?_⟩⟩ <;> norm_num
/-! ## The matrix engine

Slots 0 to 7 of tile 0 are VALID and held by actor slot 0; block 0 is OPEN for integers; slot 0 holds ones in row 0, slot 2 twos. -/

def tagsOf (n : Nat) : Sparse SlotTag := (List.range n).map (fun q => (q, { tag := 2, owner := 0 }))
def mat (q : List MatCmd) : State :=
  let s : State := { fir with
    mats := [(0, { slots := tagsOf 8, pslots := tagsOf 8, blocks := [(0, { tag := 1, int := true })], pblocks := [(0, { tag := 1, int := true })],
                   queue := q })],
    live := q.map (fun c => ⟨c.id, 0, true⟩), nextId := 10 }
  (s.wr (rowKey 0 0 0) 4 0x01010101).wr (rowKey 0 2 0) 4 0x02020202

/-- A command from its word, issued at the program counter 0x40. -/
def cmd (w : Nat) : MatCmd := { id := 7, word := w, av := 0xF00000001000, bv := 64, draw := 0, pc := 0x40, waits := [] }

def claim : MatCmd := cmd (matrixWord 0 8 0 0 0 0 0 1)
def loadRows : MatCmd := cmd (matrixWord 2 3 9 10 0 0 0 0)
def zeroes : MatCmd := cmd (matrixWord 6 1 0 0 0 0 0 (256 * 1 + 16 * 5))
def multiply : MatCmd := cmd (matrixWord 7 0 0 2 0 0 0 (256 * 1 + 16 * 1))

def refusal {ε α : Type} (r : Except ε α) : Option ε :=
  match r with
  | .ok _ => none
  | .error e => some e

/-- `MatrixIssue`: a queue with room, a full one; the traps of a check, of a slot that is not claimed and of a block that is not FULL. -/
theorem test_witness_matrixIssue : (∀ i ∈ [Instr.mclaim 8 0 3 0 0 1, .mrel 0 0 0 0 0, .mzero 1 0 0 0 0 1 5 0, .mma 0 0 2 0 0 0 0 1 1 0 0 1],
      i.wf = true ∧ (matrixForm (mat []) i).bind (fun F => (answered (F.checks (mat []))).map (fun x => (x.2,
        (stepSlots 0 (F.cmd.slots 0) ((mat []).mat 0).pslots).toOption.isSome, (stepBlocks F.cmd.blocks ((mat []).mat 0).pblocks).toOption.isSome))) =
        some (mat [], true, true)) ∧
    (mat []).wf = true ∧ (mat (List.replicate 32 claim)).wf = true ∧ ((mat (List.replicate 32 claim)).mat 0).queue.length = 32 ∧
    (matrixForm (mat []) (.mld 3 6 6 0 0 0 0)).bind (fun F => (stopped (F.checks (mat []))).map (fun x => x.1)) =
      some (.trap { code := 0x03, i0 := 12, i1 := 64, i3 := (mat []).regionInfo }) ∧
    refusal (stepSlots 0 ((cmd (matrixWord 1 9 0 0 0 0 0 0)).slots 0) (tagsOf 8)) = some (9, 0, 6) ∧
    refusal (stepBlocks (cmd (matrixWord 9 0 0 0 0 0 0 256)).blocks [(0, { tag := 1, int := true })]) = some (0x100, 1, 4) ∧
    (after (exec (.mclaim 8 0 3 0 0 1) (mat []))).map (fun t => ((t.mat 0).queue.map (fun c => (c.fn, c.d, c.om)), t.core.oset 3, t.core.pc)) =
      some ([(0, 8, 3)], [10], 8) ∧
    (after (exec (.mrel 9 0 0 0 0) (mat []))).map (fun t => (t.myTile.record[0], t.myTile.record[2], t.myTile.record[3], t.myTile.record[5])) =
      some (0x14, 9, 0, 0x2401) := by decide +kernel

/-- `RowAt` as a test. -/
def rowAt (u : State) (ea : Word) (n align k : Nat) : Bool :=
  answered (checkAccess .ownTile .read n align ea u) == some (.mem k, u) && answered (awaitFetch k n u) == some ((), u) && !u.readBad k n
theorem rowAt_of {u : State} {ea : Word} {n align k : Nat} (h : rowAt u ea n align k = true) : RowAt u ea n align k := by
  simp only [rowAt, Bool.and_eq_true, beq_iff_eq, Bool.not_eq_true'] at h
  exact ⟨answered_ok h.1.1, answered_ok h.1.2, h.2⟩
def offsetAt (u : State) (off n : Nat) : Bool :=
  decide (off + n ≤ 0x7C000) && answered (awaitFetch (tileBase u.cur + off) n u) == some ((), u) && !u.readBad (tileBase u.cur + off) n
theorem offsetAt_of {u : State} {off n : Nat} (h : offsetAt u off n = true) : OffsetAt u off n := by
  simp only [offsetAt, Bool.and_eq_true, decide_eq_true_eq, beq_iff_eq, Bool.not_eq_true'] at h
  exact ⟨h.1.1, answered_ok h.1.2, h.2⟩

def release : MatCmd := cmd (matrixWord 1 3 0 0 0 0 0 1)
def loadScales : MatCmd := cmd (matrixWord 2 3 9 0 0 0 0 1024)
def gather : MatCmd := { cmd (matrixWord 4 3 9 10 0 0 0 (4096 * 5)) with bv := 0 }
def transpose : MatCmd := cmd (matrixWord 5 4 0 0 0 0 0 4096)
/-- A sparse row of one element, 7 in column 5; and a drain of integers as they are, to 0x2000. -/
def gathers : State :=
  ((((mat [gather]).wr (tileBase 0 + 0x1000) 16 (0x2000 + 0x3000 * 2 ^ 32 + 0x4000 * 2 ^ 64 + 2 ^ 96)).wr (tileBase 0 + 0x2004) 4 1).wr
    (tileBase 0 + 0x3000) 2 5).wr (tileBase 0 + 0x4000) 4 7
def drain : MatCmd := cmd (matrixWord 9 0 9 0 0 0 0 256)
def drains : State := ((mat [drain]).wr (tileBase 0 + 0x1000) 16 (0x2000 + 64 * 2 ^ 32 + 5 * 2 ^ 64 + 0x3F800000 * 2 ^ 96)).wr (accKey 0 1 2) 4 9
/-- A load of the row of token 0 at w0. -/
def loadToken : MatCmd := { cmd (matrixWord 3 3 9 10 0 0 0 0) with av := 0, bv := 0 }
def tokens : State := { arc with mats := [(0, { slots := tagsOf 8, pslots := tagsOf 8, queue := [loadToken] })], live := [⟨7, 0, true⟩], nextId := 10 }

/-- `MatrixLoads`, `MatrixProducts`, `MatrixDrain`: commands that may start; what some leave; a load whose address stops. -/
theorem test_witness_matrixStart : (∀ c ∈ [claim, release, loadRows, loadScales, transpose, zeroes, multiply], (mat [c]).wf = true ∧
      ((mat [c]).mat 0).queue[0]? = some c ∧ (mat [c]).mayStart 0 0 c = true) ∧ 16 * multiply.d + multiply.n ≤ 1024 ∧ (mat [multiply]).bad = [] ∧
    [claim.fn, release.fn, loadRows.fn, loadToken.fn, gather.fn, transpose.fn, zeroes.fn, multiply.fn, drain.fn] = [0, 1, 2, 3, 4, 5, 6, 7, 9] ∧
    claim.d + claim.word % 64 < 64 ∧ loadRows.word.testBit 10 = false ∧ loadScales.word.testBit 10 = true ∧ loadRows.rows = 1 ∧
    product (mat [multiply]) (mat [multiply]) 0 multiply 0 0 = (8, 0) ∧
    (after (exec (.matrixCmdStart 0 0) (mat [multiply]))).map (fun t => (little t (accKey 0 0 0) 4, little t (accKey 0 1 0) 4)) = some (8, 0) := by decide +kernel
theorem test_witness_rows : RowAt (atWork (mat [loadRows]) 0 loadRows) 0xF00000001000 64 64 (tileBase 0 + 0x1000) ∧
    RowAt (atWork (mat [loadScales]) 0 loadScales) 0xF00000001000 4 4 (tileBase 0 + 0x1000) ∧
    RowAt (atWork gathers 0 gather) 0xF00000001000 16 16 (tileBase 0 + 0x1000) ∧
    RowAt (atWork drains 0 drain) 0xF00000001000 64 64 (tileBase 0 + 0x1000) ∧
    OffsetAt (atWork gathers 0 gather) 0x2000 4 ∧ OffsetAt (atWork gathers 0 gather) 0x2004 4 ∧ OffsetAt (atWork gathers 0 gather) 0x3000 2 ∧
    OffsetAt (atWork gathers 0 gather) 0x4000 4 := by
  have h : (rowAt (atWork (mat [loadRows]) 0 loadRows) 0xF00000001000 64 64 (tileBase 0 + 0x1000) &&
      rowAt (atWork (mat [loadScales]) 0 loadScales) 0xF00000001000 4 4 (tileBase 0 + 0x1000) &&
      rowAt (atWork gathers 0 gather) 0xF00000001000 16 16 (tileBase 0 + 0x1000) &&
      rowAt (atWork drains 0 drain) 0xF00000001000 64 64 (tileBase 0 + 0x1000) &&
      [(0x2000, 4), (0x2004, 4), (0x3000, 2), (0x4000, 4)].all (fun p => offsetAt (atWork gathers 0 gather) p.1 p.2)) = true := by decide +kernel
  simp only [Bool.and_eq_true, List.all_cons, List.all_nil] at h
  obtain ⟨⟨⟨⟨a, b⟩, c⟩, d⟩, e, f, g, i, -⟩ := h
  exact ⟨rowAt_of a, rowAt_of b, rowAt_of c, rowAt_of d, offsetAt_of e, offsetAt_of f, offsetAt_of g, offsetAt_of i⟩
theorem test_witness_gather : gathers.wf = true ∧ gathers.mayStart 0 0 gather = true ∧ gather.rows = 1 ∧ elemWidth gather.ty = 32 ∧
    little gathers (tileBase 0 + 0x100C) 4 = 1 ∧ little gathers (tileBase 0 + 0x2000) 4 = 0 ∧ little gathers (tileBase 0 + 0x2004) 4 = 1 ∧
    little gathers (tileBase 0 + 0x3000) 2 = 5 := by decide +kernel
theorem test_witness_tokenRow : tokens.wf = true ∧ tokens.mayStart 0 0 loadToken = true ∧ tokens.readBad (tileBase 0 + 0x400) 64 = false ∧
    answered (tokenAddr loadToken.av (loadToken.bv + 64 * 0) 64 (bits loadToken.word 12 4) (atWork tokens 0 loadToken)) =
      some ((0, 0, 0x400), atWork tokens 0 loadToken) := by decide +kernel
theorem test_witness_drain : drains.wf = true ∧ drains.mayStart 0 0 drain = true ∧ drains.bad = [] ∧ 16 * drain.d + drain.n ≤ 1024 ∧
    16 * drain.row + drain.m ≤ 64 ∧ (drains.tile 0).firing = some {} ∧ (drains.tile 0).stateLen 0 ≤ 0x2000 ∧
    little drains (tileBase 0 + 0x1009) 1 = 0 ∧ elemWidth 5 = 32 ∧ drain.n * 32 / 8 = 64 ∧ drained drains 0 drain (tileBase 0 + 0x1000) 1 2 = (9, 0) := by
  decide +kernel
theorem test_drain_record : DrainRecord drains (tileBase 0 + 0x1000) := by
  constructor
  all_goals decide +kernel
theorem test_drain : (after (exec (.matrixCmdStart 0 0) drains)).map (fun t => (little t (tileBase 0 + 0x2048) 4, ((t.mat 0).queue.map MatCmd.started))) =
    some (9, [true]) := by decide +kernel
theorem test_witness_matrixTrap : let c := { loadRows with av := 0xF0000007F000 }
    (stopped (startCmd c (atWork (mat [c]) 0 c))).map (fun r => r.2) = some (atWork (mat [c]) 0 c) ∧
    ((mat [c]).tile 0).firing = some {} ∧ ((mat [c]).mapMat 0 (fun x => { x with queue := x.queue.filter (fun e => e.id ≠ c.id) })).mayTrap 0 c.id = false ∧
    (after (exec (.matrixCmdStart 0 0) (mat [c]))).map (fun t => (t.myTile.record[0], t.myTile.record[1])) = some (0x05, 0x40) := by decide +kernel

/-- `MatrixCompletion`: a started command; the sixteen tiles of a gang; both ends of `mwait`; the slots `mstat` names. -/
def gang : State :=
  let c := { cmd (matrixWord 8 0 0 2 0 0 0 (64 + 4 + 2)) with gang := 1 }
  { fir with
    tiles := (List.range 16).map (fun j => (tileOf 0 j, { firing := some {}, slots := #v[{ st := .firing }, {}, {}, {}, {}, {}, {}, {}] }))
    mats := (List.range 16).map (fun j => (tileOf 0 j, { slots := tagsOf 8, pslots := tagsOf 8, queue := [c], gang := 1 })) }
theorem test_witness_matrixCompletion :
    (let s := mat [{ claim with started := true, flags := 32 }]
     s.wf = true ∧ (stepSlots 0 (claim.slots 0) (s.mat 0).slots).toOption = some (tagsOf 8 ++ [(8, { tag := 1 }), (9, { tag := 1 })]) ∧
     (stepBlocks claim.blocks (s.mat 0).blocks).toOption = some (s.mat 0).blocks ∧
     (after (exec (.matrixCmdComplete 0 0) s)).map (fun t => ((t.mat 0).queue, (t.coreAt 0).fstat, t.isLive 7)) = some ([], 32, false) ∧
     (s.tile 0).firing = some {}) ∧
    (mat [claim]).wf = true ∧ (after (exec (.mstat 9 0) (mat []))).map (fun t => t.sreg 9) = some 255 ∧
    (after (exec (.mstat 9 4) (mat []))).map (fun t => t.sreg 9) = some 1 := by decide +kernel
theorem test_gang_wf : gang.wf = true ∧ (((gang.mat 0).queue.filter (fun c => c.fn = 8 ∧ !c.started)).map MatCmd.gang).head? = some 1 := by decide +kernel
/-- The same gang with the fields of tile 5 another's, and an earlier command of each tile that may trap. -/
def gangApart : State :=
  let c (j : Nat) := { cmd (matrixWord 8 0 0 2 0 0 0 (64 + 4 + (if j = 5 then 0 else 2))) with gang := 1 }
  { gang with mats := (List.range 16).map (fun j => (tileOf 0 j, { slots := tagsOf 8, pslots := tagsOf 8, queue := [{ zeroes with id := 3 }, c j], gang := 1 })) }
theorem test_witness_gangApart : gangApart.wf = true ∧
    ((gangApart.gangCmd 1 (tileOf 0 5)).map (fun x => x.2.gangKey) ≠ (gangApart.gangCmd 1 (tileOf 0 0)).map (fun x => x.2.gangKey)) ∧
    (∀ j, j < 16 → ((gangApart.tile (tileOf 0 j)).firing = some {} ∧ (gangApart.gangCmd 1 (tileOf 0 j)).isSome = true ∧
      (gangApart.mapMat (tileOf 0 j) (fun x => { x with queue := x.queue.filter (fun e => e.id ≠ 7) })).mayTrap (tileOf 0 j) 7 = true)) ∧
    (after (exec (.mmagGangStart 0) gangApart)).map (fun t => ((t.tile (tileOf 0 3)).firing.bind Firing.fault).map (fun x => x.2.2.i1)) = some (some 32) := by
  decide +kernel
theorem test_witness_gang : ∀ j, j < 16 → (gang.gangCmd 1 (tileOf 0 j)).map (fun x => (x.1, x.2.gangKey)) =
    some (0, (cmd (matrixWord 8 0 0 2 0 0 0 (64 + 4 + 2))).gangKey) := by decide +kernel
/-! ## Streams

Context 64 of region 0, its number 1 there, holds the translation of the page at 0 to HBM at 0x100000. -/

/-- A shape record of two elements of 4 bytes, the second behind the first. -/
def record (base : Nat) : Nat := base + 3 * 2 ^ 64 + 2 ^ 80 + 2 * 2 ^ 256 + 4 * 2 ^ 256 * 2 ^ 192
def shapeFrom (r : Nat) : Shape :=
  match shapeOf r 0 with
  | .ok x => x
  | .error _ => {}

def shapeMade (r : Nat) : Option (Nat × List (Option Nat)) :=
  match shapeOf r 0 with
  | .ok x => some (x.n, [x.addrOf 0, x.addrOf 1])
  | .error _ => none

theorem test_witness_shapeRecord : shapeMade (record 64) = some (2, [some 64, some 68]) ∧
    (∀ nd ∈ [0, 6], record 64 / 2 ^ 80 % 2 = 1 ∧ (record 64 - 2 ^ 80 + nd * 2 ^ 80) / 2 ^ 80 % 256 = nd) ∧
    shapeFault (record 64 + 2 ^ 80 + (2 ^ 32 - 3) * 2 ^ 256 + (2 ^ 32 - 1) * 2 ^ 512) = none ∧ 2 ^ 48 < (2 ^ 32 - 1) * (2 ^ 32 - 1) ∧
    shapeFault (record 64 + (2 ^ 64 - 1) * 2 ^ 384) = none ∧ sx 64 (2 ^ 64 - 1) < 0 ∧
    shapeMade (record 64 + 2 ^ 320 + (2 ^ 64 - 1) * 2 ^ 384) = some (2, [none, some 64]) := by decide +kernel

def pageEntry : TlbEntry :=
  { tag := 0, va := 0, size := 65536, pa := 0x100000, tgt := 0, rp := true, wp := true, xp := false, dirty := true, lvl := 1, pteTgt := 0, pteAddr := 0, pte := 0x63 }
def strm (x : Ctx) : State :=
  let s : State := { fir with
    regions := [(0, { live := true, npl := 1, map := [0], started := true, ctx := [(1, 64)] })], ctxs := [(64, x)], tlb := [(ctxTlbKey 64, [pageEntry])],
    live := [⟨7, 0, true⟩], nextId := 8 }
  ((((s.setS 5 0xF00000002000).setS 6 0xF00000003000).wr (tileBase 0 + 0x2000) 96 (record 0x100)).wr (tileBase 0 + 0x3000) 96 (record 0x200)).wr (tileBase 0 + 0x4000) 8 9
def context (role : Nat) (cmds : List StreamCmd) : Ctx := { st := .active, role := role, region := some 0, num := 1, cmds := cmds }
def copy : StreamCmd := { id := 7, core := 0, fn := 1, word := 0xA000400000000100, pc := 0x40, ow := [], av := 0xF00000002000, bv := 0xF00000003000 }
def performing : StreamCmd := { copy with accepted := true, src := shapeFrom (record 0x100), dst := shapeFrom (record 0x200) }

theorem test_strm_wf : (∀ x ∈ [context 0 [], context 1 [], context 2 [copy], context 2 [performing]], (strm x).wf = true) ∧
    (strm (context 2 [])).ctxNamed 1 = some 64 ∧ (strm (context 2 [])).ctxNamed 2 = none ∧ (strm (context 2 [])).ctxRole 64 = 2 := by decide +kernel

theorem test_witness_streamIssue : (∀ i ∈ [Instr.scopy 5 6 0 3 0 1, .sfetch 9 5 6 0 3 0 1, .sput 5 6 0 3 0 1, .sbind 5 0 3 0 1], i.wf = true ∧
      (streamForm i).isSome = true) ∧
    (∀ a ∈ [5, 6], let s := strm (context 2 [])
      answered (checkAccess s.recordReach .read 192 64 (s.sreg a) s) = some (.mem (tileBase 0 + (s.sreg a).toNat % 2 ^ 19), s)) ∧
    (stopped (checkAccess .localAtomic .read 192 64 12 (strm (context 2 [])))).isSome = true ∧
    streamsFull (strm (context 2 (List.replicate 8 copy))) ∧ ¬ streamsFull (strm (context 2 [])) ∧
    (after (exec (.scopy 5 6 0 3 0 1) (strm (context 2 [])))).map (fun t => ((t.ctxAt 64).cmds.map (fun m => (m.fn, m.av)), t.core.oset 3, t.core.pc)) =
      some ([(1, 0xF00000002000)], [8], 8) ∧
    (after (exec (.sbind 5 0 3 0 1) (strm (context 2 [])))).map (fun t => (t.myTile.record[0], t.myTile.record[3], t.myTile.record[4])) = some (5, 11, 2) := by
  unfold streamsFull; decide +kernel

theorem test_witness_streamWaits : (let s := (strm (context 2 [])).setS 5 0xF10000004000
     (Instr.cwait 9 5 7 0 0 0).wf = true ∧ answered (checkAccess (s.counterReach (s.sreg 5)) .read 8 8 (s.sreg 5) s) = some (.mem (tileBase 0 + 0x4000), s) ∧
     little s (tileBase 0 + 0x4000) 8 = 9 ∧ s.setDone 0 = true ∧ s.readBad (tileBase 0 + 0x4000) 8 = false ∧ (s.sreg 7).toNat = 5 ∧
     (after (exec (.cwait 9 5 7 0 0 0) s)).map (fun t => t.sreg 9) = some 9 ∧ (after (exec (.cwait 9 5 5 0 0 0) s)).isSome = true) ∧
    (let s := strm { context 2 [performing] with st := .frozen }
     (after (exec (.sresume 1) s)).map (fun t => (t.ctxAt 64).st) = some .active ∧ (after (exec (.sstat 9 1 0) s)).map (fun t => t.sreg 9) = some 0x123) := by
  decide +kernel

/-- `StreamAcceptance`: an `sbind`, a copy, a full context, and records that fail. -/
theorem test_witness_streamAcceptance : (∀ m ∈ [copy, { copy with fn := 0 }], let s := strm (context 2 [m])
      (s.ctxAt 64).cmds.find? (fun m => !m.accepted && m.ow.all (fun id => !s.isLive id)) = some m) ∧
    (answered (acceptShapes copy (strm (context 2 [copy])))).map (fun r => (r.1, r.2.wf)) = some ((shapeFrom (record 0x100), shapeFrom (record 0x200)), true) ∧
    (answered (readShape 0xF00000002000 0 (strm (context 0 [{ copy with fn := 0 }])))).map (fun r => r.1) = some (shapeFrom (record 0x100)) ∧
    (stopped (readShape 0xF00000001000 0 (strm (context 0 [])))).isSome = true ∧
    (8 ≤ ((strm (context 2 (List.replicate 8 performing ++ [copy]))).ctxAt 64).cmds.length) := by decide +kernel

/-- `StreamIssue`, `StreamAcceptance`, `StreamPerform`: a second record whose check fails; a counter that passes; a frozen context of a graph that a
control core resumes; the command in front, and a stretch that ends at a 256-byte boundary. -/
theorem test_witness_stretches : (let s := (strm (context 2 [])).setS 6 0x1000000000000
      answered (checkAccess s.recordReach .read 192 64 (s.sreg 5) s) = some (.mem (tileBase 0 + 0x2000), s) ∧
      (stopped (checkAccess s.recordReach .read 192 64 (s.sreg 6) s)).map (fun r => r.1) =
        some (.trap { code := 5, i0 := 0x1000000000000, i1 := 1, i3 := s.regionInfo }) ∧
      (after (exec (.scopy 5 6 0 3 0 1) s)).map (fun t => (t.myTile.record[0], t.myTile.record[3])) = some (5, 1)) ∧
    (let s := strm (context 0 [{ copy with fn := 0 }]); answered (counterCheck (shapeFrom (record 0x100)) s) = some ((), s)) ∧
    (let s : State := { strm { context 2 [] with st := .frozen } with cur := 2048, cores := [(2048, { running := true })] }
     s.wf = true ∧ needsResume (s.ctxAt 2049) = false ∧ (s.region 0).ctx.find? (fun e => e.1 = 1 ∧ needsResume (s.ctxAt e.2) = true) = some (1, 64) ∧
     (after (exec (.sresume 1) s)).map (fun t => (t.ctxAt 64).st) = some .active) ∧
    ((strm (context 2 [])).region 0).resolve (0xF10000004000 / 2 ^ 19 % 2 ^ 11) = some 0 := by decide +kernel
theorem test_witness_front : IsFront (context 2 [{ performing with id := 8, seq := 2 }, performing]) performing ∧ StretchEnds 4 0 2 2 ∧ StretchEnds 4 0 100 64 := by
  refine ⟨⟨by decide +kernel, rfl, fun e he _ => ?_⟩, ⟨by decide, by decide, .inl rfl, fun h h1 h2 => by omega⟩,
    ⟨by decide, by decide, .inr (by decide), fun h h1 h2 => by omega⟩⟩
  obtain rfl | he := List.mem_cons.mp he
  · exact .inr (by decide +kernel)
  · exact .inl (List.mem_singleton.mp he)

theorem test_streamAcceptance : (after (exec (.streamCmdAccept 64) (strm (context 2 [copy])))).map (fun t => ((t.ctxAt 64).cmds.map (fun m => (m.accepted, m.seq)), t.firingNow.ext)) =
      some ([(true, 1)], false) ∧
    (after (exec (.streamCmdAccept 64) (strm (context 2 [{ copy with av := 0xF00000001000 }])))).map (fun t => (t.myTile.record[0], t.myTile.record[1])) =
      some (0x15, 0x40) := by decide +kernel

/-- Elements of the page that context 64 holds are settled. -/
theorem test_settled (s : State) (w : CtxBy) (x : Shape) (e a q : Nat) (rw : Rw) (ha : x.addrOf e = some a) (hs : x.space = 0)
    (hz : x.esz = 4) (hp : a % 65536 + 4 ≤ 65536)
    (h : ∀ u, u = { s with mem := u.mem, bad := u.bad, ctxs := u.ctxs } → ctxKeyOf w 0 a rw u = .ok q u) : settled s w x rw e (some q) := by
  unfold settled
  rw [ha, hs, hz]
  exact ⟨q, rfl, hp, h⟩

theorem test_key (a : Nat) (x : Ctx) (rw : Rw) (hr : rw ∈ [Rw.read, .write]) (u : State) (h : u = { strm x with mem := u.mem, bad := u.bad, ctxs := u.ctxs }) (ha : a ∈ [0x100, 0x104, 0x200, 0x204]) :
    ctxKeyOf ⟨16448, 0, 0⟩ 0 a rw u = .ok (hbmBase + 0x100000 + a) u := by
  rw [h]
  simp only [List.mem_cons, List.not_mem_nil, or_false] at ha hr
  obtain rfl | rfl | rfl | rfl := ha <;> obtain rfl | rfl := hr <;> rfl

theorem test_witness_streamPerform : let s := strm (context 2 [performing])
    (s.ctxAt 64).cmds.find? StreamCmd.accepted = some performing ∧ (s.ctxAt 64).cmds.find? (fun e => e.id = performing.id) = some performing ∧
    performing.dst.esz = performing.src.esz ∧ performing.src.n = 2 ∧ performing.dst.cinc = 0 ∧ s.ctxBy 64 0 = ⟨16448, 0, 0⟩ ∧ s.bad = [] ∧
    (after (exec (.streamCmdPerform 64) (s.wr (hbmBase + 0x100100) 8 0x700000005))).map (fun t =>
      (little t (hbmBase + 0x100200) 8, (t.ctxAt 64).cmds, (t.ctxAt 64).st, (t.ctxAt 64).performed)) = some (0x700000005, [], .idle, 1) := by decide +kernel

theorem test_witness_elements (rw : Rw) (hr : rw ∈ [Rw.read, .write]) : ∀ e ∈ [0, 1], ∀ b ∈ [0x100, 0x200],
    settled (strm (context 2 [performing])) ⟨16448, 0, 0⟩ (shapeFrom (record b)) rw e (some (hbmBase + 0x100000 + (b + 4 * e))) := by
  intro e he b hb
  simp only [List.mem_cons, List.not_mem_nil, or_false] at he hb
  obtain rfl | rfl := he <;> obtain rfl | rfl := hb <;>
    exact test_settled _ _ _ _ _ _ rw (by decide +kernel) (by decide +kernel) (by decide +kernel) (by omega) (fun u h => test_key _ _ rw hr u h (by decide))

/-- A read that fails: no translation of the page. -/
theorem test_witness_freeze : let s : State := { strm (context 2 [performing]) with tlb := [] }
    (stopped (elemRead (s.ctxBy 64 0) performing.src 0 s)).map (fun r => (r.1, r.2.ctxs, r.2.wf)) =
      some (({ code := 0x04, reason := 1, addr := 0x100 } : CtxFault), s.ctxs, true) := by decide +kernel

/-! Context 64 as a source of, and as a sink for, one token of two elements; its segment's far end is descriptor 0 of tile 0. -/

def firingCtx (role : Nat) : State :=
  let s := strm { context role [] with st := .idle, p := 1, segs := 1, per := 2, shape := shapeFrom (record 0x100) }
  { s with descs := [(0, { kind := if role = 0 then 1 else 2, base := 0x400, tsz := 7, cap := 4, peerL := 0x7FF }),
                     (ctxKey 64 0, { kind := if role = 0 then 2 else 1, tsz := 7, cap := 4, peerL := 0, peerD := 0, wr := if role = 1 then 1 else 0 })] }

theorem test_witness_source : let s := firingCtx 0
    s.wf = true ∧ (s.ctxAt 64).quiescent = false ∧ (s.region 0).started = true ∧ tokensTo s 64 0 = [0] ∧ (s.desc (ctxKey 64 0)).space = 4 ∧
    s.peerKey (ctxKey 64 0) = some 0 ∧ s.bad = [] ∧
    (after (exec (.streamSourceFiring 64) (s.wr (hbmBase + 0x100100) 8 0x201))).map (fun t => (flits t (ctxKey 64 0), (t.ctxAt 64).quiescent)) =
      some ([.data 0x400 [1, 2, 0, 0, 0, 0, 0, 0] none, .pointer 1 0 none, .marker 0 false], true) := by decide +kernel

theorem test_witness_sink : let s := firingCtx 1
    s.wf = true ∧ (s.ctxAt 64).quiescent = false ∧ tokensTo s 64 0 = [0] ∧ (s.desc (ctxKey 64 0)).count = 1 ∧ (s.ctxAt 64).shape.cinc = 0 ∧ s.bad = [] ∧
    (after (exec (.streamSinkFiring 64) (s.wr (winBase (ctxKey 64 0)) 8 0x201))).map (fun t => (little t (hbmBase + 0x100100) 8, flits t (ctxKey 64 0))) =
      some (0x201, [.ret 1]) := by decide +kernel

theorem test_addr : ∀ e ∈ [0, 1], (shapeFrom (record 0x100)).addrOf e = some (0x100 + 4 * e) := by decide +kernel

theorem test_witness_streamElements (role : Nat) (rw : Rw) (hr : rw ∈ [Rw.read, .write]) : ∀ e ∈ [0, 1],
    settled (firingCtx role) ⟨16448, 0, 0⟩ (shapeFrom (record 0x100)) rw e (some (hbmBase + 0x100000 + (0x100 + 4 * e))) := by
  intro e he
  refine test_settled _ _ _ _ _ _ rw (test_addr e he) (by decide +kernel) (by decide +kernel) ?_ fun u h => ?_
  · simp only [List.mem_cons, List.not_mem_nil, or_false] at he; omega
  · simp only [List.mem_cons, List.not_mem_nil, or_false] at he hr
    rw [h]
    obtain rfl | rfl := he <;> obtain rfl | rfl := hr <;> rfl

theorem test_witness_distinct (role : Nat) : Distinct (firingCtx role) 4 0 2 (fun e => if e < 2 then some (hbmBase + 0x100000 + (0x100 + 4 * e)) else none) none where
  elements := by
    intro e f q r _ hf h2 hq hr
    rw [if_pos (by omega), Option.some.injEq] at hq hr
    subst hq hr
    exact .inl (by omega)
  counter := fun _ _ _ _ _ _ h => nomatch h
  sound := by
    intro e q _ _ _
    show List.any _ _ = false
    rfl
  soundCounter := fun _ h => nomatch h
/-! ## Configuration

Region 0 on plate 0, held by no core; control core 0 at level M names it by s8, and its private memory by s5. -/

def conf (r : Region) : State :=
  ({ ctl with regions := [(0, r)], plates := [(0, { st := 1 })] } : State).setS 5 0xF40000001000
def reg : Region := { live := true, npl := 1, map := [0], place := 0x101 }
def shutConf (r : Region) : State := (conf r).mapCore (fun c => { c with shut := true, holds := some 0 })

def works (s : State) (ow a g : Nat) : Bool :=
  s.setDone ow && decide ((s.sreg a).toNat = g) && decide (g < 128) && (s.region g).live &&
    s.cores.all (fun e => e.1 == s.cur || e.2.holds != some g) && ((s.region g).proofSt != .pulling || s.core.holds == some g)
theorem works_of {s : State} {ow a g : Nat} (h : works s ow a g = true) : Works s ow a g := by
  simp only [works, Bool.and_eq_true, decide_eq_true_eq, List.all_eq_true, Bool.or_eq_true, beq_iff_eq, bne_iff_ne] at h
  exact ⟨h.1.1.1.1.1, h.1.1.1.1.2, h.1.1.1.2, h.1.1.2, fun e he hn => (h.1.2 e he).resolve_left hn, fun hp => h.2.resolve_left fun hn => hn hp⟩

theorem test_witness_works : (∀ s ∈ [conf reg, conf { reg with proofSt := .ready }, shutConf { reg with proofSt := .pulling }, shutConf { reg with started := true }],
      s.wf = true ∧ works s 0 8 0 = true ∧ (answered (checkAccess .control .read 4 4 (s.sreg 5) s)).map (fun r => r.2) = some s) ∧
    (∀ i ∈ [Instr.etch 8 5 7 0 3, .pull 9 8 7 0 3, .drain 9 8 7 0 3, .drainFlush 9 8 7 0 3, .qstat 9 8 0 3 2, .pmove 9 8 7 0 3, .pfree 9 8 0 3],
      i.wf = true) ∧ (conf { reg with live := false }).wf = true ∧
    (after (exec (.qstat 9 8 0 3 0) (conf { reg with live := false }))).map (fun t => t.sreg 9) = some 0xC05 ∧
    (after (exec (.qstat 9 8 0 3 0) (conf { reg with proofSt := .ready }))).map (fun t => (t.sreg 9, t.core.pc)) = some (2 + 8 + 16, 0x108) := by decide +kernel

/-- `PullsAndDrains`: the conditions of its clauses on the proof plane, the drain and the residue. -/
def busy (r : Region) : State := { conf r with tiles := [(0, { slots := #v[{ st := .waiting }, {}, {}, {}, {}, {}, {}, {}] })] }
theorem test_witness_pulls : (conf reg).drained 0 = true ∧ (busy reg).drained 0 = false ∧ (busy reg).wf = true ∧ works (busy { reg with proofSt := .ready }) 0 8 0 = true ∧
    (conf { reg with proofSt := .ready }).residue 0 = none ∧ (conf reg).core.shut = false ∧ (shutConf reg).core.shut = true ∧
    (after (exec (.pull 9 8 7 0 3) (conf reg))).map (fun t => t.sreg 9) = some 0x14 ∧
    (after (exec (.pull 9 8 7 0 3) (conf { reg with proofSt := .ready }))).map (fun t => ((t.region 0).proofSt, (t.region 0).swapAt)) = some (.pulling, 128) ∧
    (after (exec (.pull 9 8 0 0 3) (busy { reg with proofSt := .ready }))).map (fun t => t.sreg 9) = some 0x10007 := by decide +kernel

def resid : State :=
  { conf { reg with proofSt := .ready, started := true } with
    tiles := [(0, actor {} 2 1 0 0), (1, actor {} 1 2 0 0)]
    descs := [(0, inDesc 0 1 0), (1, outDesc 0 1 1), (32, outDesc 0 0 0), (33, inDesc 0 0 1)] }
theorem test_witness_residue : resid.wf = true ∧ resid.drained 0 = true ∧ resid.residue 0 ≠ none ∧
    (after (exec (.drainFlush 9 8 7 0 3) resid)).map (fun t => ((t.desc 0).count, flits t 0)) = some (0, [.ret 2]) := by decide +kernel

/-- `EtchWrites`: a word of each clause. -/
theorem test_witness_etch : let s := conf { reg with proofSt := .etching }
    (s.region 0).resolve 3 = some 3 ∨ (s.region 0).resolve 3 ≠ none ∧ s.wf = true ∧
    (∀ p ∈ [((14 : Nat), (0 : Nat), some (1 : Nat)), (4, 17, some 1), (0, 8, some 1), (9, 0, some 11), (0, 5, none), (48, 3, none), (1, 65535, none), (12, 9, none),
        (81, 8, none), (115, 2, none), (116, 1, some 1)],
      (match s.etchWrite 0 (3 * 2 ^ 19 + p.1 * 2 ^ 12) p.2.1 with
        | .ok _ => none
        | .error e => some e) = p.2.2) ∧
    (∃ p, (s.region 0).resolve 3 = some p ∧ Sparse.rising (s.tile p).proof = true ∧ Sparse.rising (s.tile p).pairsProof = true) := by
  refine .inr ⟨by decide +kernel, by decide +kernel, by decide +kernel, ⟨32 * 0 + 3, by decide +kernel, by decide +kernel, by decide +kernel⟩⟩

/-- `EtchForm`: CONTROL words that are taken and that reject, HIGH before a WRITE. -/
def worded (i : Nat) (h : Option Nat) (w : Nat) : Option (Nat × Bool × Option Nat) :=
  match (conf { reg with proofSt := .etching }).etchWord 0 9 i h w with
  | .ok (u, k) => some ((u.region 0).markTag, (u.region 0).auto, k)
  | .error _ => none
theorem test_witness_etchForm : worded 3 none 0x840000AB = some (0xAB, false, none) ∧ worded 7 none 0x88000000 = some (0, true, none) ∧
    worded 3 none 0x88000000 = none ∧ worded 3 none 0x40000005 = some (0, false, some 5) ∧ worded 3 (some 5) 0x84000000 = none ∧
    worded 3 none 0xC0000000 = none ∧ (conf { reg with proofSt := .etching }).region 0 = { reg with proofSt := .etching } ∧
    (0x80000001 / 2 ^ 26 = 0x20 ∧ 0x80000001 % 128 = reg.npl) ∧ 0x23 * 2 ^ 26 + 8 = 0x8C000008 := by decide +kernel

/-- `TransitLegs`: two hops east from a boundary tile, in slots 2 and 3 of 4; the same where another region's pair stands. -/
theorem test_witness_legs : ((conf reg).writeLeg 0 4 1 0 false 1 [36, 37]).map (fun u => ((u.tile 36).pairsProof, (u.tile 37).pairsProof)) =
      some ([(16, 2 + 8 + 2048)], [(24, 2 + 8 + 2048)]) ∧ Sparse.rising (conf reg).tiles = true ∧ (conf reg).owner 36 = none ∧
    (let s : State := (conf reg).setTile 36 { pairsProof := [(16, 8 + 16)] }; Sparse.rising s.tiles = true ∧ s.writeLeg 0 4 1 0 false 1 [36, 37] = none) := by
  decide +kernel

/-- `Sections`: a section on a line of installed code, deferred, and one beside it, written at once. -/
def sect (toff : Nat) (bs : List Byte) : Sect := { kind := 0, rset := 0, ltile := 3, toff := toff, data := bs }
def sections : State :=
  { conf { reg with obj := { sects := [sect 0 [1, 2]] }, objProof := { sects := [sect 32 [7], sect 64 [8]] } } with tiles := [(3, actor {} 1 1 0 0)] }
theorem test_witness_sections : sections.wf = true ∧ (sections.region 0).resolve 3 = some 3 ∧ (sections.tile 3).avalid 0 = true ∧
    ((sections.stageSects 0).region 0).deferred = [sect 32 [7]] ∧ little (sections.stageSects 0) (imemBase 3 + 32) 1 = 0 ∧
    little (sections.stageSects 0) (imemBase 3 + 64) 1 = 8 := by decide +kernel

/-- `SwapsAndModes`: a swap due, a region that ends, one that starts again in mode 1, and one whose mode no slot declares. -/
def modes (r : Region) (m ph : Nat) : State :=
  let t : Tile := put (put (put {} 2 0 0 64) 4 0 0 1) 13 0 0 1
  { conf { r with started := true, sinkMode := some m } with
    tiles := [(0, { t with plane := Sparse.set 0 t.plane (cfgKey 4 0 1 0) ph, slots := #v[{ st := .quiescent }, {}, {}, {}, {}, {}, {}, {}] })] }
theorem test_witness_swaps : (let s := conf { reg with proofSt := .pulling, swapAt := 0 }
     s.wf = true ∧ (s.region 0).tiles.Nodup ∧ (after (exec (.pullSwap 0) s)).map (fun t => ((t.region 0).proofSt, (t.region 0).started)) = some (.none, true)) ∧
    (let s := conf { reg with proofSt := .pulling, swapAt := 9 }; (after (exec (.pullSwap 0) s)) = some s) := by decide +kernel
theorem test_witness_modes : (let s := modes reg 0 1; s.wf = true ∧ s.drained 0 = true ∧ (s.region 0).sinkMode = some 0 ∧
      (after (exec (.regionDrained 0) s)).map (fun t => (t.region 0).ended) = some (some 0)) ∧
    (let s := modes reg 1 1; s.drained 0 = true ∧ (s.tile 0).avalid 0 = true ∧ (s.tile 0).phases 0 1 ≠ 0 ∧ (s.region 0).ctx = [] ∧
      (after (exec (.regionDrained 0) s)).map (fun t => ((t.region 0).mode, ((t.tile 0).slot 0).st)) = some (1, .waiting)) ∧
    (let s := modes reg 1 0; (s.tile 0).phases 0 1 = 0 ∧ (after (exec (.regionDrained 0) s)).map (fun t => (t.region 0).ended) = some (some 0x1F)) := by
  decide +kernel

/-- `Plates`: a record, one that fails, no room; a region at rest and one that is not; a plate to scrub. -/
def placing (x : Nat) : State := ({ ctl with plates := [(0, { st := 2, region := 9 })] } : State).setS 5 0xF40000001000 |>.wr (privBase 0 + 0x1000) 16 x
theorem test_witness_palloc : (Instr.palloc 9 5 0 3).wf = true ∧ (placing 0x101).wf = true ∧
    (answered (checkAccess .control .read 16 16 0xF40000001000 (placing 0x101))).map (fun r => r.2) = some (placing 0x101) ∧
    (∀ x ∈ [0x101, 0x811], (answered (readPlacing 0xF40000001000 0 (placing x))).map (fun r => r.1.isSome) = some (x == 0x101)) ∧
    (placing 0x101).regionFree 0 = true ∧ (placing 0x101).plate 1 = {} ∧ (placing 0x101).plate 0 ≠ {} ∧
    (after (exec (.palloc 9 5 0 3) (placing 0x101))).map (fun t => (t.sreg 9, (t.region 0).map, (t.plate 1).st)) = some (0, [1], 1) ∧
    (after (exec (.palloc 9 5 0 3) (placing 0x1F0101))).map (fun t => t.sreg 9) = some 0xC1F := by decide +kernel

theorem test_witness_plates : (conf reg).atRest 0 = true ∧ (busy reg).atRest 0 = false ∧ placeOf (reg.place) = some ⟨1, 1, 0, 0, 0⟩ ∧
    (((conf reg).mapCore (fun c => { c with holds := some 0 })).moveRegion 0 1 0).isSome = true ∧ ((conf reg).plate 0).st = 1 ∧
    (((conf reg).mapCore (fun c => { c with holds := some 0 })).moveRegion 0 16 0).isSome = false ∧
    (after (exec (.pfree 9 8 0 3) (conf reg))).map (fun t => (t.region 0, (t.plate 0).st)) = some ({}, 2) ∧
    (let s : State := { conf reg with plates := [(0, { st := 2 })] }
     (after (exec (.scrubComplete 0) s)).map (fun t => t.plate 0) = some {} ∧ s.wf = true) ∧
    (after (exec (.plateFenceWrite 0 5 1) (conf reg))).map (fun t => (t.plate 5).fence) = some true := by decide +kernel
/-! ## The link hub

Node 1 with link 0 UP, a connection to node 2, key 0 for 4,096 bytes of tile 0, and edition group 0 at home; tile 0 of `fir` issues. -/

def theKey : Key := { live := true, gen := 1, base := 0xF10000001000, len := 4096, perm := 7, space := 1, region := 0 }
def theGroup : Edition := { st := 1, member := true, home := true, homeNode := 1, epoch := 3, copyBase := 0xF10000002000, edLen := 64, copySpace := 1, gapt := 10 }
def hubOf (st hand : Nat) (ops : List HubOp) : Hub :=
  { node := 1, nvalid := true, conns := [(2, { st := st, epoch := 3, nextSeq := 5, hand := decide (hand = 1) })], routes := [(2, 1)],
    links := [(0, { up := true, locked := true, credit := #v[64, 64] })], keys := [(0, theKey)], sources := [(2, { known := true, epoch := 3, expect := 0 })],
    editions := [(0, theGroup)], ops := ops }
def hb (h : Hub) : State :=
  (({ fir with hub := h, nextId := 9, live := h.ops.map (fun o => ⟨o.id, o.core, true⟩) } : State).setS 5 0x40).setS 6 0x200000001
def opHub (fn : Nat) : HubOp := { id := 7, fn := fn, core := 0, pc := 0x40, node := 2, seq := some 4, d := 9, n := 8, off := 0x40, target := 0x200000001 }

/-- The kinds of the messages that link 0 holds. -/
def kinds (s : State) : List Nat := (s.link 0).held.flatMap (fun e => e.2.2.map (fun x => x.1.ty))

theorem test_hub_wf : (∀ st ∈ [0, 1, 2, 3], (hb (hubOf st 0 [])).wf = true) ∧ (∀ fn ∈ [0, 1, 2, 3], (hb (hubOf 1 0 [opHub fn])).wf = true) ∧
    (hb { hubOf 0 0 [] with nvalid := false }).wf = true := by decide +kernel

/-- `HubIssue`: checks that pass and that fail, a connection UP, a handshake on link 0, and no route. -/
theorem test_witness_hubIssue : (∀ i ∈ [Instr.xld 9 5 6 0 3 0 3 0, .xst 7 5 6 0 3 0 3, .xamo 9 5 6 0 3 0 3 0 0 7],
      i.wf = true ∧ (hubForm (hb (hubOf 1 0 [])) i).map (fun F => (F.trap, F.op.node)) = some (none, 2)) ∧
    (hubForm (hb (hubOf 1 0 [])) (.xld 9 7 6 0 3 0 3 0)).map (fun F => F.trap) = some (some { code := 0x03, i0 := 5, i1 := 8 }) ∧
    (hb (hubOf 1 0 [])).core.badReg = [] ∧ (hb (hubOf 1 0 [])).core.waitOp = none ∧ (hb (hubOf 1 0 [])).setDone 0 = true ∧
    (after (exec (.xst 7 5 6 0 3 0 3) (hb (hubOf 1 0 [])))).map (fun t => ((t.hub.ops.map (fun o => (o.fn, o.seq, o.data))), kinds t,
      t.core.pc, t.firingNow.ext)) = some ([(1, some 5, 5)], [0x11], 8, true) := by decide +kernel
/-- Link 0 and link 13 lead to node 2: die 0 takes link 0, die 1 link 13, and the one after link 0 is link 13. -/
def twoWays : State := hb { hubOf 0 0 [] with routes := [(2, 2 ^ 13 + 1)], links := [(0, { up := true }), (13, { up := true })] }
theorem test_leads (k : Nat) : leads twoWays 2 k ↔ k = 0 ∨ k = 13 := by
  constructor
  · rintro ⟨hk, hb, -⟩
    revert hb
    revert k
    decide +kernel
  · rintro (rfl | rfl) <;> exact ⟨by decide, by decide +kernel, by decide +kernel⟩
theorem test_witness_routes : route twoWays 0 2 0 ∧ route twoWays 1 2 13 ∧ nextRoute twoWays 2 0 13 ∧ nextRoute twoWays 2 13 0 := by
  have h0 := (test_leads 0).mpr (.inl rfl)
  have h13 := (test_leads 13).mpr (.inr rfl)
  refine ⟨⟨h0, fun k h1 h2 => ?_, fun h => absurd h0 (h 0 rfl)⟩, ⟨h13, fun k h1 h2 => ?_, fun h => absurd h13 (h 13 rfl)⟩,
    ⟨h13, fun j hj => ?_⟩, h0, fun j hj => ?_⟩
  · have := (test_leads k).mp h2; omega
  · have := (test_leads k).mp h2; omega
  · obtain rfl | rfl := (test_leads j).mp hj <;> decide
  · obtain rfl | rfl := (test_leads j).mp hj <;> decide
theorem test_witness_quiet : HubQuiet (hb (hubOf 1 0 [])) ∧ HubQuiet (hb (hubOf 0 0 [])) ∧
    (∀ l, ¬ leads (hb { hubOf 0 0 [] with routes := [] }) 2 l) ∧
    (∀ f, (hb (hubOf 1 0 [])).myTile.firing = some f → f.trapped = false ∧ f.fault = none) ∧ (hb (hubOf 0 0 [])).mayTrap 0 9 = false := by
  refine ⟨⟨fun o h => (nomatch (show o ∈ ([] : List HubOp) from h)), fun o h => (nomatch (show o ∈ ([] : List HubOp) from h))⟩,
    ⟨fun o h => (nomatch (show o ∈ ([] : List HubOp) from h)), fun o h => (nomatch (show o ∈ ([] : List HubOp) from h))⟩, fun l h => ?_, ?_, by decide +kernel⟩
  · have h1 : Nat.testBit 0 l = true := h.2.1
    rw [Nat.zero_testBit] at h1
    cases h1
  · intro f hf
    have : f = {} := Option.some.inj (hf.symm.trans (show (hb (hubOf 1 0 [])).myTile.firing = some {} from by decide +kernel))
    subst this
    exact ⟨rfl, rfl⟩
theorem test_hubHandshake : (after (exec (.xld 9 5 6 0 3 0 3 0) (hb (hubOf 0 0 [])))).map (fun t => ((t.conn 2).hand, kinds t, t.core.waitOp)) =
      some (true, [1], some 9) ∧
    (after (exec (.xld 9 5 6 0 3 0 3 0) (hb { hubOf 0 0 [] with routes := [] }))).map (fun t => (t.myTile.record[0], t.myTile.record[2], t.myTile.record[4])) =
      some (0x10, 0x40, 0x200000001) := by decide +kernel

/-- `HubWaits`: a peer group of one member, a target reached and not, and a fence. -/
def peers (flags : Nat) : Hub := { hubOf 1 0 [] with groups := [(3, 1 + flags)], members := [(0, 2 + 2 ^ 32 + 0x80 * 2 ^ 64)] }
theorem test_witness_hubWaits : let s (flags : Nat) : State := (hb (peers flags)).setS 8 3
    (Instr.xovld 36 5 8 0 3 0 12 0 1).wf = true ∧ (s 0).wf = true ∧ (s 0).hub.nvalid = true ∧ (s 0).core.waitOp = none ∧
    (after (exec (.xovld 36 5 8 0 3 0 12 0 1) (s 0))).map (fun t => (t.core.waitOp, t.hub.ops.map (fun o => (o.fn, o.off, o.target, o.n)))) =
      some (some 9, [(5, 0x40, 3, 8), (17, 0xC0, 1, 8)]) ∧
    (∀ p ∈ [((0 : Nat), (0 : Word), (0 : Nat)), (1, 5, 1), (2, 5, 2), (3, 5, 3)],
      (Instr.edwait 7 8 9 0 0 0).wf = true ∧ ((({ hb (hubOf 1 0 []) with hub := { hubOf 1 0 [] with editions := [(0, { theGroup with st := p.1, applied := 4 })] } } : State).edition 0).st = p.2.2)) ∧
    (Instr.xfence 8 0 0 8).wf = true ∧ (hb (hubOf 1 0 [])).knownObject 8 2 = true ∧ (hb (hubOf 1 0 [])).noneLive 8 = true ∧
    (after (exec (.xfence 7 0 0 0) (hb (hubOf 1 0 [opHub 1])))) = some (hb (hubOf 1 0 [opHub 1])) ∧
    (after (exec (.xfence 7 0 0 0) (hb (hubOf 1 0 [])))).map (fun t => t.core.pc) = some 8 := by decide +kernel

/-- `RemoteKeys`: a record in control core 0's private memory, and a key that is live. -/
def keyRecord : Nat := 0xF10000001000 + 4096 * 2 ^ 64 + 7 * 2 ^ 128 + 2 ^ 136 + 5 * 2 ^ 160
def keyState (x : Nat) : State := (({ hb (hubOf 1 0 []) with cur := 2048, cores := [(2048, { running := true })] } : State).setS 5 0xF40000001000).wr (privBase 0 + 0x1000) 32 x
theorem test_witness_keys : (Instr.rkreg 9 5 0 3 0).wf = true ∧ (keyState keyRecord).wf = true ∧ (keyState keyRecord).setDone 0 = true ∧
    (answered (recordAt 0xF40000001000 (keyState keyRecord))).map (fun r => (r.1, r.2.wf)) = some (keyRecord, true) ∧
    (after (exec (.rkreg 9 5 0 3 0) (keyState keyRecord))).map (fun t => (t.sreg 9, (Sparse.get {} t.hub.keys 5).live)) = some (0x500001, true) ∧
    (after (exec (.rkreg 9 5 0 3 0) (keyState (keyRecord - 5 * 2 ^ 160)))).map (fun t => t.sreg 9) = some 0x8000000000000014 ∧
    (after (exec (.rkreg 9 5 0 3 0) (keyState 0))).map (fun t => t.sreg 9) = some 0x800000000000001F ∧
    (after (exec (.rkrev 9 6 0 3 0) ((keyState 0).setS 6 1))).map (fun t => (t.sreg 9, (Sparse.get {} t.hub.keys 0).live)) = some (0, false) ∧
    (after (exec (.rkrev 9 6 0 3 0) (keyState 0))).map (fun t => t.sreg 9) = some 0x800000000000000F := by decide +kernel
theorem test_witness_record : recordKey keyRecord true { base := 0xF10000001000, len := 4096, perm := 7, space := 1, index := 5 } := by unfold recordKey; decide +kernel

/-- No operation of tile 0's firing has trapped. -/
theorem calm_of (fn : Nat) (f : Firing) (h : ((hb (hubOf 1 0 [opHub fn])).tile 0).firing = some f) : f.fault = none := by
  have : f = {} := Option.some.inj (h.symm.trans (show ((hb (hubOf 1 0 [opHub fn])).tile 0).firing = some {} from rfl))
  subst this
  rfl

/-- `HubAnswers`: each response finds its operation. -/
theorem test_witness_answers : (∀ p ∈ [((0x20 : Nat), (0 : Nat)), (0x20, 2), (0x21, 1), (0x24, 3), (0x22, 0), (0x23, 2)],
    Answers (hb (hubOf 1 0 [opHub p.2])) { ty := p.1, src := 2, dst := 1, epoch := 3, seq := 4 } (hb (hubOf 1 0 [opHub p.2])) (opHub p.2)) ∧
    (after (exec (.dataMsg 2 3 4 0xFFFFFFFE) (hb (hubOf 1 0 [{ opHub 0 with n := 4, sx := true }])))).map (fun t => (t.sreg 9, t.hub.ops)) = some (-2, []) ∧
    (after (exec (.errMsg 2 3 4 15 3 0) (hb (hubOf 1 0 [opHub 1])))).map (fun t => (t.myTile.record[0], t.myTile.record[1], t.myTile.record[3])) = some (15, 0x40, 3) ∧
    (after (exec (.staleMsg 2 3 4) (hb (hubOf 1 0 [opHub 2])))).map (fun t => (t.myTile.record[0], t.myTile.record[5])) = some (0x1B, 4) := by
  refine ⟨fun p hp => ?_, by decide +kernel, by decide +kernel, by decide +kernel⟩
  simp only [List.mem_cons, List.not_mem_nil, or_false] at hp
  obtain rfl | rfl | rfl | rfl | rfl | rfl := hp <;>
    exact ⟨⟨by decide +kernel, .inl ⟨by decide +kernel, rfl⟩⟩, by decide +kernel, by decide +kernel, by decide +kernel, by decide +kernel, fun f h => calm_of _ f h⟩

/-- `HubRequests`: requests in turn, keys that pass and fail, the duplicate and the early one. -/
theorem test_witness_requests : (∀ p ∈ [((1 : Nat), (0 : Nat), (8 : Nat), (0 : Nat)), (2, 0, 8, 1), (1, 4096, 8, 2)],
      keyReason (hb (hubOf 1 0 [])) p.1 p.2.1 p.2.2.1 true false false = p.2.2.2) ∧
    ((hb (hubOf 1 0 [])).region 0).resolve ((0xF10000001000 + 0x40) / 2 ^ 19 % 2 ^ 11) = some 0 ∧
    answered (keyed 1 0x40 8 true true true (hb (hubOf 1 0 []))) = some ([(tileBase 0 + 0x1040, 8)], hb (hubOf 1 0 [])) ∧
    (after (exec (.st 2 3 0 1 0x40 3 77) (hb (hubOf 1 0 [])))).map (fun t => (little t (tileBase 0 + 0x1040) 8, (t.source_ 2).expect, kinds t)) =
      some (77, 1, [0x21]) ∧
    (after (exec (.amo 2 3 0 1 0x40 3 0 77 0) (hb (hubOf 1 0 [])))).map (fun t => (little t (tileBase 0 + 0x1040) 8, t.hub.replies.length)) = some (77, 1) ∧
    (after (exec (.ld 2 3 0 2 0x40 8) (hb (hubOf 1 0 [])))).map (fun t => (t.link 0).held.flatMap (fun e => e.2.2.map (fun x => (x.1.ty, x.1.a, x.1.b)))) = some [(0x22, 15, 1)] ∧
    (after (exec (.st 2 3 1 1 0x40 3 77) (hb (hubOf 1 0 [])))).map (fun t => ((t.source_ 2).held.length, little t (tileBase 0 + 0x1040) 8)) = some (1, 0) ∧
    (after (exec (.edApply 2 3 0 0 4 3 1 8 77) (hb (hubOf 1 0 [])))).map (fun t => (little t (tileBase 0 + 0x2008) 4, (t.edition 0).applied)) = some (77, 1) ∧
    (after (exec (.edstMessage 2 3 0 0 4 8 77) (hb (hubOf 1 0 [])))).map (fun t => ((t.edition 0).next, kinds t)) = some (1, [0x24]) := by
  decide +kernel
theorem test_witness_inTurn (m : Msg) (h : m.src = 2 ∧ m.epoch = 3 ∧ m.seq = 0) : InTurn (hb (hubOf 1 0 [])) m (hb (hubOf 1 0 [])) := by
  obtain ⟨h1, h2, h3⟩ := h
  exact ⟨⟨rfl, .inl ⟨by rw [h1]; decide +kernel, rfl⟩⟩, by rw [h1]; decide +kernel, by rw [h1, h2]; decide +kernel, by rw [h1, h3]; decide +kernel,
    by rw [h1]; intro x hx; exact (nomatch (show x ∈ ([] : List Msg) from hx))⟩

/-- `HubConnections`: a handshake accepted, timeouts due and not. -/
def due (h : Hub) : State := { hb h with refClock := 10000000 }
theorem test_witness_connections : (after (exec (.openMsg 2 9) (hb (hubOf 1 0 [])))).map (fun t => t.source_ 2) = some { known := true, epoch := 9 } ∧
    ((hb (hubOf 0 1 [])).conn 2).hand = true ∧ (after (exec (.acceptMsg 2 4) (hb (hubOf 0 1 [])))).map (fun t => t.conn 2) = some { st := 1, epoch := 4 } ∧
    (max 2 (hubOf 1 0 []).rto * 1000 ≤ 10000000 ∧ max 10 (hubOf 1 0 []).cto * 1000 ≤ 10000000) ∧ (due (hubOf 1 0 [opHub 1])).wf = true ∧
    (after (exec (.retransmitTimeout 2) (due (hubOf 1 0 [opHub 1])))).map (fun t => (t.conn 2).st) = some 2 ∧
    (after (exec (.connectionTimeout 2) (due (hubOf 1 0 [opHub 1])))).map (fun t => ((t.conn 2).st, t.hub.ops)) = some (3, []) ∧
    (after (exec (.connectionTimeout 2) (due (hubOf 0 1 [])))).map (fun t => (t.conn 2).hand) = some false ∧
    (after (exec (.editionGapTimeout 0) (due { hubOf 1 0 [] with editions := [(0, { theGroup with gapFrom := some 5 })] }))).map (fun t => ((t.edition 0).st, t.hub.reports.length)) =
      some (2, 1) := by decide +kernel

/-- `HubLinks`: a link that locks, trains, initialises, and fails. -/
def linkIs (l : Link) : State := hb { hubOf 1 0 [] with links := [(0, l)] }
theorem test_witness_links : (after (exec (.laneLock 0) (linkIs {}))).map (fun t => (t.link 0).locked) = some true ∧
    (linkIs { locked := true }).wf = true ∧
    (after (exec (.train 0 2 1 0 0) (linkIs { locked := true, trained := some (2, 1, 0, 0), trains := 1 }))).map (fun t => ((t.link 0).peer, (t.link 0).initSent)) = some (2, true) ∧
    (after (exec (.creditInit 0) (linkIs { locked := true, initSent := true }))).map (fun t => (t.link 0).up) = some true ∧
    (after (exec (.laneFailure 0) (hb (hubOf 1 0 [])))).map (fun t => (t.link 0).up) = some false ∧
    (after (exec (.linkSilenceTimeout 0) (due (hubOf 1 0 [])))).map (fun t => (t.link 0).up) = some false ∧
    (after (exec (.flitReceive 0 1 0 0 9 1 0 0) (hb (hubOf 1 0 [])))).map (fun t => ((t.link 0).expect, (t.link 0).credit[1])) = some (1, 64) ∧
    (∀ p ∈ [((1 : Nat), (0 : Nat), (0 : Nat), (1 : Nat)), (1, 0, 2, 0), (5, 0, 1, 0), (1, 1, 1, 0)],
      (after (exec (.flitReceive 0 p.1 p.2.1 0 9 p.2.2.1 0 0) (hb (hubOf 1 0 [])))).map (fun t => ((t.link 0).asks, (t.link 0).fails, (t.link 0).count[1])) =
        some (true, 0, p.2.2.2)) ∧
    (∀ p ∈ [((0 : Nat), (6 : Nat), some ((7 : Nat), true)), (0, 7, some (0, false)), (1, 7, some (7, true))],
      (after (exec (.flitReceive 0 1 p.1 0 9 2 0 0) (linkIs { up := true, locked := true, asks := true, fails := p.2.1 }))).map (fun t =>
        ((t.link 0).fails, (t.link 0).up)) = p.2.2) ∧
    (after (exec (.flitReceive 0 1 0 0 9 1 0 0) (linkIs { up := true, locked := true, inbuf := #v[64, 0] }))).map (fun t => (t.link 0).expect) = some 0 ∧
    (let u := (hb (hubOf 1 0 [])).bufferFree 0 0; u = hb (hubOf 1 0 [])) ∧
    (let u := (linkIs { up := true, inbuf := #v[3, 0] }).bufferFree 0 0; ((u.link 0).inbuf[0], (u.link 0).returned[0]) = (2, 1)) := by decide +kernel

/-- `HubRegisters`: a core at level M and one at level S, and a halted firing's operation past its time. -/
def atLvl (lvl : Nat) (s : State) : State := { s with cores := [(2048, { cstat := word lvl, running := true })] }
def haltedHub : State := { hb (hubOf 1 0 [opHub 0]) with regions := [(0, { live := true, npl := 1, map := [0], started := true, halted := true })], cycle := 12000 }
theorem test_witness_hubRegisters : haltedHub.wf = true ∧ haltedHub.openHub 0 = [opHub 0] ∧ haltedHub.myTile.firing = some {} ∧
    (after (exec (.hubCloseTimeout 0) haltedHub)).map (fun t => (t.isLive 7, (t.firingNow.closed).isSome)) = some (false, true) := by decide +kernel
/-- An answered `edst` and an `xovld` with a member read open, closed; HUBCFG written. -/
theorem test_witness_closed : let s (ops : List HubOp) : State := { haltedHub with hub := hubOf 1 0 ops, live := ops.map (fun o => ⟨o.id, o.core, true⟩) }
    let told := [{ opHub 3 with fn := 18, node := 1024 }]
    let reads := [{ opHub 5 with id := 6 }, { opHub 17 with id := 7, parent := 6, member := 2, seq := some 4 }]
    (s told).wf = true ∧ (s reads).wf = true ∧
    (after (exec (.hubCloseTimeout 0) (s told))).map (fun t => (t.isLive 7, t.firingNow.closed.isSome)) = some (false, false) ∧
    (after (exec (.hubCloseTimeout 0) (s reads))).map (fun t => (t.firingNow.closed.map (fun x => (x.2.i2, x.2.i3)), t.hub.ops.map HubOp.orphan)) =
      some (some (2, 4), [true, true]) ∧
    (let h := (hb (hubOf 1 0 [])).hubWrite 0x400000 (5 + 2 ^ 10 + 7 * 2 ^ 16) (2 ^ 64 - 1); (h.hub.node, h.hub.nvalid, h.hub.cto, h.hub.rto) = (5, true, 7, 0)) ∧
    Sparse.get 0 (hubOf 1 0 []).members 3 < 2 ^ 128 := by decide +kernel
theorem test_witness_levels : ∃ s u : State, s.wf = true ∧ u.wf = true ∧ (s.coreAt 2048).lvl = 1 ∧ (u.coreAt 2048).lvl = 0 ∧
    (after (exec (.linkDisWrite 0 0 1) s)).map (fun t => ((t.link 0).dis, (t.link 0).up)) = some (true, false) ∧ after (exec (.linkDisWrite 0 0 1) u) = some u := by
  refine ⟨atLvl 3 (hb (hubOf 1 0 [])), atLvl 0 (hb (hubOf 1 0 [])), ?_⟩
  decide +kernel

/-- `TimeService`: a better clock and a worse one, the latest Sync, the two ways, and a port that is not of the domain. -/
def clockIs (p : Ptp) : State := { hb { hubOf 1 0 [] with ptp := p } with gtime := 5000 }
def clock : Announced := { rank := clockRank 1 6 33 0 1 7, gm := 7, steps := 0, src := 9, ptp := true, heard := 0 }
def slaveOf (p : Ptp) : Ptp := { p with heard := [(0, clock)], master := some (0, clock) }
theorem test_witness_time : (clockIs {}).wf = true ∧ ((clockIs {}).link 0).locked = true ∧ ((clockIs {}).link 0).dis = false ∧ ((clockIs {}).hub.ptp.cfg % 256 = 0) ∧
    (let p : Ptp := slaveOf { sync := some (3, 4000), delay := some 100, st := 1 }
     (clockIs p).wf = true ∧ (p.master.map Prod.fst) = some 0 ∧
     (after (exec (.followUp 0 0 3 3950) (clockIs p))).map (fun t => (t.hub.ptp.offset, t.hub.ptp.st)) = some (50, 2) ∧
     (after (exec (.followUp 0 0 3 5950) (clockIs p))).map (fun t => (t.hub.ptp.offset, t.gtime)) = some (2050, 7050)) ∧
    (after (exec (.delayResp 0 0 3 4300) (clockIs (slaveOf { ms := some 100, req := some (3, 4000) })))).map (fun t => t.hub.ptp.delay) = some (some 200) ∧
    ((clockIs {}).hub.ptp.passive 0 = false ∧ (∀ e ∈ ({} : Ptp).heard, e.1 ≠ 0)) ∧
    (after (exec (.ptpInterval 0 1) (clockIs {}))).map (fun t => t.hub.ptp.sent) = some [(0, 1, 0, 5000)] ∧
    ({ clockIs {} with refClock := 374999999 } : State).refClock < (clockIs {}).hub.ptp.since + 375000000 := by decide +kernel
/-- A clock of priority 1 is better than the own; a device of class 6, or one that is GMONLY, or has heard nothing follows none; a second port that
hears the same grandmaster by an equal path is passive. -/
theorem test_rank : clock.rank < ownRank {} := by
  have h (p1 cls acc var p2 id : Nat) (h1 : 2 ≤ p1) : clockRank 1 6 33 0 1 7 < clockRank p1 cls acc var p2 id := by
    unfold clockRank
    omega
  exact h _ _ _ _ _ _ (by decide)
theorem test_witness_elected : leadsClock {} [(0, clock)] (0, clock) ∧ followsNone {} [] ∧ followsNone { cfg := 0x6808000 } [(0, clock)] ∧
    followsNone { cfg := 0x1F8808000 } [(0, clock)] ∧
    (let p : Ptp := { heard := [(0, clock), (1, { clock with src := 10 })] }; leadsClock p p.heard (0, clock)) := by
  refine ⟨⟨List.mem_singleton.mpr rfl, fun e he hn => absurd (List.mem_singleton.mp he) hn, test_rank, rfl, by decide⟩,
    .inr (.inr fun e he => (nomatch (show e ∈ ([] : List _) from he))), .inr (.inl (by decide)), .inl (by decide),
    ⟨List.mem_cons_self, fun e he hn => ?_, test_rank, rfl, by decide⟩⟩
  obtain rfl | he := List.mem_cons.mp he
  · exact absurd rfl hn
  · obtain rfl := List.mem_singleton.mp he
    exact (if_pos rfl).mpr (.inr ⟨rfl, by decide⟩)
/-! ## Queues, launches, pre-emption, firmware and the host

Control core 0 at level M; queue 0 lies at 0xF40000002000 in its private memory where the address space allows, else in HBM through the table
below; registers s5 and s8 as in `conf`. -/

def queueIs (x : Queue) : State := { conf reg with queues := [(0, x)] }
def kicked : Queue := { en := true, log2n := 2, tail := 1 }

/-- `QueueOps`: a queue disabled, one with a packet, kicks within and beyond the ring; an instance that has ended, and one that has not. -/
def ended : Region := { reg with undone := true, ended := some 0, startG := 3 }
theorem test_witness_queues : (Instr.qpop 9 8 5 0 3).wf = true ∧ (Instr.qdone 7 8 5 0 3).wf = true ∧ (queueIs {}).wf = true ∧ (queueIs kicked).wf = true ∧
    (answered (checkAccess .control .write 64 64 0xF40000001000 (queueIs kicked))).map (fun r => r.2) = some (queueIs kicked) ∧
    (after (exec (.qpop 9 8 5 0 3) (queueIs {}))).map (fun t => t.sreg 9) = some 0x100 ∧
    (after (exec (.kick 0 3) (queueIs kicked))).map (fun t => (t.queue 0).tail) = some 3 ∧
    (after (exec (.kick 0 9) (queueIs kicked))).map (fun t => ((t.queue 0).err, (t.queue 0).tail)) = some (true, 1) ∧
    (after (exec (.queueCtlWrite 0 0x2011) (queueIs {}))).map (fun t => ((t.queue 0).en, (t.queue 0).log2n, (t.queue 0).lim4)) = some (true, 2, 1) ∧
    (answered (readNum 0xF40000001000 64 (conf ended))).map (fun r => (r.1, r.2.wf, r.2.cur)) = some (0, true, 2048) ∧
    (after (exec (.qdone 7 8 5 0 3) (conf ended))).map (fun t => (t.sreg 7, t.region 0)) = some (0, {}) ∧
    (after (exec (.qdone 7 8 5 0 3) (conf reg))).map (fun t => t.sreg 7) = some 0x14 := by decide +kernel
/-- A kick of the TAIL that stands; `qdone` of a drained instance that is pre-empted; a replay cancelled before its turn. -/
theorem test_witness_queueEnds : (let s := queueIs { kicked with log2n := 1, tail := 9, head := 0 }
      s.wf = true ∧ (after (exec (.kick 0 9) s)).map (fun t => ((t.queue 0).err, (t.queue 0).tail)) = some (false, 9)) ∧
    (let s := conf { reg with undone := true, started := true, halted := true, startG := 3, drainAt := some 4 }
     s.wf = true ∧ s.drained 0 = true ∧ (after (exec (.qdone 7 8 5 0 3) s)).map (fun t => (t.sreg 7, t.region 0)) = some (0, {})) ∧
    (let r : Region := { reg with started := true, bound := some { pkt := 0x1010000 + 0x77 * 2 ^ 128, queue := none, adm := 1 }, next := some 2048, proofSt := .ready }
     let s := ({ conf r with cancels := [(5, 9)], admission := 9 } : State).mapCore (fun c =>
       { c with shut := true, checked := true, want := some 0x77, adm := some 3, pkt := 0x5000000010000 + 0x77 * 2 ^ 128 })
     s.wf = true ∧ s.heldRegion 0x77 = some 0 ∧
     (after (exec (.launch 9 5 6 0 3) s)).map (fun t => (t.sreg 9, (t.region 0).next, (t.region 0).proofSt, (t.region 0).bound == r.bound)) =
       some (0x1D, none, .none, true)) := by decide +kernel

theorem test_alone (r : Region) : alone (conf r) 0 ∧ alone (conf r) 512 ∧ alone (conf r) 1024 := by
  refine ⟨?_, ?_, ?_⟩ <;>
    (intro e he; rw [List.mem_singleton.mp (show e ∈ [(2048, _)] from he)]; exact fun h => absurd rfl h)

/-- `LaunchOps`: a packet of the wrong KIND; one cancelled; one that waits for its counter; a header refused. -/
def packet (x : Nat) : State := (conf reg).wr (privBase 0 + 0x1000) 64 x
theorem test_witness_launch : (Instr.launch 9 5 6 0 3).wf = true ∧ (packet 0x10000).wf = true ∧ (packet 0x10000).core.shut = false ∧
    (packet 0x10000).core.waitFrom = none ∧ (answered (readNum 0xF40000001000 64 (packet 0x10000))).map (fun r => (r.1, r.2.wf)) = some (0x10000, true) ∧
    (after (exec (.launch 9 5 6 0 3) (packet 0))).map (fun t => t.sreg 9) = some 0x11F ∧
    (after (exec (.launch 9 5 6 0 3) (packet (0x10000 + 0xF40000001004 * 2 ^ 320)))).map (fun t => t.sreg 9) = some 0x803 ∧
    (after (exec (.launch 9 5 6 0 3) (packet (0x10000 + 0xF40000001008 * 2 ^ 320 + 5 * 2 ^ 384)))).map (fun t => t.core.waitFrom.isSome) = some true ∧
    (after (exec (.launch 9 5 6 0 3) { packet 0x5000000010000 with cancels := [(5, 2)] })).map (fun t => t.sreg 9) = some 0x1D := by decide +kernel

/-- `cancel`: an instance of its job, and one of another. -/
def bound (job : Nat) : Region := { reg with started := true, bound := some { pkt := 0x10000 + job * 2 ^ 48, queue := none, adm := 1 } }
theorem test_witness_cancel : (Instr.cancel 9 7 0 3).wf = true ∧ ({ conf (bound 5) with admission := 1 } : State).wf = true ∧
    (∀ job ∈ [5, 6], (after (exec (.cancel 9 7 0 3) { conf (bound job) with admission := 1 })).map (fun t => (t.sreg 9, (t.region 0).ended)) =
      some (if job = 5 then (0x10000, some 0x1D) else (0, none))) := by decide +kernel

/-- `PreemptOps`: a region that runs, one at rest, and a firing that halts. -/
def haltable : State := { fir with regions := [(0, { live := true, npl := 1, map := [0], started := true, halted := true })] }
theorem test_witness_preempt : (∀ i ∈ [Instr.preempt 9 8 0 3, .preemptResume 9 8 0 3], i.wf = true) ∧ (conf { reg with started := true }).wf = true ∧
    works (conf { reg with started := true }) 0 8 0 = true ∧
    (after (exec (.preempt 9 8 0 3) (conf { reg with started := true }))).map (fun t => ((t.region 0).halted, t.core.shut)) = some (true, true) ∧
    (conf { reg with started := true, halted := true }).resting 0 = true ∧ (conf { reg with started := true }).resting 0 = false ∧
    (after (exec (.preemptResume 9 8 0 3) (conf { reg with started := true, halted := true }))).map (fun t => (t.region 0).halted) = some false ∧
    haltable.wf = true ∧ haltable.mayHalt 0 0 = true ∧ (haltable.mat 0).queue.length ≤ 32 ∧ (haltable.savedCmds 0).length ≤ 32 ∧
    (fir.region (fir.regionOf 0)).halted = false := by decide +kernel
theorem test_halt : (after (exec (.firingHalt 0) haltable)).map (fun t => (((t.tile 0).slot 0).st, little t (tileBase 0 + 0x7C1E8) 8)) = some (.halted, 30) := by
  decide +kernel

/-- `ctxsave`, `ctxrest`: an aligned address, a region at rest and one that is not, a header refused. -/
theorem test_witness_images : let s := (conf { reg with started := true, halted := true }).setS 6 0xF40000002000
    (Instr.ctxsave 9 8 6 0 3).wf = true ∧ (Instr.ctxrest 9 6 0 3).wf = true ∧ s.wf = true ∧ s.imageBad 0 = none ∧
    (answered (checkAccess .control .write 4096 4096 0xF40000002000 s)).map (fun r => r.2) = some s ∧
    (after (exec (.ctxsave 9 8 6 0 3) ((conf { reg with started := true }).setS 6 0xF40000002000))).map (fun t => t.sreg 9) = some 0x14 := by decide +kernel

/-- An access not yet performed holds up `ctxsave`, as it does a pull and a move; a word in error ends it. -/
theorem test_witness_unperformed : (let s : State := ({ conf { reg with started := true, halted := true } with
        netOps := [(0, [opOf .rst .sent])], live := [⟨7, 0, true⟩], nextId := 8 } : State).setS 6 0xF40000002000
      s.wf = true ∧ s.resting 0 = true ∧ s.unperformed 0 = true ∧
      (after (exec (.ctxsave 9 8 6 0 3) s)).map (fun t => (t.core.pc, t.core.holds)) = some (0x100, some 0)) ∧
    (let s : State := ({ conf { reg with started := true, halted := true } with bad := [tileBase 0 + 64] } : State).setS 6 0xF40000002000
     s.wf = true ∧ s.imageBad 0 ≠ none ∧ (after (exec (.ctxsave 9 8 6 0 3) s)).map (fun t => t.sreg 9) = some 0x116) ∧
    (let s : State := { conf { reg with proofSt := .ready } with netOps := [(0, [opOf .rst .sent])], live := [⟨7, 0, true⟩], nextId := 8 }
     s.wf = true ∧ s.drained 0 = true ∧ s.unperformed 0 = true ∧ s.atRest 0 = true) ∧ (conf { reg with proofSt := .ready }).unperformed 0 = false ∧
    (conf { reg with proofSt := .ready }).groupsFit 0 = true := by decide +kernel

/-- `FirmwareOps`: the slot that runs and the other, valid and not; a heartbeat in time; the deadline; the boot path's first step. -/
def fwIs (f : Firmware) : State := { conf reg with fw := f }
theorem test_witness_firmware : (∀ i ∈ [Instr.fwload 9 5 7 0 3 1, .fwverify 9 0 3 1, .fwmeasure 9 0 3 1, .fwswitch 9 5 0 3 1, .hbeat 9 7 0 3], i.wf = true) ∧
    (fwIs { valid := #v[true, true] }).wf = true ∧
    (after (exec (.fwload 9 5 7 0 3 1) (fwIs {}))).map (fun t => t.sreg 9) = some 0x14 ∧
    (after (exec (.fwswitch 9 5 0 3 0) (fwIs { valid := #v[true, true] }))).map (fun t => t.sreg 9) = some 0x14 ∧
    (after (exec (.hbeat 9 7 0 3) (fwIs { pending := true, deadline := 50, active := 1 }))).map (fun t => (t.fw.pending, t.fw.flash, t.fw.wdogValue)) =
      some (false, 1, 5) ∧
    after (exec .fwRollback (fwIs { pending := true, deadline := 50 })) = some (fwIs { pending := true, deadline := 50 }) ∧
    (after (exec (.boot 0 1) { State.reset with booted := false })).map (fun t => (t.pkg.step, t.pkg.err)) = some (1, 1) ∧
    after (exec (.boot 1 1) (fwIs {})) = some (fwIs {}) := by decide +kernel

/-- `HostRequests`: the host's bytes within HBM and beyond; the stages of negotiation. -/
def spdmIs (x : Spdm) : State := { State.reset with spdm := x }
theorem test_witness_host : (after (exec (.hdmAccess 1 64 4 77) State.reset)).map (fun t => little t 64 4) = some 77 ∧ State.reset.wf = true ∧
    (after (exec (.hdmAccess 0 64 4 0) (State.reset.wr 64 4 77))).map (fun t => t.hdmData) = some 77 ∧
    (after (exec .getVersion State.reset)).map (fun t => (t.spdm.stage, t.spdm.answers.map (fun a => a.req))) = some (1, [0x84]) ∧
    (after (exec .getCapabilities State.reset)).map (fun t => t.spdm.answers.map (fun a => (a.req, a.body))) = some [(0x7F, [4])] ∧
    (after (exec (.negotiateAlgorithms 1 1) (spdmIs { stage := 2 }))).map (fun t => t.spdm.stage) = some 3 ∧
    (after (exec (.keyExchange 7 1) (spdmIs { stage := 3 }))).map (fun t => t.spdm.session) = some (some (7, false)) ∧
    (after (exec .endSession (spdmIs { stage := 3, session := some (7, true) }))).map (fun t => t.spdm.session) = some none ∧
    (after (exec (.ideKeyManagement 2 1 9) (spdmIs { stage := 3, session := some (7, true) }))).map (fun t => t.spdm.ideKeys) = some [(17, 9)] := by decide +kernel
/-! ## Translation, events, steps -/

/-- A root to a table at 0x10000 whose first entry leads to a leaf of 1 GiB at 0x40000000. -/
def tables : State := (ctl.wr 0x10000 8 0x11001).wr 0x11000 8 0x4000007F
def theLeaf : TlbEntry :=
  { tag := 129, va := 0, size := 2 ^ 30, pa := 0x40000000, tgt := 0, rp := true, wp := true, xp := true, dirty := true, lvl := 1
    pteTgt := 0, pteAddr := 0x11000, pte := 0x4000007F }
theorem test_witness_walks : tables.wf = true ∧ tables.readBad 0x10000 8 = false ∧ tables.readBad 0x11000 8 = false ∧ little tables 0x10000 8 = 0x11001 ∧
    little tables 0x11000 8 = 0x4000007F ∧
    tables.walk 129 0x12345678 0x10001 = .leaf theLeaf ∧
    tables.walk 129 0 0 = .fail 0x04 0xF01 0 ∧ tables.walk 129 0 0x10005 = .fail 0x04 0xF07 0x10005 ∧ tables.walk 129 0 0x10009 = .fail 0x04 0xF03 0x10009 ∧
    tables.walk 129 0 0x20001 = .fail 0x04 2 0 := by decide +kernel

/-- Leaves of 2 MiB and of 64 KiB, the last clean and with its entry in error; a write walk sets its A and D bits. -/
def deep : State :=
  { ((((((ctl.wr 0x10000 8 0x11001).wr 0x11008 8 0x12001).wr 0x12000 8 0x20007F).wr 0x12008 8 0x13001).wr 0x13000 8 0x3007F).wr 0x13008 8 0x4001F) with
    ccrootm := 0x10001 }
def leafOf (w : WalkRes) : Option (Nat × Nat × Nat × Bool) :=
  match w with
  | .leaf e => some (e.lvl, e.size, e.pa, e.dirty)
  | _ => none
theorem test_witness_leaves : deep.wf = true ∧ (∀ k ∈ [0x10000, 0x11008, 0x12000, 0x12008, 0x13000, 0x13008], deep.readBad k 8 = false) ∧
    (∀ p ∈ [(0x40000000, (2, 2 ^ 21, 0x200000, true)), (0x40200000, (3, 2 ^ 16, 0x30000, true)), (0x40210000, (3, 2 ^ 16, 0x40000, false))],
      leafOf (deep.walk 129 p.1 0x10001) = some p.2) ∧
    (after (exec (.pageWalk 2048 0x40210000 1) deep)).map (fun t => little t 0x13008 8) = some 0x4007F ∧
    (after (exec (.pageWalk 2048 0x40210000 0) deep)).map (fun t => little t 0x13008 8) = some 0x4003F ∧
    (after (exec (.pageWalk 2048 0x40210000 1) { deep with bad := [0x13008] })).map (fun t => Sparse.get 0 t.hardErr 6) = some 1 := by decide +kernel

/-- `TranslationEvents`: caches without the page; a die idle and busy; a core at each level. -/
def rooted : State := { tables with ccrootm := 0x10001 }
theorem test_witness_translation : rooted.wf = true ∧ (∀ k ∈ cachesOf 2048, rooted.tlbAt k = []) ∧
    (after (exec (.pageWalk 2048 0x5000 0) rooted)).map (fun t => (t.tlbAt (ccKey 0)).map (fun e => (e.va, e.pa))) = some [(0, 0x40000000)] ∧
    rooted.tinvBusy[0] = none ∧ (after (exec (.tinvAll 1) rooted)).map (fun t => t.tinvBusy[1]) = some (some 512) ∧
    (let s : State := { rooted with tinvBusy := #v[some 512, none], tlb := [(ccKey 0, [theLeaf])] }
     s.wf = true ∧ (after (exec (.tinvComplete 0) s)).map (fun t => (t.tlbAt (ccKey 0), t.tinvBusy[0])) = some ([], none) ∧
     (s.coreAt 2048).lvl = 1 ∧ (after (exec (.ccrootWrite 0 1 7) s)).map (fun t => (t.ccrootm, t.tlbAt (ccKey 0))) = some (7, []) ∧
     (let u : State := { s with cores := [(2048, { cstat := 2, running := true })] }; (u.coreAt 2048).lvl = 0 ∧ after (exec (.ccrootWrite 0 1 7) u) = some u)) := by decide +kernel

/-- `WaitEvents`: a pair not begun and one begun; a `sleepc` whose word the core keeps. -/
def sleeping (w : Nat) : State := { ctl with cores := [(2048, { pc := 0x100, running := true, ir := w, waitFrom := some (0, 0), s := ctl.core.s })], cycle := 40 }
theorem test_witness_waits : (∀ n ∈ [(0 : Nat), 64, 66], let s := ctl.mapCore (fun c => { c with rptst := word n }); s.wf = true ∧ (s.core.rptst.toNat / 64 % 2 = 0 ↔ n = 0)) ∧
    encode ⟨false, 0⟩ (.sleepc 5 0) = some 0x3801001400000000 ∧ encode ⟨false, 0⟩ (.cwait 7 5 6 0 0 0) = some 0xa001071460000000 ∧ limitReg (.cwait 7 5 6 0 0 0) = some 7 ∧
    (sleeping 0x3801001400000000).wf = true ∧ ((sleeping 0x3801001400000000).coreAt 2048).ir = 0x3801001400000000 ∧
    (after (exec (.waitTargetReached 2048) (sleeping 0x3801001400000000))).map (fun t => t.core.pc) = some 0x108 ∧
    (after (exec (.waitLimit 2048) (sleeping 0xa001071460000000))).isSome = true := by decide +kernel
theorem test_mayAct (w : Nat) : mayAct (sleeping w) 2048 := .inr ⟨by decide, rfl, rfl⟩

/-- `RegisterEvents`, `PowerEvents`: a reset by another core at level M, and one refused; registers; throttling; resets. -/
def twoCores : State := { ctl with cores := [(2048, { pc := 0x100, running := true }), (2049, { running := true, dbell := 2, cstat := 2 })] }
theorem test_witness_registers : twoCores.wf = true ∧ (twoCores.coreAt 2048).lvl = 1 ∧ (twoCores.coreAt 2049).lvl = 0 ∧
    (after (exec (.ccresetReset 0 1) twoCores)).map (fun t => ((t.coreAt 2049).lvl, (t.coreAt 2049).dbell, (t.coreAt 2049).sreg 11)) = some (1, 2, 3) ∧
    after (exec (.ccresetReset 1 0) twoCores) = some twoCores ∧
    (after (exec (.dbellWrite 1 7) twoCores)).map (fun t => (t.coreAt 2049).dbell) = some 3 ∧
    (after (exec (.registerWrite 0 0xF40014800008 1000) twoCores)).map (fun t => t.pkg.plim) = some 1000 ∧
    (after (exec (.registerWrite 0 0xF40000200018 9) twoCores)).map (fun t => Sparse.get 0 t.roots 3) = some 9 := by decide +kernel
/-- A reset of a core that is staging region 0 and has a replay wait for region 2. -/
theorem test_witness_staged : let s : State := { twoCores with
        regions := [(0, { reg with proofSt := .etching }), (1, { reg with proofSt := .etching }), (2, { reg with proofSt := .ready, next := some 2049 })]
        cores := [(2048, { pc := 0x100, running := true }), (2049, { running := true, holds := some 0, shut := true })] }
    s.wf = true ∧ (after (exec (.ccresetReset 0 1) s)).map (fun t => ((t.region 0).proofSt, (t.region 1).proofSt, (t.region 2).proofSt)) =
      some (.none, .etching, .none) := by decide +kernel
/-- `Inputs`: errors corrected and not, in a memory, a register and a buffer; a read of the host. -/
theorem test_witness_inputs : (ctl.input (.softError 1 2 3 4)).lastSoft[1] = 0x40032 ∧ Sparse.get 0 (ctl.input (.softError 1 2 3 4)).softErr 18 = 1 ∧
    (ctl.input (.hardError 0x1003)).bad = [0x1000] ∧ (fir.input (.registerError 0 33)).core.badReg = [33] ∧
    Sparse.get 0 (fir.input (.bufferError 0)).hardErr 7 = 1 ∧ (fir.input (.hostRead 0)).hostData = 3 := by decide +kernel
theorem test_witness_power : (after (exec (.throttleTick 2700 50) twoCores)).map (fun t => (t.pkg.fstep, t.pkg.tpow, t.pkg.ttherm)) = some (15, true, false) ∧
    (after (exec (.thermalShutdown 120) twoCores)).map (fun t => (t.pkg.powered, t.cores, t.booted)) = some (false, [], false) ∧
    (after (exec .fundamentalReset { twoCores with fw := { pending := true, active := 1 } })).map (fun t => (t.fw.active, t.fw.rollback, t.pkg.why)) = some (0, true, 2) ∧
    (after (exec .secondaryBusReset twoCores)).map (fun t => ((t.coreAt 2049).lvl, (t.coreAt 2049).sreg 11)) = some (1, 3) := by decide +kernel

/-- `StepRunsDecoded`: a turn of a control core and one of a firing core, each at a word; a word that fails its checks; a repeat pair. -/
def turnOf (s : State) : State := { s with agenda := [⟨1, .core s.cur⟩] }
theorem test_witness_steps : (∀ w ∈ [0x0200051870000000, 0x0303000000000000], (ctlAt w).pkg.powered = true ∧ (ctlAt w).core.running = true ∧ (ctlAt w).core.halted = false ∧
      (ctlAt w).takesInterrupt 0 = false ∧ (answered (fetchAt (ctlAt w).core.pc (ctlAt w))).map (fun r => r.1) = some w) ∧
    (after (step (turnOf (ctlAt 0x0200051870000000)))).map (fun t => (t.sreg 5, t.core.pc)) = some (17, 0xF40000000008) ∧
    (after (step (turnOf (firAt 0x0200051870000000)))).map (fun t => (t.sreg 5, t.core.pc)) = some (17, 8) ∧ (firAt 0).firingLate {} = false ∧
    (after (step (turnOf (ctlAt 0x0303000000000000)))).map (fun t => (t.core.trapcause, t.core.trapinfo1)) = some (0x10001, 3) := by decide +kernel
/-- A firing past its limit at its turn; one that names a register an `sfetch` will write; a drain noted and forgotten. -/
theorem test_witness_turns : (let s : State := { arcState 0xFF 10 with agenda := [⟨20, .core 0⟩] }
      (after (step s)).map (fun t => ((t.tile 0).record[0], (t.tile 0).record[2])) = some (0x17, 10) ∧
      ({ arcState 0xFF 10 with cycle := 20 } : State).firingLate {} = true) ∧
    (let s : State := at_ (strm (context 2 [{ copy with fn := 2, d := 5 }])) 0x0200051870000000
     s.promised 0 = [5] ∧ s.awaitsPromise 0x0200051870000000 = true ∧ s.awaitsPromise 0x1002090000000007 = false ∧
     (after (step (turnOf s))).map (fun t => t.core.pc) = some 0) ∧
    (let s := busy { reg with started := true, drainAt := some 4 }; s.drained 0 = false ∧ s.wf = true ∧ ((s.noteDrains).region 0).drainAt = none) ∧
    ((conf { reg with started := true }).noteDrains.region 0).drainAt = some 0 := by decide +kernel
/-- R149: `rpt` of four with D and A stepping: s5 to s8 take s6 to s9 plus s7. -/
theorem test_repeat : let s := (firAt 0xE000D00000000000).wr (imemBase 0 + 8) 8 0x0200051870000000
    s.wf = true ∧ s.wordTrap 0xE000D00000000000 = none ∧
    (after (step (turnOf s))).map (fun t => (t.sreg 5, t.core.pc, t.core.rptst)) = some (17, 0, 65) := by decide +kernel

/-- A word placed where the next step fetches runs as the first instruction after reset. -/
theorem test_withFetchWord : (after (step (State.reset.withFetchWord 64 0x1002090000000007))).map (fun t => t.sreg 9) = some 7 ∧
    (after (step (State.reset.withFetchWord 64 0x7000450000000400))).isSome = true ∧ decodeTableWord 64 0x1002090000000007 = some (.li 9 7) := by decide +kernel

/-- `CanonicalForm`, `DecodeEncode`: reset is in canonical form and steps; a word of each kind of guard. -/
theorem test_witness_canonical : State.reset.wf = true ∧ (after (step State.reset)).isSome = true ∧ (after (step (turnOf (ctlAt 0x0200051870000000)))).isSome = true := by decide +kernel
theorem test_witness_encode : (Instr.add 5 6 7).word = some 0x0200051870000000 ∧ guarded ⟨true, 2⟩ 0x0200051870000000 = 0x02A0051870000000 ∧
    decode 0x02A0051870000000 = some (.add 5 6 7) ∧ guardOf 0x02A0051870000000 = ⟨true, 2⟩ := by decide +kernel
/-! ## Orders and refusals

States in which an access waits for another, and operands that a check refuses. -/

/-- `TokenChecks`: the checks of a token write at w8, in order, and a port that no arc joins. -/
theorem test_witness_writeChecks : arc.wDescs 11 = [] ∧
    (∀ p ∈ [((4 : Nat), (0 : Nat), (65535 : Nat), (0x0A : Nat)), (4, 62, 65535, 0x0A), (8, 60, 0, 0x09), (4, 2, 0, 0x03)],
      (stopped (writeCheck p.1 p.2.1 p.2.2.1 8 arc)).map (fun r => match r.1 with
        | .trap t => t.code
        | _ => 0) = some p.2.2.2) ∧ answered (writeCheck 4 60 65534 8 arc) = some ((), arc) := by decide +kernel

/-- A token's bytes in error; an `rst` of the firing that has still to write them; a write behind an `mdrain` to its token; a register in error. -/
theorem test_witness_tokenOrder : (let s : State := { arc with bad := [tileBase 0 + 0x444] }
      s.wf = true ∧ s.readBad (tileBase 0 + 0x444) 4 = true ∧ answered (awaitPlace (.mem (tileBase 0 + 0x444)) 4 s) = some ((), s) ∧
      answered (tokenAddr 1 4 4 0 s) = some ((0, 1, 0x444), s) ∧
      (after (exec (.wlds 9 5 0 0 0 0 0 2 1) s)).map (fun t => (t.myTile.record[0], t.myTile.record[2], t.myTile.record[3])) =
        some (0x16, 0xF00000000444, 1)) ∧
    (let s : State := { arc with netOps := [(0, [{ opOf .rst .sent with key := tileBase 0 + 0x444 }])], live := [⟨7, 0, true⟩], nextId := 8 }
     s.wf = true ∧ s.precedes 0 (Sparse.get [] s.netOps 0) false (tileBase 0 + 0x444) 4 = true ∧
     answered (awaitFetch (tileBase 0 + 0x444) 4 s) = some ((), s) ∧ after (exec (.wlds 9 5 0 0 0 0 0 2 1) s) = some s) ∧
    (let s := arc.mapCore (fun c => { c with badReg := [33] })
     s.core.badReg.contains 33 = true ∧ (Instr.wst 33 0 0 0 1 0 8 2 0).wf = true ∧
     (after (exec (.wst 33 0 0 0 1 0 8 2 0) s)).map (fun t => (t.myTile.record[0], t.myTile.record[2], t.myTile.record[3])) = some (0x16, 33, 4)) := by
  decide +kernel

/-- The tag tables: what commands use, a use of each kind that is allowed, and uses that are refused; of a write to a slot KEEP and released the
code is RELP's. -/
theorem test_witness_tagTables : claim.slots 0 = [(8, .claim false), (9, .claim false)] ∧ (multiply.blocks.map Prod.fst) = [0] ∧
    (∀ p ∈ [(SlotUse.claim true, ({} : SlotTag), ({ tag := 1, keep := true } : SlotTag)), (.write, { tag := 1 }, { tag := 2 }), (.scl, { tag := 2 }, { tag := 2 }),
        (.read, { tag := 2 }, { tag := 2 }), (.rel, { tag := 2, keep := true }, { tag := 2, keep := true, relp := true }), (.rel, { tag := 1 }, {})],
      slotRow 0 p.2.1 p.1 = some p.2.2 ∧ (stepSlots 0 [(5, p.1)] (Sparse.set {} [] 5 p.2.1)).toOption = some (Sparse.set {} [] 5 p.2.2)) ∧
    (∀ p ∈ [(SlotUse.claim false, ({ tag := 2 } : SlotTag), (5, 2, 1)), (.read, { tag := 1 }, (5, 1, 4)), (.write, { tag := 2, owner := 3 }, (5, 3, 6)),
        (.write, { tag := 2, keep := true, relp := true }, (5, 4, 6)), (.scl, { tag := 2, keep := true }, (5, 5, 6)), (.rel, {}, (5, 0, 6))],
      slotRow 0 p.2.1 p.1 = none ∧ refusal (stepSlots 0 [(5, p.1)] (Sparse.set {} [] 5 p.2.1)) = some p.2.2) ∧
    (∀ p ∈ [(BlockUse.zero true, ({} : BlockTag), some ({ tag := 1, int := true } : BlockTag)), (.start false true, {}, some { tag := 2 }),
        (.acc true false, { tag := 1, int := true }, some { tag := 1, int := true }), (.drain false, { tag := 2 }, some {}), (.acc true false, { tag := 1 }, none)],
      blockRow p.2.1 p.1 = p.2.2 ∧ ((stepBlocks [(64, p.1)] (Sparse.set {} [] 64 p.2.1)).toOption = p.2.2.map (Sparse.set {} [] 64))) ∧
    refusal (stepBlocks [(64, .acc true false)] [(64, { tag := 1 })]) = some (0x140, 6, 2) := by decide +kernel

/-- Records that fail: a field, a size, a byte of an unused dimension, a coordinate beyond each halo, a product and a sum beyond int64, and
elements below 0 and beyond 2^48. -/
theorem test_witness_shapeFaults : ∀ p ∈ [(record 64 + 14 * 2 ^ 76, (0x15, 14, 8, 0, 0)), (record 64 + 2 ^ 92, (0x15, 1, 11, 0, 0)), (record 64 + 2 ^ 96, (0x15, 1, 12, 0, 0)),
      (record 64 - 2 ^ 257, (0x15, 0, 32, 0, 0)), (record 64 + 2 ^ 512, (0x15, 1, 64, 0, 0)), (record 64 + (2 ^ 64 - 1) * 2 ^ 384, (0x11, 7, 1, 0, 2 ^ 64 - 1)),
      (record 64 + 2 ^ 288, (0x11, 7, 1, 0, 1)), (record 64 + 2 ^ 384 + (2 ^ 62 - 4) * 2 ^ 448, (0x11, 7, 2, 0, 2)),
      (record 64 + (2 ^ 63 - 5) * 2 ^ 448, (0x11, 7, 3, 0, 0)), (record (2 ^ 64 - 1), (0x11, 7, 4, 5, 0)), (record (2 ^ 48 - 7), (0x11, 7, 4, 5, 0))],
    (match shapeOf p.1 7 with
      | .ok _ => none
      | .error t => some (t.code, t.i0, t.i1, t.i2, t.i3)) = some p.2 := by decide +kernel

/-- Addresses of every kind at the checks of acceptance, for a firing core and for a control core; a copy whose records differ, and one whose
source names a counter. -/
theorem test_witness_acceptance :
    (∀ p ∈ [((64 : Nat), (none : Option (Nat × Nat)), (some (5, 8) : Option (Nat × Nat))), (0x800000000000, some (5, 2), some (5, 2)), (0xF00000000040, some (5, 8), none), (0xF10000000040, some (5, 8), none),
        (0xF0000007C000, some (5, 7), some (5, 7)), (0xF00000080000, some (5, 9), some (5, 9)), (0xF20000000000, some (5, 8), some (5, 8)),
        (0xF40000000000, some (2, 0), some (2, 0))],
      ∀ q ∈ [(0, p.2.1), (1, p.2.2)], (stopped (spaceCheck q.1 p.1 fir)).map (fun r => r.1) =
        q.2.map (fun x => .trap { code := x.1, i0 := exact p.1, i1 := exact x.2, i3 := fir.regionInfo })) ∧
    fir.ltileOf 0 = 0 ∧ ctl.cur = 2048 ∧
    (∀ p ∈ [((64 : Nat), (none : Option Nat), (some 8 : Option Nat)), (0xF40000000040, some 8, none)],
      ∀ q ∈ [(0, p.2.1), (2, p.2.2)], (stopped (spaceCheck q.1 p.1 ctl)).map (fun r => r.1) =
        q.2.map (fun x => .trap { code := 5, i0 := exact p.1, i1 := exact x, i3 := ctl.regionInfo })) ∧
    (∀ p ∈ [(record 0x200 + 2 ^ 64, ((4 : Word), (8 : Word))), (record 0x200 + 2 ^ 256, (1, 10))],
      let s := (strm (context 2 [copy])).wr (tileBase 0 + 0x3000) 96 p.1
      s.wf = true ∧ (stopped (acceptShapes copy s)).map (fun r => r.1) = some (.trap { code := 0x15, i0 := p.2.1, i1 := p.2.2 })) ∧
    (let s := (strm (context 2 [copy])).wr (tileBase 0 + 0x2000) 96 (record 0x100 + 0x40 * 2 ^ 128)
     (stopped (acceptShapes copy s)).map (fun r => r.1) = some (.trap { code := 0x15, i0 := 0x40, i1 := 16 })) := by decide +kernel

/-- Tiles 0 and 1 with one slot of one circuit from 0 to 1: descriptor 0 owns it, a flit leaves in the cycle after it entered the buffer, and not
where another has left. -/
def joined (c : Nat) : State :=
  let s := arc.queueFlit 0 (.ret 2)
  { (s.setTile 0 { s.tile 0 with pairs := [(1, 12)] }).setTile 1 { s.tile 1 with pairs := [(4, 11)] } with cycle := c }
theorem test_witness_circuits : (joined 1).wf = true ∧ (joined 1).peerKey 0 = some 32 ∧ endOf 0 ≠ endOf 32 ∧ flits (joined 1) 0 = [.ret 2] ∧
    (joined 0).leaves 0 0 = none ∧ countOf (joined 0).entered 0 0 = 1 ∧ (joined 1).leaves 0 1 = some 1 ∧
    ((joined 1).ownRoutes 0 (endOf 0) (endOf 32)).map (fun l => (l.cls, l.mod, l.cycles)) = [(0, 1, 1)] ∧
    (joined 1).departs 1 1 = none ∧
    (after (exec (.flitInject 0) (joined 1))).map (fun t => (flits t 0, (inFlight t 0).map (fun f => (f.left, f.due)), t.leaves 0 1)) =
      some ([], [(1, 2)], none) := by decide +kernel

/-- An element that does not exist; a pull that no core of ours has started; one short of stream contexts, and one of groups; a drain that counts
what it discards. -/
theorem test_witness_pullRoom : (conf reg).wf = true ∧ ((conf reg).region 0).resolve 40 = none ∧
    (match (conf { reg with proofSt := .etching }).etchWrite 0 (40 * 2 ^ 19 + 14 * 2 ^ 12) 0 with
      | .ok _ => none
      | .error e => some e) = some 1 ∧
    (let s := conf { reg with proofSt := .pulling, swapAt := 9 }
     s.wf = true ∧ (∀ i ∈ [Instr.pull 9 8 7 0 3, .drain 9 8 7 0 3, .qstat 9 8 0 3 2, .pmove 9 8 7 0 3, .pfree 9 8 0 3], after (exec i s) = some s) ∧
     (after (exec (.etch 8 5 7 0 3) (s.setS 8 0))).map (fun t => (t.core.pc, t.core.checked)) = some (0x100, true)) ∧
    (let d : StreamDecl := { role := 0, edge := 0, ltile := 0, p := 1, arc := 0, record := record 64 }
     let s := conf { reg with proofSt := .ready, objProof := { strs := List.replicate 17 d } }
     s.wf = true ∧ s.residue 0 = none ∧ s.shortCtx 0 (s.region 0).objProof = 1 ∧
     (after (exec (.pull 9 8 7 0 3) s)).map (fun t => t.sreg 9) = some 0x1000000000C1F) ∧
    (let r : Region := { reg with proofSt := .ready, groupsProof := [(0, { defd := true, members := List.replicate 2048 0 })] }
     let s : State := { conf r with
       groups := (List.range 128).map (fun k => (k, some { skip := false, region := 9, lgroup := k, mbase := 2047 + 2048 * k, members := [0] })) }
     s.wf = true ∧ s.residue 0 = none ∧ s.shortCtx 0 (s.region 0).objProof = 0 ∧ s.planGroups 0 = none ∧ ((conf r).planGroups 0).isSome = true ∧
     (after (exec (.pull 9 8 7 0 3) s)).map (fun t => t.sreg 9) = some 0xC1F) ∧
    (after (exec (.drainFlush 9 8 7 0 3) resid)).map (fun t => ((t.region 0).discards, ((resid.arcs 0).flatMap (fun e => (resid.arcSegs 0 e).map Prod.snd)))) =
      some (2, [0]) := by decide +kernel

/-- `rkreg` of a misaligned address; a response to a firing whose trap is presented; `edst` answered by another home, performed once the own copy
has it or is left out, and no longer waited for by `xfence`; NVALID cleared over a message that waits. -/
theorem test_witness_hubOrder : (let s := (keyState keyRecord).setS 5 0x1004
      s.wf = true ∧ (after (exec (.rkreg 9 5 0 3 0) s)).map (fun t => (t.core.trapinfo0, t.core.trapinfo1, t.core.trapinfo3)) = some (0x1004, 32, 0)) ∧
    (let s := (hb (hubOf 1 0 [opHub 0])).setTile 0 { (hb (hubOf 1 0 [opHub 0])).tile 0 with firing := some { trapped := true } }
     s.wf = true ∧ (after (exec (.dataMsg 2 3 4 5) s)).map (fun t => (t.sreg 9, t.hub.ops, t.isLive 7)) = some (0, [], false)) ∧
    (let s := hb { hubOf 1 0 [{ opHub 3 with x := 9, target := 0 }] with editions := [(0, { theGroup with applied := 4 })] }
     s.wf = true ∧ (after (exec (.edNum 2 3 4 6) s)).map (fun t => (t.sreg 9, t.hub.ops.map HubOp.fn, t.live.map LiveOp.eng)) = some (6, [18], [false]) ∧
     (let u := hb { hubOf 1 0 [{ opHub 18 with target := 0, edition := 6 }] with editions := [(0, { theGroup with applied := 4 })] }
      u.wf = true ∧ u.editionPerformed 7 false = u ∧ (u.editionPerformed 7 true).hub.ops = [] ∧ u.noneLive 0 = false ∧
      after (exec (.xfence 7 0 0 0) u) = some u)) ∧
    (let m : Msg := { ty := 0x10, src := 1, dst := 2, epoch := 3, seq := 5 }
     let h : Hub := { hubOf 1 0 [] with links := [(0, { up := true, waiting := #v[[(m, 0), (m, 16)], []] })] }
     (hb h).wf = true ∧ ((((hb h).hubWrite 0x400000 1 (2 ^ 64 - 1)).link 0).waiting[0]).map Prod.snd = [16]) := by decide +kernel

/-- A clock heard on port 1 that its port no longer hears, while the master on port 0 is heard still; all silent. -/
theorem test_witness_receipt : let p : Ptp := { slaveOf {} with heard := [(0, { clock with heard := 300000000 }), (1, { clock with src := 10 })], since := 300000000 }
    let at_ (c : Nat) : State := { clockIs p with refClock := c }
    let heard (c : Nat) : List (Nat × Announced) := p.heard.filter (fun e => decide (c < e.2.heard + 375000000))
    (at_ 375000000).wf = true ∧ ¬ p.since + 375000000 ≤ 375000000 ∧ (heard 375000000).map Prod.fst = [0] ∧ heard 374999999 = p.heard ∧
    p.since + 375000000 ≤ 675000000 ∧ heard 675000000 = [] := by decide +kernel

/-- `qdone` that has to wait for what the region's tiles have outstanding, or for a pull; `launch` before its OW set is performed. -/
theorem test_witness_holds : (let s : State := { conf ended with netOps := [(0, [opOf .rst .sent])], live := [⟨7, 0, true⟩], nextId := 8 }
      s.wf = true ∧ s.unperformed 0 = true ∧ (after (exec (.qdone 7 8 5 0 3) s)).map (fun t => (t.core.pc, t.core.holds)) = some (0x100, some 0)) ∧
    (let s := conf { ended with proofSt := .pulling }
     s.wf = true ∧ (after (exec (.qdone 7 8 5 0 3) s)).map (fun t => (t.core.pc, t.core.holds)) = some (0x100, none)) ∧
    (let s : State := { packet 0x10000 with live := [⟨7, 2048, true⟩], nextId := 8 }.mapCore (fun c => c.setO 1 [7])
     s.wf = true ∧ s.setDone 1 = false ∧ (after (exec (.launch 9 5 6 1 3) s)).map (fun t => (t.core.pc, t.core.shut)) = some (0x100, true)) := by decide +kernel

/-- An object's placement record and stream that fail; a launch short of stream contexts. -/
theorem test_witness_plan : let h : Header := { headerOf 0 with place := 0x101, etch := 64, etchLen := 2 }
    let a : Word := 0xF40000001000
    (answered (readPlacing (a + 8) a (packet (0x101 * 2 ^ 64)))).map (fun r => r.1.isSome) = some true ∧
    (stopped (readPlan a h (packet 0))).map (fun r => r.1) = some 0x11F ∧
    (stopped (readPlan a { h with etchLen := 1 } (packet (0x101 * 2 ^ 64)))).map (fun r => r.1) = some 0x11F ∧
    (answered (readPlan a { h with etchLen := 2 } (packet (0x101 * 2 ^ 64)))).map (fun r => r.1.words) = some [0, 0] ∧
    (stopped (readPlan a { h with etch := 0x80000 } (packet (0x101 * 2 ^ 64)))).isSome = true := by decide +kernel

/-- A trapped firing of a pre-empted region loses its held `barw`; one that waits on it does not halt; headers that `ctxrest` refuses, in order;
registers restored without the bits that PC and RPTST lack. -/
theorem test_witness_restores : (let s : State := { haltable with netOps := [(0, [opOf .barw .held])], live := [⟨7, 0, true⟩], nextId := 8 }
      let u := s.setTile 0 { s.tile 0 with firing := some { trapped := true } }
      s.wf = true ∧ u.wf = true ∧ (s.netList 0).any (fun o => o.kind == .barw && !o.orphan) = true ∧
      (after (exec (.firingHalt 0) u)).map (fun t => (t.netList 0, t.isLive 7)) = some ([], false)) ∧
    (∀ p ∈ [(2 ^ 48, 0x11F), (2 ^ 1024 + 4 * 2 ^ 32, 0x11F), (4 * 2 ^ 32, 0x18), (0, 0x11F)], refusal (imageCheck (0x4A435849 + p.1)) = some p.2) ∧
    (imageCheck (0x4A435849 + 0x101 * 2 ^ 64)).toOption = placeOf 0x101 ∧ (placeOf 0x101).isSome = true := by decide +kernel

/-- A read of the host that meets a word in error; a kick and a queue register by their offsets, and an offset within BASE; error counters written. -/
theorem test_witness_counters : (let s : State := { State.reset with bad := [64] }
      s.wf = true ∧ s.readBad 64 4 = true ∧ (after (exec (.hdmAccess 0 64 4 0) s)).map (fun t => (Sparse.get 0 t.hardErr 6, t.freeCtr)) = some (1, s.freeCtr + 1)) ∧
    (queueIs {}).wf = true ∧ (after (exec (.registerWrite 8 0x4008 0x2011) (queueIs {}))).map (fun t => (t.queue 0).en) = some true ∧
    (after (exec (.registerWrite 8 0x4004 0xAABBCCDD) (queueIs { base := 0x1122334455667788 }))).map (fun t => (t.queue 0).base) = some 0xAABBCCDD55667788 ∧
    ((queueIs { base := 0x1122334455667788 }).input (.hostRead 0x4004)).hostData = 0x11223344 ∧ (ctl.coreAt 2048).lvl = 1 ∧
    (after (exec (.registerWrite 0 0xF40014801010 9) (ctl.input (.softError 0 2 3 4)))).map (fun t => Sparse.get 0 t.softErr 2) = some 10 ∧
    (after (exec (.registerWrite 0 0xF40014801098 9) ctl)).map (fun t => Sparse.get 0 t.hardErr 3) = some 9 ∧
    madeNow (ctl.input (.softError 0 2 3 4)) 34 = 1 ∧ madeNow ctl 3 = 0 := by decide +kernel

/-- The D update of a translation held whose entry is in error. -/
theorem test_witness_dirty : let e : TlbEntry := { theLeaf with dirty := false }
    let s : State := { rooted with tlb := [(ccKey 0, [e])], bad := [0x11000] }
    s.wf = true ∧ s.readBad 0x11000 8 = true ∧ (s.rootOf 2048 (s.agentRegion 2048)).1 = 129 ∧
    (cachesOf 2048).findSome? (fun k => (s.tlbAt k).find? (fun e => decide (e.tag = 129 ∧ e.va ≤ 0x5000 ∧ 0x5000 < e.va + e.size))) = some e ∧
    (after (exec (.pageWalk 2048 0x5000 1) s)).map (fun t => (Sparse.get 0 t.hardErr 6, t.bad, little t 0x11000 8)) = some (1, [0x11000], 0x4000007F) := by
  decide +kernel

/-- A turn with an interrupt due: taken, and left pending where the word traps; a repeat pair whose words the core keeps. -/
def due_ (w : Nat) : State := (ctlAt w).mapCore (fun c => { c with cstat := 5, ien := 0x800, dbell := 1, trapbase := 0x2000 })
theorem test_witness_boundary : (due_ 1).wf = true ∧ (∀ w ∈ [0x0200051870000000, 0x0303000000000000], (due_ w).takesInterrupt 0 = true) ∧
    (due_ 0x0200051870000000).stepTraps = false ∧ (due_ 0x0303000000000000).stepTraps = true ∧
    (after (step (turnOf (due_ 0x0200051870000000)))).map (fun t => (t.core.trapcause, t.core.pc)) = some (0x12E00, 0x2100) ∧
    (after (step (turnOf (due_ 0x0303000000000000)))).map (fun t => (t.core.trapcause, t.core.dbell)) = some (0x10001, 1) ∧
    (let s := (firAt 0).mapCore (fun c => { c with rptst := 65, pair := some (0xE000D00000000000, 0x0200051870000000) })
     s.wf = true ∧ s.core.rptst.toNat / 64 % 2 = 1 ∧ s.pairNow = some (0xE000D00000000000, 0x0200051870000000) ∧
     stepWord 0xE000D00000000000 0x0200051870000000 1 ≠ 0 ∧ (after (step (turnOf s))).map (fun t => (t.sreg 6, t.core.rptst)) = some (17, 66)) := by
  decide +kernel
end Sys2Proof.Tests
end

section
/-! SUPPORT. Laws for the system's events: masked writes of registers, the reset of a control core, and the error counters. -/

namespace Sys2Proof.Machine

/-! ## The invariant, of further tables -/

theorem State.wf_roots {s : State} (h : s.wf = true) : Sparse.rising s.roots = true := by
  simp only [State.wf, State.tablesRise, Bool.and_eq_true] at h; simp [h]

theorem State.wf_hardErr {s : State} (h : s.wf = true) : Sparse.rising s.hardErr = true := by
  simp only [State.wf, State.tablesRise, Bool.and_eq_true] at h; simp [h]

theorem State.wf_softErr {s : State} (h : s.wf = true) : Sparse.rising s.softErr = true := by
  simp only [State.wf, State.tablesRise, Bool.and_eq_true] at h; simp [h]

theorem State.wf_hubLinks {s : State} (h : s.wf = true) : Sparse.rising s.hub.links = true := by
  simp only [State.wf, State.tablesRise, Bool.and_eq_true] at h; simp [h]

/-! ## Sparse maps, sets and masked writes -/

/-- A listed entry is what its key reads as. -/
theorem Sparse.get_of_mem {α : Type} {d : α} {e : Nat × α} (m : Sparse α) : ∀ {b : Nat}, Sparse.risingFrom b m = true → e ∈ m →
    b ≤ e.1 ∧ Sparse.get d m e.1 = e.2 := by
  induction m with
  | nil => intro b _ he; cases he
  | cons k m ih =>
    intro b hm he
    simp only [Sparse.risingFrom, Bool.and_eq_true, decide_eq_true_eq] at hm
    obtain rfl | he := List.mem_cons.1 he
    · exact ⟨hm.1, by simp [Sparse.get]⟩
    · obtain ⟨hb, hg⟩ := ih hm.2 he
      exact ⟨by omega, by simp [Sparse.get, show e.1 ≠ k.1 by omega, show ¬ e.1 < k.1 by omega, hg]⟩

/-- A key that does not read the default is listed. -/
theorem Sparse.mem_of_get {α : Type} {d : α} {i : Nat} (m : Sparse α) (h : Sparse.get d m i ≠ d) : (i, Sparse.get d m i) ∈ m := by
  induction m with
  | nil => exact absurd rfl h
  | cons k m ih =>
    simp only [Sparse.get] at h ⊢
    split_ifs at h ⊢ with h1 h2
    · subst h1; exact List.mem_cons_self ..
    · exact absurd rfl h
    · exact List.mem_cons_of_mem _ (ih h)

/-- A number put into a set is in it beside what was. -/
theorem mem_insertNat (x w : Nat) (l : List Nat) : w ∈ insertNat x l ↔ w = x ∨ w ∈ l := by
  induction l with
  | nil => simp [insertNat]
  | cons y ys ih =>
    unfold insertNat
    split_ifs with h1 h2
    · simp
    · subst h2; simp
    · simp only [List.mem_cons, ih]; tauto

/-- A write of all eight bytes of a register. -/
theorem mergeBits_regMask {old : Nat} (h : old < 2 ^ 64) (v : Nat) : mergeBits old v regMask = v % 2 ^ 64 := by
  have land (x : Nat) : Nat.land x regMask = x % 2 ^ 64 := Nat.and_two_pow_sub_one_eq_mod x 64
  rw [mergeBits, land, land, Nat.mod_eq_of_lt h, Nat.sub_self]
  exact Nat.zero_or _

/-- A write of two bits of a field replaces them. -/
theorem bits_mergeBits_two (d v : Nat) : bits (mergeBits (d * 2 ^ 8) (v % 4 * 2 ^ 8) (3 * 2 ^ 8)) 8 2 = v % 4 := by
  have land (x : Nat) : Nat.land (x * 2 ^ 8) (3 * 2 ^ 8) = x % 4 * 2 ^ 8 := by
    change x * 2 ^ 8 &&& 3 * 2 ^ 8 = _
    rw [← Nat.shiftLeft_eq, ← Nat.shiftLeft_eq, ← Nat.shiftLeft_and_distrib, Nat.shiftLeft_eq,
      show x &&& 3 = x % 4 from Nat.and_two_pow_sub_one_eq_mod x 2]
  have lor (x y : Nat) : Nat.lor (x * 2 ^ 8) (y * 2 ^ 8) = (x ||| y) * 2 ^ 8 := by
    change x * 2 ^ 8 ||| y * 2 ^ 8 = _
    rw [← Nat.shiftLeft_eq, ← Nat.shiftLeft_eq, ← Nat.shiftLeft_or_distrib, Nat.shiftLeft_eq]
  rw [mergeBits, land, land, ← Nat.sub_mul, lor, bits, Nat.mul_div_cancel _ (by decide), Nat.or_mod_two_pow,
    show (d - d % 4) % 2 ^ 2 = 0 by omega, Nat.zero_or]
  omega

/-! ## The proof plane of a region that is given up (R349, assumption 91) -/

/-- Nothing but tiles and regions differs, and the regions' keys rise if they rose. -/
structure PlanesOnly (s t : State) : Prop where
  frame : t = { s with tiles := t.tiles, regions := t.regions }
  rising : Sparse.rising s.regions = true → Sparse.rising t.regions = true

theorem PlanesOnly.trans {s t u : State} (h : PlanesOnly s t) (k : PlanesOnly t u) : PlanesOnly s u :=
  ⟨by rw [k.frame, h.frame], k.rising ∘ h.rising⟩

theorem PlanesOnly.setTile (s : State) (p : Nat) (t : Tile) : PlanesOnly s (s.setTile p t) := ⟨rfl, id⟩

theorem PlanesOnly.mapTiles (s : State) (f : Tile → Tile) : PlanesOnly s (s.mapTiles f) := ⟨rfl, id⟩

theorem PlanesOnly.mapRegion (s : State) (g : Nat) (f : Region → Region) : PlanesOnly s (s.mapRegion g f) := ⟨rfl, Sparse.set_rising⟩

theorem PlanesOnly.foldl (f : State → Nat → State) (hf : ∀ s k, PlanesOnly s (f s k)) (l : List Nat) : ∀ s, PlanesOnly s (l.foldl f s) := by
  induction l with
  | nil => exact fun s => ⟨rfl, id⟩
  | cons k l ih => exact fun s => (hf s k).trans (ih _)

theorem State.region_mapRegion {s : State} (h : Sparse.rising s.regions = true) (g k : Nat) (f : Region → Region) :
    (s.mapRegion g f).region k = if g = k then f (s.region g) else s.region k := Sparse.get_set h

/-- A fold of changes of tiles leaves the regions alone. -/
theorem foldl_setTile_regions (f : State → Nat → Tile) (l : List Nat) : ∀ s : State,
    (l.foldl (fun s p => s.setTile p (f s p)) s).regions = s.regions := by
  induction l with
  | nil => exact fun s => rfl
  | cons p l ih => exact fun s => ih _

theorem proofFromActive_planesOnly (s : State) (g : Nat) : PlanesOnly s (s.proofFromActive g) := by
  unfold State.proofFromActive
  exact ((PlanesOnly.foldl _ (fun s p => .setTile s p _) _ s).trans (.mapTiles _ _)).trans (.mapRegion _ g _)

theorem proofSt_proofFromActive {s : State} (h : Sparse.rising s.regions = true) (g k : Nat) :
    ((s.proofFromActive g).region k).proofSt = (s.region k).proofSt := by
  unfold State.proofFromActive
  dsimp only
  rw [State.region_mapRegion]
  · simp only [State.region, State.mapTiles, foldl_setTile_regions (fun s p => { s.tile p with proof := (s.tile p).plane })]
    split_ifs with hg
    · subst hg; rfl
    · rfl
  · simpa only [State.mapTiles, foldl_setTile_regions (fun s p => { s.tile p with proof := (s.tile p).plane })] using h

/-- What the reset of core n' does to each region that it works on or that waits for it. -/
def State.giveUp (n' : Nat) (s : State) (g : Nat) : State :=
  (s.dropProof g).mapRegion g (fun r => { r with next := if r.next = some n' then none else r.next })

theorem giveUp_planesOnly (n' : Nat) (s : State) (g : Nat) : PlanesOnly s (s.giveUp n' g) :=
  ((proofFromActive_planesOnly s g).trans (.mapRegion ..)).trans (.mapRegion ..)

theorem proofSt_giveUp {s : State} (h : Sparse.rising s.regions = true) (n' g k : Nat) :
    ((s.giveUp n' g).region k).proofSt = if k = g then .none else (s.region k).proofSt := by
  have hp := (proofFromActive_planesOnly s g).rising h
  rw [State.giveUp, State.region_mapRegion (Sparse.set_rising hp), State.dropProof, State.region_mapRegion hp, State.region_mapRegion hp]
  by_cases hk : g = k
  · simp [hk]
  · simp [hk, Ne.symm hk, proofSt_proofFromActive h g k]

theorem proofSt_foldl_giveUp (n' : Nat) (l : List Nat) : ∀ {s : State}, Sparse.rising s.regions = true → ∀ k,
    ((l.foldl (State.giveUp n') s).region k).proofSt = if k ∈ l then .none else (s.region k).proofSt := by
  induction l with
  | nil => intros; rfl
  | cons g l ih =>
    intro s h k
    rw [List.foldl_cons, ih ((giveUp_planesOnly n' s g).rising h), proofSt_giveUp h]
    by_cases hl : k ∈ l <;> by_cases hg : k = g <;> simp [hl, hg]

/-- The regions that the reset of core n' gives up: the one it etches, and those whose replay it holds back. -/
def State.givenUp (s : State) (n' : Nat) : List Nat :=
  (match (s.coreAt n').holds with
    | some g => if (s.region g).proofSt = .etching then [g] else []
    | none => []) ++ (s.regions.filter (fun e => e.2.next = some n')).map Prod.fst

/-- Assumption 91: the reset of a core gives up the regions it works on or holds back, and no other. -/
theorem abandonEtch_eq (s : State) (n' : Nat) : s.abandonEtch n' = (s.givenUp n').foldl (State.giveUp n') s := rfl

theorem abandonEtch_planesOnly (s : State) (n' : Nat) : PlanesOnly s (s.abandonEtch n') :=
  PlanesOnly.foldl _ (giveUp_planesOnly n') _ s

theorem mem_givenUp {s : State} (h : Sparse.rising s.regions = true) (n' g : Nat) :
    g ∈ s.givenUp n' ↔ ((s.coreAt n').holds = some g ∧ (s.region g).proofSt = .etching) ∨ (s.region g).next = some n' := by
  unfold State.givenUp
  rw [List.mem_append]
  refine or_congr ?_ ⟨fun hm => ?_, fun hn => ?_⟩
  · cases hh : (s.coreAt n').holds with
    | none => simp
    | some k =>
      by_cases hk : (s.region k).proofSt = .etching
      · simp only [hk, if_true, List.mem_singleton, Option.some.injEq]
        exact ⟨fun e => ⟨e.symm, e ▸ hk⟩, fun e => e.1.symm⟩
      · simp only [hk, if_false, List.not_mem_nil, Option.some.injEq, false_iff]
        rintro ⟨rfl, hk'⟩
        exact hk hk'
  · obtain ⟨e, he, rfl⟩ := List.mem_map.1 hm
    obtain ⟨he, hn⟩ := List.mem_filter.1 he
    have hg : s.region e.1 = e.2 := (Sparse.get_of_mem s.regions h he).2
    rw [hg]
    simpa using hn
  · refine List.mem_map.2 ⟨(g, s.region g), List.mem_filter.2 ⟨Sparse.mem_of_get s.regions (fun hd => ?_), by simpa using hn⟩, rfl⟩
    have hd : s.region g = {} := hd
    rw [hd] at hn
    cases hn

/-! ## A control core that starts (R417, R419, R440, R462) -/

/-- The state in which core n's memory is cleared, and what it was staging is given up. -/
def State.unstaged (s : State) (n : Nat) : State := (s.zero (privBase n) (2 ^ 19)).abandonEtch (2048 + n)

/-- The registers a control core starts with. -/
def State.startedCore (s : State) (n : Nat) (s10 : Word) (s11 : Nat) : Core :=
  ((({ pc := word (0x7FFF800100 + (s.zero (privBase n) (2 ^ 19)).slotEntry s.fw.active), running := true, dbell := (s.coreAt (2048 + n)).dbell,
       storeErr := (s.coreAt (2048 + n)).storeErr } : Core).setS 10 s10).setS 11 (word s11))

theorem unstaged_planesOnly (s : State) (n : Nat) : PlanesOnly (s.zero (privBase n) (2 ^ 19)) (s.unstaged n) := abandonEtch_planesOnly _ _

theorem startCore_cores (s : State) (n : Nat) (s10 : Word) (s11 : Nat) :
    (s.startCore_ n s10 s11).cores = Sparse.set {} s.cores (2048 + n) (s.startedCore n s10 s11) := by
  have h : ((s.zero (privBase n) (2 ^ 19)).abandonEtch (2048 + n)).cores = s.cores := by rw [(abandonEtch_planesOnly _ _).frame]; rfl
  have hc (k : Nat) : (s.zero (privBase n) (2 ^ 19)).coreAt k = s.coreAt k := rfl
  unfold State.startCore_ State.startedCore
  simp only [State.setCoreAt, h, hc, State.zero_fw]

theorem startCore_mem (s : State) (n : Nat) (s10 : Word) (s11 : Nat) :
    (s.startCore_ n s10 s11).mem = (s.zero (privBase n) (2 ^ 19)).mem := by
  change (s.unstaged n).mem = _
  rw [(unstaged_planesOnly s n).frame]

theorem startCore_fw (s : State) (n : Nat) (s10 : Word) (s11 : Nat) : (s.startCore_ n s10 s11).fw = s.fw := by
  change (s.unstaged n).fw = _
  rw [(unstaged_planesOnly s n).frame]
  rfl

theorem startCore_pkg (s : State) (n : Nat) (s10 : Word) (s11 : Nat) : (s.startCore_ n s10 s11).pkg = s.pkg := by
  change (s.unstaged n).pkg = _
  rw [(unstaged_planesOnly s n).frame]
  rfl

theorem startCore_proofSt {s : State} (h : Sparse.rising s.regions = true) (n : Nat) (s10 : Word) (s11 g : Nat) :
    ((s.startCore_ n s10 s11).region g).proofSt =
      if ((s.coreAt (2048 + n)).holds = some g ∧ (s.region g).proofSt = .etching) ∨ (s.region g).next = some (2048 + n) then .none
      else (s.region g).proofSt := by
  have hz : Sparse.rising (s.zero (privBase n) (2 ^ 19)).regions = true := h
  change ((s.unstaged n).region g).proofSt = _
  rw [State.unstaged, abandonEtch_eq, proofSt_foldl_giveUp _ _ hz, if_congr (mem_givenUp hz _ g) rfl rfl]
  rfl

theorem sreg_startedCore (s : State) (n : Nat) (s10 : Word) (s11 k : Nat) :
    (s.startedCore n s10 s11).sreg k = if k = 10 then s10 else if k = 11 then word s11 else 0 := by
  unfold State.startedCore
  by_cases h11 : k = 11
  · subst h11; rw [Core.sreg_setS _ (by decide)]; rfl
  · rw [Core.sreg_setS_ne _ _ h11]
    by_cases h10 : k = 10
    · subst h10; rw [Core.sreg_setS _ (by decide)]; rfl
    · rw [Core.sreg_setS_ne _ _ h10, if_neg h10, if_neg h11]
      by_cases hk : k < 32 <;> simp [Core.sreg, hk]

/-- The entry of a firmware slot lies in flash, which the start of a core does not reach. -/
theorem slotEntry_zero {s : State} (h : Memory.wf s.mem = true) {n : Nat} (hn : n < 8) (b : Nat) :
    (s.zero (privBase n) (2 ^ 19)).slotEntry b = s.slotEntry b :=
  Sparse.bytes_congr 8 (fun j hj _ => by
    have : flashBase b = 2 ^ 46 + b * 2 ^ 23 := rfl
    rw [State.get_zero h, if_neg (by unfold privBase; omega)])

/-! ## Register writes by a control core (R4) -/

/-- A write that its register takes: its effect, the turn given back. -/
theorem coreWrite_eq {s t : State} {n o v mask : Nat} {b : Bool}
    (h : regWrite o v mask ({ s with cur := 2048 + n } : State).atM { s with cur := 2048 + n } = .ok b t) :
    s.coreWrite n o v mask = { t with cur := s.cur } := by
  simp only [State.coreWrite, h]

/-- A control core writes at level M where its LVL is 1. -/
theorem atM_control (s : State) (n : Nat) : ({ s with cur := 2048 + n } : State).atM = ((s.coreAt (2048 + n)).lvl == 1) := by
  have hc : ({ s with cur := 2048 + n } : State).core = s.coreAt (2048 + n) := rfl
  simp [State.atM, State.isFiring, hc]

/-- R457: a write in the package block acts at level M only. -/
theorem regWrite_package {o : Nat} (h1 : 0x14800000 ≤ o) (h2 : o < 0x14802000) (v mask : Nat) (lvlM : Bool) (s : State) :
    regWrite o v mask lvlM s = .ok (s.regRead o).isSome (if lvlM then s.packageWrite (o - 0x14800000) v mask else s) := by
  unfold regWrite
  simp only [bind, EStateM.bind, get, getThe, MonadStateOf.get, EStateM.get]
  rw [if_neg (by omega), if_neg (by omega), if_neg (by omega), if_neg (by omega), if_neg (by omega), if_neg (by omega), if_neg (by omega),
    if_neg (by omega), if_pos ⟨h1, h2⟩]
  cases lvlM <;> simp [pure, EStateM.pure, EStateM.bind, set, MonadStateOf.set, EStateM.set]

/-- R107: a write of a region's root. -/
theorem regWrite_root {g : Nat} (hg : g < 128) (v mask : Nat) (lvlM : Bool) (s : State) :
    regWrite (0x200000 + 8 * g) v mask lvlM s =
      .ok true { s with roots := Sparse.set 0 s.roots g (word (mergeBits (Sparse.get 0 s.roots g).toNat v mask)) } := by
  unfold regWrite
  simp only [bind, EStateM.bind, get, getThe, MonadStateOf.get, EStateM.get]
  rw [if_neg (by omega), if_neg (by omega), if_neg (by omega), if_pos (by omega), show (0x200000 + 8 * g - 0x200000) / 8 = g by omega]
  rfl

/-- What a register write of control core n, addressed to the package block, leaves. -/
theorem exec_registerWrite_package {n o : Nat} (hn : n < 8) (ho : o < 0x2000) (h8 : o % 8 = 0) (v : Nat) (s : State) :
    exec (.registerWrite n (0xF40014800000 + o) v) s =
      .next (if (s.coreAt (2048 + n)).lvl = 1 then { ({ s with cur := 2048 + n } : State).packageWrite o v regMask with cur := s.cur } else s) := by
  have hw := regWrite_package (o := 0x14800000 + o) (by omega) (by omega) v regMask ({ s with cur := 2048 + n } : State).atM { s with cur := 2048 + n }
  have ha : (0xF40014800000 + o - sysBase) / 8 * 8 = 0x14800000 + o := by unfold sysBase; omega
  change Host.Outcome.next (if n = 8 then _ else if n < 8 ∧ sysBase ≤ 0xF40014800000 + o ∧ 0xF40014800000 + o < sysBase + 2 ^ 40 then _ else s) = _
  rw [if_neg (by omega), if_pos (by unfold sysBase; omega), ha, coreWrite_eq hw, atM_control, show 0x14800000 + o - 0x14800000 = o by omega]
  by_cases hl : (s.coreAt (2048 + n)).lvl = 1 <;> simp [hl]

/-- R4, R107: what a register write of control core n to a region's root leaves. -/
theorem exec_registerWrite_root {n g : Nat} (hn : n < 8) (hg : g < 128) (v : Nat) (s : State) :
    exec (.registerWrite n (0xF40000200000 + 8 * g) v) s = .next { s with roots := Sparse.set 0 s.roots g (word v) } := by
  have ha : (0xF40000200000 + 8 * g - sysBase) / 8 * 8 = 0x200000 + 8 * g := by unfold sysBase; omega
  have hv : word (v % 2 ^ 64) = word v := BitVec.eq_of_toNat_eq (by simp)
  rw [show exec (.registerWrite n (0xF40000200000 + 8 * g) v) s = execRegisterWrite n (0xF40000200000 + 8 * g) v s from rfl,
    execRegisterWrite, if_neg (by omega), if_pos (by unfold sysBase; omega), ha, coreWrite_eq (regWrite_root hg ..),
    mergeBits_regMask (BitVec.isLt _), hv]

/-- R459: a write of LIMIT. -/
theorem packageWrite_limit (s : State) (v : Nat) : s.packageWrite 8 v regMask = { s with pkg := { s.pkg with plim := v % 2 ^ 12 } } := by
  have hr : s.packageRead 8 = some (s.pkg.plim % 2 ^ 12) := rfl
  have hm : mergeBits (s.pkg.plim % 2 ^ 12) v regMask % 2 ^ 12 = v % 2 ^ 12 := by rw [mergeBits_regMask (by omega)]; omega
  unfold State.packageWrite
  simp only [hr, Option.getD_some, hm, if_true]

/-- R466: a write of a counter of corrected errors. -/
theorem packageWrite_soft {s : State} {d i v : Nat} (hd : d < 2) (hi : i < 8) (hv : v < 2 ^ 64) (hk : Sparse.get 0 s.softErr (16 * d + i) < 2 ^ 64) :
    s.packageWrite (0x1000 + 256 * d + 8 * i) v regMask =
      { s with softErr := Sparse.set 0 s.softErr (16 * d + i) (s.countAfter (32 + 16 * d + i) v) } := by
  have hd' : (0x1000 + 256 * d + 8 * i - 0x1000) / 0x100 = d := by omega
  have hi' : (0x1000 + 256 * d + 8 * i) % 0x100 / 8 = i := by omega
  have hr : s.packageRead (0x1000 + 256 * d + 8 * i) = some (Sparse.get 0 s.softErr (16 * d + i)) := by
    unfold State.packageRead
    rw [if_neg (by omega), if_neg (by omega), if_neg (by omega), if_neg (by omega), if_neg (by omega), if_neg (by omega), if_pos (by omega)]
    simp only [hd', hi', if_pos hi]
  unfold State.packageWrite
  rw [if_neg (by omega), if_pos (by omega)]
  simp only [hr, hd', hi', if_pos hi, Option.getD_some, mergeBits_regMask hk, Nat.mod_eq_of_lt hv]

/-- R466: a write of a counter of uncorrectable errors. -/
theorem packageWrite_hard {s : State} {d i v : Nat} (hd : d < 2) (hi : i < 8) (hv : v < 2 ^ 64) (hk : Sparse.get 0 s.hardErr (16 * d + i) < 2 ^ 64) :
    s.packageWrite (0x1000 + 256 * d + 8 * i + 0x80) v regMask =
      { s with hardErr := Sparse.set 0 s.hardErr (16 * d + i) (s.countAfter (16 * d + i) v) } := by
  have hd' : (0x1000 + 256 * d + 8 * i + 0x80 - 0x1000) / 0x100 = d := by omega
  have hi' : (0x1000 + 256 * d + 8 * i + 0x80) % 0x100 / 8 = i + 16 := by omega
  have hr : s.packageRead (0x1000 + 256 * d + 8 * i + 0x80) = some (Sparse.get 0 s.hardErr (16 * d + i)) := by
    unfold State.packageRead
    rw [if_neg (by omega), if_neg (by omega), if_neg (by omega), if_neg (by omega), if_neg (by omega), if_neg (by omega), if_pos (by omega)]
    simp only [hd', hi', if_neg (show ¬ i + 16 < 8 by omega), if_pos (show 16 ≤ i + 16 ∧ i + 16 < 24 by omega), Nat.add_sub_cancel]
  unfold State.packageWrite
  rw [if_neg (by omega), if_pos (by omega)]
  simp only [hr, hd', hi', if_neg (show ¬ i + 16 < 8 by omega), if_pos (show 16 ≤ i + 16 ∧ i + 16 < 24 by omega), Nat.add_sub_cancel,
    Option.getD_some, mergeBits_regMask hk, Nat.mod_eq_of_lt hv]

end Sys2Proof.Machine
end

section
/-! PROOFS. Waits carried out again, register events, inputs from outside, power and resets. -/

namespace Sys2Proof.Claims

open Sys2Proof.Machine

/-! ## Waits carried out again -/

/-- The fields of a word in the layout that the waits share: three registers, two order registers, a scope, and 16 bits below (R137, R138). -/
structure WordFields (w maj fn d a b ow om sc z : Nat) : Prop where
  maj : bits w 56 8 = maj
  fn : bits w 46 6 = fn
  d : bits w 40 6 = d
  a : bits w 34 6 = a
  b : bits w 28 6 = b
  ow : bits w 24 4 = ow
  om : bits w 20 4 = om
  sc : bits w 16 4 = sc
  z : bits w 0 16 = z

/-- A guard (R136) leaves the other fields of an instruction's word alone. -/
theorem wordFields_of_encode {i : Instr} {x : Guard} {w maj fn : Nat} {fs : List (Nat × Nat)} (d a b ow om sc z : Nat)
    (hx : x.pred < 8) (hw : encode x i = some w) (hi : i.word = some (pack maj fn fs))
    (hfs : packFields fs = d * 2 ^ 40 + a * 2 ^ 34 + b * 2 ^ 28 + ow * 2 ^ 24 + om * 2 ^ 20 + sc * 2 ^ 16 + z)
    (hd : Kind.s.ok d = true) (ha : Kind.s.ok a = true) (hb : Kind.s.ok b = true) (how : fits 4 ow = true) (hom : fits 4 om = true)
    (hsc : fits 4 sc = true) (hz : fits 16 z = true) (hmaj : maj < 2 ^ 8 := by decide) (hfn : fn < 2 ^ 6 := by decide) :
    WordFields w maj fn d a b ow om sc z := by
  simp only [Kind.ok, fits, decide_eq_true_eq] at hd ha hb how hom hsc hz
  have hv : maj * 2 ^ 56 + fn * 2 ^ 46 + packFields fs + (if x.neg then 2 ^ 55 else 0) + x.pred * 2 ^ 52 = w := by
    simpa [encode, hi, pack] using hw
  rw [hfs] at hv
  constructor <;> unfold bits <;> split at hv <;> omega

/-- The port of a wait on tokens lies in the uppermost four of the 16 bits (R242). -/
theorem WordFields.port {w maj fn d a b ow om sc port : Nat} (h : WordFields w maj fn d a b ow om sc (port * 2 ^ 12)) :
    bits w 12 4 = port := by
  have hz := h.z
  unfold bits at *
  omega

/-- The immediate of a wait for a time lies across the lowest 22 bits (R185). -/
theorem WordFields.imm {w maj fn d a b imm : Nat} (h : WordFields w maj fn d a b 0 (imm / 2 ^ 20) (imm / 2 ^ 16 % 2 ^ 4) (imm % 2 ^ 16))
    (hi : imm < 2 ^ 22) : bits w 0 22 = imm := by
  obtain ⟨-, -, -, -, -, -, hom, hsc, hz⟩ := h
  unfold bits at *
  omega

/-- The lowest bit, by which `drain.flush` differs from `drain` (R365). -/
theorem WordFields.odd {w maj fn d a b ow om sc z : Nat} (h : WordFields w maj fn d a b ow om sc z) : w % 2 = z % 2 := by
  have hz := h.z
  unfold bits at hz
  omega

theorem fits_port {port : Nat} (h : fits 4 port = true) : fits 16 (port * 2 ^ 12) = true := by
  simp only [fits, decide_eq_true_eq] at *
  omega

/-- The bounded waits, by the register that holds their limit. -/
theorem limitReg_cases {i : Instr} {r : Nat} (h : limitReg i = some r) :
    (∃ a port, i = .wwait a r port) ∨ (∃ port, i = .wwaito r port) ∨ (∃ a b ow om sc, i = .cwait r a b ow om sc) ∨
    (∃ d a ow om, i = .pull d a r ow om) ∨ (∃ d a ow om, i = .drain d a r ow om) ∨ (∃ d a ow om, i = .drainFlush d a r ow om) ∨
    (∃ a b ow om sc, i = .edwait r a b ow om sc) := by
  unfold limitReg at h
  split at h
  case h_8 => cases h
  all_goals cases h; simp

/-- The word of a bounded wait gives the register of its limit and its meaning. -/
theorem boundedWaitOf_encode {i : Instr} {x : Guard} {r w : Nat} (hi : i.wf = true) (hx : x.pred < 8) (hw : encode x i = some w)
    (hr : limitReg i = some r) : boundedWaitOf w = some (r, exec i) := by
  obtain ⟨a, port, rfl⟩ | ⟨port, rfl⟩ | ⟨a, b, ow, om, sc, rfl⟩ | ⟨d, a, ow, om, rfl⟩ | ⟨d, a, ow, om, rfl⟩ | ⟨d, a, ow, om, rfl⟩ |
    ⟨a, b, ow, om, sc, rfl⟩ := limitReg_cases hr <;> simp only [Instr.wf, Bool.and_eq_true] at hi
  · obtain ⟨⟨⟨ha, hb⟩, hp⟩, -⟩ := hi
    have f := wordFields_of_encode 0 a r 0 0 0 (port * 2 ^ 12) hx hw rfl (by simp [packFields, Nat.add_assoc]) rfl ha hb rfl rfl rfl (fits_port hp)
    simp only [boundedWaitOf, f.maj, f.fn, f.a, f.b, f.port]
    rfl
  · obtain ⟨⟨hb, hp⟩, -⟩ := hi
    have f := wordFields_of_encode 0 0 r 0 0 0 (port * 2 ^ 12) hx hw rfl (by simp [packFields]) rfl rfl hb rfl rfl rfl (fits_port hp)
    simp only [boundedWaitOf, f.maj, f.fn, f.b, f.port]
    rfl
  · obtain ⟨⟨⟨⟨⟨⟨hd, ha⟩, hb⟩, how⟩, hom⟩, hsc⟩, -⟩ := hi
    have f := wordFields_of_encode r a b ow om sc 0 hx hw rfl (by simp [packFields, Nat.add_assoc]) hd ha hb how hom hsc rfl
    simp only [boundedWaitOf, f.maj, f.fn, f.d, f.a, f.b, f.ow, f.om, f.sc]
    rfl
  · obtain ⟨⟨⟨⟨hd, ha⟩, hb⟩, how⟩, hom⟩ := hi
    have f := wordFields_of_encode d a r ow om 0 0 hx hw rfl (by simp [packFields, Nat.add_assoc]) hd ha hb how hom rfl rfl
    simp only [boundedWaitOf, f.maj, f.fn, f.d, f.a, f.b, f.ow, f.om]
    rfl
  · obtain ⟨⟨⟨⟨hd, ha⟩, hb⟩, how⟩, hom⟩ := hi
    have f := wordFields_of_encode d a r ow om 0 0 hx hw rfl (by simp [packFields, Nat.add_assoc]) hd ha hb how hom rfl rfl
    simp only [boundedWaitOf, f.maj, f.fn, f.d, f.a, f.b, f.ow, f.om, f.odd]
    rfl
  · obtain ⟨⟨⟨⟨hd, ha⟩, hb⟩, how⟩, hom⟩ := hi
    have f := wordFields_of_encode d a r ow om 0 1 hx hw rfl (by simp [packFields, Nat.add_assoc]) hd ha hb how hom rfl rfl
    simp only [boundedWaitOf, f.maj, f.fn, f.d, f.a, f.b, f.ow, f.om, f.odd]
    rfl
  · obtain ⟨⟨⟨⟨⟨⟨hd, ha⟩, hb⟩, how⟩, hom⟩, hsc⟩, -⟩ := hi
    have f := wordFields_of_encode r a b ow om sc 0 hx hw rfl (by simp [packFields, Nat.add_assoc]) hd ha hb how hom hsc rfl
    simp only [boundedWaitOf, f.maj, f.fn, f.d, f.a, f.b, f.ow, f.om, f.sc]
    rfl

/-- A bounded wait neither faults nor is refused. -/
theorem boundedWait_next {i : Instr} {r : Nat} (hr : limitReg i = some r) (s : State) : ∃ t, exec i s = .next t := by
  obtain ⟨a, port, rfl⟩ | ⟨port, rfl⟩ | ⟨a, b, ow, om, sc, rfl⟩ | ⟨d, a, ow, om, rfl⟩ | ⟨d, a, ow, om, rfl⟩ | ⟨d, a, ow, om, rfl⟩ |
    ⟨a, b, ow, om, sc, rfl⟩ := limitReg_cases hr <;> exact runM_next _ s

/-- The word of a wait for CYCLE or GTIME gives its meaning. -/
theorem targetWaitOf_encode {i : Instr} {x : Guard} {a off w : Nat} (hi : i.wf = true) (hx : x.pred < 8) (hw : encode x i = some w)
    (hc : i = .sleepc a off ∨ i = .waittick a off) : targetWaitOf w = some (exec i) := by
  have hsc : fits 4 (off / 2 ^ 16 % 2 ^ 4) = true := by simp only [fits, decide_eq_true_eq]; omega
  have hz : fits 16 (off % 2 ^ 16) = true := by simp only [fits, decide_eq_true_eq]; omega
  have hfs : packFields [(a, 34), (off, 0)] = 0 * 2 ^ 40 + a * 2 ^ 34 + 0 * 2 ^ 28 + 0 * 2 ^ 24 + off / 2 ^ 20 * 2 ^ 20 +
      off / 2 ^ 16 % 2 ^ 4 * 2 ^ 16 + off % 2 ^ 16 := by simp only [packFields]; omega
  obtain rfl | rfl := hc <;> simp only [Instr.wf, Bool.and_eq_true] at hi <;> obtain ⟨ha, ho⟩ := hi <;>
    simp only [fits, decide_eq_true_eq] at ho
  · have f := wordFields_of_encode 0 a 0 0 _ _ _ hx hw rfl hfs rfl ha rfl rfl (by simp only [fits, decide_eq_true_eq]; omega) hsc hz
    simp only [targetWaitOf, f.maj, f.fn, f.a, f.imm ho]
    rfl
  · have f := wordFields_of_encode 0 a 0 0 _ _ _ hx hw rfl hfs rfl ha rfl rfl (by simp only [fits, decide_eq_true_eq]; omega) hsc hz
    simp only [targetWaitOf, f.maj, f.fn, f.a, f.imm ho]
    rfl

/-- A core that may act runs when its turn comes. -/
theorem coreRuns_of_mayAct {s : State} {g : Nat} (h : mayAct s g) : ({ s with cur := g } : State).coreRuns = true := by
  obtain ⟨hg, f, hf, ht, hst, hh⟩ | ⟨hg, hr, hh⟩ := h
  · have hm : ({ s with cur := g } : State).myTile = s.tile g := rfl
    have hregion : ({ s with cur := g } : State).regionOf g = s.regionOf g := rfl
    have hr (k : Nat) : ({ s with cur := g } : State).region k = s.region k := rfl
    simp [State.coreRuns, State.isFiring, State.firingRuns, hg, hm, hregion, hr, hf, ht, hst, hh]
  · have hc : ({ s with cur := g } : State).core = s.coreAt g := rfl
    simp [State.coreRuns, State.isFiring, show ¬ g < 2048 by omega, hc, hr, hh]

/-- R149: what `rpt` does to its core. -/
theorem exec_rpt (s : State) (n1 sd sa sb sc : Nat) :
    exec (.rpt n1 sd sa sb sc) s = .next (if s.core.rptActive then s else s.mapCore (fun c => { c with rptst := 64 })) := rfl

theorem rptActive_iff (c : Core) : c.rptActive = true ↔ c.rptst.toNat / 64 % 2 = 1 := by
  simp [Core.rptActive, fieldOf, bits]

/-- R242: a bounded wait that its core keeps is carried out again past its limit, and not before. -/
theorem exec_waitLimit {s : State} {g c n r : Nat} {f : State → Out} (hw : (s.coreAt g).waitFrom = some (c, n))
    (hf : boundedWaitOf (s.coreAt g).ir = some (r, f)) :
    exec (.waitLimit g) s = asCoreOut g (fun u => if u.coreRuns && decide (((s.coreAt g).sreg r).toNat ≤ s.cycle - c) then f u else .next u) s := by
  have hc : ({ s with cur := g } : State).core = s.coreAt g := rfl
  rw [show exec (.waitLimit g) s = execWaitLimit g s from rfl, execWaitLimit]
  simp only [asCoreOut, State.sreg, hc, hw, hf]

/-- R185: a wait for a time that its core keeps is carried out again. -/
theorem exec_waitTargetReached {s : State} {g c n : Nat} {f : State → Out} (hw : (s.coreAt g).waitFrom = some (c, n))
    (hf : targetWaitOf (s.coreAt g).ir = some f) :
    exec (.waitTargetReached g) s = asCoreOut g (fun u => if u.coreRuns then f u else .next u) s := by
  have hc : ({ s with cur := g } : State).core = s.coreAt g := rfl
  rw [show exec (.waitTargetReached g) s = execWaitTargetReached g s from rfl, execWaitTargetReached]
  simp only [asCoreOut, hc, hw, hf]

/-- A core that waits for nothing is not carried on. -/
theorem exec_waits_none {s : State} {g : Nat} (hw : (s.coreAt g).waitFrom = none) :
    exec (.waitLimit g) s = .next s ∧ exec (.waitTargetReached g) s = .next s := by
  have hc : ({ s with cur := g } : State).core = s.coreAt g := rfl
  constructor
  · rw [show exec (.waitLimit g) s = execWaitLimit g s from rfl, execWaitLimit]
    simp only [asCoreOut, hc, hw]
  · rw [show exec (.waitTargetReached g) s = execWaitTargetReached g s from rfl, execWaitTargetReached]
    simp only [asCoreOut, hc, hw]

/-- A meaning carried out by another core gives the turn back. -/
theorem asCoreOut_next {s t : State} {g : Nat} {f : State → Out} (h : f { s with cur := g } = .next t) :
    asCoreOut g f s = .next { t with cur := s.cur } := by
  simp only [asCoreOut, h]

/-- R149, R185, R242: the part of O54 on waits. -/
theorem waitEvents : WaitEvents := by
  refine ⟨fun s n1 sd sa sb sc hs => ⟨fun h => ?_, fun h => ?_⟩, fun s g w i x hs hi hx hw hir => ⟨?_, ?_, exec_waits_none⟩⟩
  · have hr := State.wf_cores hs
    have ha : ¬ s.core.rptActive = true := by rw [rptActive_iff]; omega
    rw [exec_rpt, if_neg ha]
    exact ⟨_, rfl, ⟨rfl, fun n hn => State.coreAt_mapCore hr _ hn⟩, State.core_mapCore hr _⟩
  · rw [exec_rpt, if_pos ((rptActive_iff _).2 h)]
  · intro r c n hr hwait
    have hf : boundedWaitOf (s.coreAt g).ir = some (r, exec i) := hir ▸ boundedWaitOf_encode hi hx hw hr
    rw [exec_waitLimit hwait hf]
    refine ⟨fun hlim hact => ?_, fun hlim => ?_⟩
    · obtain ⟨t, ht⟩ := boundedWait_next hr { s with cur := g }
      exact ⟨t, ht, asCoreOut_next (by simp [coreRuns_of_mayAct hact, hlim, ht])⟩
    · exact asCoreOut_next (t := { s with cur := g }) (by simp [Nat.not_le.2 hlim])
  · intro a off c n hc hwait hact
    have hf : targetWaitOf (s.coreAt g).ir = some (exec i) := hir ▸ targetWaitOf_encode hi hx hw hc
    rw [exec_waitTargetReached hwait hf]
    have hnext : ∃ t, exec i { s with cur := g } = .next t := by obtain rfl | rfl := hc <;> exact ⟨_, rfl⟩
    obtain ⟨t, ht⟩ := hnext
    exact ⟨t, ht, asCoreOut_next (by simp [coreRuns_of_mayAct hact, ht])⟩

theorem exact_natCast (n : Nat) : exact n = word n := BitVec.ofInt_natCast 64 n

theorem bytes_succ_last (m : Sparse Byte) (n : Nat) : ∀ k, Sparse.bytes m k (n + 1) = Sparse.bytes m k n + (Sparse.get 0 m (k + n)).toNat * 256 ^ n := by
  induction n with
  | zero => intro k; simp [Sparse.bytes]
  | succ n ih =>
    intro k
    rw [Sparse.bytes, ih (k + 1), Sparse.bytes, show k + 1 + n = k + (n + 1) by omega, pow_succ]
    ring

/-- R6: the bytes of memory as the statements and as the model number them. -/
theorem little_eq_rd (s : State) (k n : Nat) : little s k n = s.rd k n := by
  induction n with
  | zero => rfl
  | succ n ih => rw [little, ih]; exact (bytes_succ_last s.mem n k).symm

/-! ## Control cores that start -/

/-- R462: a control core that is started alone has started. -/
theorem coreStarted_startCore {s : State} (hm : Memory.wf s.mem = true) (hc : Sparse.rising s.cores = true) {n : Nat} (hn : n < 8) (x : Word)
    (why : Nat) : coreStarted s (s.startCore_ n x why) n x why := by
  have hcore : (s.startCore_ n x why).coreAt (2048 + n) = s.startedCore n x why := by
    rw [State.coreAt, startCore_cores]; exact Sparse.get_set_self hc
  have hf : s.startedCore n x why = { s.startedCore n x why with
      pc := word (0x7FFF800100 + (s.zero (privBase n) (2 ^ 19)).slotEntry s.fw.active), running := true, halted := false, cstat := 3,
      dbell := (s.coreAt (2048 + n)).dbell, storeErr := (s.coreAt (2048 + n)).storeErr } := by
    rw [State.startedCore, Core.setS_eq, Core.setS_eq]
  have he : (s.zero (privBase n) (2 ^ 19)).slotEntry s.fw.active = little s (2 ^ 46 + s.fw.active * 2 ^ 23 + 16) 8 := by
    rw [slotEntry_zero hm hn, little_eq_rd]; rfl
  unfold coreStarted
  rw [hcore]
  refine ⟨?_, by rw [hf], by rw [hf], ?_, ?_, by rw [hf], by rw [hf], ?_⟩
  · rw [hf, he, exact_natCast]
  · rw [hf]; exact (by decide : fieldOf (3 : Word) 0 1 = 1)
  · rw [hf]; exact (by decide : fieldOf (3 : Word) 2 1 = 0)
  · intro k; rw [sreg_startedCore, exact_natCast]

/-- The start of a core leaves every other core alone. -/
theorem coreAt_startCore_ne {s : State} (hc : Sparse.rising s.cores = true) {n k : Nat} (hk : k ≠ 2048 + n) (x : Word) (why : Nat) :
    (s.startCore_ n x why).coreAt k = s.coreAt k := by
  rw [State.coreAt, startCore_cores]; exact Sparse.get_set_ne hc (Ne.symm hk)

theorem byteAt_startCore {s : State} (hm : Memory.wf s.mem = true) (n : Nat) (x : Word) (why a : Nat) :
    byteAt (s.startCore_ n x why) a = if 2 ^ 42 + n * 2 ^ 19 ≤ a ∧ a < 2 ^ 42 + (n + 1) * 2 ^ 19 then 0 else byteAt s a := by
  rw [byteAt, startCore_mem, State.get_zero hm]
  exact if_congr (by unfold privBase; omega) rfl rfl

/-- A core that another core's start has passed over has started as from before it. -/
theorem coreStarted_of_startCore {s t : State} (hm : Memory.wf s.mem = true) (hc : Sparse.rising s.cores = true) {m n : Nat} (hm8 : m < 8)
    (hne : n ≠ m) {x y : Word} {why why' : Nat} (h : coreStarted (s.startCore_ m y why') t n x why) : coreStarted s t n x why := by
  have hb (a : Nat) (ha : 2 ^ 46 ≤ a) : byteAt (s.startCore_ m y why') a = byteAt s a := by
    rw [byteAt_startCore hm, if_neg (by omega)]
  have hl (k : Nat) (hk : 2 ^ 46 ≤ k) (j : Nat) : little (s.startCore_ m y why') k j = little s k j := by
    induction j with
    | zero => rfl
    | succ j ih => rw [little, little, ih, hb _ (by omega)]
  unfold coreStarted at h ⊢
  rwa [startCore_fw, coreAt_startCore_ne hc (by omega), hl _ (by omega)] at h

/-- R462: the cores of a list, started one after the other. -/
theorem coreStarted_foldl (x : Word) (why : Nat) (l : List Nat) : ∀ {s : State}, Memory.wf s.mem = true → Sparse.rising s.cores = true →
    l.Nodup → (∀ n ∈ l, n < 8) →
    let t := l.foldl (fun s n => s.startCore_ n x why) s
    (∀ n ∈ l, coreStarted s t n x why) ∧ (∀ k, (∀ n ∈ l, k ≠ 2048 + n) → t.coreAt k = s.coreAt k) ∧ t.fw = s.fw ∧ t.pkg = s.pkg := by
  induction l with
  | nil => intro s _ _ _ _; simp
  | cons m l ih =>
    intro s hm hc hnd h8
    obtain ⟨hml, hnd⟩ := List.nodup_cons.1 hnd
    have hm8 : m < 8 := h8 m (List.mem_cons_self ..)
    have hm' : Memory.wf (s.startCore_ m x why).mem = true := by rw [startCore_mem]; exact State.zero_wf hm
    have hc' : Sparse.rising (s.startCore_ m x why).cores = true := by rw [startCore_cores]; exact Sparse.set_rising hc
    obtain ⟨h1, h2, h3, h4⟩ := ih hm' hc' hnd (fun n hn => h8 n (List.mem_cons_of_mem _ hn))
    refine ⟨fun n hn => ?_, fun k hk => ?_, h3.trans (startCore_fw ..), h4.trans (startCore_pkg ..)⟩
    · by_cases hnm : n = m
      · subst hnm
        have hlast := h2 (2048 + n) (fun k hk => by have : k ≠ n := fun e => hml (e ▸ hk); omega)
        have := coreStarted_startCore hm hc hm8 x why
        unfold coreStarted at this ⊢
        rwa [List.foldl_cons, hlast]
      · exact coreStarted_of_startCore hm hc hm8 hnm (h1 n ((List.mem_cons.1 hn).resolve_left hnm))
    · rw [List.foldl_cons, h2 k (fun n hn => hk n (List.mem_cons_of_mem _ hn)), coreAt_startCore_ne hc (hk m (List.mem_cons_self ..))]

/-! ## Register writes and reports -/

/-- A change of queue q alone. -/
theorem queueOnly_setQueue {s : State} (h : Sparse.rising s.queues = true) (q : Nat) (x : Queue) : QueueOnly s (s.setQueue q x) q x :=
  ⟨Sparse.get_set_self h, fun _ hk => Sparse.get_set_ne h (Ne.symm hk), rfl⟩

/-- R4, R415: register writes of agent 8 are the host's. -/
theorem exec_registerWrite_host (o v : Nat) (s : State) : exec (.registerWrite 8 o v) s = .next (s.hostWrite o v) := by
  rw [show exec (.registerWrite 8 o v) s = execRegisterWrite 8 o v s from rfl, execRegisterWrite, if_pos rfl]

/-- R421: a kick register takes a kick; between two of them nothing is written. -/
theorem hostWrite_kick {o : Nat} (h1 : 0x1000 ≤ o) (h2 : o < 0x1800) (v : Nat) (s : State) :
    s.hostWrite o v = if o % 8 ≠ 0 then s else s.setQueue ((o - 0x1000) / 8) ((s.queue ((o - 0x1000) / 8)).kick (v % 2 ^ 32)) := by
  rw [State.hostWrite, if_pos ⟨h1, h2⟩]

/-- R420: a write of a queue's CTL sees the 64 bits that the register holds. -/
theorem setCtl_mod (x : Queue) (v : Nat) : x.setCtl (v % 2 ^ 64) = x.setCtl v := by
  have hb (lo w : Nat) (h : lo + w ≤ 64) : bits (v % 2 ^ 64) lo w = bits v lo w := by
    unfold bits
    have e : 2 ^ 64 = 2 ^ lo * 2 ^ (64 - lo) := by rw [← pow_add]; congr 1; omega
    rw [e, Nat.mod_mul_right_div_self, Nat.mod_mod_of_dvd _ (Nat.pow_dvd_pow 2 (by omega))]
  have ht (i : Nat) (h : i < 64) : (v % 2 ^ 64).testBit i = v.testBit i := by rw [Nat.testBit_mod_two_pow]; simp [h]
  simp only [Queue.setCtl, hb 3 5 (by decide), hb 13 4 (by decide), hb 8 3 (by decide), hb 11 2 (by decide), ht 0 (by decide), ht 1 (by decide)]

theorem mergeFrom_zero (old v : Nat) : mergeFrom old 0 v = v % 2 ^ 64 := by
  simp [mergeFrom, Nat.mod_one]

/-- R420: a write of a queue's CTL. -/
theorem hostWrite_ctl {q : Nat} (hq : q < 256) (v : Nat) (s : State) :
    s.hostWrite (0x4008 + 64 * q) v = s.setQueue q ((s.queue q).setCtl v) := by
  rw [State.hostWrite, if_neg (by omega), if_pos (by omega)]
  simp only [show (0x4008 + 64 * q - 0x4000) / 64 = q by omega, show (0x4008 + 64 * q) % 64 / 8 = 1 by omega,
    show (0x4008 + 64 * q) % 8 = 0 by omega, mergeFrom_zero, setCtl_mod]

/-- R420: a write of a queue's BASE from its byte k on, while the queue is not enabled. -/
theorem hostWrite_base {q k : Nat} (hq : q < 256) (hk : k < 8) (v : Nat) {s : State} (hen : (s.queue q).en = false) :
    s.hostWrite (0x4000 + 64 * q + k) v = s.setQueue q { s.queue q with base := word (mergeFrom (s.queue q).base.toNat k v) } := by
  rw [State.hostWrite, if_neg (by omega), if_pos (by omega)]
  simp only [show (0x4000 + 64 * q + k - 0x4000) / 64 = q by omega, show (0x4000 + 64 * q + k) % 64 / 8 = 0 by omega,
    show (0x4000 + 64 * q + k) % 8 = k by omega, hen, Bool.false_eq_true, if_false]

/-- R419: the reset of another core. -/
theorem exec_ccresetReset (s : State) {n x : Nat} (hn : n < 8) (hx : x < 8) :
    (n = x ∨ (s.coreAt (2048 + n)).lvl = 0 → exec (.ccresetReset n x) s = .next s) ∧
    (n ≠ x → (s.coreAt (2048 + n)).lvl = 1 → exec (.ccresetReset n x) s = .next (s.startCore_ x 0 3)) := by
  have he : exec (.ccresetReset n x) s = .next (if n < 8 ∧ x < 8 then s.ccreset n x else s) := rfl
  rw [he, if_pos ⟨hn, hx⟩, State.ccreset]
  exact ⟨fun h => by rw [if_pos h], fun h hl => by rw [if_neg (by rw [hl]; simpa using h)]⟩

/-- R4, R193, R415 to R419, R466: the part of O54 on register writes and reports. -/
theorem registerEvents : RegisterEvents := by
  intro s hs
  have hm := State.wf_mem hs
  have hc := State.wf_cores hs
  refine ⟨fun n x hn hx => ⟨(exec_ccresetReset s hn hx).1, fun h hl => ⟨_, (exec_ccresetReset s hn hx).2 h hl,
      coreStarted_startCore hm hc hx 0 3, fun k hk => coreAt_startCore_ne hc hk 0 3, byteAt_startCore hm x 0 3,
      startCore_proofSt (State.wf_regions hs) x 0 3⟩⟩,
    fun x v hx => ?dbell, rfl, fun v => ?cxl, fun n a c hn => ?storeError, fun n v hn hl => ?limit, fun n v hn hl => ?limitS,
    fun n g v hn hg => ?root, fun q v hq => ?kick, fun o v h1 h2 h8 => ?between, fun q v hq => ?ctl, fun q k v hq hk hen => ?base,
    fun n d i v hn hd hi hv hl => ⟨fun h => ?soft, fun h => ?hard⟩⟩
  case dbell =>
    have he : exec (.dbellWrite x v) s = .next (if x < 8 then s.dbellWrite x (v % 4 * 2 ^ 8) (3 * 2 ^ 8) else s) := rfl
    rw [if_pos hx, State.dbellWrite] at he
    refine ⟨_, he, ?_, fun k hk => State.coreAt_setCoreAt_ne hc _ hk, rfl⟩
    rw [State.coreAt_setCoreAt hc, bits_mergeBits_two]
  case cxl => rw [exact_natCast]; rfl
  case storeError =>
    have he : exec (.storeErrorReport n a c) s = execStoreErrorReport n a c s := rfl
    rw [execStoreErrorReport, if_pos hn] at he
    exact ⟨_, he, State.coreAt_setCoreAt hc _ _, fun k hk => State.coreAt_setCoreAt_ne hc _ hk, rfl⟩
  case limit => rw [exec_registerWrite_package (o := 8) hn (by decide) (by decide), if_pos hl, packageWrite_limit]
  case limitS => rw [exec_registerWrite_package (o := 8) hn (by decide) (by decide), if_neg (by omega)]
  case root =>
    have hr := State.wf_roots hs
    rw [exec_registerWrite_root hn hg, exact_natCast]
    exact ⟨_, rfl, rfl, Sparse.get_set_self hr, fun k hk => Sparse.get_set_ne hr (Ne.symm hk)⟩
  case kick =>
    rw [exec_registerWrite_host, hostWrite_kick (by omega) (by omega), if_neg (by omega), show (0x1000 + 8 * q - 0x1000) / 8 = q by omega]
    rfl
  case between => rw [exec_registerWrite_host, hostWrite_kick h1 h2, if_pos h8]
  case ctl => rw [exec_registerWrite_host, hostWrite_ctl hq]; rfl
  case base =>
    rw [exec_registerWrite_host, hostWrite_base hq hk v hen]
    refine ⟨_, rfl, ?_⟩
    rw [exact_natCast]
    exact queueOnly_setQueue (State.wf_queues hs) _ _
  case soft =>
    rw [show 0xF40014801000 + 256 * d + 8 * i = 0xF40014800000 + (0x1000 + 256 * d + 8 * i) by omega,
      exec_registerWrite_package hn (by omega) (by omega), if_pos hl, packageWrite_soft (s := { s with cur := 2048 + n }) hd hi hv h]
    refine ⟨_, rfl, rfl, fun j => ?_⟩
    rw [State.countAfter, Nat.add_assoc 32]
    exact (Sparse.get_set (State.wf_softErr hs)).trans (if_congr eq_comm rfl rfl)
  case hard =>
    rw [show 0xF40014801000 + 256 * d + 8 * i + 0x80 = 0xF40014800000 + (0x1000 + 256 * d + 8 * i + 0x80) by omega,
      exec_registerWrite_package hn (by omega) (by omega), if_pos hl, packageWrite_hard (s := { s with cur := 2048 + n }) hd hi hv h]
    refine ⟨_, rfl, rfl, fun j => ?_⟩
    rw [State.countAfter]
    exact (Sparse.get_set (State.wf_hardErr hs)).trans (if_congr eq_comm rfl rfl)

/-! ## Inputs from outside -/

/-- R415: an offset within a register reads the register that the first of its bytes names. -/
theorem hostWord_aligned (s : State) (off : Nat) : s.hostWord (off / 8 * 8) = s.hostWord off := by
  unfold State.hostWord
  simp only [show off / 8 * 8 < 8 ↔ off < 8 by omega, show off / 8 * 8 < 0x10 ↔ off < 0x10 by omega,
    show off / 8 * 8 < 0x18 ↔ off < 0x18 by omega,
    show (0x4000 ≤ off / 8 * 8 ∧ off / 8 * 8 < 0x8000) ↔ (0x4000 ≤ off ∧ off < 0x8000) by omega,
    show off / 8 * 8 % 64 / 8 = off % 64 / 8 by omega]
  by_cases h : 0x4000 ≤ off
  · rw [show (off / 8 * 8 - 0x4000) / 64 = (off - 0x4000) / 64 by omega]
  · simp [h]

/-- R415: at the first byte of a register the host reads all of it. -/
theorem hostRead_aligned (s : State) {off : Nat} (h : off % 8 = 0) : s.hostRead off = word (s.hostWord off) := by
  unfold State.hostRead
  rw [h]
  exact BitVec.eq_of_toNat_eq (by simp)

/-- R415: from within a register the host reads what lies from there on (assumption 104). -/
theorem hostRead_within (s : State) (off : Nat) : s.hostRead off = s.hostRead (off / 8 * 8) >>> (8 * (off % 8)) := by
  rw [hostRead_aligned s (Nat.mul_mod_left ..), hostWord_aligned]
  refine BitVec.eq_of_toNat_eq ?_
  rw [State.hostRead, BitVec.toNat_ofNat, BitVec.toNat_ushiftRight, BitVec.toNat_ofNat, Nat.shiftRight_eq_div_pow]
  exact Nat.mod_eq_of_lt (Nat.lt_of_le_of_lt (Nat.div_le_self ..) (Nat.mod_lt _ (by decide)))

theorem hostWord_outside (s : State) {off : Nat} (h : 0x18 ≤ off) (h' : off < 0x4000 ∨ 0x8000 ≤ off) : s.hostWord off = 0 := by
  rw [State.hostWord, if_neg (by omega), if_neg (by omega), if_neg (by omega), if_neg (by omega)]

theorem hostWord_base (s : State) {q : Nat} (hq : q < 256) : s.hostWord (0x4000 + 64 * q) = (s.queue q).base.toNat := by
  rw [State.hostWord, if_neg (by omega), if_neg (by omega), if_neg (by omega), if_pos (by omega),
    show (0x4000 + 64 * q - 0x4000) / 64 = q by omega, show (0x4000 + 64 * q) % 64 / 8 = 0 by omega]
  rfl

/-- R415: what the host reads of BAR0. -/
theorem input_hostRead (s : State) (off : Nat) : s.input (.hostRead off) = { s with hostData := s.hostRead off } := rfl

/-- R466: the saturating count of one more error at a key. -/
theorem get_counted {m : Sparse Nat} (h : Sparse.rising m = true) (k j : Nat) :
    Sparse.get 0 (Sparse.set 0 m k (min (Sparse.get 0 m k + 1) (2 ^ 64 - 1))) j =
      if j = k then min (Sparse.get 0 m j + 1) (2 ^ 64 - 1) else Sparse.get 0 m j := by
  rw [Sparse.get_set h]
  by_cases hj : j = k
  · rw [hj, if_pos rfl]
  · rw [if_neg (Ne.symm hj), if_neg hj]

theorem setIfInBounds_eq_set {α : Type} {n i : Nat} (v : Vector α n) (h : i < n) (x : α) : v.setIfInBounds i x = v.set i x := by
  ext j hj; simp [Vector.getElem_set, Vector.getElem_setIfInBounds]

/-- R226, R373, R415, R466, R468: the part of O54 on what comes from outside. -/
theorem inputs : Inputs := by
  intro s hs
  refine ⟨fun die cls unit off hd hcls hu ho => ?soft, fun die hd => ?buffer, fun key hk => ?hard, fun n code hn h1 h2 h3 => ?register,
    fun off => ⟨s.hostRead off, rfl, fun h => ?profile, fun h => ?revision, fun h => ?fwstat, fun q hq h => ?base, fun x hx => ?within, fun h1 h2 => ?zero⟩,
    fun n c hc => ⟨fun h => ?empty, fun h => ?free⟩⟩
  case soft =>
    have he : s.input (.softError die cls unit off) = s.softError die cls unit off := rfl
    have hl : s.lastSoft.setIfInBounds die (word (cls + unit * 2 ^ 4 + off * 2 ^ 16)) =
        s.lastSoft.set die (exact (cls + unit * 2 ^ 4 + off * 2 ^ 16)) := by
      rw [← setIfInBounds_eq_set, ← exact_natCast]; push_cast; rfl
    rw [State.softError, if_neg (by omega), Nat.mod_eq_of_lt hu, Nat.mod_eq_of_lt ho, hl] at he
    rw [he]
    exact ⟨rfl, get_counted (State.wf_softErr hs) _⟩
  case buffer =>
    have he : s.input (.bufferError die) = if die < 2 then s.countHard die 7 else s := rfl
    rw [he, if_pos hd]
    exact ⟨rfl, get_counted (State.wf_hardErr hs) _⟩
  case hard =>
    have he : s.input (.hardError key) = if 2 ^ 46 ≤ key then s else { s with bad := insertNat (checkWord key) s.bad } := rfl
    rw [he, if_neg (by omega)]
    exact ⟨rfl, fun w => mem_insertNat _ w s.bad⟩
  case register =>
    have he : s.input (.registerError n code) = s.registerError n code := rfl
    rw [he, State.registerError, if_pos ⟨hn, h1, h2, h3⟩]
    refine ⟨fun x => ?_, fun k hk => State.coreAt_setCoreAt_ne (State.wf_cores hs) _ hk, rfl⟩
    rw [State.coreAt_setCoreAt (State.wf_cores hs)]
    exact mem_insertNat code x _
  case profile => subst h; exact hostRead_aligned s rfl
  case revision => subst h; rw [exact_natCast]; exact hostRead_aligned s rfl
  case fwstat => subst h; rw [exact_natCast]; exact hostRead_aligned s rfl
  case base =>
    rw [h, hostRead_aligned s (by omega), hostWord_base s hq]
    exact BitVec.ofNat_toNat _ _
  case within =>
    rw [input_hostRead] at hx
    rw [hostRead_within, ← show s.hostRead (off / 8 * 8) = x from congrArg State.hostData hx]
  case zero =>
    rw [State.hostRead, hostWord_outside s h1 h2]
    simp
  case empty =>
    have he : s.input (.bufferFree n c) = s.bufferFree n c := rfl
    rw [he, State.bufferFree]
    exact if_pos h
  case free =>
    have he : s.input (.bufferFree n c) = s.bufferFree n c := rfl
    have hl := State.wf_hubLinks hs
    refine ⟨_, rfl, ?_⟩
    rw [he, State.bufferFree, if_neg (Nat.pos_iff_ne_zero.1 h)]
    exact ⟨Sparse.get_set_self hl, fun k hk => Sparse.get_set_ne hl (Ne.symm hk), rfl⟩

/-! ## Power, temperature and resets -/

/-- R460: the target step, by what asks for it: too much power or heat, or power to spare. -/
theorem target_eq (p : Package) (pwr temp : Nat) : p.target pwr temp = max 8 (min 16
    (if p.limit < pwr ∨ 100 ≤ temp then (if 110 ≤ temp then min (p.fstep - 1) 8 else p.fstep - 1)
     else if 100 * pwr < 95 * p.limit then p.fstep + 1 else p.fstep)) := by
  unfold Package.target
  by_cases hd : 110 ≤ temp
  · have hh : 100 ≤ temp := by omega
    by_cases hb : p.limit < pwr <;> by_cases hu : 100 * pwr < 95 * p.limit <;> simp [hd, hh, hb, hu, List.min?_cons]
  · by_cases hb : p.limit < pwr
    · have hu : ¬ 100 * pwr < 95 * p.limit := by omega
      by_cases hh : 100 ≤ temp <;> simp [hd, hb, hh, hu, List.min?_cons]
    · by_cases hh : 100 ≤ temp
      · by_cases hu : 100 * pwr < 95 * p.limit <;> simp [hd, hb, hh, hu, List.min?_cons]
        omega
      · by_cases hu : 100 * pwr < 95 * p.limit <;> simp [hd, hb, hh, hu, List.min?_cons]

/-- R460: a throttle tick moves FSTEP by one toward the target. -/
theorem fstep_tick {p : Package} (h8 : 8 ≤ p.fstep) (h16 : p.fstep ≤ 16) (pwr temp : Nat) :
    (p.tick pwr temp).fstep = if p.limit < pwr ∨ 100 ≤ temp then max 8 (p.fstep - 1)
      else if 100 * pwr < 95 * p.limit then min 16 (p.fstep + 1) else p.fstep := by
  change (if p.target pwr temp < p.fstep then p.fstep - 1 else if p.fstep < p.target pwr temp then p.fstep + 1 else p.fstep) = _
  rw [target_eq]
  split_ifs <;> omega

theorem tick_eq (p : Package) (pwr temp : Nat) : p.tick pwr temp = { p with
    fstep := (p.tick pwr temp).fstep, pwr := pwr, temp := temp,
    tpow := decide ((p.tick pwr temp).fstep < 16) && (p.tpow || decide (p.limit < pwr)),
    ttherm := decide ((p.tick pwr temp).fstep < 16) && (p.ttherm || decide (100 ≤ temp)) } := rfl

/-- R461: flash and the host's memory alone keep their bytes. -/
theorem byteAt_cleared {s : State} (h : Memory.wf s.mem = true) (a : Nat) :
    byteAt s.cleared a = if (2 ^ 46 ≤ a ∧ a < 2 ^ 46 + 2 ^ 24) ∨ 2 ^ 64 ≤ a then byteAt s a else 0 := by
  have hp : ((Nat.ble (flashBase 0) a && Nat.blt a (flashBase 2)) || Nat.ble hostBase a) = true ↔
      (2 ^ 46 ≤ a ∧ a < 2 ^ 46 + 2 ^ 24) ∨ 2 ^ 64 ≤ a := by
    simp only [Bool.or_eq_true, Bool.and_eq_true, Nat.ble_eq, Nat.blt_eq, flashBase, hostBase]
    omega
  refine (Sparse.get_filter (fun k => (Nat.ble (flashBase 0) k && Nat.blt k (flashBase 2)) || Nat.ble hostBase k) s.mem a
    (Sparse.rising_of_ok h)).trans ?_
  exact if_congr hp rfl rfl

/-- R419, R458 to R461: the part of O54 on power and resets. -/
theorem powerEvents : PowerEvents := by
  intro s hs
  have hm := State.wf_mem hs
  have hc := State.wf_cores hs
  have hkept := byteAt_cleared hm
  refine ⟨fun pwr temp hp ht h8 h16 => ?tick, fun temp ht => ?cool, fun temp ht => ?hot, ⟨_, rfl, hkept, rfl⟩, ⟨_, rfl, hkept, rfl⟩,
    fun hb => ?unbooted, fun hb => ?booted⟩
  case tick =>
    have he : exec (.throttleTick pwr temp) s = .next { s with pkg := s.pkg.tick (pwr % 2 ^ 12) (temp % 2 ^ 8) } := rfl
    rw [he, Nat.mod_eq_of_lt hp, Nat.mod_eq_of_lt ht, tick_eq, fstep_tick h8 h16]
    simp only [decide_eq_true_eq]
    rfl
  case cool =>
    have he : exec (.thermalShutdown temp) s = execThermalShutdown temp s := rfl
    rw [he, execThermalShutdown, if_neg (by omega)]
  case hot =>
    have he : exec (.thermalShutdown temp) s = execThermalShutdown temp s := rfl
    rw [he, execThermalShutdown, if_pos ht]
    exact ⟨_, rfl, hkept, rfl⟩
  case unbooted =>
    have he : exec .secondaryBusReset s = .next (if s.booted then s.startCores 0 3 else s) := rfl
    rw [he, if_neg (by simp [hb])]
  case booted =>
    have he : exec .secondaryBusReset s = .next (if s.booted then s.startCores 0 3 else s) := rfl
    rw [he, if_pos hb]
    obtain ⟨hstarted, hothers, hfw, hpkg⟩ := coreStarted_foldl 0 3 (List.range 8) hm hc List.nodup_range (fun n hn => List.mem_range.1 hn)
    exact ⟨_, rfl, fun n hn => hstarted n (List.mem_range.2 hn), fun k hk => hothers k (fun n _ => by omega), hfw, hpkg⟩

/-- Settles O54: each of its four parts is proved above. -/
theorem systemEvents : Obligations.SystemEvents := ⟨waitEvents, registerEvents, inputs, powerEvents⟩

end Sys2Proof.Claims
end

section
/-! SUPPORT. Laws of flits: how one leaves its buffer, what its arrival does to the flits in flight and to the access it bears, and the bytes
it writes. -/

namespace Sys2Proof.Machine

/-! ## Departure (R20, R29, R234) -/

theorem exec_flitInject {s : State} {k d : Nat} {f : Flit} {fs : List Flit} (hq : Sparse.get [] s.queued k = f :: fs)
    (hl : s.leaves k s.cycle = some d) :
    exec (.flitInject k) s = .next { s with
      queued := Sparse.set [] s.queued k fs,
      flight := Sparse.set [] s.flight k (Sparse.get [] s.flight k ++ [⟨s.cycle, s.cycle + d, f⟩]) } := by
  change execFlitInject k s = _
  simp only [execFlitInject, hq, hl]

theorem exec_flitInject_stays {s : State} {k : Nat} (h : Sparse.get [] s.queued k = [] ∨ s.leaves k s.cycle = none) :
    exec (.flitInject k) s = .next s := by
  change execFlitInject k s = _
  obtain hq | hl := h
  · simp only [execFlitInject, hq]
  · cases hq : Sparse.get [] s.queued k <;> simp only [execFlitInject, hq, hl]

theorem State.remote_eq {s : State} {k q : Nat} (h : s.peerKey k = some q) : s.remote k = decide (endOf k ≠ endOf q) := by
  simp [State.remote, h, eq_comm]

/-- Between descriptors of one tile nothing is awaited (assumption 18). -/
theorem State.leaves_local {s : State} {k q : Nat} (h : s.peerKey k = some q) (he : endOf k = endOf q) (c : Nat) : s.leaves k c = some 0 := by
  have hr : s.remote k = false := by simp [State.remote_eq h, he]
  simp [State.leaves, State.departed, State.fresh, State.departs, hr, h, he]

theorem State.departed_remote {s : State} {k q : Nat} (h : s.peerKey k = some q) (he : endOf k ≠ endOf q) (c : Nat) :
    s.departed k c = true ↔ ∃ f ∈ Sparse.get [] s.flight k, f.left = c := by
  simp [State.departed, State.remote_eq h, he]

theorem State.fresh_remote {s : State} {k q : Nat} (h : s.peerKey k = some q) (he : endOf k ≠ endOf q) (c : Nat) :
    s.fresh k c = true ↔ (Sparse.get [] s.queued k).length ≤ countOf s.entered k c := by
  simp [State.fresh, State.remote_eq h, he]

/-- R19, R21, R29: no flit leaves for a circuit whose slot has been used, or before the cycle after it entered the buffer. -/
theorem State.leaves_none {s : State} {k c : Nat} (h : s.departed k c = true ∨ s.fresh k c = true) : s.leaves k c = none := by
  simp [State.leaves, h]

/-- R20: else the circuit on whose slot the cycle falls takes it. -/
theorem State.leaves_remote {s : State} {k q c : Nat} (h : s.peerKey k = some q) (he : endOf k ≠ endOf q) (hd : s.departed k c = false)
    (hf : s.fresh k c = false) :
    s.leaves k c = ((s.ownRoutes k (endOf k) (endOf q)).find? (fun l => c % l.mod == l.cls)).map Route.cycles := by
  simp [State.leaves, State.departs, hd, hf, h, he]

/-! ## Arrival (R20, R240, R252) -/

theorem State.arriving_of_due {s : State} {k q l due : Nat} {f : Flit} {fs : List Flight} (hp : s.peerKey k = some q)
    (hf : Sparse.get [] s.flight k = ⟨l, due, f⟩ :: fs) (hd : due ≤ s.cycle) : s.arriving k = some (f, q) := by
  simp [State.arriving, hf, hd, hp]

theorem State.arriving_early {s : State} {k l due : Nat} {f : Flit} {fs : List Flight} (hf : Sparse.get [] s.flight k = ⟨l, due, f⟩ :: fs)
    (hd : s.cycle < due) : s.arriving k = none := by
  simp [State.arriving, hf, Nat.not_le.2 hd]

/-- An arrival changes nothing but the flits in flight and the operations not yet performed. -/
theorem State.landed_frame (s : State) (k : Nat) (op : Option Nat) : s.landed k op =
    { s with flight := Sparse.set [] s.flight k ((Sparse.get [] s.flight k).drop 1), live := (s.landed k op).live } := by
  cases op with
  | none => rfl
  | some i => simp only [State.landed]; split <;> rfl

/-- A flit that bears no operation performs none. -/
theorem State.landed_none (s : State) (k : Nat) :
    s.landed k none = { s with flight := Sparse.set [] s.flight k ((Sparse.get [] s.flight k).drop 1) } := rfl

theorem State.flight_landed {s : State} (h : Sparse.rising s.flight = true) (k x : Nat) (op : Option Nat) :
    Sparse.get [] (s.landed k op).flight x = if k = x then (Sparse.get [] s.flight k).drop 1 else Sparse.get [] s.flight x := by
  rw [State.landed_frame]
  exact Sparse.get_set h

theorem State.isLive_retire (s : State) (i id : Nat) : (s.retire i).isLive id = (s.isLive id && id != i) := by
  rw [Bool.eq_iff_iff]
  simp only [State.isLive, State.retire, List.any_filter, List.any_eq_true, Bool.and_eq_true, beq_iff_eq, bne_iff_ne, decide_eq_true_eq]
  constructor
  · rintro ⟨e, he, hi, rfl⟩
    exact ⟨⟨e, he, rfl⟩, hi⟩
  · rintro ⟨⟨e, he, rfl⟩, hi⟩
    exact ⟨e, he, hi, rfl⟩

/-- R240, R252: the operation that the flit bears is performed unless another flit that bears it is on its way; no other is. -/
theorem State.isLive_landed (s : State) (k id : Nat) (op : Option Nat) :
    (s.landed k op).isLive id = (s.isLive id && (op != some id || (s.landed k op).bearsOp id)) := by
  cases op with
  | none => simp [State.landed, State.isLive]
  | some i =>
    let u : State := { s with flight := Sparse.set [] s.flight k ((Sparse.get [] s.flight k).drop 1) }
    have hu : s.landed k (some i) = if u.bearsOp i then u else u.retire i := rfl
    have hb : (u.retire i).bearsOp = u.bearsOp := rfl
    have hl : u.isLive id = s.isLive id := rfl
    rw [hu]
    obtain rfl | hne := eq_or_ne i id
    · by_cases hi : u.bearsOp i
      · simp [hi, hl]
      · simp [hi, hb, State.isLive_retire]
    · have hop : (some i != some id) = true := by simpa using hne
      rw [hop, Bool.true_or, Bool.and_true]
      split
      · exact hl
      · rw [State.isLive_retire, hl, bne_iff_ne.2 hne.symm, Bool.and_true]

/-! ## The bytes of a DATA flit (R233, R468) -/

theorem State.wr_one_bad (s : State) (k v : Nat) : (s.wr k 1 v).bad = s.bad :=
  List.filter_eq_self.2 (fun w _ => by simp only [Bool.not_eq_true', decide_eq_false_iff_not]; omega)

theorem State.flitWrite_frame (bs : List Byte) : ∀ (s : State) (key : Nat), s.flitWrite key bs = { s with mem := (s.flitWrite key bs).mem } := by
  induction bs with
  | nil => intros; rfl
  | cons b bs ih =>
    intro s key
    unfold State.flitWrite
    split
    · exact ih s (key + 1)
    · have hw : s.wr key 1 b.toNat = { s with mem := (s.wr key 1 b.toNat).mem } := by
        rw [← State.wr_one_bad s key b.toNat]; rfl
      rw [ih, hw]

theorem State.flitWrite_flight (s : State) (key : Nat) (bs : List Byte) : (s.flitWrite key bs).flight = s.flight := by
  rw [State.flitWrite_frame]

/-- What memory holds after a flit's bytes: those of check words in error, and those beside the flit, are kept. -/
theorem State.get_flitWrite (bs : List Byte) : ∀ {s : State} {key : Nat} (a : Nat), Memory.wf s.mem = true →
    Sparse.get 0 (s.flitWrite key bs).mem a =
      if key ≤ a ∧ a < key + bs.length ∧ checkWord a ∉ s.bad then bs[a - key]?.getD 0 else Sparse.get 0 s.mem a := by
  induction bs with
  | nil => intro s key a _; rw [if_neg (by simp; omega)]; rfl
  | cons b bs ih =>
    intro s key a h
    have hlater (hne : a ≠ key) (x : Byte) :
        (if key + 1 ≤ a ∧ a < key + 1 + bs.length ∧ checkWord a ∉ s.bad then bs[a - (key + 1)]?.getD 0 else x) =
          if key ≤ a ∧ a < key + (bs.length + 1) ∧ checkWord a ∉ s.bad then (b :: bs)[a - key]?.getD 0 else x := by
      obtain hlt | hgt := Nat.lt_or_gt_of_ne hne
      · rw [if_neg (by omega), if_neg (by omega)]
      · rw [show a - key = a - (key + 1) + 1 by omega, List.getElem?_cons_succ]
        exact if_congr (and_congr (by omega) (and_congr (by omega) Iff.rfl)) rfl rfl
    have hfirst : ¬ (key + 1 ≤ key) := by omega
    unfold State.flitWrite
    rw [List.length_cons]
    by_cases hbad : checkWord key ∈ s.bad
    · rw [if_pos (by simpa using hbad), ih a h]
      obtain rfl | hne := eq_or_ne a key
      · rw [if_neg (fun h => hfirst h.1), if_neg (fun h => h.2.2 hbad)]
      · exact hlater hne _
    · rw [if_neg (by simpa using hbad), ih a (State.wr_wf h), State.wr_one_bad]
      obtain rfl | hne := eq_or_ne a key
      · rw [if_neg (fun h => hfirst h.1), if_pos ⟨le_rfl, by omega, hbad⟩]
        simp [State.wr, Sparse.setBytes, Sparse.get_set_self (Sparse.rising_of_ok h)]
      · rw [State.get_wr h (by omega)]
        exact hlater hne _

/-- A check word in error is left in error by a write that covers it in part (R468). -/
theorem State.mem_bad_uncovered (s : State) (key n w : Nat) :
    w ∈ s.bad.filter (fun w => !decide (key ≤ w ∧ w + 8 ≤ key + n)) ↔ w ∈ s.bad ∧ ¬ (key ≤ w ∧ w + 8 ≤ key + n) := by
  rw [List.mem_filter, Bool.not_eq_true', decide_eq_false_iff_not]

/-- A write that meets no error in part meets a check word in error only where it covers it whole. -/
theorem State.covered_of_writeBad {s : State} {key n a : Nat} (h : s.writeBad key n = false) (h1 : key ≤ a) (h2 : a < key + n)
    (ha : checkWord a ∈ s.bad) : key ≤ checkWord a ∧ checkWord a + 8 ≤ key + n := by
  simp only [State.writeBad, List.any_eq_false, Bool.and_eq_true, decide_eq_true_eq, Bool.not_eq_true', decide_eq_false_iff_not] at h
  by_contra hc
  exact h _ ha ⟨⟨by unfold checkWord; omega, by unfold checkWord; omega⟩, hc⟩

/-- The state in which the bytes of a DATA flit are written: it has arrived, an error that it meets in part is counted, and the check words
that it covers whole are sound. -/
def State.dataLanded (s : State) (k key n : Nat) (op : Option Nat) : State :=
  let t := s.landed k op
  let t := if t.writeBad key n then t.countHard (dieOfKey key) (errClass key) else t
  { t with bad := t.bad.filter (fun w => !decide (key ≤ w ∧ w + 8 ≤ key + n)) }

theorem exec_dataFlit {s : State} {k q off : Nat} {bs : List Byte} {op : Option Nat} (h : s.arriving k = some (.data off bs op, q)) :
    exec (.dataFlit k) s = .next ((s.dataLanded k (winBase q + off) bs.length op).flitWrite (winBase q + off) bs) := by
  change execDataFlit k s = _
  simp only [execDataFlit, h, State.dataLanded]

theorem State.writeBad_landed (s : State) (k key n : Nat) (op : Option Nat) : (s.landed k op).writeBad key n = s.writeBad key n := by
  rw [State.landed_frame]; rfl

theorem State.dataLanded_sound {s : State} {key n : Nat} (h : s.writeBad key n = false) (k : Nat) (op : Option Nat) :
    s.dataLanded k key n op = { s.landed k op with bad := (s.landed k op).bad.filter (fun w => !decide (key ≤ w ∧ w + 8 ≤ key + n)) } := by
  rw [State.dataLanded, State.writeBad_landed, h]; rfl

theorem State.dataLanded_mem (s : State) (k key n : Nat) (op : Option Nat) : (s.dataLanded k key n op).mem = s.mem := by
  unfold State.dataLanded
  rw [State.landed_frame]
  dsimp only
  split <;> rfl

theorem State.dataLanded_flight (s : State) (k key n : Nat) (op : Option Nat) :
    (s.dataLanded k key n op).flight = (s.landed k op).flight := by
  unfold State.dataLanded
  dsimp only
  split <;> rfl

theorem State.mem_dataLanded_bad (s : State) (k key n w : Nat) (op : Option Nat) :
    w ∈ (s.dataLanded k key n op).bad ↔ w ∈ s.bad ∧ ¬ (key ≤ w ∧ w + 8 ≤ key + n) := by
  have hb : (s.landed k op).bad = s.bad := by rw [State.landed_frame]
  rw [← State.mem_bad_uncovered, State.dataLanded, ← hb]
  dsimp only
  split <;> rfl

/-- R233, R468: the byte at an address once a DATA flit has arrived. -/
theorem State.get_dataFlit {s : State} (h : Memory.wf s.mem = true) (k key a : Nat) (bs : List Byte) (op : Option Nat) :
    Sparse.get 0 ((s.dataLanded k key bs.length op).flitWrite key bs).mem a =
      if (key ≤ a ∧ a < key + bs.length) ∧
        ¬ (s.bad.contains (checkWord a) = true ∧ ¬ (key ≤ checkWord a ∧ checkWord a + 8 ≤ key + bs.length)) then bs[a - key]?.getD 0
      else Sparse.get 0 s.mem a := by
  rw [State.get_flitWrite _ _ (by rwa [State.dataLanded_mem]), State.dataLanded_mem]
  simp only [State.mem_dataLanded_bad, List.contains_iff_mem, and_assoc]

/-! ## The control flits (R233) -/

/-- A descriptor whose window a POINTER flit has reached: WR as it says, and OVF raised, saturating. -/
def Desc.pointed (d : Desc) (wr ovf : Nat) : Desc := { d with wr := wr % 2 ^ 32, ovf := min (d.ovf + ovf) (2 ^ 32 - 1) }

theorem State.descs_landed (s : State) (k : Nat) (op : Option Nat) : (s.landed k op).descs = s.descs := by rw [State.landed_frame]

theorem State.desc_landed (s : State) (k x : Nat) (op : Option Nat) : (s.landed k op).desc x = s.desc x := by
  rw [State.desc, State.descs_landed]; rfl

theorem State.discards_landed (s : State) (k q : Nat) (op : Option Nat) : (s.landed k op).discards q = s.discards q := by
  rw [State.landed_frame]; rfl

/-- Whether arriving tokens are discarded is a matter of the descriptor's slot, which no flit changes. -/
theorem State.discards_setDesc {s : State} (h : Sparse.rising s.descs = true) {q : Nat} {d : Desc} (hd : d.slot = (s.desc q).slot) :
    (s.setDesc q d).discards q = s.discards q := by
  have hq : (s.setDesc q d).desc q = d := Sparse.get_set_self h
  rw [State.discards, hq, hd]
  rfl

/-- What a descriptor written at an arrival reads as, and that it is the only one written. -/
theorem State.desc_setDesc_landed {s : State} (h : Sparse.rising s.descs = true) (k q : Nat) (op : Option Nat) (d : Desc) :
    ((s.landed k op).setDesc q d).desc q = d ∧ ∀ x, x ≠ q → ((s.landed k op).setDesc q d).desc x = s.desc x := by
  rw [← State.descs_landed s k op] at h
  refine ⟨Sparse.get_set_self h, fun x hx => ?_⟩
  rw [← State.desc_landed s k x op]
  exact Sparse.get_set_ne h hx.symm

theorem exec_pointerFlit {s : State} (hr : Sparse.rising s.descs = true) {k q wr ovf : Nat} {op : Option Nat}
    (h : s.arriving k = some (.pointer wr ovf op, q)) :
    exec (.pointerFlit k) s = .next (if s.discards q then ((s.landed k op).setDesc q ((s.desc q).pointed wr ovf)).dropTokens q
      else (s.landed k op).setDesc q ((s.desc q).pointed wr ovf)) := by
  rw [← State.descs_landed s k op] at hr
  rw [← State.discards_landed s k q op, ← State.discards_setDesc (d := ((s.landed k op).desc q).pointed wr ovf) hr rfl,
    ← State.desc_landed s k q op]
  change execPointerFlit k s = _
  simp only [execPointerFlit, h]
  rfl

theorem exec_markerFlit {s : State} {k q mode : Nat} {flt : Bool} (h : s.arriving k = some (.marker mode flt, q)) :
    exec (.markerFlit k) s = .next (if s.discards q then s.landed k none
      else (s.landed k none).setDesc q { s.desc q with mark := true, mmode := mode % 8, mflt := flt }) := by
  rw [← State.discards_landed s k q none, ← State.desc_landed s k q none]
  change execMarkerFlit k s = _
  simp only [execMarkerFlit, h]

theorem exec_returnFlit {s : State} {k q rd : Nat} (h : s.arriving k = some (.ret rd, q)) :
    exec (.returnFlit k) s = .next ((s.landed k none).setDesc q { s.desc q with mrd := rd % 2 ^ 32 }) := by
  change execReturnFlit k s = _
  simp only [execReturnFlit, h]

/-- Where no flit has arrived no arrival does anything. -/
theorem exec_arrival_none {s : State} {k : Nat} (h : s.arriving k = none) :
    ∀ i ∈ [Instr.dataFlit k, .pointerFlit k, .markerFlit k, .returnFlit k], exec i s = .next s := by
  have hd : execDataFlit k s = .next s := by simp only [execDataFlit, h]
  have hp : execPointerFlit k s = .next s := by simp only [execPointerFlit, h]
  have hm : execMarkerFlit k s = .next s := by simp only [execMarkerFlit, h]
  have hr : execReturnFlit k s = .next s := by simp only [execReturnFlit, h]
  simp only [List.forall_mem_cons, List.not_mem_nil, false_imp_iff, implies_true, and_true]
  exact ⟨hd, hp, hm, hr⟩

/-- R63, R248: a window whose tokens are discarded holds none. -/
theorem State.count_dropTokens {s : State} (h : Sparse.rising s.descs = true) (q : Nat) : ((s.dropTokens q).desc q).count = 0 := by
  unfold State.dropTokens
  dsimp only
  split_ifs with hc
  · exact hc
  · have hq (d : Desc) (g : Nat) (f : Region → Region) (x : Flit) : (((s.mapRegion g f).setDesc q d).queueFlit q x).desc q = d :=
      Sparse.get_set_self h
    rw [hq]
    simp [Desc.count]

end Sys2Proof.Machine
end

section
/-! PROOFS. Flits leave their buffers, travel and arrive. -/

namespace Sys2Proof.Claims

open Sys2Proof.Machine

/-! ## Departure -/

theorem flit_leaves {s : State} (hs : s.wf = true) {k d : Nat} {f : Flit} {fs : List Flit} (hq : flits s k = f :: fs)
    (hl : s.leaves k s.cycle = some d) : ∃ t, exec (.flitInject k) s = .next t ∧
      t = { s with queued := t.queued, flight := t.flight } ∧ flits t k = fs ∧
      inFlight t k = inFlight s k ++ [{ left := s.cycle, due := s.cycle + d, flit := f }] ∧
      ∀ x, x ≠ k → flits t x = flits s x ∧ inFlight t x = inFlight s x :=
  ⟨_, exec_flitInject hq hl, rfl, Sparse.get_set_self (State.wf_queued hs), Sparse.get_set_self (State.wf_flight hs),
    fun _ hx => ⟨Sparse.get_set_ne (State.wf_queued hs) hx.symm, Sparse.get_set_ne (State.wf_flight hs) hx.symm⟩⟩

/-- R19 to R21, R29: when a circuit takes the oldest flit, and how long it takes. -/
theorem leaves_circuit {s : State} {k q : Nat} (hp : s.peerKey k = some q) (he : endOf k ≠ endOf q) :
    ((∃ f ∈ inFlight s k, f.left = s.cycle) ∨ (flits s k).length ≤ countOf s.entered k s.cycle → s.leaves k s.cycle = none) ∧
    ((∀ f ∈ inFlight s k, f.left ≠ s.cycle) → countOf s.entered k s.cycle < (flits s k).length →
      ∀ d, s.leaves k s.cycle = some d ↔ ∃ x, (s.ownRoutes k (endOf k) (endOf q)).find? (fun l => s.cycle % l.mod == l.cls) = some x ∧
        x.cycles = d) := by
  have hdep := State.departed_remote hp he s.cycle
  have hfresh := State.fresh_remote hp he s.cycle
  refine ⟨fun h => State.leaves_none (h.imp hdep.2 hfresh.2), fun hunused hwaits d => ?_⟩
  have hd : s.departed k s.cycle = false := by
    rw [Bool.eq_false_iff, Ne, hdep]
    rintro ⟨f, hf, hc⟩
    exact hunused f hf hc
  have hf : s.fresh k s.cycle = false := by
    rw [Bool.eq_false_iff, Ne, hfresh]
    exact Nat.not_le.2 hwaits
  rw [State.leaves_remote hp he hd hf, Option.map_eq_some_iff]

/-! ## Arrival -/

/-- An arrival takes the oldest flit, and no other, off those in flight. -/
theorem inFlight_landed {s : State} (hs : s.wf = true) {k : Nat} {e : Flight} {fs : List Flight} (h : inFlight s k = e :: fs)
    (op : Option Nat) : inFlight (s.landed k op) k = fs ∧ ∀ x, x ≠ k → inFlight (s.landed k op) x = inFlight s x := by
  have hf := State.flight_landed (State.wf_flight hs) k (op := op)
  refine ⟨?_, fun x hx => (hf x).trans (if_neg hx.symm)⟩
  have hk : Sparse.get [] s.flight k = e :: fs := h
  rw [inFlight, hf, if_pos rfl, hk, List.drop_one, List.tail_cons]

/-- What every arrival of a DATA flit does, errors met or not: the flit is taken, and its bytes are written but for those of a check word in
error that it covers in part. -/
theorem data_written {s : State} (hs : s.wf = true) {k q l due off : Nat} {bs : List Byte} {op : Option Nat} {fs : List Flight}
    (hf : inFlight s k = ⟨l, due, .data off bs op⟩ :: fs) :
    let key := winBase q + off
    let t := (s.dataLanded k key bs.length op).flitWrite key bs
    inFlight t k = fs ∧ (∀ x, x ≠ k → inFlight t x = inFlight s x) ∧
    (∀ i, i < bs.length →
      let w := (key + i) / 8 * 8
      byteAt t (key + i) = if s.bad.contains w = true ∧ ¬ (key ≤ w ∧ w + 8 ≤ key + bs.length) then byteAt s (key + i) else bs[i]?.getD 0) ∧
    ∀ x, (x < key ∨ key + bs.length ≤ x) → byteAt t x = byteAt s x := by
  intro key t
  have hin (x : Nat) : inFlight t x = inFlight (s.landed k op) x := by
    rw [inFlight, State.flitWrite_flight, State.dataLanded_flight]; rfl
  have hbyte := fun a => State.get_dataFlit (State.wf_mem hs) k key a bs op
  obtain ⟨hk, hothers⟩ := inFlight_landed hs hf op
  refine ⟨(hin k).trans hk, fun x hx => (hin x).trans (hothers x hx), fun i hi => ?_, fun x hx => ?_⟩
  · rw [byteAt, hbyte, Nat.add_sub_cancel_left]
    have hrange : key ≤ key + i ∧ key + i < key + bs.length := by omega
    exact (if_congr (and_iff_right hrange) rfl rfl).trans (ite_not ..)
  · rw [byteAt, hbyte, if_neg (fun h => by omega)]
    rfl

theorem data_arrives {s : State} (hs : s.wf = true) {k q l due off : Nat} {bs : List Byte} {op : Option Nat} {fs : List Flight}
    (hp : s.peerKey k = some q) (hf : inFlight s k = ⟨l, due, .data off bs op⟩ :: fs) (hd : due ≤ s.cycle)
    (hb : s.writeBad (winBase q + off) bs.length = false) :
    ∃ t, exec (.dataFlit k) s = .next t ∧ t = { s with mem := t.mem, bad := t.bad, flight := t.flight, live := t.live } ∧
      inFlight t k = fs ∧ (∀ x, x ≠ k → inFlight t x = inFlight s x) ∧
      (∀ i, i < bs.length → byteAt t (winBase q + off + i) = bs[i]?.getD 0) ∧
      (∀ x, (x < winBase q + off ∨ winBase q + off + bs.length ≤ x) → byteAt t x = byteAt s x) ∧
      (∀ id, t.isLive id = (s.isLive id && (op != some id || t.bearsOp id))) := by
  obtain ⟨hk, hothers, hbytes, hbeside⟩ := data_written hs (q := q) hf
  refine ⟨_, exec_dataFlit (State.arriving_of_due hp hf hd), ?_, hk, hothers, fun i hi => ?_, hbeside, fun id => ?_⟩
  · rw [State.flitWrite_frame, State.dataLanded_sound hb, State.landed_frame]
  · refine (hbytes i hi).trans (if_neg ?_)
    rintro ⟨hbad, huncovered⟩
    exact huncovered (State.covered_of_writeBad hb (Nat.le_add_right ..) (by omega) (List.contains_iff_mem.1 hbad))
  · rw [State.flitWrite_frame, State.dataLanded_sound hb]
    exact State.isLive_landed s k id op

/-- R233: a POINTER flit at a descriptor that keeps its tokens. -/
theorem pointer_arrives {s : State} (hs : s.wf = true) {k q l due wr ovf : Nat} {op : Option Nat} {fs : List Flight}
    (hp : s.peerKey k = some q) (hf : inFlight s k = ⟨l, due, .pointer wr ovf op⟩ :: fs) (hd : due ≤ s.cycle)
    (hk : s.discards q = false) : ∃ t, exec (.pointerFlit k) s = .next t ∧
      t = { s with descs := t.descs, flight := t.flight, live := t.live } ∧ inFlight t k = fs ∧
      t.desc q = { s.desc q with wr := wr % 2 ^ 32, ovf := min ((s.desc q).ovf + ovf) (2 ^ 32 - 1) } ∧
      (∀ x, x ≠ q → t.desc x = s.desc x) ∧ ∀ id, t.isLive id = (s.isLive id && (op != some id || t.bearsOp id)) := by
  have he := exec_pointerFlit (State.wf_descs hs) (State.arriving_of_due hp hf hd)
  rw [hk, if_neg Bool.false_ne_true] at he
  obtain ⟨hq, hothers⟩ := State.desc_setDesc_landed (State.wf_descs hs) k q op ((s.desc q).pointed wr ovf)
  refine ⟨_, he, ?_, (inFlight_landed hs hf op).1, hq, hothers, fun id => State.isLive_landed s k id op⟩
  rw [State.landed_frame]
  rfl

/-- R63, R248: at one that discards them none is left. -/
theorem pointer_discarded {s : State} (hs : s.wf = true) {k q l due wr ovf : Nat} {op : Option Nat} {fs : List Flight}
    (hp : s.peerKey k = some q) (hf : inFlight s k = ⟨l, due, .pointer wr ovf op⟩ :: fs) (hd : due ≤ s.cycle)
    (hk : s.discards q = true) : ∃ t, exec (.pointerFlit k) s = .next t ∧ (t.desc q).count = 0 := by
  have hr := State.wf_descs hs
  have he := exec_pointerFlit hr (State.arriving_of_due hp hf hd)
  rw [hk, if_pos rfl] at he
  rw [← State.descs_landed s k op] at hr
  exact ⟨_, he, State.count_dropTokens (Sparse.set_rising hr) q⟩

theorem marker_discarded {s : State} (hs : s.wf = true) {k q l due mode : Nat} {flt : Bool} {fs : List Flight}
    (hp : s.peerKey k = some q) (hf : inFlight s k = ⟨l, due, .marker mode flt⟩ :: fs) (hd : due ≤ s.cycle)
    (hk : s.discards q = true) : ∃ t, exec (.markerFlit k) s = .next t ∧ t = { s with flight := t.flight } ∧ inFlight t k = fs := by
  have he := exec_markerFlit (State.arriving_of_due hp hf hd)
  rw [hk, if_pos rfl] at he
  exact ⟨_, he, State.landed_none s k, (inFlight_landed hs hf none).1⟩

theorem marker_arrives {s : State} (hs : s.wf = true) {k q l due mode : Nat} {flt : Bool} {fs : List Flight}
    (hp : s.peerKey k = some q) (hf : inFlight s k = ⟨l, due, .marker mode flt⟩ :: fs) (hd : due ≤ s.cycle)
    (hk : s.discards q = false) : ∃ t, exec (.markerFlit k) s = .next t ∧ t = { s with descs := t.descs, flight := t.flight } ∧
      inFlight t k = fs ∧ t.desc q = { s.desc q with mark := true, mmode := mode % 8, mflt := flt } ∧ ∀ x, x ≠ q → t.desc x = s.desc x := by
  have he := exec_markerFlit (State.arriving_of_due hp hf hd)
  rw [hk, if_neg Bool.false_ne_true] at he
  exact ⟨_, he, rfl, (inFlight_landed hs hf none).1, State.desc_setDesc_landed (State.wf_descs hs) k q none _⟩

theorem return_arrives {s : State} (hs : s.wf = true) {k q l due rd : Nat} {fs : List Flight}
    (hp : s.peerKey k = some q) (hf : inFlight s k = ⟨l, due, .ret rd⟩ :: fs) (hd : due ≤ s.cycle) :
    ∃ t, exec (.returnFlit k) s = .next t ∧ t = { s with descs := t.descs, flight := t.flight } ∧ inFlight t k = fs ∧
      t.desc q = { s.desc q with mrd := rd % 2 ^ 32 } ∧ ∀ x, x ≠ q → t.desc x = s.desc x :=
  ⟨_, exec_returnFlit (State.arriving_of_due hp hf hd), rfl, (inFlight_landed hs hf none).1,
    State.desc_setDesc_landed (State.wf_descs hs) k q none _⟩

/-- Settles O23: each departure and each kind of arrival by its own theorem above. -/
theorem circuitFlits : Obligations.CircuitFlits := by
  intro s k q hs hp
  refine ⟨fun f fs d hq hl => flit_leaves hs hq hl, exec_flitInject_stays, fun he => State.leaves_local hp he s.cycle,
    leaves_circuit hp, fun l due f fs hf hd => exec_arrival_none (State.arriving_early hf hd),
    fun l due off bs op fs hf hd hb => data_arrives hs hp hf hd hb, fun l due off bs op fs hf hd _ => ?_,
    fun l due wr ovf op fs hf hd hk => pointer_arrives hs hp hf hd hk, fun l due wr ovf op fs hf hd hk => pointer_discarded hs hp hf hd hk,
    fun l due mode flt fs hf hd hk => marker_discarded hs hp hf hd hk, fun l due mode flt fs hf hd hk => marker_arrives hs hp hf hd hk,
    fun l due rd fs hf hd => return_arrives hs hp hf hd⟩
  obtain ⟨hk, -, hbytes, hbeside⟩ := data_written hs (q := q) hf
  exact ⟨_, exec_dataFlit (State.arriving_of_due hp hf hd), hk, hbytes, hbeside⟩

end Sys2Proof.Claims
end

section
/-! PROOFS. The machine right after reset. -/

namespace Sys2Proof.Claims

open Sys2Proof.Machine

/-- Every register that the spec gives no reset value is zero (assumption 6). -/
theorem sreg_reset (n k : Nat) : (State.reset.coreAt n).sreg k = 0 := by
  have hc : State.reset.coreAt n = {} := rfl
  by_cases hk : k < 32 <;> simp [hc, Core.sreg, hk]

theorem slot_reset (p a : Nat) : ((State.reset.tile p).slot a).st = .unused := by
  have ht : (State.reset.tile p).slots = #v[{}, {}, {}, {}, {}, {}, {}, {}] := rfl
  have hslots : ∀ i : Fin 8, ((#v[{}, {}, {}, {}, {}, {}, {}, {}] : Vector ActorSlot 8)[i]).st = .unused := by decide
  by_cases ha : a < 8
  · rw [Tile.slot, ht, Vector.getElem?_eq_getElem ha]
    exact hslots ⟨a, ha⟩
  · rw [Tile.slot, ht, Vector.getElem?_eq_none (by omega)]
    rfl

/-- R446: a control core stands at level M, interrupts off and not inhibited. -/
theorem cstat_reset (n : Nat) : (State.reset.coreAt n).lvl = 1 ∧ (State.reset.coreAt n).ie = 0 ∧ (State.reset.coreAt n).inh = 0 := by
  rw [show State.reset.coreAt n = {} from rfl]
  decide

/-- Settles O58: the tables of the state hold nothing at reset, so that each reads as its default. -/
theorem resetState : Obligations.ResetState := by
  refine ⟨State.wf_reset, rfl, rfl, rfl, fun _ => rfl, rfl, fun n => ?core, fun p => ⟨rfl, rfl, slot_reset p, fun _ => rfl⟩,
    fun _ => ⟨rfl, rfl⟩, fun _ => ⟨rfl, rfl, rfl⟩, fun _ => ⟨rfl, rfl, rfl⟩, rfl, rfl, rfl, fun _ => ⟨rfl, rfl⟩, fun _ => rfl,
    rfl, rfl, rfl, rfl⟩
  case core =>
    obtain ⟨hlvl, hie, hinh⟩ := cstat_reset n
    exact ⟨rfl, hlvl, hie, hinh, rfl, sreg_reset n⟩

end Sys2Proof.Claims
end

section
/-! SUPPORT. Laws of firings: what the firing rule reads, the scheduler's counts, and the start of a firing. -/

namespace Sys2Proof.Machine

/-! ## Slots, tiles and descriptors -/

theorem Tile.slot_setSlot (t : Tile) {a : Nat} (ha : a < 8) (x : ActorSlot) : (t.setSlot a x).slot a = x := by
  simp [Tile.setSlot, Tile.slot, ha]

theorem Tile.slot_setSlot_ne (t : Tile) {a b : Nat} (x : ActorSlot) (h : b ≠ a) : (t.setSlot a x).slot b = t.slot b := by
  rw [Tile.setSlot, Tile.slot, Vector.getElem?_setIfInBounds_ne h.symm]; rfl

theorem State.tile_setTile {s : State} (h : Sparse.rising s.tiles = true) (p : Nat) (t : Tile) : (s.setTile p t).tile p = t :=
  Sparse.get_set_self h

theorem State.tile_setTile_ne {s : State} (h : Sparse.rising s.tiles = true) {p q : Nat} (t : Tile) (hq : q ≠ p) :
    (s.setTile p t).tile q = s.tile q := Sparse.get_set_ne h hq.symm

theorem State.rising_setTile {s : State} (h : Sparse.rising s.tiles = true) (p : Nat) (t : Tile) :
    Sparse.rising (s.setTile p t).tiles = true := Sparse.set_rising h

/-! ## What the firing rule reads (R36, R37, R63) -/

/-- Two states agree in what the dealing of tokens reads: the descriptors, the regions, the stream contexts and every tile's etch fields. -/
structure SameArcs (s u : State) : Prop where
  descs : u.descs = s.descs
  regions : u.regions = s.regions
  ctxs : u.ctxs = s.ctxs
  plane : ∀ q, (u.tile q).plane = (s.tile q).plane

section
variable {s u : State} (h : SameArcs s u)
include h

theorem SameArcs.desc (k : Nat) : u.desc k = s.desc k := by rw [State.desc, h.descs]; rfl

theorem SameArcs.region (g : Nat) : u.region g = s.region g := by rw [State.region, h.regions]; rfl

theorem SameArcs.regionOf (p : Nat) : u.regionOf p = s.regionOf p := by
  rw [State.regionOf, State.owner, h.regions]; rfl

theorem SameArcs.ltileOf (p : Nat) : u.ltileOf p = s.ltileOf p := by
  rw [State.ltileOf, State.owner, h.regions]; rfl

theorem SameArcs.modeOf (p : Nat) : u.modeOf p = s.modeOf p := by rw [State.modeOf, h.regionOf, h.region]; rfl

theorem SameArcs.ctxAt (c : Nat) : u.ctxAt c = s.ctxAt c := by rw [State.ctxAt, h.ctxs]; rfl

theorem SameArcs.cfg (q : Nat) : (u.tile q).cfg = (s.tile q).cfg := by
  funext f obj r idx; rw [Tile.cfg, h.plane]; rfl

theorem SameArcs.rate (q : Nat) : (u.tile q).rate = (s.tile q).rate := by
  funext a r w ph; rw [Tile.rate, h.cfg]; rfl

theorem SameArcs.counts (q : Nat) : (u.tile q).counts = (s.tile q).counts := by
  funext a r w; rw [Tile.counts, Tile.phases, h.cfg, h.rate]; rfl

theorem SameArcs.arep (q : Nat) : (u.tile q).arep = (s.tile q).arep := by
  funext a; rw [Tile.arep, h.cfg]; rfl

theorem SameArcs.acopy (q : Nat) : (u.tile q).acopy = (s.tile q).acopy := by
  funext a; rw [Tile.acopy, h.cfg]; rfl

theorem SameArcs.ctxPeer (g l d : Nat) : u.ctxPeer g l d = s.ctxPeer g l d := by
  simp only [State.ctxPeer, h.ctxs, h.desc]

theorem SameArcs.peerKey (k : Nat) : u.peerKey k = s.peerKey k := by
  simp only [State.peerKey, State.keyRegion, h.regionOf, h.ctxAt, h.desc, h.region, h.ctxPeer, h.ltileOf]

theorem SameArcs.peerCopy (k : Nat) : u.peerCopy k = s.peerCopy k := by
  simp only [State.peerCopy, h.peerKey, h.desc, h.acopy, h.arep]

theorem SameArcs.portDescs (p kind a port : Nat) : u.portDescs p kind a port = s.portDescs p kind a port := by
  simp only [State.portDescs, h.desc]

theorem SameArcs.arcInit (p a port : Nat) : u.arcInit p a port = s.arcInit p a port := by
  simp only [State.arcInit, Tile.afirst, Tile.avalid, Tile.aindex, h.arep, h.acopy, h.cfg, h.regionOf, h.region, h.portDescs, h.desc]

theorem SameArcs.farEnd (k : Nat) : u.farEnd k = s.farEnd k := by
  simp only [State.farEnd, h.peerKey, h.desc, h.modeOf, h.counts, h.arep, h.arcInit, h.ctxAt]

theorem SameArcs.shares (p kind a port f n : Nat) : u.shares p kind a port f n = s.shares p kind a port f n := by
  simp only [State.shares, State.deal, State.segments, h.portDescs, h.peerCopy, h.farEnd, h.counts, h.modeOf, h.arcInit, h.arep]

theorem SameArcs.phase {p a : Nat} (hs : (u.tile p).slot a = (s.tile p).slot a) : (u.tile p).phase a = (s.tile p).phase a := by
  funext r; rw [Tile.phase, Tile.phases, hs, h.cfg]; rfl

/-- A slot may fire in both states, or in neither. -/
theorem SameArcs.mayFire {p a : Nat} (hs : (u.tile p).slot a = (s.tile p).slot a) : u.mayFire p a = s.mayFire p a := by
  simp only [State.mayFire, State.firingRule, State.faultedMarker, hs, h.modeOf, h.phase hs, h.rate, h.shares, h.desc]

end

/-! ## The scheduler's counts (R45, R46) -/

/-- Nothing differs but tile p's schedule position and the passes over its slots other than a. -/
structure Scheduled (s u : State) (p a : Nat) : Prop where
  frame : u = { s with tiles := u.tiles }
  others : ∀ q, q ≠ p → u.tile q = s.tile q
  own : u.tile p = { s.tile p with slots := (u.tile p).slots, schedPos := (u.tile p).schedPos }
  slot : (u.tile p).slot a = (s.tile p).slot a
  rising : Sparse.rising u.tiles = true

theorem Scheduled.sameArcs {s u : State} {p a : Nat} (h : Scheduled s u p a) : SameArcs s u where
  descs := by rw [h.frame]
  regions := by rw [h.frame]
  ctxs := by rw [h.frame]
  plane q := by
    by_cases hq : q = p
    · subst hq; rw [h.own]
    · rw [h.others q hq]

theorem scheduled_refl {s : State} (h : Sparse.rising s.tiles = true) (p a : Nat) : Scheduled s s p a :=
  ⟨rfl, fun _ _ => rfl, rfl, rfl, h⟩

theorem scheduled_position {s : State} (h : Sparse.rising s.tiles = true) (p a i : Nat) :
    Scheduled s (s.setTile p { s.tile p with schedPos := i }) p a where
  frame := rfl
  others _ hq := State.tile_setTile_ne h _ hq
  own := by rw [State.tile_setTile h]
  slot := by rw [State.tile_setTile h]; rfl
  rising := State.rising_setTile h _ _

/-- R46: slot b is passed over once more where `ready` holds of it. -/
def Tile.passSlot (ready : Nat → Prop) [DecidablePred ready] (t : Tile) (b : Nat) : Tile :=
  if ready b then t.setSlot b { t.slot b with bypass := min 64 ((t.slot b).bypass + 1) } else t

theorem Tile.passSlot_frame (ready : Nat → Prop) [DecidablePred ready] (t : Tile) (b : Nat) :
    t.passSlot ready b = { t with slots := (t.passSlot ready b).slots } := by
  unfold Tile.passSlot; split <;> rfl

theorem Tile.passSlots_frame (ready : Nat → Prop) [DecidablePred ready] (l : List Nat) : ∀ t : Tile,
    l.foldl (Tile.passSlot ready) t = { t with slots := (l.foldl (Tile.passSlot ready) t).slots } := by
  induction l with
  | nil => exact fun _ => rfl
  | cons b l ih => intro t; rw [List.foldl_cons, ih, Tile.passSlot_frame]

theorem Tile.slot_passSlot_ne (ready : Nat → Prop) [DecidablePred ready] (t : Tile) {b c : Nat} (h : c ≠ b) :
    (t.passSlot ready b).slot c = t.slot c := by
  unfold Tile.passSlot
  split
  · exact t.slot_setSlot_ne _ h
  · rfl

theorem Tile.slot_passSlots_notMem (ready : Nat → Prop) [DecidablePred ready] {c : Nat} (l : List Nat) : ∀ {t : Tile}, c ∉ l →
    (l.foldl (Tile.passSlot ready) t).slot c = t.slot c := by
  induction l with
  | nil => intros; rfl
  | cons b l ih =>
    intro t hc
    obtain ⟨hb, hl⟩ := not_or.1 (List.mem_cons.not.1 hc)
    rw [List.foldl_cons, ih hl, t.slot_passSlot_ne ready hb]

theorem Tile.slot_passSlots_unready (ready : Nat → Prop) [DecidablePred ready] {c : Nat} (hr : ¬ ready c) (l : List Nat) : ∀ t : Tile,
    (l.foldl (Tile.passSlot ready) t).slot c = t.slot c := by
  induction l with
  | nil => exact fun _ => rfl
  | cons b l ih =>
    intro t
    rw [List.foldl_cons, ih]
    by_cases hb : c = b
    · subst hb; rw [Tile.passSlot, if_neg hr]
    · exact t.slot_passSlot_ne ready hb

theorem Tile.slot_passSlots (ready : Nat → Prop) [DecidablePred ready] {c : Nat} (hc : c < 8) (hr : ready c) (l : List Nat) :
    ∀ {t : Tile}, l.Nodup → c ∈ l →
    (l.foldl (Tile.passSlot ready) t).slot c = { t.slot c with bypass := min 64 ((t.slot c).bypass + 1) } := by
  induction l with
  | nil => intro t _ hm; cases hm
  | cons b l ih =>
    intro t hn hm
    obtain ⟨hb, hl⟩ := List.nodup_cons.1 hn
    rw [List.foldl_cons]
    by_cases hcb : c = b
    · subst hcb
      rw [Tile.slot_passSlots_notMem ready l hb, Tile.passSlot, if_pos hr, Tile.slot_setSlot t hc]
    · rw [ih hl ((List.mem_cons.1 hm).resolve_left hcb), t.slot_passSlot_ne ready hcb]

/-- R46: tile p once the ready slots other than a are passed over. -/
def State.passedTile (s : State) (p a : Nat) : Tile :=
  (List.range 8).foldl (Tile.passSlot (fun b => b ≠ a ∧ s.mayFire p b = true)) (s.tile p)

theorem countBypass_eq (s : State) (p a : Nat) :
    s.countBypass p a = if (s.tile p).readyFirst then s.setTile p (s.passedTile p a) else s := by
  cases hr : (s.tile p).readyFirst <;> simp only [State.countBypass, hr] <;> rfl

theorem countBypass_scheduled {s : State} (h : Sparse.rising s.tiles = true) (p a : Nat) : Scheduled s (s.countBypass p a) p a := by
  rw [countBypass_eq]
  split
  · exact {
      frame := rfl
      others := fun _ hq => State.tile_setTile_ne h _ hq
      own := by rw [State.tile_setTile h, State.passedTile, Tile.passSlots_frame]
      slot := by rw [State.tile_setTile h, State.passedTile, Tile.slot_passSlots_unready]; exact fun hr => hr.1 rfl
      rising := State.rising_setTile h _ _ }
  · exact scheduled_refl h p a

theorem bypass_countBypass {s : State} (h : Sparse.rising s.tiles = true) {p a b : Nat} (hr : (s.tile p).readyFirst = true) (hb : b < 8)
    (hne : b ≠ a) (hf : s.mayFire p b = true) :
    (((s.countBypass p a).tile p).slot b).bypass = min 64 (((s.tile p).slot b).bypass + 1) := by
  rw [countBypass_eq, if_pos hr, State.tile_setTile h, State.passedTile,
    Tile.slot_passSlots _ hb ⟨hne, hf⟩ _ List.nodup_range (List.mem_range.2 hb)]

/-- R46: with no slot passed over 64 times, the lowest slot that may fire is chosen. -/
theorem readyFirstSlot_lowest {s : State} {p a : Nat} (ha : a < 8) (hf : s.mayFire p a = true) (hlow : ∀ b, b < a → s.mayFire p b = false)
    (hpass : ∀ b, b < 8 → ((s.tile p).slot b).bypass < 64) : s.readyFirstSlot p = some a := by
  have hnone : ((List.range 8).filter (s.mayFire p)).find? (fun b => decide (64 ≤ ((s.tile p).slot b).bypass)) = none := by
    rw [List.find?_eq_none]
    intro b hb
    have := hpass b (List.mem_range.1 (List.mem_filter.1 hb).1)
    simpa using this
  have hhead : ((List.range 8).filter (s.mayFire p)).head? = some a := by
    rw [List.head?_filter, List.find?_range_eq_some]
    exact ⟨hf, List.mem_range.2 ha, fun b hb => by rw [hlow b hb]; rfl⟩
  simp only [State.readyFirstSlot, hnone, hhead]

theorem readyFirstSlot_none {s : State} {p : Nat} (h : ∀ a, a < 8 → s.mayFire p a = false) : s.readyFirstSlot p = none := by
  have hready : (List.range 8).filter (s.mayFire p) = [] :=
    List.filter_eq_nil_iff.2 (fun a ha => by rw [h a (List.mem_range.1 ha)]; exact Bool.false_ne_true)
  simp only [State.readyFirstSlot, hready, List.find?_nil, List.head?_nil]

/-- R45 to R47: tile p holds no firing, and its region runs a graph that is not pre-empted. -/
structure Idle (s : State) (p : Nat) : Prop where
  free : (s.tile p).firing = none
  owned : s.owner p ≠ none
  started : (s.region (s.regionOf p)).started = true
  running : (s.region (s.regionOf p)).halted = false

theorem Idle.notOwnerless {s : State} {p : Nat} (h : Idle s p) : (s.owner p).isNone = false :=
  Option.isNone_eq_false_iff.2 (Option.isSome_iff_ne_none.2 h.owned)

/-- R45: in the table's order the slot named next starts, once its entry is the tile's position, where it may. -/
theorem Idle.schedule_inOrder {s : State} {p : Nat} (h : Idle s p) (ht : Sparse.rising s.tiles = true) (hm : (s.tile p).readyFirst = false)
    (hl : (s.tile p).schedLen ≠ 0) :
    let i := (s.tile p).passOver (s.tile p).schedLen (s.tile p).schedPos
    let u := s.setTile p { s.tile p with schedPos := i }
    s.schedule p = if s.mayFire p ((s.tile p).schedEntry i) then u.startFiring p ((s.tile p).schedEntry i) false else u := by
  intro i u
  have hpos := scheduled_position ht p ((s.tile p).schedEntry i) i
  rw [← hpos.sameArcs.mayFire hpos.slot]
  simp only [State.schedule, h.free, h.notOwnerless, h.started, h.running, hm, hl, Option.isSome_none, Bool.not_true, Bool.or_self,
    Bool.false_eq_true, if_false, u, i]

theorem Idle.schedule_ready {s : State} {p a : Nat} (h : Idle s p) (hm : (s.tile p).readyFirst = true) (ha : s.readyFirstSlot p = some a) :
    s.schedule p = (s.countBypass p a).startFiring p a false := by
  simp only [State.schedule, h.free, h.notOwnerless, h.started, h.running, hm, ha, Option.isSome_none, Bool.not_true, Bool.or_self,
    Bool.false_eq_true, if_false, if_true]

theorem Idle.schedule_unready {s : State} {p : Nat} (h : Idle s p) (hm : (s.tile p).readyFirst = true) (ha : s.readyFirstSlot p = none) :
    s.schedule p = s := by
  simp only [State.schedule, h.free, h.notOwnerless, h.started, h.running, hm, ha, Option.isSome_none, Bool.not_true, Bool.or_self,
    Bool.false_eq_true, if_false, if_true]

theorem exec_firingStart {p : Nat} (hp : p < 2048) (s : State) : exec (.firingStart p) s = .next (s.schedule p) := by
  change execFiringStart p s = _
  rw [execFiringStart, if_pos hp]

/-! ## The start of a firing (R39, R47) -/

/-- R39: a core with its program counter and s1 to s4 set. -/
def Core.begin (base : Core) (pc w1 w2 w3 w4 : Word) : Core :=
  (((({ base with pc := pc } : Core).setS 1 w1).setS 2 w2).setS 3 w3).setS 4 w4

theorem Core.sreg_begin (base : Core) (pc w1 w2 w3 w4 : Word) (n : Nat) : (base.begin pc w1 w2 w3 w4).sreg n =
    if n = 1 then w1 else if n = 2 then w2 else if n = 3 then w3 else if n = 4 then w4 else base.sreg n := by
  unfold Core.begin
  by_cases h4 : n = 4
  · subst h4; rw [Core.sreg_setS _ (by decide)]; rfl
  rw [Core.sreg_setS_ne _ _ h4]
  by_cases h3 : n = 3
  · subst h3; rw [Core.sreg_setS _ (by decide)]; rfl
  rw [Core.sreg_setS_ne _ _ h3]
  by_cases h2 : n = 2
  · subst h2; rw [Core.sreg_setS _ (by decide)]; rfl
  rw [Core.sreg_setS_ne _ _ h2]
  by_cases h1 : n = 1
  · subst h1; rw [Core.sreg_setS _ (by decide)]; rfl
  rw [Core.sreg_setS_ne _ _ h1, if_neg h1, if_neg h2, if_neg h3, if_neg h4]
  rfl

theorem Core.sreg_fresh (n : Nat) : ({} : Core).sreg n = 0 := by
  by_cases hn : n < 32 <;> simp [Core.sreg, hn]

/-- R39, R188: the core that a firing of slot a starts with, on tile p. -/
def State.begunCore (s : State) (p a : Nat) (retry : Bool) : Core :=
  Core.begin (if retry then (s.coreAt p).trapRegs else {}) (word ((s.tile p).entry a ((s.tile p).phase a (s.modeOf p))))
    (word ((s.tile p).phase a (s.modeOf p))) (word ((s.tile p).slot a).firing) (word (0xF00000000000 + (s.tile p).privOff a))
    (word (s.ltileOf p))

/-- Tile p as a firing of slot a starts in a cycle. -/
def Tile.begun (t : Tile) (a cycle : Nat) : Tile :=
  { t.setSlot a { t.slot a with st := .firing, bypass := 0 } with firing := some { slot := a, since := cycle } }

theorem Tile.slot_begun (t : Tile) {a : Nat} (ha : a < 8) (c : Nat) :
    (t.begun a c).slot a = { t.slot a with st := .firing, bypass := 0 } := t.slot_setSlot ha _

theorem Tile.slot_begun_ne (t : Tile) {a b : Nat} (hb : b ≠ a) (c : Nat) : (t.begun a c).slot b = t.slot b := t.slot_setSlot_ne _ hb

theorem startFiring_frame (s : State) (p a : Nat) (retry : Bool) : s.startFiring p a retry =
    { s with cores := (s.startFiring p a retry).cores, tiles := (s.startFiring p a retry).tiles, mats := (s.startFiring p a retry).mats } := rfl

theorem tile_startFiring {s : State} (h : Sparse.rising s.tiles = true) (p a : Nat) (retry : Bool) :
    (s.startFiring p a retry).tile p = (s.tile p).begun a s.cycle := State.tile_setTile h p _

theorem tile_startFiring_ne {s : State} (h : Sparse.rising s.tiles = true) {p q : Nat} (hq : q ≠ p) (a : Nat) (retry : Bool) :
    (s.startFiring p a retry).tile q = s.tile q := State.tile_setTile_ne h _ hq

theorem coreAt_startFiring {s : State} (ht : Sparse.rising s.tiles = true) (hc : Sparse.rising s.cores = true) (p : Nat) {a : Nat} (ha : a < 8)
    (retry : Bool) : (s.startFiring p a retry).coreAt p = s.begunCore p a retry := by
  let u := (s.setTile p ((s.tile p).begun a s.cycle)).matStart p
  have hcore : (s.startFiring p a retry).coreAt p = u.begunCore p a retry := State.coreAt_setCoreAt (s := u) hc p _
  have hu : u.tile p = (s.tile p).begun a s.cycle := State.tile_setTile ht p _
  have harcs : SameArcs s u := ⟨rfl, rfl, rfl, fun q => by
    by_cases hq : q = p
    · subst hq; rw [hu]; rfl
    · rw [show u.tile q = s.tile q from State.tile_setTile_ne ht _ hq]⟩
  have hmode := harcs.modeOf p
  have hphase : (u.tile p).phase a = (s.tile p).phase a := by
    rw [hu]; funext r; rw [Tile.phase, Tile.slot_begun _ ha]; rfl
  have hfiring : ((u.tile p).slot a).firing = ((s.tile p).slot a).firing := by rw [hu, Tile.slot_begun _ ha]
  rw [hcore, State.begunCore, State.begunCore, hphase, hfiring, hmode, harcs.ltileOf, Tile.entry, Tile.privOff, harcs.cfg]
  rfl

theorem coreAt_startFiring_ne {s : State} (hc : Sparse.rising s.cores = true) {p m : Nat} (hm : m ≠ p) (a : Nat) (retry : Bool) :
    (s.startFiring p a retry).coreAt m = s.coreAt m := State.coreAt_setCoreAt_ne (s := s) hc _ hm

/-- What the scheduler's counts leave of the core that a firing starts with. -/
theorem Scheduled.begunCore {s u : State} {p a : Nat} (h : Scheduled s u p a) (retry : Bool) : u.begunCore p a retry = s.begunCore p a retry := by
  have hcore : u.coreAt p = s.coreAt p := by rw [h.frame]; rfl
  rw [State.begunCore, State.begunCore, h.sameArcs.phase h.slot, h.slot, h.sameArcs.modeOf, h.sameArcs.ltileOf, Tile.entry, Tile.privOff,
    h.sameArcs.cfg, hcore]
  rfl

end Sys2Proof.Machine
end

section
/-! PROOFS. Which slot starts a firing, and the limit of a firing. -/

namespace Sys2Proof.Claims

open Sys2Proof.Machine

theorem mayFire_iff (s : State) (p a : Nat) : s.mayFire p a = true ↔ canFire s p a := by
  simp only [State.mayFire, State.firingRule, canFire, Bool.and_eq_true, beq_iff_eq, List.all_eq_true, List.mem_range, decide_eq_true_eq,
    Bool.not_eq_true', and_assoc]

theorem mayFire_false {s : State} {p a : Nat} (h : ¬ canFire s p a) : s.mayFire p a = false := by
  rwa [← mayFire_iff, Bool.not_eq_true] at h

/-- R39, R47: what a firing starts with, after the scheduler's counts have changed. -/
theorem started_startFiring {s u : State} (hc : Sparse.rising s.cores = true) {p a : Nat} (ha : a < 8) (h : Scheduled s u p a) :
    Started s (u.startFiring p a false) p a := by
  have huc : u.cores = s.cores := by rw [h.frame]
  have hcycle : u.cycle = s.cycle := by rw [h.frame]
  have hcore : (u.startFiring p a false).coreAt p = s.begunCore p a false := by
    rw [coreAt_startFiring h.rising (huc ▸ hc) p ha, h.begunCore]
  have htile := tile_startFiring h.rising p a false
  have hsreg (n : Nat) := (congrArg (Core.sreg · n) hcore).trans (Core.sreg_begin ..)
  exact {
    firing := by rw [htile, hcycle]; rfl
    slot := by rw [htile, Tile.slot_begun _ ha, h.slot]
    pc := by rw [hcore, exact_natCast]; rfl
    s1 := by rw [hsreg, exact_natCast]; rfl
    s2 := by rw [hsreg, exact_natCast]; rfl
    s3 := by rw [hsreg]; exact (exact_natCast _).symm
    s4 := by rw [hsreg, exact_natCast]; rfl
    zeros := fun n hn => by
      rw [hsreg, if_neg (by omega), if_neg (by omega), if_neg (by omega), if_neg (by omega)]
      exact Core.sreg_fresh n
    rest := by rw [hcore]; rfl
    cores := fun m hm => by rw [coreAt_startFiring_ne (huc ▸ hc) hm, h.frame]; rfl
    tiles := fun q hq => by rw [tile_startFiring_ne h.rising hq, h.others q hq]
    others := by rw [startFiring_frame, h.frame] }

theorem firingStarts : FiringStarts := by
  intro s p hs hp hf ho hst hh
  have hidle : Idle s p := ⟨hf, ho, hst, hh⟩
  have ht := State.wf_tiles hs
  have hc := State.wf_cores hs
  rw [exec_firingStart hp]
  refine ⟨fun hmode hlen => ⟨fun hcan ha => ?next, fun hcan => ?held⟩,
    fun hmode => ⟨fun a ha hcan hlow hpass => ?lowest, fun hnone => ?stays⟩⟩
  case next =>
    have hpos := scheduled_position ht p ((s.tile p).schedEntry ((s.tile p).passOver (s.tile p).schedLen (s.tile p).schedPos))
      ((s.tile p).passOver (s.tile p).schedLen (s.tile p).schedPos)
    rw [hidle.schedule_inOrder ht hmode hlen, if_pos ((mayFire_iff ..).2 hcan)]
    refine ⟨_, rfl, started_startFiring hc ha hpos, ?_⟩
    rw [tile_startFiring hpos.rising, State.tile_setTile ht]
    rfl
  case held =>
    rw [hidle.schedule_inOrder ht hmode hlen, mayFire_false hcan, if_neg Bool.false_ne_true]
    exact ⟨_, rfl, rfl, State.tile_setTile ht p _, fun q hq => State.tile_setTile_ne ht _ hq⟩
  case lowest =>
    have hslot := readyFirstSlot_lowest ha ((mayFire_iff s p a).2 hcan) (fun b hb => mayFire_false (hlow b hb)) hpass
    have hcount := countBypass_scheduled ht p a
    rw [hidle.schedule_ready hmode hslot]
    refine ⟨_, rfl, started_startFiring hc ha hcount, fun b hb hne hcanb => ?_⟩
    rw [tile_startFiring hcount.rising, Tile.slot_begun_ne _ hne]
    exact bypass_countBypass ht hmode hb hne ((mayFire_iff s p b).2 hcanb)
  case stays =>
    rw [hidle.schedule_unready hmode (readyFirstSlot_none (fun a ha => mayFire_false (hnone a ha)))]

/-! ## The limit of a firing (R40) -/

theorem exec_firingLimit {s : State} {p : Nat} {f : Firing} (hp : p < 2048) (hf : (s.tile p).firing = some f) :
    exec (.firingLimit p) s =
      .next (s.asCore p (fun u => if u.firingRuns f && u.firingLate f then u.takeLimit f else u)) := by
  have hown : ({ s with cur := p } : State).myTile.firing = some f := hf
  change execFiringLimit p s = _
  rw [execFiringLimit, if_pos hp]
  simp only [State.asCore, hown]

/-- R40, R273: of the operations of a core whose waiting instruction is abandoned, that instruction's is left without a firing, and is gone
where it is a `barw`; every other one is as before. -/
theorem mem_netOps_abandonWait {s : State} (h : Sparse.rising s.netOps = true) {p id : Nat} (hw : (s.coreAt p).waitOp = some id) (o : NetOp) :
    o ∈ Sparse.get [] (s.abandonWait p).netOps p ↔
      ∃ x ∈ Sparse.get [] s.netOps p, (x.id ≠ id ∨ x.kind ≠ .barw) ∧ (if x.id = id then { x with orphan := true } else x) = o := by
  have hops : (s.abandonWait p).netOps = Sparse.set [] s.netOps p (((Sparse.get [] s.netOps p).filter (fun o => o.id ≠ id ∨ o.kind ≠ .barw)).map
      (fun o => if o.id = id then { o with orphan := true } else o)) := by
    simp only [State.abandonWait, hw]
    split <;> rfl
  rw [hops, Sparse.get_set_self h]
  simp only [List.mem_map, List.mem_filter, decide_eq_true_eq, and_assoc]

/-- R273: a held `barw` is withdrawn. -/
theorem isLive_abandonWait {s : State} {p id : Nat} (hw : (s.coreAt p).waitOp = some id)
    (hb : ∃ o ∈ Sparse.get [] s.netOps p, o.id = id ∧ o.kind = .barw) : (s.abandonWait p).isLive id = false := by
  have hheld : (Sparse.get [] s.netOps p).any (fun o => o.id == id && o.kind == .barw) = true := by
    simpa [List.any_eq_true] using hb
  simp only [State.abandonWait, hw, hheld, if_true]
  rw [State.isLive_retire, bne_self_eq_false, Bool.and_false]

theorem abandonWait_asCore (s : State) (p : Nat) : ({ s with cur := p } : State).abandonWait p = { s.abandonWait p with cur := p } := by
  have hcore : ({ s with cur := p } : State).coreAt p = s.coreAt p := rfl
  cases hw : (s.coreAt p).waitOp with
  | none => simp only [State.abandonWait, hcore, hw]
  | some id => simp only [State.abandonWait, hcore, hw]; split <;> rfl

theorem firingLimit : FiringLimit := by
  intro s p f hp hf htrap hst
  have hruns : ({ s with cur := p } : State).firingRuns f = true := by
    simp only [State.firingRuns, htrap, Bool.not_false, Bool.true_and, beq_iff_eq]
    exact hst
  have hlate : ({ s with cur := p } : State).firingLate f = true ↔
      (s.tile p).fmax f.slot ≠ 0 ∧ (s.tile p).fmax f.slot + 1 < f.count0 + (s.cycle - f.since) + 1 := by
    simp only [State.firingLate, Bool.and_eq_true, decide_eq_true_eq]
    rfl
  intro m count u
  refine ⟨fun hm hc => ?late, fun hw => ?_, fun id hs hw => ⟨fun o ho hid => ?abandoned, fun o ho hid => ?kept, isLive_abandonWait hw⟩,
    fun hc => ?inTime⟩
  case late =>
    rw [exec_firingLimit hp hf, exact_natCast]
    simp only [State.asCore, hruns, hlate.2 ⟨hm, hc⟩, Bool.and_self, if_true, State.takeLimit]
    rw [abandonWait_asCore]
    rfl
  case inTime =>
    have hlate : ({ s with cur := p } : State).firingLate f = false := by
      rw [← Bool.not_eq_true, hlate]
      omega
    rw [exec_firingLimit hp hf]
    simp only [State.asCore, hlate, Bool.and_false, Bool.false_eq_true, if_false]
  case abandoned =>
    obtain ⟨x, -, hx, rfl⟩ := (mem_netOps_abandonWait (State.wf_netOps hs) hw o).1 ho
    by_cases hxid : x.id = id
    · rw [if_pos hxid]
      exact ⟨hx.resolve_left (not_not.2 hxid), rfl⟩
    · rw [if_neg hxid] at hid
      exact absurd hid hxid
  case kept =>
    exact (mem_netOps_abandonWait (State.wf_netOps hs) hw o).2 ⟨o, ho, .inl hid, if_neg hid⟩
  · simp only [u, State.abandonWait, hw]

/-- Settles O25: the scheduler's choice, and the limit of a firing. -/
theorem firingStart : Obligations.FiringStart := ⟨firingStarts, firingLimit⟩

end Sys2Proof.Claims
end

section
/-! SUPPORT. Laws of flits queued at a slot's descriptors, of the discard of a firing, and of the fault record. -/

namespace Sys2Proof.Machine

/-! ## Descriptors of a slot -/

theorem State.desc_setDesc {s : State} (h : Sparse.rising s.descs = true) (k x : Nat) (d : Desc) :
    (s.setDesc k d).desc x = if k = x then d else s.desc x := Sparse.get_set h

theorem descKey_injective (p : Nat) : Function.Injective (descKey p) := fun a b h => by
  unfold descKey at h; omega

theorem State.nodup_outDescs (s : State) (p a : Nat) : (s.outDescs p a).Nodup :=
  (List.nodup_range.map (descKey_injective p)).filter _

theorem State.kind_of_mem_outDescs {s : State} {p a k : Nat} (h : k ∈ s.outDescs p a) : (s.desc k).kind = 2 := by
  have := (List.mem_filter.1 h).2
  simp only [Bool.and_eq_true, beq_iff_eq] at this
  exact this.1

theorem State.kind_of_mem_inDescs {s : State} {p a k : Nat} (h : k ∈ s.inDescs p a) : (s.desc k).kind = 1 := by
  have := (List.mem_filter.1 h).2
  simp only [Bool.and_eq_true, beq_iff_eq] at this
  exact this.1

theorem State.outDescs_congr {s u : State} (h : ∀ k, (u.desc k).kind = (s.desc k).kind ∧ (u.desc k).slot = (s.desc k).slot) (p a : Nat) :
    u.outDescs p a = s.outDescs p a := by
  simp only [State.outDescs, (h _).1, (h _).2]

/-! ## Flits queued (R234) -/

theorem State.queued_queueFlit {s : State} (h : Sparse.rising s.queued = true) (k x : Nat) (f : Flit) :
    Sparse.get [] (s.queueFlit k f).queued x = if k = x then Sparse.get [] s.queued k ++ [f] else Sparse.get [] s.queued x :=
  Sparse.get_set h

/-- Nothing but descriptors and queues of flits differs. -/
def ArcsOnly (s t : State) : Prop := t = { s with descs := t.descs, queued := t.queued, entered := t.entered }

theorem ArcsOnly.refl (s : State) : ArcsOnly s s := rfl

theorem ArcsOnly.trans {s t u : State} (h : ArcsOnly s t) (k : ArcsOnly t u) : ArcsOnly s u := by
  rw [ArcsOnly, k, h]

theorem ArcsOnly.queueFlit (s : State) (k : Nat) (f : Flit) : ArcsOnly s (s.queueFlit k f) := rfl

theorem ArcsOnly.setDesc (s : State) (k : Nat) (d : Desc) : ArcsOnly s (s.setDesc k d) := rfl

theorem ArcsOnly.foldl {α : Type} (f : State → α → State) (hf : ∀ s x, ArcsOnly s (f s x)) (l : List α) : ∀ s, ArcsOnly s (l.foldl f s) := by
  induction l with
  | nil => exact fun s => .refl s
  | cons x l ih => exact fun s => (hf s x).trans (ih _)

theorem ArcsOnly.tile {s t : State} (h : ArcsOnly s t) (p : Nat) : t.tile p = s.tile p := by rw [h]; rfl

/-- A flit queued at each of a list of descriptors. -/
theorem State.queued_foldl_queueFlit (f : Flit) (l : List Nat) : ∀ {s : State}, Sparse.rising s.queued = true → l.Nodup → ∀ x,
    Sparse.get [] (l.foldl (fun s k => s.queueFlit k f) s).queued x =
      if x ∈ l then Sparse.get [] s.queued x ++ [f] else Sparse.get [] s.queued x := by
  induction l with
  | nil => intros; rfl
  | cons k l ih =>
    intro s h hn x
    obtain ⟨hk, hl⟩ := List.nodup_cons.1 hn
    rw [List.foldl_cons, ih (Sparse.set_rising h) hl, State.queued_queueFlit h]
    by_cases hx : k = x
    · subst hx; simp [hk]
    · simp [hx, Ne.symm hx]

theorem State.rising_foldl_queueFlit (f : Flit) (l : List Nat) : ∀ {s : State}, Sparse.rising s.queued = true →
    Sparse.rising (l.foldl (fun s k => s.queueFlit k f) s).queued = true := by
  induction l with
  | nil => exact id
  | cons k l ih => exact fun h => ih (Sparse.set_rising h)

theorem State.foldl_queueFlit_frame (f : Flit) (l : List Nat) : ∀ s : State, l.foldl (fun s k => s.queueFlit k f) s =
    { s with queued := (l.foldl (fun s k => s.queueFlit k f) s).queued, entered := (l.foldl (fun s k => s.queueFlit k f) s).entered } := by
  induction l with
  | nil => exact fun _ => rfl
  | cons k l ih => intro s; rw [List.foldl_cons, ih]; rfl

theorem sendMarkers_frame (s : State) (p a mode : Nat) (flt : Bool) : s.sendMarkers p a mode flt =
    { s with queued := (s.sendMarkers p a mode flt).queued, entered := (s.sendMarkers p a mode flt).entered } :=
  State.foldl_queueFlit_frame _ _ s

theorem rising_sendMarkers {s : State} (h : Sparse.rising s.queued = true) (p a mode : Nat) (flt : Bool) :
    Sparse.rising (s.sendMarkers p a mode flt).queued = true := State.rising_foldl_queueFlit _ _ h

theorem queued_sendMarkers {s : State} (h : Sparse.rising s.queued = true) (p a mode : Nat) (flt : Bool) (x : Nat) :
    Sparse.get [] (s.sendMarkers p a mode flt).queued x =
      if x ∈ s.outDescs p a then Sparse.get [] s.queued x ++ [.marker mode flt] else Sparse.get [] s.queued x :=
  State.queued_foldl_queueFlit _ _ h (s.nodup_outDescs p a) x

/-! ## Markers removed, tokens discarded (R62, R63, R248) -/

/-- A descriptor whose marker is removed. -/
def Desc.unmarked (d : Desc) : Desc := { d with mark := false, mmode := 0, mflt := false }

/-- The markers of a list of descriptors are removed. -/
def State.unmark (s : State) (l : List Nat) : State := l.foldl (fun s k => s.setDesc k (s.desc k).unmarked) s

theorem State.unmark_frame (l : List Nat) : ∀ s : State, s.unmark l = { s with descs := (s.unmark l).descs } := by
  induction l with
  | nil => exact fun _ => rfl
  | cons k l ih => exact fun s => ih (s.setDesc k (s.desc k).unmarked)

theorem State.desc_unmark (l : List Nat) : ∀ {s : State}, Sparse.rising s.descs = true → ∀ x,
    (s.unmark l).desc x = if x ∈ l then (s.desc x).unmarked else s.desc x := by
  induction l with
  | nil => intros; rfl
  | cons k l ih =>
    intro s h x
    refine (ih (s := s.setDesc k (s.desc k).unmarked) (Sparse.set_rising h) x).trans ?_
    rw [State.desc_setDesc h]
    by_cases hx : k = x
    · subst hx
      by_cases hl : k ∈ l <;> simp [hl, Desc.unmarked]
    · simp [hx, Ne.symm hx]

/-- A descriptor whose tokens are discarded. -/
def Desc.drained (d : Desc) : Desc := { d with rd := d.wr, rpos := (d.rpos + d.count) % max 1 d.cap }

theorem dropTokens_empty {s : State} {q : Nat} (h : (s.desc q).count = 0) : s.dropTokens q = s := by
  simp only [State.dropTokens, h, if_true]

theorem dropTokens_held {s : State} {q : Nat} (h : (s.desc q).count ≠ 0) : ∃ f : Region → Region, s.dropTokens q =
    ((s.mapRegion (s.keyRegion q) f).setDesc q (s.desc q).drained).queueFlit q (.ret (s.desc q).wr) := by
  refine ⟨fun r => { r with discards := r.discards + (s.desc q).count }, ?_⟩
  simp only [State.dropTokens, h, if_false, Desc.drained]

/-- Nothing but regions, descriptors and queues of flits differs. -/
def DropsOnly (s t : State) : Prop :=
  t = { s with regions := t.regions, descs := t.descs, queued := t.queued, entered := t.entered }

theorem DropsOnly.trans {s t u : State} (h : DropsOnly s t) (k : DropsOnly t u) : DropsOnly s u := by
  rw [DropsOnly, k, h]

theorem DropsOnly.mapRegion (s : State) (g : Nat) (f : Region → Region) : DropsOnly s (s.mapRegion g f) := rfl

theorem ArcsOnly.dropsOnly {s t : State} (h : ArcsOnly s t) : DropsOnly s t := by rw [DropsOnly, h]

theorem DropsOnly.dropTokens (s : State) (q : Nat) : DropsOnly s (s.dropTokens q) := by
  by_cases h : (s.desc q).count = 0
  · rw [dropTokens_empty h]; rfl
  · obtain ⟨f, hf⟩ := dropTokens_held h
    rw [hf]
    exact (DropsOnly.mapRegion s _ f).trans ((ArcsOnly.setDesc _ _ _).trans (.queueFlit _ _ _)).dropsOnly

theorem rising_dropTokens_descs {s : State} (h : Sparse.rising s.descs = true) (q : Nat) : Sparse.rising (s.dropTokens q).descs = true := by
  by_cases hc : (s.desc q).count = 0
  · rwa [dropTokens_empty hc]
  · obtain ⟨f, hf⟩ := dropTokens_held hc
    rw [hf]; exact Sparse.set_rising h

theorem rising_dropTokens_queued {s : State} (h : Sparse.rising s.queued = true) (q : Nat) : Sparse.rising (s.dropTokens q).queued = true := by
  by_cases hc : (s.desc q).count = 0
  · rwa [dropTokens_empty hc]
  · obtain ⟨f, hf⟩ := dropTokens_held hc
    rw [hf]; exact Sparse.set_rising h

theorem queued_dropTokens_ne {s : State} (h : Sparse.rising s.queued = true) {q x : Nat} (hx : x ≠ q) :
    Sparse.get [] (s.dropTokens q).queued x = Sparse.get [] s.queued x := by
  by_cases hc : (s.desc q).count = 0
  · rw [dropTokens_empty hc]
  · obtain ⟨f, hf⟩ := dropTokens_held hc
    rw [hf]; exact Sparse.get_set_ne h hx.symm

theorem desc_dropTokens_ne {s : State} (h : Sparse.rising s.descs = true) {q x : Nat} (hx : x ≠ q) : (s.dropTokens q).desc x = s.desc x := by
  by_cases hc : (s.desc q).count = 0
  · rw [dropTokens_empty hc]
  · obtain ⟨f, hf⟩ := dropTokens_held hc
    rw [hf]; exact Sparse.get_set_ne h hx.symm

theorem count_dropTokens_kept {s : State} (h : Sparse.rising s.descs = true) (q : Nat) {x : Nat} (hx : (s.desc x).count = 0) :
    ((s.dropTokens q).desc x).count = 0 := by
  by_cases hq : x = q
  · subst hq; exact State.count_dropTokens h x
  · rwa [desc_dropTokens_ne h hq]

/-- The tokens of a list of descriptors are discarded: only regions' counts, the descriptors and their queues change. -/
theorem foldl_dropTokens_frame (l : List Nat) : ∀ s : State, DropsOnly s (l.foldl State.dropTokens s) := by
  induction l with
  | nil => exact fun _ => rfl
  | cons q l ih => exact fun s => (DropsOnly.dropTokens s q).trans (ih _)

theorem queued_foldl_dropTokens {x : Nat} (l : List Nat) : ∀ {s : State}, Sparse.rising s.queued = true → x ∉ l →
    Sparse.get [] (l.foldl State.dropTokens s).queued x = Sparse.get [] s.queued x := by
  induction l with
  | nil => intros; rfl
  | cons q l ih =>
    intro s h hx
    obtain ⟨hq, hl⟩ := not_or.1 (List.mem_cons.not.1 hx)
    rw [List.foldl_cons, ih (rising_dropTokens_queued h q) hl, queued_dropTokens_ne h hq]

theorem count_foldl_dropTokens {x : Nat} (l : List Nat) : ∀ {s : State}, Sparse.rising s.descs = true → (x ∈ l ∨ (s.desc x).count = 0) →
    ((l.foldl State.dropTokens s).desc x).count = 0 := by
  induction l with
  | nil => exact fun _ hx => hx.resolve_left List.not_mem_nil
  | cons q l ih =>
    intro s h hx
    refine ih (rising_dropTokens_descs h q) ?_
    obtain hm | hc := hx
    · obtain rfl | hm := List.mem_cons.1 hm
      · exact .inr (State.count_dropTokens h x)
      · exact .inl hm
    · exact .inr (count_dropTokens_kept h q hc)

/-! ## A firing discarded (R44), a copy or an actor stopped (R59) -/

/-- Nothing but memory and its check words differs. -/
def MemoryOnly (s t : State) : Prop := t = { s with mem := t.mem, bad := t.bad }

theorem MemoryOnly.trans {s t u : State} (h : MemoryOnly s t) (k : MemoryOnly t u) : MemoryOnly s u := by
  rw [MemoryOnly, k, h]

theorem MemoryOnly.wrBlock (s : State) (k : Nat) (bs : List Byte) : MemoryOnly s (s.wrBlock k bs) := State.wrBlock_frame s k bs

theorem writeBack_cons (s : State) (p a k : Nat) (ks : List Nat) : s.writeBack p a (k :: ks) =
    (s.wrBlock (tileBase p + (s.tile p).privOff a + 64 * k) (s.rdList (tileBase p + 0x7E000 + 64 * k) 64)).writeBack p a ks :=
  State.writeBack.eq_def s p a (k :: ks)

theorem writeBack_memoryOnly (p a : Nat) (l : List Nat) : ∀ s : State, MemoryOnly s (s.writeBack p a l) := by
  induction l with
  | nil => exact fun _ => rfl
  | cons k l ih =>
    intro s
    have h := MemoryOnly.wrBlock s (tileBase p + (s.tile p).privOff a + 64 * k) (s.rdList (tileBase p + 0x7E000 + 64 * k) 64)
    rw [writeBack_cons]
    exact h.trans (ih _)

theorem writeBack_frame (p a : Nat) (l : List Nat) (s : State) :
    s.writeBack p a l = { s with mem := (s.writeBack p a l).mem, bad := (s.writeBack p a l).bad } := writeBack_memoryOnly p a l s

/-- The core that a discarded firing leaves: of a trapped one the trap registers describe the attempt (R188). -/
def State.discardedCore (s : State) (p : Nat) (f : Firing) : Core :=
  if f.trapped && f.fault.isNone && !f.partialPeriod then
    { trapcause := (s.tile p).record[0], trappc := (s.tile p).record[1], trapinfo0 := (s.tile p).record[2],
      trapinfo1 := (s.tile p).record[3], trapinfo2 := (s.tile p).record[4], trapinfo3 := (s.tile p).record[5] }
  else (s.coreAt p).trapRegs

theorem discard_none {s : State} {p : Nat} (h : (s.tile p).firing = none) : s.discard p = s := by
  simp only [State.discard, h]

theorem discard_some {s : State} {p : Nat} {f : Firing} (h : (s.tile p).firing = some f) : s.discard p =
    ((((s.writeBack p f.slot f.journal).orphanOps p).setTile p { s.tile p with firing := none }).setCoreAt p
      (s.discardedCore p f)).matDiscard p f.slot := by
  have hw := writeBack_frame p f.slot f.journal s
  have ht : (s.writeBack p f.slot f.journal).tile p = s.tile p := by rw [hw]; rfl
  have hc : (s.writeBack p f.slot f.journal).coreAt p = s.coreAt p := by rw [hw]; rfl
  simp only [State.discard, h, ht, hc]
  rfl

theorem discard_tiles (s : State) (p : Nat) : (s.discard p).tiles =
    if (s.tile p).firing.isSome then Sparse.set {} s.tiles p { s.tile p with firing := none } else s.tiles := by
  cases h : (s.tile p).firing with
  | none => rw [discard_none h]; rfl
  | some f =>
    rw [discard_some h, writeBack_frame]
    rfl

/-- A discard leaves the regions, the queues, the host's interrupts, the time, the descriptors and the flits alone. -/
theorem discard_frame (s : State) (p : Nat) : s.discard p =
    { s with mem := (s.discard p).mem, bad := (s.discard p).bad, ctxs := (s.discard p).ctxs, netOps := (s.discard p).netOps,
             hub := (s.discard p).hub, live := (s.discard p).live, tiles := (s.discard p).tiles, cores := (s.discard p).cores,
             mats := (s.discard p).mats } := by
  cases h : (s.tile p).firing with
  | none => rw [discard_none h]
  | some f => rw [discard_some h, writeBack_frame]; rfl

theorem rising_discard {s : State} (h : Sparse.rising s.tiles = true) (p : Nat) : Sparse.rising (s.discard p).tiles = true := by
  rw [discard_tiles]; split
  · exact Sparse.set_rising h
  · exact h

theorem rising_discard_cores {s : State} (h : Sparse.rising s.cores = true) (p : Nat) : Sparse.rising (s.discard p).cores = true := by
  cases hf : (s.tile p).firing with
  | none => rwa [discard_none hf]
  | some f => rw [discard_some hf, writeBack_frame]; exact Sparse.set_rising h

/-- R44: of the tiles, a discard changes that it has a firing in progress, and nothing else. -/
theorem tile_discard {s : State} (h : Sparse.rising s.tiles = true) (p : Nat) : (s.discard p).tile p = { s.tile p with firing := none } := by
  rw [State.tile, discard_tiles]
  cases hf : (s.tile p).firing with
  | none => exact (show s.tile p = _ by rw [← hf])
  | some f => exact Sparse.get_set_self h

theorem tile_discard_ne {s : State} (h : Sparse.rising s.tiles = true) {p q : Nat} (hq : q ≠ p) : (s.discard p).tile q = s.tile q := by
  rw [State.tile, discard_tiles]
  split
  · exact Sparse.get_set_ne h hq.symm
  · rfl

theorem coreAt_discard {s : State} (h : Sparse.rising s.cores = true) {p : Nat} {f : Firing} (hf : (s.tile p).firing = some f) :
    (s.discard p).coreAt p = s.discardedCore p f := by
  have hc : (s.writeBack p f.slot f.journal).cores = s.cores := by rw [writeBack_frame]
  rw [discard_some hf]
  exact State.coreAt_setCoreAt (s := ((s.writeBack p f.slot f.journal).orphanOps p).setTile p { s.tile p with firing := none }) (hc ▸ h) p _

/-- What the stop of a core leaves: the regions, the queues, the host's interrupts, the time, and every tile's fault record. -/
structure Halts (s t : State) : Prop where
  regions : t.regions = s.regions
  queues : t.queues = s.queues
  msix : t.msix = s.msix
  gtime : t.gtime = s.gtime
  record : ∀ q, (t.tile q).record = (s.tile q).record
  rising : Sparse.rising t.tiles = true

theorem Halts.refl {s : State} (h : Sparse.rising s.tiles = true) : Halts s s := ⟨rfl, rfl, rfl, rfl, fun _ => rfl, h⟩

theorem Halts.trans {s t u : State} (h : Halts s t) (k : Halts t u) : Halts s u :=
  ⟨k.regions.trans h.regions, k.queues.trans h.queues, k.msix.trans h.msix, k.gtime.trans h.gtime,
    fun q => (k.record q).trans (h.record q), k.rising⟩

theorem Halts.foldl (f : State → Nat → State) (hf : ∀ s k, Sparse.rising s.tiles = true → Halts s (f s k)) (l : List Nat) :
    ∀ {s}, Sparse.rising s.tiles = true → Halts s (l.foldl f s) := by
  induction l with
  | nil => exact fun h => .refl h
  | cons k l ih => exact fun h => (hf _ k h).trans (ih (hf _ k h).rising)

theorem discard_halts {s : State} (h : Sparse.rising s.tiles = true) (p : Nat) : Halts s (s.discard p) where
  regions := by rw [discard_frame]
  queues := by rw [discard_frame]
  msix := by rw [discard_frame]
  gtime := by rw [discard_frame]
  record q := by
    by_cases hq : q = p
    · subst hq; rw [tile_discard h]
    · rw [tile_discard_ne h hq]
  rising := rising_discard h p

theorem setTile_halts {s : State} (h : Sparse.rising s.tiles = true) {p : Nat} {t : Tile} (ht : t.record = (s.tile p).record) :
    Halts s (s.setTile p t) where
  regions := rfl
  queues := rfl
  msix := rfl
  gtime := rfl
  record q := by
    by_cases hq : q = p
    · subst hq; rw [State.tile_setTile h, ht]
    · rw [State.tile_setTile_ne h _ hq]
  rising := State.rising_setTile h p t

theorem sendMarkers_halts {s : State} (h : Sparse.rising s.tiles = true) (p a mode : Nat) (flt : Bool) :
    Halts s (s.sendMarkers p a mode flt) := by
  rw [sendMarkers_frame]
  exact ⟨rfl, rfl, rfl, rfl, fun _ => rfl, h⟩

theorem stopCopy_halts {s : State} (h : Sparse.rising s.tiles = true) (p a : Nat) : Halts s (s.stopCopy p a) := by
  unfold State.stopCopy
  have hd : Halts s (if ((s.tile p).firing.map Firing.slot) = some a then s.discard p else s) := by
    split
    · exact discard_halts h p
    · exact .refl h
  generalize (if ((s.tile p).firing.map Firing.slot) = some a then s.discard p else s) = u at hd ⊢
  have hs := hd.trans (setTile_halts hd.rising (p := p) (t := (u.tile p).setSlot a { (u.tile p).slot a with st := .stopped }) rfl)
  exact hs.trans (sendMarkers_halts hs.rising p a 0 true)

theorem stopActor_halts {s : State} (h : Sparse.rising s.tiles = true) (p a : Nat) : Halts s (s.stopActor p a) := by
  unfold State.stopActor
  refine Halts.foldl _ (fun u c hu => ?_) _ h
  split
  · exact .refl hu
  · split
    · exact .refl hu
    · exact stopCopy_halts hu _ _

/-! ## The fault record (R187) -/

/-- The status word of a fault record with its decision filled in. -/
def decidedStatus (w level policy tries : Nat) : Nat := w - bits w 8 9 * 2 ^ 8 + level * 2 ^ 8 + policy * 2 ^ 11 + tries * 2 ^ 13

theorem decidedStatus_level {level policy : Nat} (hl : level < 8) (w tries : Nat) :
    (word (decidedStatus w level policy tries)).toNat / 2 ^ 8 % 8 = level := by
  rw [BitVec.toNat_ofNat, decidedStatus, bits]; omega

theorem decidedStatus_policy {level policy : Nat} (hl : level < 8) (hp : policy < 4) (w tries : Nat) :
    (word (decidedStatus w level policy tries)).toNat / 2 ^ 11 % 4 = policy := by
  rw [BitVec.toNat_ofNat, decidedStatus, bits]; omega

/-- A tile whose fault record shows a decision. -/
def Tile.decided (t : Tile) (level policy tries : Nat) : Tile :=
  { t with record := t.record.set 7 (word (decidedStatus (t.record[7]).toNat level policy tries)) }

theorem Tile.decided_getElem (t : Tile) (level policy tries : Nat) {i : Nat} (hi : i < 7) :
    (t.decided level policy tries).record[i] = t.record[i] :=
  Vector.getElem_set_ne (by omega) (by omega) (by omega)

theorem Tile.decided_level (t : Tile) {level policy : Nat} (hl : level < 8) (tries : Nat) :
    (t.decided level policy tries).record[7].toNat / 2 ^ 8 % 8 = level := by
  rw [Tile.decided, Vector.getElem_set_self, decidedStatus_level hl]

theorem Tile.decided_policy (t : Tile) {level policy : Nat} (hl : level < 8) (hp : policy < 4) (tries : Nat) :
    (t.decided level policy tries).record[7].toNat / 2 ^ 11 % 4 = policy := by
  rw [Tile.decided, Vector.getElem_set_self, decidedStatus_policy hl hp]

/-- R59: the first report of a fault of a graph fills its first-fault word. -/
def Region.report (r : Region) (w : Word) : Region := if !r.reported then { r with reported := true, ffw := w } else r

theorem Region.report_frame (r : Region) (w : Word) : r.report w = { r with reported := (r.report w).reported, ffw := (r.report w).ffw } := by
  unfold Region.report; split <;> rfl

/-- R57, R59: a decision is recorded on tile p and reported to its region. -/
def State.decideFault (s : State) (p a code level policy tries : Nat) : State :=
  (s.recordDecision p level policy tries).reportFault p a code level policy

/-- A decision changes tile p's record and its region's report, and nothing else. -/
theorem decideFault_eq (s : State) (p a code level policy tries : Nat) : ∃ w, s.decideFault p a code level policy tries =
    (s.setTile p ((s.tile p).decided level policy tries)).mapRegion (s.regionOf p) (·.report w) := ⟨_, rfl⟩

theorem tile_decideFault {s : State} (h : Sparse.rising s.tiles = true) (p a code level policy tries : Nat) :
    (s.decideFault p a code level policy tries).tile p = (s.tile p).decided level policy tries := State.tile_setTile h p _

theorem rising_decideFault {s : State} (h : Sparse.rising s.tiles = true) (p a code level policy tries : Nat) :
    Sparse.rising (s.decideFault p a code level policy tries).tiles = true := State.rising_setTile h p _

theorem region_decideFault {s : State} (h : Sparse.rising s.regions = true) (p a code level policy tries k : Nat) :
    ∃ b w, (s.decideFault p a code level policy tries).region k = { s.region k with reported := b, ffw := w } := by
  obtain ⟨w, hw⟩ := decideFault_eq s p a code level policy tries
  rw [hw, State.region_mapRegion (s := s.setTile p _) h]
  split
  · subst_vars; exact ⟨_, _, Region.report_frame _ w⟩
  · exact ⟨(s.region k).reported, (s.region k).ffw, rfl⟩

end Sys2Proof.Machine
end

section
/-! PROOFS. Markers at a slot: forwarding, partial periods, faulted markers. -/

namespace Sys2Proof.Claims

open Sys2Proof.Machine

/-! ## The events of a slot (R61 to R63) -/

theorem slotEvent_tile (p : Nat) {a : Nat} (ha : a < 8) : (8 * p + a) / 8 = p := by omega

theorem slotEvent_slot (p : Nat) {a : Nat} (ha : a < 8) : (8 * p + a) % 8 = a := by omega

theorem slotEvent_isSlot {p a : Nat} (hp : p < 2048) (ha : a < 8) : ¬ 16384 ≤ 8 * p + a := by omega

/-- Slot a of tile p waits, in a region that is not pre-empted. -/
structure SlotWaits (s : State) (p a : Nat) : Prop where
  tile : p < 2048
  slot : a < 8
  waiting : ((s.tile p).slot a).st = .waiting
  running : (s.region (s.regionOf p)).halted = false

theorem SlotWaits.markerForward_undecided {s : State} {p a : Nat} (h : SlotWaits s p a) (hu : (s.tile p).undecided a = true) :
    exec (.markerForward (8 * p + a)) s = .next s := by
  change execMarkerForward (8 * p + a) s = _
  simp only [execMarkerForward, slotEvent_tile p h.slot, slotEvent_slot p h.slot, if_neg (slotEvent_isSlot h.tile h.slot), hu, Bool.not_true,
    Bool.and_false, Bool.false_eq_true, if_false]

theorem SlotWaits.markerForward_clean {s : State} {p a : Nat} (h : SlotWaits s p a) (hu : (s.tile p).undecided a = false)
    (hi : s.inPorts p a ≠ []) (hf : s.faultedMarker p a = false) (hph : (s.tile p).phase a (s.modeOf p) = 0)
    (hc : ∀ j ∈ s.inPorts p a, s.cleanMarker p a j = true) :
    exec (.markerForward (8 * p + a)) s = .next (s.forwardMarker p a) := by
  change execMarkerForward (8 * p + a) s = _
  simp only [execMarkerForward, slotEvent_tile p h.slot, slotEvent_slot p h.slot, if_neg (slotEvent_isSlot h.tile h.slot), h.waiting, h.running,
    hu, hf, hph, List.isEmpty_eq_false_iff.2 hi, List.all_eq_true.2 hc, beq_self_eq_true, decide_true, Bool.not_false, Bool.and_self, if_true]

theorem SlotWaits.markerForward_partial {s : State} {p a j : Nat} (h : SlotWaits s p a) (hu : (s.tile p).undecided a = false)
    (hi : s.inPorts p a ≠ []) (hf : s.faultedMarker p a = false) (hph : (s.tile p).phase a (s.modeOf p) ≠ 0)
    (hj : s.partialPort p a = some j) : exec (.markerForward (8 * p + a)) s =
      .next (if (s.tile p).firing.isNone then s.partialPeriod p a j else s) := by
  change execMarkerForward (8 * p + a) s = _
  simp only [execMarkerForward, slotEvent_tile p h.slot, slotEvent_slot p h.slot, if_neg (slotEvent_isSlot h.tile h.slot), h.waiting, h.running,
    hu, hf, hph, hj, List.isEmpty_eq_false_iff.2 hi, beq_self_eq_true, decide_false, Bool.false_and, Bool.not_false, Bool.and_self,
    Bool.false_eq_true, if_true, if_false]

/-- R63: the slot of a faulted marker sends its markers, and discards its tokens. -/
def drainSlot (s : State) (p a : Nat) : State :=
  (s.inDescs p a).foldl State.dropTokens (s.sendMarkers p a 0 true)

theorem SlotWaits.faultedMarkerEffect_undecided {s : State} {p a : Nat} (h : SlotWaits s p a) (hu : (s.tile p).undecided a = true) :
    exec (.faultedMarkerEffect (8 * p + a)) s = .next s := by
  change execFaultedMarkerEffect (8 * p + a) s = _
  simp only [execFaultedMarkerEffect, slotEvent_tile p h.slot, slotEvent_slot p h.slot, if_neg (slotEvent_isSlot h.tile h.slot), hu,
    Bool.not_true, Bool.and_false, Bool.false_eq_true, if_false]

theorem SlotWaits.faultedMarkerEffect_eq {s : State} {p a : Nat} (h : SlotWaits s p a) (hu : (s.tile p).undecided a = false)
    (hf : s.faultedMarker p a = true) : exec (.faultedMarkerEffect (8 * p + a)) s =
      .next ((drainSlot s p a).setTile p ((s.tile p).setSlot a { (s.tile p).slot a with st := .quiescent })) := by
  have hin : (s.sendMarkers p a 0 true).inDescs p a = s.inDescs p a := by rw [sendMarkers_frame]; rfl
  have htile : (drainSlot s p a).tile p = s.tile p := by
    rw [drainSlot, foldl_dropTokens_frame, sendMarkers_frame]; rfl
  change execFaultedMarkerEffect (8 * p + a) s = _
  simp only [execFaultedMarkerEffect, slotEvent_tile p h.slot, slotEvent_slot p h.slot, if_neg (slotEvent_isSlot h.tile h.slot), h.waiting,
    h.running, hu, hf, beq_self_eq_true, Bool.not_false, Bool.and_self, if_true, hin]
  rw [← htile]
  rfl

/-! ## Forwarding (R62) -/

/-- R62: the inputs' markers are removed, and the outputs' queued. -/
def passMarkers (s : State) (p a : Nat) : State :=
  (s.unmark (s.inDescs p a)).sendMarkers p a ((s.markerModes p a).foldl max 0) false

theorem passMarkers_frame (s : State) (p a : Nat) : passMarkers s p a =
    { s with descs := (s.unmark (s.inDescs p a)).descs, queued := (passMarkers s p a).queued, entered := (passMarkers s p a).entered } := by
  unfold passMarkers
  rw [sendMarkers_frame, State.unmark_frame]

/-- R62, R64: the region's marker takes in the one of mode m that a sink removed, and the modes that differ. -/
def noteModes (u : State) (p a m : Nat) (split : Bool) : State :=
  let v := if (u.outDescs p a).isEmpty then u.mapRegion (u.regionOf p) (fun r => r.sinkMarker m) else u
  if split then v.mapRegion (v.regionOf p) (fun r => { r with modeSplit := true }) else v

theorem noteModes_frame (u : State) (p a m : Nat) (split : Bool) :
    noteModes u p a m split = { u with regions := (noteModes u p a m split).regions } := by
  unfold noteModes
  cases split <;> cases (u.outDescs p a).isEmpty <;> rfl

theorem forwardMarker_eq (s : State) (p a : Nat) : ∃ split,
    let v := noteModes (passMarkers s p a) p a ((s.markerModes p a).foldl max 0) split
    s.forwardMarker p a = v.setTile p ((v.tile p).setSlot a { (v.tile p).slot a with st := .quiescent }) := ⟨_, rfl⟩

/-- R62: beside that, a forwarded marker changes the region's marker and the slot's state. -/
theorem forwardMarker_frame (s : State) (p a : Nat) : s.forwardMarker p a =
    { (passMarkers s p a).setTile p ((s.tile p).setSlot a { (s.tile p).slot a with st := .quiescent }) with
      regions := (s.forwardMarker p a).regions } := by
  obtain ⟨split, h⟩ := forwardMarker_eq s p a
  have htile : (noteModes (passMarkers s p a) p a ((s.markerModes p a).foldl max 0) split).tile p = s.tile p := by
    rw [noteModes_frame, passMarkers_frame]; rfl
  rw [h]
  dsimp only
  rw [htile, noteModes_frame]
  rfl

theorem outDescs_unmark {s : State} (h : Sparse.rising s.descs = true) (l : List Nat) (p a : Nat) :
    (s.unmark l).outDescs p a = s.outDescs p a :=
  State.outDescs_congr (fun k => by rw [State.desc_unmark l h]; split <;> exact ⟨rfl, rfl⟩) p a

theorem flits_passMarkers {s : State} (hs : s.wf = true) (p a k : Nat) : flits (passMarkers s p a) k =
    if k ∈ s.outDescs p a then flits s k ++ [.marker ((s.markerModes p a).foldl max 0) false] else flits s k := by
  have hq : (s.unmark (s.inDescs p a)).queued = s.queued := by rw [State.unmark_frame]
  rw [flits, passMarkers, queued_sendMarkers (hq ▸ State.wf_queued hs), outDescs_unmark (State.wf_descs hs), hq]
  rfl

theorem desc_passMarkers {s : State} (hs : s.wf = true) (p a k : Nat) :
    (passMarkers s p a).desc k = if k ∈ s.inDescs p a then (s.desc k).unmarked else s.desc k := by
  rw [← State.desc_unmark (s.inDescs p a) (State.wf_descs hs), passMarkers_frame]
  rfl

theorem forwardMarker_clean {s : State} (hs : s.wf = true) (p a : Nat) :
    let t := s.forwardMarker p a
    t.mem = s.mem ∧ t.cores = s.cores ∧
    t.tile p = (s.tile p).setSlot a { (s.tile p).slot a with st := .quiescent } ∧
    (∀ k ∈ s.outDescs p a, flits t k = flits s k ++ [.marker ((s.markerModes p a).foldl max 0) false]) ∧
    (∀ k, k ∉ s.outDescs p a → flits t k = flits s k) ∧
    (∀ k ∈ s.inDescs p a, t.desc k = (s.desc k).unmarked) ∧
    ∀ k, k ∉ s.inDescs p a → t.desc k = s.desc k := by
  have hr := forwardMarker_frame s p a
  have htiles : (passMarkers s p a).tiles = s.tiles := by rw [passMarkers_frame]
  have hflits (k : Nat) : flits (s.forwardMarker p a) k = flits (passMarkers s p a) k := by rw [hr]; rfl
  have hdesc (k : Nat) : (s.forwardMarker p a).desc k = (passMarkers s p a).desc k := by rw [hr]; rfl
  refine ⟨by rw [hr, passMarkers_frame]; rfl, by rw [hr, passMarkers_frame]; rfl, ?_,
    fun k hk => by rw [hflits, flits_passMarkers hs, if_pos hk], fun k hk => by rw [hflits, flits_passMarkers hs, if_neg hk],
    fun k hk => by rw [hdesc, desc_passMarkers hs, if_pos hk], fun k hk => by rw [hdesc, desc_passMarkers hs, if_neg hk]⟩
  rw [hr]
  exact State.tile_setTile (s := passMarkers s p a) (htiles ▸ State.wf_tiles hs) p _

/-! ## A partial period (R61, R187) -/

/-- R57, R61: IGNORE and RETRY act as KILL_PARENT for a partial period, so that at level 1 its actor stops or the fault is passed on. -/
theorem containAt_partial (s : State) (p a code : Nat) : s.containAt p a code 1 false = none ∨
    ∃ tries, s.containAt p a code 1 false = some ((s.decideFault p a code 1 2 tries).stopActor p a) := by
  have hlt : bits ((s.tile p).apol a) (6 * 1) 2 < 4 := Nat.mod_lt _ (by decide)
  unfold State.containAt
  dsimp only
  generalize bits ((s.tile p).apol a) (6 * 1) 2 = pol at hlt ⊢
  simp only [Bool.not_false, Bool.true_or, and_true]
  obtain hp | rfl | rfl : pol ≤ 1 ∨ pol = 2 ∨ pol = 3 := by omega
  · left; rw [if_pos hp]; rfl
  · right; exact ⟨_, rfl⟩
  · left; rfl

/-- A fault of tile p is counted in its region (R59). -/
def countFault (s : State) (p : Nat) : State := s.mapRegion (s.regionOf p) (fun r => { r with faults := r.faults + 1 })

/-- R57: a partial period that level 1 passes on waits on its tile for the decision. -/
def awaitDecision (s : State) (p a : Nat) : State :=
  s.setTile p { s.tile p with firing := some { slot := a, trapped := true, decide := some 2, partialPeriod := true } }

theorem contain_partial {s : State} {p : Nat} (hf : (s.tile p).firing = none) (a code : Nat) :
    s.contain p a code 1 false = awaitDecision (countFault s p) p a ∨
    ∃ tries, s.contain p a code 1 false = ((countFault s p).decideFault p a code 1 2 tries).stopActor p a := by
  have hu : ((countFault s p).tile p).firing = none := hf
  have hc : s.mapRegion (s.regionOf p) (fun r => { r with faults := r.faults + 1 }) = countFault s p := rfl
  simp only [State.contain, Nat.one_ne_zero, if_false, hc]
  obtain h | ⟨tries, h⟩ := containAt_partial (countFault s p) p a code
  · left; simp only [h, hu, awaitDecision]
  · right; exact ⟨tries, by simp only [h]⟩

theorem faults_countFault {s : State} (h : Sparse.rising s.regions = true) (p : Nat) :
    ((countFault s p).region (s.regionOf p)).faults = (s.region (s.regionOf p)).faults + 1 := by
  rw [countFault, State.region_mapRegion h, if_pos rfl]

/-- R57, R59: containment counts a partial period once, and leaves its record but for the decision. -/
theorem contain_partial_counted {s : State} (ht : Sparse.rising s.tiles = true) (hr : Sparse.rising s.regions = true) {p : Nat}
    (hf : (s.tile p).firing = none) (a code : Nat) :
    ((s.contain p a code 1 false).region (s.regionOf p)).faults = (s.region (s.regionOf p)).faults + 1 ∧
    ∀ (i : Nat) (hi : i < 7), ((s.contain p a code 1 false).tile p).record[i] = (s.tile p).record[i] := by
  have hcount := faults_countFault hr p
  have hregions : Sparse.rising (countFault s p).regions = true := Sparse.set_rising hr
  obtain h | ⟨tries, h⟩ := contain_partial hf a code
  · rw [h]
    have htile : (awaitDecision (countFault s p) p a).tile p = _ := State.tile_setTile (s := countFault s p) ht p _
    refine ⟨hcount, fun i hi => ?_⟩
    rw [htile]
    rfl
  · rw [h]
    have hdecided := tile_decideFault (s := countFault s p) ht p a code 1 2 tries
    have hstop := stopActor_halts (rising_decideFault (s := countFault s p) ht p a code 1 2 tries) p a
    obtain ⟨b, w, hregion⟩ := region_decideFault hregions p a code 1 2 tries (s.regionOf p)
    refine ⟨?_, fun i hi => ?_⟩
    · rw [State.region, hstop.regions]
      exact (congrArg Region.faults hregion).trans hcount
    · simp only [hstop.record, hdecided, Tile.decided_getElem _ _ _ _ hi]
      rfl

/-- The fault record of a partial period of slot a at a port (R61, R187). -/
def partialRecord (s : State) (p a port : Nat) : Vector Word 8 :=
  let sl := (s.tile p).slot a
  let ph := (s.tile p).phase a (s.modeOf p)
  #v[word cRATE, 0, word port, word ph, 0, 0, word sl.firing, word (a + ph * 8 + 0x700 + sl.firing / 2 ^ 64 % 2 ^ 32 * 2 ^ 32)]

theorem partialPeriod_recorded {s : State} (hs : s.wf = true) {p : Nat} (hf : (s.tile p).firing = none) (a port : Nat) :
    let t := s.partialPeriod p a port
    (t.tile p).record[0] = word cRATE ∧ (t.tile p).record[2] = word port ∧
    (t.tile p).record[3] = word ((s.tile p).phase a (s.modeOf p)) ∧
    (t.region (s.regionOf p)).faults = (s.region (s.regionOf p)).faults + 1 := by
  let u := s.setTile p { s.tile p with record := partialRecord s p a port }
  have hu : u.tile p = { s.tile p with record := partialRecord s p a port } := State.tile_setTile (State.wf_tiles hs) p _
  have hfree : (u.tile p).firing = none := by rw [hu]; exact hf
  have hr := State.wf_regions hs
  obtain ⟨hfaults, hrecord⟩ := contain_partial_counted (s := u) (State.rising_setTile (State.wf_tiles hs) p _) hr hfree a cRATE
  have hentry (i : Nat) (hi : i < 7) : ((s.partialPeriod p a port).tile p).record[i] = (partialRecord s p a port)[i] := by
    rw [← show (u.tile p).record = partialRecord s p a port by rw [hu]]
    exact hrecord i hi
  exact ⟨hentry 0 (by decide), hentry 2 (by decide), hentry 3 (by decide), hfaults⟩

/-! ## A faulted marker (R63) -/

theorem drainSlot_frame (s : State) (p a : Nat) : drainSlot s p a =
    { s with regions := (drainSlot s p a).regions, descs := (drainSlot s p a).descs, queued := (drainSlot s p a).queued,
             entered := (drainSlot s p a).entered } := by
  unfold drainSlot
  rw [foldl_dropTokens_frame, sendMarkers_frame]

theorem flits_drainSlot {s : State} (hs : s.wf = true) {p a k : Nat} (hk : k ∈ s.outDescs p a) :
    flits (drainSlot s p a) k = flits s k ++ [.marker 0 true] := by
  have hnot : k ∉ s.inDescs p a := fun hin => by
    have := (State.kind_of_mem_inDescs hin).symm.trans (State.kind_of_mem_outDescs hk)
    omega
  rw [flits, drainSlot, queued_foldl_dropTokens _ (rising_sendMarkers (State.wf_queued hs) ..) hnot, queued_sendMarkers (State.wf_queued hs),
    if_pos hk]
  rfl

theorem count_drainSlot {s : State} (hs : s.wf = true) {p a k : Nat} (hk : k ∈ s.inDescs p a) : ((drainSlot s p a).desc k).count = 0 :=
  have hd := State.wf_descs hs
  count_foldl_dropTokens _ (by rw [sendMarkers_frame]; exact hd) (.inl hk)

/-- Settles O24: each event at a slot by its own theorem above. -/
theorem markers : Obligations.Markers := by
  intro s p a hs hp ha hw hh ph
  have hslot : SlotWaits s p a := ⟨hp, ha, hw, hh⟩
  refine ⟨fun hu => ⟨hslot.markerForward_undecided hu, hslot.faultedMarkerEffect_undecided hu⟩, fun hu => ⟨fun hi hf hph hc => ?clean,
    fun j hi hf hph hj hfir => ?busy, fun j hi hf hph hj hfir => ?partialPeriod, fun hf => ?faulted⟩⟩
  case clean => exact ⟨_, hslot.markerForward_clean hu hi hf hph hc, forwardMarker_clean hs p a⟩
  case busy =>
    rw [hslot.markerForward_partial hu hi hf hph hj, if_neg]
    exact mt Option.isNone_iff_eq_none.1 hfir
  case partialPeriod =>
    rw [hslot.markerForward_partial hu hi hf hph hj, if_pos (Option.isNone_iff_eq_none.2 hfir), exact_natCast, exact_natCast]
    exact ⟨_, rfl, partialPeriod_recorded hs hfir a j⟩
  case faulted =>
    refine ⟨_, hslot.faultedMarkerEffect_eq hu hf, by rw [drainSlot_frame]; rfl, by rw [drainSlot_frame]; rfl, ?_,
      fun k hk => flits_drainSlot hs hk, fun k hk => count_drainSlot hs hk⟩
    have htiles : (drainSlot s p a).tiles = s.tiles := by rw [drainSlot_frame]
    exact State.tile_setTile (htiles ▸ State.wf_tiles hs) p _

end Sys2Proof.Claims
end

section
/-! SUPPORT. Laws of what ends a firing and a graph: null firings, the retry of a firing, and the stop of graphs. -/

namespace Sys2Proof.Machine

/-! ## Null firings (R58, R250) -/

theorem ArcsOnly.consume (s : State) (p a f : Nat) : ArcsOnly s (s.consume p a f) := by
  unfold State.consume
  refine ArcsOnly.foldl _ (fun u j => ?_) _ s
  dsimp only
  split
  · exact .refl u
  · refine ArcsOnly.foldl _ (fun v e => ?_) _ u
    split
    · exact .refl v
    · exact (ArcsOnly.setDesc v _ _).trans (.queueFlit _ _ _)

theorem ArcsOnly.queueData (s : State) (k pos o : Nat) (bs : List Byte) (op : Option Nat) : ArcsOnly s (s.queueData k pos o bs op) := by
  unfold State.queueData
  split
  · exact .refl s
  · exact ArcsOnly.foldl _ (fun u f => .queueFlit u k f) _ s

theorem ArcsOnly.zeroTokens (s : State) (k n : Nat) : ArcsOnly s (s.zeroTokens k n) := by
  unfold State.zeroTokens
  exact ArcsOnly.foldl _ (fun u j => .queueData u k _ 0 _ none) _ s

/-- A null firing changes arcs, and ends as a committed one does. -/
theorem nullFiring_eq (s : State) (p a : Nat) : ∃ u, ArcsOnly s u ∧ s.nullFiring p a = u.endFiring p a .waiting := by
  unfold State.nullFiring
  refine ⟨_, (ArcsOnly.consume s p a _).trans (ArcsOnly.foldl _ (fun u k => ArcsOnly.foldl _ (fun v e => ?_) _ u) _ _), rfl⟩
  dsimp only
  split
  · exact .refl v
  · exact (ArcsOnly.zeroTokens v _ _).trans ((ArcsOnly.setDesc _ _ _).trans (.queueFlit _ _ _))

/-- A slot whose firing has ended (R34, R57). -/
def ActorSlot.next (x : ActorSlot) (step : Nat) (st : SlotSt) : ActorSlot :=
  { x with st := st, firing := (x.firing + step) % 2 ^ 96, tries := Vector.replicate 5 0 }

/-- A tile whose firing of slot a has ended. -/
def Tile.finished (t : Tile) (a : Nat) (st : SlotSt) : Tile :=
  let u := t.setSlot a ((t.slot a).next (max 1 (t.arep a)) st)
  { u with firing := none, schedPos := if u.readyFirst then u.schedPos else (u.schedPos + 1) % max 1 u.schedLen }

theorem endFiring_eq (s : State) (p a : Nat) (st : SlotSt) : s.endFiring p a st =
    ((((s.orphanOps p).setTile p ((s.tile p).finished a st)).setCoreAt p {}).matCommit p a).mapRegion
      (((((s.orphanOps p).setTile p ((s.tile p).finished a st)).setCoreAt p {}).matCommit p a).regionOf p)
      (fun r => { r with firings := r.firings + 1 }) := by
  rfl

theorem tile_endFiring {s : State} (h : Sparse.rising s.tiles = true) (p a : Nat) (st : SlotSt) :
    (s.endFiring p a st).tile p = (s.tile p).finished a st := by
  have ht : (s.endFiring p a st).tiles = Sparse.set {} s.tiles p ((s.tile p).finished a st) := by rw [endFiring_eq]; rfl
  rw [State.tile, ht, Sparse.get_set_self h]

theorem msix_endFiring (s : State) (p a : Nat) (st : SlotSt) : (s.endFiring p a st).msix = s.msix := by
  rw [endFiring_eq]; rfl

/-- R58: what a null firing leaves of its tile. -/
theorem tile_nullFiring {s : State} (h : Sparse.rising s.tiles = true) (p a : Nat) :
    (s.nullFiring p a).tile p = (s.tile p).finished a .waiting := by
  obtain ⟨u, hu, he⟩ := nullFiring_eq s p a
  have hr : Sparse.rising u.tiles = true := by rw [hu]; exact h
  rw [he, ← hu.tile p]
  exact tile_endFiring hr p a .waiting

theorem msix_nullFiring (s : State) (p a : Nat) : (s.nullFiring p a).msix = s.msix := by
  obtain ⟨u, hu, he⟩ := nullFiring_eq s p a
  rw [he, msix_endFiring, hu]

/-! ## The end of a graph (R48, R59) -/

/-- A live region is listed. -/
theorem State.mem_regions {s : State} {k : Nat} (h : (s.region k).live = true) : (k, s.region k) ∈ s.regions :=
  Sparse.mem_of_get s.regions (fun hd => by
    have hd : s.region k = {} := hd
    rw [hd] at h
    cases h)

/-- A tile without a firing whose slots are unused. -/
def Tile.Unused (t : Tile) : Prop := t.firing = none ∧ ∀ b, b < 8 → (t.slot b).st = .unused

/-- A tile as the end of its graph leaves it. -/
def Tile.emptied (t : Tile) : Tile := { t with firing := none, slots := t.slots.map (fun x => { x with st := .unused }) }

theorem Tile.emptied_unused (t : Tile) : t.emptied.Unused := ⟨rfl, fun b hb => by
  simp [Tile.slot, Tile.emptied, hb]⟩

/-- What stops cores halts them, and takes no unused tile into use. -/
structure Empties (s t : State) : Prop extends Halts s t where
  unused : ∀ q, (s.tile q).Unused → (t.tile q).Unused

theorem Empties.refl {s : State} (h : Sparse.rising s.tiles = true) : Empties s s := ⟨.refl h, fun _ => id⟩

theorem Empties.trans {s t u : State} (h : Empties s t) (k : Empties t u) : Empties s u :=
  ⟨h.toHalts.trans k.toHalts, fun q => k.unused q ∘ h.unused q⟩

theorem Empties.foldl (f : State → Nat → State) (hf : ∀ s k, Sparse.rising s.tiles = true → Empties s (f s k)) (l : List Nat) :
    ∀ {s}, Sparse.rising s.tiles = true → Empties s (l.foldl f s) := by
  induction l with
  | nil => exact fun h => .refl h
  | cons k l ih => exact fun h => (hf _ k h).trans (ih (hf _ k h).rising)

theorem Halts.mapMat {s t : State} (h : Halts s t) (p : Nat) (f : Mat → Mat) : Halts s (t.mapMat p f) :=
  ⟨h.regions, h.queues, h.msix, h.gtime, h.record, h.rising⟩

theorem endTile_eq {s : State} (h : Sparse.rising s.tiles = true) (p : Nat) :
    s.endTile p = ((s.discard p).setTile p (s.tile p).emptied).mapMat p (fun x => { gang := x.gang }) := by
  have he : (s.tile p).emptied = { (s.discard p).tile p with slots := ((s.discard p).tile p).slots.map (fun x => { x with st := .unused }) } := by
    rw [tile_discard h]; rfl
  rw [he]
  rfl

theorem tile_endTile {s : State} (h : Sparse.rising s.tiles = true) (p : Nat) : (s.endTile p).tile p = (s.tile p).emptied := by
  rw [endTile_eq h]
  exact State.tile_setTile (rising_discard h p) p _

theorem tile_endTile_ne {s : State} (h : Sparse.rising s.tiles = true) {p q : Nat} (hq : q ≠ p) : (s.endTile p).tile q = s.tile q := by
  rw [endTile_eq h]
  exact (State.tile_setTile_ne (rising_discard h p) _ hq).trans (tile_discard_ne h hq)

theorem endTile_empties {s : State} (h : Sparse.rising s.tiles = true) (p : Nat) : Empties s (s.endTile p) where
  toHalts := by
    have hrecord : (s.tile p).emptied.record = ((s.discard p).tile p).record := by rw [tile_discard h]; rfl
    rw [endTile_eq h]
    exact ((discard_halts h p).trans (setTile_halts (rising_discard h p) hrecord)).mapMat p _
  unused q hu := by
    by_cases hq : q = p
    · subst hq; rw [tile_endTile h]; exact Tile.emptied_unused _
    · rwa [tile_endTile_ne h hq]

theorem endCtx_empties {s : State} (h : Sparse.rising s.tiles = true) (c : Nat) : Empties s (s.endCtx c) :=
  ⟨⟨rfl, rfl, rfl, rfl, fun _ => rfl, h⟩, fun _ => id⟩

theorem unused_foldl_endTile (l : List Nat) : ∀ {s : State}, Sparse.rising s.tiles = true → ∀ q ∈ l,
    ((l.foldl State.endTile s).tile q).Unused := by
  induction l with
  | nil => intro s _ q hq; cases hq
  | cons p l ih =>
    intro s h q hq
    have hp := endTile_empties h p
    obtain rfl | hq := List.mem_cons.1 hq
    · refine (Empties.foldl _ (fun _ k hk => endTile_empties hk k) l hp.rising).unused q ?_
      rw [tile_endTile h]
      exact Tile.emptied_unused _
    · exact ih hp.rising q hq

/-- The tiles and stream contexts of the graph of region g are released. -/
def State.release (s : State) (g : Nat) : State :=
  ((s.region g).ctx.map Prod.snd).foldl State.endCtx ((s.region g).tiles.foldl State.endTile s)

theorem release_empties {s : State} (h : Sparse.rising s.tiles = true) (g : Nat) : Empties s (s.release g) := by
  have ht := Empties.foldl State.endTile (fun _ k hk => endTile_empties hk k) (s.region g).tiles h
  exact ht.trans (Empties.foldl State.endCtx (fun _ k hk => endCtx_empties hk k) _ ht.rising)

theorem unused_release {s : State} (h : Sparse.rising s.tiles = true) {g q : Nat} (hq : q ∈ (s.region g).tiles) :
    ((s.release g).tile q).Unused := by
  have ht := Empties.foldl State.endTile (fun _ k hk => endTile_empties hk k) (s.region g).tiles h
  exact (Empties.foldl State.endCtx (fun _ k hk => endCtx_empties hk k) _ ht.rising).unused q (unused_foldl_endTile _ h q hq)

/-- A region whose graph has ended with a code. -/
def Region.endAs (r : Region) (code gtime : Nat) : Region :=
  { r with ended := some code, started := false, halted := false, endG := if code = 0 then r.drainAt.getD gtime else gtime }

theorem Region.endAs_endG (r : Region) (code gtime : Nat) (h : r.drainAt = none) : (r.endAs code gtime).endG = gtime := by
  simp [Region.endAs, h]

/-- Region g runs a graph that has not ended. -/
def State.runs (s : State) (g : Nat) : Prop := (s.region g).live = true ∧ (s.region g).started = true ∧ (s.region g).ended = none

theorem endInstance_runs {s : State} {g : Nat} (h : s.runs g) (code : Nat) :
    s.endInstance g code = (s.release g).mapRegion g (·.endAs code (s.release g).gtime) := by
  obtain ⟨hl, hs, he⟩ := h
  simp only [State.endInstance, hl, hs, he, Option.isNone_none, Bool.and_self, if_true]
  rfl

theorem endInstance_ended {s : State} {g : Nat} (h : ¬ s.runs g) (code : Nat) : s.endInstance g code = s := by
  have hno : ((s.region g).live && (s.region g).started && (s.region g).ended.isNone) = false := by
    rw [← Bool.not_eq_true]
    simpa only [State.runs, Bool.and_eq_true, Option.isNone_iff_eq_none, and_assoc] using h
  simp only [State.endInstance, hno, Bool.false_eq_true, if_false]

/-- What the end of instances leaves: the queues, the host's interrupts, the time, every fault record, and unused tiles. -/
structure Ends (s t : State) : Prop where
  queues : t.queues = s.queues
  msix : t.msix = s.msix
  gtime : t.gtime = s.gtime
  record : ∀ q, (t.tile q).record = (s.tile q).record
  unused : ∀ q, (s.tile q).Unused → (t.tile q).Unused
  bound : ∀ k, (t.region k).bound = (s.region k).bound
  tiles : Sparse.rising t.tiles = true
  regions : Sparse.rising t.regions = true

theorem Ends.refl {s : State} (ht : Sparse.rising s.tiles = true) (hr : Sparse.rising s.regions = true) : Ends s s :=
  ⟨rfl, rfl, rfl, fun _ => rfl, fun _ => id, fun _ => rfl, ht, hr⟩

theorem Ends.trans {s t u : State} (h : Ends s t) (k : Ends t u) : Ends s u :=
  ⟨k.queues.trans h.queues, k.msix.trans h.msix, k.gtime.trans h.gtime, fun q => (k.record q).trans (h.record q),
    fun q => k.unused q ∘ h.unused q, fun g => (k.bound g).trans (h.bound g), k.tiles, k.regions⟩

theorem region_endInstance_ne {s : State} (ht : Sparse.rising s.tiles = true) (hr : Sparse.rising s.regions = true) {g k : Nat} (hk : k ≠ g)
    (code : Nat) : (s.endInstance g code).region k = s.region k := by
  by_cases h : s.runs g
  · have hrel := (release_empties ht g).regions
    rw [endInstance_runs h, State.region_mapRegion (hrel ▸ hr), if_neg hk.symm, State.region, hrel]
    rfl
  · rw [endInstance_ended h]

theorem region_endInstance {s : State} (ht : Sparse.rising s.tiles = true) (hr : Sparse.rising s.regions = true) {g : Nat} (h : s.runs g)
    (code : Nat) : (s.endInstance g code).region g = (s.region g).endAs code s.gtime := by
  have hrel := release_empties ht g
  rw [endInstance_runs h, State.region_mapRegion (hrel.regions ▸ hr), if_pos rfl, hrel.gtime, State.region, hrel.regions]
  rfl

theorem endInstance_ends {s : State} (ht : Sparse.rising s.tiles = true) (hr : Sparse.rising s.regions = true) (g code : Nat) :
    Ends s (s.endInstance g code) := by
  by_cases h : s.runs g
  · have hrel := release_empties ht g
    have hbound (k : Nat) : ((s.endInstance g code).region k).bound = (s.region k).bound := by
      by_cases hk : k = g
      · subst hk; rw [region_endInstance ht hr h]; rfl
      · rw [region_endInstance_ne ht hr hk]
    rw [endInstance_runs h] at hbound ⊢
    exact ⟨hrel.queues, hrel.msix, hrel.gtime, hrel.record, hrel.unused, hbound, hrel.rising, Sparse.set_rising (hrel.regions ▸ hr)⟩
  · rw [endInstance_ended h]
    exact .refl ht hr

theorem foldl_endInstance_ends (code : Nat) (l : List Nat) : ∀ {s : State}, Sparse.rising s.tiles = true → Sparse.rising s.regions = true →
    Ends s (l.foldl (fun u k => u.endInstance k code) s) := by
  induction l with
  | nil => exact fun ht hr => .refl ht hr
  | cons k l ih =>
    intro s ht hr
    have h := endInstance_ends ht hr k code
    exact h.trans (ih h.tiles h.regions)

theorem unused_endInstance {s : State} (ht : Sparse.rising s.tiles = true) {g : Nat} (h : s.runs g) (code : Nat) :
    ∀ q ∈ (s.region g).tiles, ((s.endInstance g code).tile q).Unused := by
  rw [endInstance_runs h]
  exact fun q hq => unused_release ht hq

/-! ## The stop of instances (R59) -/

/-- R59: the jobs that stop(l) ends beside the graph of the faulting region. -/
def State.stopJobs (s : State) (g l : Nat) : List Nat :=
  (s.region g).bound.elim [] (fun b =>
    if l = 3 then [b.job]
    else if l = 4 then
      s.regions.filterMap (fun e => if e.2.live then e.2.bound.bind (fun x => if x.queue = b.queue then some x.job else none) else none)
    else [])

/-- The regions that hold one of the jobs. -/
def State.holders (s : State) (jobs : List Nat) : List Nat :=
  s.regions.filterMap (fun e => if e.2.live && e.2.bound.elim false (fun b => jobs.contains b.job) then some e.1 else none)

/-- The instances that stop(l) of a fault of region g ends. -/
def State.endJobs (s : State) (g l code : Nat) : State :=
  (s.holders (s.stopJobs g l)).foldl (fun u k => u.endInstance k code) (s.endInstance g code)

/-- R59: a queue accepts no more. -/
def State.closeQueue (s : State) (q : Option Nat) : State := q.elim s (fun k => s.setQueue k { s.queue k with stopped := true })

/-- R59: stop(l) ends the instances, and at level 4 the queue. -/
theorem stopLevel_eq (s : State) (g l code : Nat) : s.stopLevel g l code =
    (s.endJobs g l code).closeQueue (if l = 4 then ((s.endJobs g l code).region g).bound.bind Binding.queue else none) := by
  unfold State.stopLevel State.endJobs
  dsimp only
  generalize hgs : List.filterMap (β := Nat) _ s.regions = gs
  have hholders : s.holders (s.stopJobs g l) = gs := by
    rw [← hgs]
    unfold State.holders State.stopJobs
    congr 1
    funext e
    cases (s.region g).bound <;> cases e.2.bound <;> rfl
  rw [hholders]
  generalize gs.foldl (fun u k => u.endInstance k code) (s.endInstance g code) = u
  generalize (if l = 4 then (u.region g).bound.bind Binding.queue else none) = o
  cases o <;> rfl

theorem mem_holders {s : State} (h : Sparse.rising s.regions = true) (jobs : List Nat) (k : Nat) :
    k ∈ s.holders jobs ↔ (s.region k).live = true ∧ ∃ b, (s.region k).bound = some b ∧ b.job ∈ jobs := by
  have hbound (o : Option Binding) : o.elim false (fun b => jobs.contains b.job) = true ↔ ∃ b, o = some b ∧ b.job ∈ jobs := by
    cases o <;> simp
  simp only [State.holders, List.mem_filterMap, Option.ite_none_right_eq_some, Bool.and_eq_true, hbound, Option.some.injEq]
  constructor
  · rintro ⟨e, he, hk, rfl⟩
    rwa [State.region, (Sparse.get_of_mem s.regions h he).2]
  · exact fun hk => ⟨(k, s.region k), State.mem_regions hk.1, hk, rfl⟩

theorem mem_stopJobs_two (s : State) (g j : Nat) : j ∉ s.stopJobs g 2 := by
  unfold State.stopJobs
  cases (s.region g).bound <;> simp

theorem mem_stopJobs_three (s : State) (g j : Nat) : j ∈ s.stopJobs g 3 ↔ ∃ b, (s.region g).bound = some b ∧ j = b.job := by
  unfold State.stopJobs
  cases (s.region g).bound <;> simp

theorem mem_stopJobs_four {s : State} (h : Sparse.rising s.regions = true) (g j : Nat) : j ∈ s.stopJobs g 4 ↔
    ∃ b, (s.region g).bound = some b ∧
      ∃ k z, (s.region k).live = true ∧ (s.region k).bound = some z ∧ z.queue = b.queue ∧ z.job = j := by
  unfold State.stopJobs
  cases (s.region g).bound with
  | none => simp
  | some b =>
    simp only [Option.elim_some, Nat.reduceEqDiff, if_false, if_true, List.mem_filterMap, Option.ite_none_right_eq_some,
      Option.bind_eq_some_iff, Option.some.injEq, exists_eq_left']
    constructor
    · rintro ⟨e, he, hl, z, hz, hq, hj⟩
      have hk : s.region e.1 = e.2 := (Sparse.get_of_mem s.regions h he).2
      exact ⟨e.1, z, hk ▸ hl, hk ▸ hz, hq, hj⟩
    · rintro ⟨k, z, hl, hz, hq, hj⟩
      exact ⟨(k, s.region k), State.mem_regions hl, hl, z, hz, hq, hj⟩

theorem endJobs_ends {s : State} (ht : Sparse.rising s.tiles = true) (hr : Sparse.rising s.regions = true) (g l code : Nat) :
    Ends s (s.endJobs g l code) :=
  have h := endInstance_ends ht hr g code
  h.trans (foldl_endInstance_ends code _ h.tiles h.regions)

end Sys2Proof.Machine
end

section
/-! PROOFS. Containment decisions above level 1. -/

namespace Sys2Proof.Claims

open Sys2Proof.Machine

/-! ## Instances that end (R59) -/

/-- A graph that has ended stays as it is while others end. -/
theorem InstanceEnded.endInstance {s u : State} {k code : Nat} (h : InstanceEnded s u k code) (ht : Sparse.rising u.tiles = true)
    (hr : Sparse.rising u.regions = true) (j c : Nat) : InstanceEnded s (u.endInstance j c) k code := by
  have hregion : (u.endInstance j c).region k = u.region k := by
    by_cases hk : k = j
    · have hended : ¬ u.runs j := fun hrun => Bool.false_ne_true ((hk ▸ h.started).symm.trans hrun.2.1)
      rw [endInstance_ended hended]
    · exact region_endInstance_ne ht hr hk c
  exact ⟨hregion ▸ h.ended, hregion ▸ h.started, hregion ▸ h.endG, fun q hq => (endInstance_ends ht hr j c).unused q (h.tiles q hq)⟩

theorem instanceEnded_endInstance {s u : State} {k : Nat} (hregion : u.region k = s.region k) (hg : u.gtime = s.gtime) (hrun : Runs s k)
    (ht : Sparse.rising u.tiles = true) (hr : Sparse.rising u.regions = true) (code : Nat) :
    InstanceEnded s (u.endInstance k code) k code := by
  have hruns : u.runs k := by rw [State.runs, hregion]; exact hrun
  have hend : (u.endInstance k code).region k = (s.region k).endAs code s.gtime := by rw [region_endInstance ht hr hruns, hregion, hg]
  refine ⟨by rw [hend]; rfl, by rw [hend]; rfl, fun hd => by rw [hend, Region.endAs_endG _ _ _ hd], fun q hq => ?_⟩
  rw [← hregion] at hq
  exact unused_endInstance ht hruns code q hq

/-- Of a list of regions, each whose graph runs ends. -/
theorem instanceEnded_foldl {s : State} {k code : Nat} (hrun : Runs s k) (l : List Nat) : ∀ {u : State}, Sparse.rising u.tiles = true →
    Sparse.rising u.regions = true → u.gtime = s.gtime → (InstanceEnded s u k code ∨ u.region k = s.region k ∧ k ∈ l) →
    InstanceEnded s (l.foldl (fun u j => u.endInstance j code) u) k code := by
  induction l with
  | nil => exact fun _ _ _ h => h.resolve_right (fun h => List.not_mem_nil h.2)
  | cons j l ih =>
    intro u ht hr hg h
    have hends := endInstance_ends ht hr j code
    refine ih hends.tiles hends.regions (hends.gtime.trans hg) ?_
    obtain h | ⟨hregion, hmem⟩ := h
    · exact .inl (h.endInstance ht hr j code)
    · by_cases hk : k = j
      · subst hk; exact .inl (instanceEnded_endInstance hregion hg hrun ht hr code)
      · exact .inr ⟨(region_endInstance_ne ht hr hk code).trans hregion, (List.mem_cons.1 hmem).resolve_left hk⟩

theorem region_foldl_endInstance {k code : Nat} (l : List Nat) : ∀ {u : State}, Sparse.rising u.tiles = true →
    Sparse.rising u.regions = true → k ∉ l → (l.foldl (fun u j => u.endInstance j code) u).region k = u.region k := by
  induction l with
  | nil => intros; rfl
  | cons j l ih =>
    intro u ht hr hk
    obtain ⟨hj, hl⟩ := not_or.1 (List.mem_cons.not.1 hk)
    have hends := endInstance_ends ht hr j code
    exact (ih hends.tiles hends.regions hl).trans (region_endInstance_ne ht hr hj code)

section
variable {s : State} (ht : Sparse.rising s.tiles = true) (hr : Sparse.rising s.regions = true) {g l : Nat} (code : Nat)
include ht hr

theorem instanceEnded_endJobs {k : Nat} (hrun : Runs s k) (hk : k = g ∨ k ∈ s.holders (s.stopJobs g l)) :
    InstanceEnded s (s.endJobs g l code) k code := by
  have hends := endInstance_ends ht hr g code
  refine instanceEnded_foldl hrun _ hends.tiles hends.regions hends.gtime ?_
  by_cases hg : k = g
  · subst hg; exact .inl (instanceEnded_endInstance rfl rfl hrun ht hr code)
  · exact .inr ⟨region_endInstance_ne ht hr hg code, hk.resolve_left hg⟩

theorem region_endJobs {k : Nat} (hg : k ≠ g) (hk : k ∉ s.holders (s.stopJobs g l)) : (s.endJobs g l code).region k = s.region k := by
  have hends := endInstance_ends ht hr g code
  exact (region_foldl_endInstance _ hends.tiles hends.regions hk).trans (region_endInstance_ne ht hr hg code)

end

/-! ## The stop of a level (R59) -/

theorem closeQueue_frame (u : State) (o : Option Nat) : u.closeQueue o = { u with queues := (u.closeQueue o).queues } := by
  cases o <;> rfl

theorem queue_closeQueue {u : State} (h : Sparse.rising u.queues = true) (o : Option Nat) (q : Nat) :
    (u.closeQueue o).queue q = if o = some q then { u.queue q with stopped := true } else u.queue q := by
  cases o with
  | none => rfl
  | some k =>
    refine (Sparse.get_set h).trans ?_
    by_cases hk : k = q
    · subst hk; rw [if_pos rfl, if_pos rfl]
    · rw [if_neg hk, if_neg (mt Option.some_inj.1 hk)]; rfl

theorem stopLevel_frame (s : State) (g l code : Nat) :
    s.stopLevel g l code = { s.endJobs g l code with queues := (s.stopLevel g l code).queues } := by
  rw [stopLevel_eq]; exact closeQueue_frame _ _

theorem InstanceEnded.of_endJobs {s : State} {g l k code : Nat} (h : InstanceEnded s (s.endJobs g l code) k code) :
    InstanceEnded s (s.stopLevel g l code) k code := by
  rw [stopLevel_frame]
  exact ⟨h.ended, h.started, h.endG, h.tiles⟩

/-- R59: stop(l) of a fault of a region whose graph runs. -/
theorem stopped_stopLevel {s : State} (ht : Sparse.rising s.tiles = true) (hr : Sparse.rising s.regions = true)
    (hq : Sparse.rising s.queues = true) {g l : Nat} (hrun : Runs s g) (code : Nat) (hl : l = 2 ∨ l = 3 ∨ l = 4) :
    Stopped s (s.stopLevel g l code) g l code (s.region g).bound := by
  have hends := endJobs_ends ht hr g l code
  have hqueue (q : Nat) : (s.stopLevel g l code).queue q =
      if (if l = 4 then (s.region g).bound.bind Binding.queue else none) = some q then { s.queue q with stopped := true } else s.queue q := by
    have hu (k : Nat) : (s.endJobs g l code).queue k = s.queue k := by rw [State.queue, hends.queues]; rfl
    rw [stopLevel_eq, queue_closeQueue (hends.queues ▸ hq), hends.bound, hu]
  refine ⟨(instanceEnded_endJobs ht hr code hrun (.inl rfl)).of_endJobs, ?job, ?queue, ?others, fun q h4 hq => ?closed, fun q hq => ?open_⟩
  case job =>
    rintro rfl b hb k y hk hy hj
    refine (instanceEnded_endJobs ht hr code hk (.inr ?_)).of_endJobs
    exact (mem_holders hr _ k).2 ⟨hk.1, y, hy, (mem_stopJobs_three s g _).2 ⟨b, hb, hj⟩⟩
  case queue =>
    rintro rfl b hb k y j z hk hy hlj hz hq hj
    refine (instanceEnded_endJobs ht hr code hk (.inr ?_)).of_endJobs
    exact (mem_holders hr _ k).2 ⟨hk.1, y, hy, (mem_stopJobs_four hr g _).2 ⟨b, hb, j, z, hlj, hz, hq, hj.symm⟩⟩
  case others =>
    intro k hg h
    rw [stopLevel_frame]
    refine region_endJobs ht hr code hg (fun hk => ?_)
    obtain ⟨-, y, hy, hj⟩ := (mem_holders hr _ k).1 hk
    obtain rfl | rfl | rfl := hl
    · exact mem_stopJobs_two s g _ hj
    · obtain ⟨b, hb, hj⟩ := (mem_stopJobs_three s g _).1 hj
      simpa [hj] using h b y hb hy
    · obtain ⟨b, hb, i, z, hlive, hz, hq, hj⟩ := (mem_stopJobs_four hr g _).1 hj
      simpa [hj] using (h b y hb hy).resolve_left (by decide) |>.resolve_left (fun h3 => absurd h3.1 (by decide)) |>.2 i z hlive hz hq
  case closed => rw [hqueue, if_pos h4, if_pos hq]
  case open_ =>
    rw [hqueue, if_neg]
    split
    · exact hq.resolve_left (fun h => h ‹l = 4›)
    · exact Option.some_ne_none q ∘ Eq.symm

/-- R57: the host error interrupt is raised. -/
def tellHost (s : State) : State := { s with msix := s.msix ++ [63] }

theorem tellHost_tile (s : State) (p : Nat) : (tellHost s).tile p = s.tile p := rfl

/-- An interrupt to the host beside a stop changes nothing of it. -/
theorem Stopped.tellHost {s t : State} {g l code : Nat} {b : Option Binding} (h : Stopped s t g l code b) :
    Stopped s (tellHost t) g l code b := by
  have hended {k : Nat} (hk : InstanceEnded s t k code) : InstanceEnded s (Claims.tellHost t) k code :=
    ⟨hk.ended, hk.started, hk.endG, hk.tiles⟩
  exact ⟨hended h.own, fun hl y hy k z hk hz hj => hended (h.job hl y hy k z hk hz hj),
    fun hl y hy k z j w hk hz hj hw hq he => hended (h.queue hl y hy k z j w hk hz hj hw hq he), h.others, h.closed, h.open_⟩

/-! ## A decision recorded and reported (R57, R59, R187) -/

/-- The regions differ in what they have reported of faults, and only region g's. -/
structure Reported (s u : State) (g : Nat) : Prop where
  region : ∀ k, ∃ b w, u.region k = { s.region k with reported := b, ffw := w }
  others : ∀ k, k ≠ g → u.region k = s.region k
  queues : u.queues = s.queues
  gtime : u.gtime = s.gtime

theorem reported_decideFault {s : State} (hr : Sparse.rising s.regions = true) (p a code level policy tries : Nat) :
    Reported s (s.decideFault p a code level policy tries) (s.regionOf p) where
  region k := region_decideFault hr p a code level policy tries k
  others k hk := by
    obtain ⟨w, hw⟩ := decideFault_eq s p a code level policy tries
    rw [hw, State.region_mapRegion (s := s.setTile p _) hr, if_neg hk.symm]
    rfl
  queues := rfl
  gtime := rfl

section
variable {s u : State} {g : Nat} (h : Reported s u g)
include h

theorem Reported.bound (k : Nat) : (u.region k).bound = (s.region k).bound := by obtain ⟨b, w, hk⟩ := h.region k; rw [hk]

theorem Reported.live (k : Nat) : (u.region k).live = (s.region k).live := by obtain ⟨b, w, hk⟩ := h.region k; rw [hk]

theorem Reported.runs (k : Nat) : Runs u k ↔ Runs s k := by obtain ⟨b, w, hk⟩ := h.region k; rw [Runs, hk]; rfl

theorem Reported.instanceEnded {t : State} {k code : Nat} (hk : InstanceEnded u t k code) : InstanceEnded s t k code := by
  obtain ⟨b, w, hr⟩ := h.region k
  have hend := hk.endG
  have htiles := hk.tiles
  rw [hr] at hend htiles
  exact ⟨hk.ended, hk.started, h.gtime ▸ hend, htiles⟩

/-- A stop after a report is a stop seen from before it. -/
theorem Reported.stopped {t : State} {l code : Nat} {b : Option Binding} (hst : Stopped u t g l code b) : Stopped s t g l code b where
  own := h.instanceEnded hst.own
  job hl x hx k y hk hy hj := h.instanceEnded (hst.job hl x hx k y ((h.runs k).2 hk) ((h.bound k).trans hy) hj)
  queue hl x hx k y j z hk hy hlj hz hq hj := h.instanceEnded
    (hst.queue hl x hx k y j z ((h.runs k).2 hk) ((h.bound k).trans hy) ((h.live j).trans hlj) ((h.bound j).trans hz) hq hj)
  others k hk hx := by
    rw [← h.others k hk]
    refine hst.others k hk (fun x y hb hy => ?_)
    simp only [h.live, h.bound] at hy ⊢
    exact hx x y hb hy
  closed q hl hb := by rw [hst.closed q hl hb, State.queue, h.queues]; rfl
  open_ q hq := by rw [hst.open_ q hq, State.queue, h.queues]; rfl

end

/-! ## The level that takes a fault (R57) -/

/-- The tries of a level that the slot of a firing has spent. -/
def triesOf (s : State) (p : Nat) (f : Firing) (lvl : Nat) : Nat := (((s.tile p).slot f.slot).tries[lvl]?).getD 0

/-- R57: whether a level takes the fault of a firing, and its policy. -/
def verdict (s : State) (p : Nat) (f : Firing) (lvl : Nat) : Option (Nat × Nat) :=
  ((s.region (s.regionOf p)).pol[lvl - 2]?).elim none (fun e =>
    if e.1 = 2 then some (lvl, 2)
    else if f.partialPeriod = true ∨ f.ext = true ∨ f.noRetry = true then none
    else if e.1 = 0 then some (lvl, 0)
    else if e.1 = 1 ∧ triesOf s p f lvl < e.2 then some (lvl, 1) else none)

theorem settles_eq (s : State) (p : Nat) (f : Firing) : settles s p f = [2, 3, 4].findSome? (verdict s p f) := by
  unfold settles
  congr 1
  funext lvl
  unfold verdict
  cases (s.region (s.regionOf p)).pol[lvl - 2]? <;> rfl

theorem verdict_level {s : State} {p lvl : Nat} {f : Firing} {v : Nat × Nat} (h : verdict s p f lvl = some v) :
    v.1 = lvl ∧ (v.2 = 1 → f.partialPeriod = false) := by
  unfold verdict at h
  cases hpol : (s.region (s.regionOf p)).pol[lvl - 2]? with
  | none => rw [hpol] at h; cases h
  | some e =>
    rw [hpol, Option.elim_some] at h
    split_ifs at h with h2 hext h0 h1 <;> cases h
    · exact ⟨rfl, fun h => absurd h (show 2 ≠ 1 by decide)⟩
    · exact ⟨rfl, fun h => absurd h (show 0 ≠ 1 by decide)⟩
    · exact ⟨rfl, fun _ => Bool.eq_false_iff.2 (fun hp => hext (.inl hp))⟩

theorem settles_level {s : State} {p lvl pol : Nat} {f : Firing} (h : settles s p f = some (lvl, pol)) :
    (lvl = 2 ∨ lvl = 3 ∨ lvl = 4) ∧ (pol = 1 → f.partialPeriod = false) := by
  rw [settles_eq] at h
  obtain ⟨l, hl, hv⟩ := List.exists_of_findSome?_eq_some h
  obtain ⟨rfl, hpart⟩ := verdict_level hv
  exact ⟨by simpa using hl, hpart⟩

/-- IGNORE at a level: the firing is discarded, and a null one stands for it. -/
def ignoreFault (s : State) (p : Nat) (f : Firing) (code lvl : Nat) : State :=
  ((s.decideFault p f.slot code lvl 0 (triesOf s p f lvl)).discard p).nullFiring p f.slot

/-- One try of a level is spent. -/
def spendTry (s : State) (p a lvl tries : Nat) : State :=
  s.setTile p ((s.tile p).setSlot a { (s.tile p).slot a with tries := ((s.tile p).slot a).tries.setIfInBounds lvl (tries + 1) })

/-- RETRY at a level: the firing is discarded, and starts again. -/
def retryFault (s : State) (p : Nat) (f : Firing) (code lvl : Nat) : State :=
  ((spendTry ((s.decideFault p f.slot code lvl 1 (triesOf s p f lvl + 1)).discard p) p f.slot lvl (triesOf s p f lvl)).countBypass p
    f.slot).startFiring p f.slot true

/-- KILL_SELF at a level. -/
def stopFault (s : State) (p : Nat) (f : Firing) (code lvl : Nat) : State :=
  (s.decideFault p f.slot code lvl 2 (triesOf s p f lvl)).stopLevel (s.regionOf p) lvl code

/-- R57: with every level passed, level 4 is stopped and the host told. -/
def passFault (s : State) (p : Nat) (f : Firing) (code : Nat) : State :=
  tellHost ((s.decideFault p f.slot code 5 3 0).stopLevel (s.regionOf p) 4 code)

/-- What a level does with the fault that it takes. -/
def takeFault (s : State) (p : Nat) (f : Firing) (code : Nat) (v : Nat × Nat) : State :=
  if v.2 = 0 then ignoreFault s p f code v.1 else if v.2 = 1 then retryFault s p f code v.1 else stopFault s p f code v.1

theorem settleFault_past {s : State} {p lvl : Nat} (h : (s.region (s.regionOf p)).pol[lvl - 2]? = none) (f : Firing) (code n : Nat) :
    s.settleFault p f code (n + 1) lvl = passFault s p f code := by
  simp only [State.settleFault, h]
  rfl

/-- R57: a level takes the fault, or passes it to the next. -/
theorem settleFault_level {s : State} {p lvl pol lim : Nat} (h : (s.region (s.regionOf p)).pol[lvl - 2]? = some (pol, lim)) (hpol : pol < 4)
    (f : Firing) (code n : Nat) : s.settleFault p f code (n + 1) lvl =
      (verdict s p f lvl).elim (s.settleFault p f code n (lvl + 1)) (takeFault s p f code) := by
  have hv : verdict s p f lvl = if pol = 2 then some (lvl, 2)
      else if f.partialPeriod = true ∨ f.ext = true ∨ f.noRetry = true then none
      else if pol = 0 then some (lvl, 0)
      else if pol = 1 ∧ triesOf s p f lvl < lim then some (lvl, 1) else none := by
    rw [verdict, h, Option.elim_some]
  rw [hv]
  simp only [State.settleFault, h]
  obtain rfl | rfl | hlow : pol = 2 ∨ pol = 3 ∨ pol ≤ 1 := by omega
  · rfl
  · by_cases hext : f.partialPeriod = true ∨ f.ext = true ∨ f.noRetry = true <;> simp [hext]
  · by_cases hext : f.partialPeriod = true ∨ f.ext = true ∨ f.noRetry = true
    · simp only [hlow, hext, and_self, if_true, show pol ≠ 2 by omega, if_false, Option.elim_none]
    · simp only [hlow, hext, and_false, if_false, show pol ≠ 2 by omega]
      obtain rfl | rfl : pol = 0 ∨ pol = 1 := by omega
      · rfl
      · simp only [Nat.one_ne_zero, if_false, true_and]
        by_cases htries : triesOf s p f lvl < lim
        · rw [if_pos htries]
          exact (if_pos htries).trans rfl
        · rw [if_neg htries]
          exact (if_neg htries).trans rfl

/-- R57: the first of levels 2 to 4 that does not pass the fault on takes it. -/
theorem settleFault_settles {s : State} {p : Nat} (f : Firing) (code : Nat)
    (hpol : (s.region (s.regionOf p)).pol = [(2, 1)] ∨
      (s.region (s.regionOf p)).pol.length = 3 ∧ ∀ e ∈ (s.region (s.regionOf p)).pol, e.1 < 4) :
    s.settleFault p f code 4 2 = (settles s p f).elim (passFault s p f code) (takeFault s p f code) := by
  rw [settles_eq]
  obtain hone | ⟨hlen, hlt⟩ := hpol
  · have h2 : (s.region (s.regionOf p)).pol[2 - 2]? = some (2, 1) := by rw [hone]; rfl
    have hv : verdict s p f 2 = some (2, 2) := by rw [verdict, h2]; rfl
    rw [settleFault_level h2 (by decide), List.findSome?_cons, hv]
    rfl
  · have hlevel (lvl n : Nat) (hl : lvl - 2 < 3) : s.settleFault p f code (n + 1) lvl =
        (verdict s p f lvl).elim (s.settleFault p f code n (lvl + 1)) (takeFault s p f code) :=
      settleFault_level (List.getElem?_eq_getElem (hlen ▸ hl)) (hlt _ (List.getElem_mem _)) f code n
    have hpast : (s.region (s.regionOf p)).pol[5 - 2]? = none := List.getElem?_eq_none (by omega)
    rw [hlevel 2 3 (by decide), hlevel 3 2 (by decide), hlevel 4 1 (by decide), settleFault_past hpast]
    simp only [List.findSome?_cons, List.findSome?_nil]
    cases verdict s p f 2 with
    | some v => rfl
    | none =>
      cases verdict s p f 3 with
      | some v => rfl
      | none => cases verdict s p f 4 <;> rfl

/-! ## What each policy does (R57 to R59) -/

theorem spendTry_cycle (s : State) (p a lvl tries : Nat) : (spendTry s p a lvl tries).cycle = s.cycle := rfl

theorem rising_spendTry {s : State} (ht : Sparse.rising s.tiles = true) (p a lvl tries : Nat) :
    Sparse.rising (spendTry s p a lvl tries).tiles = true := State.rising_setTile ht p _

theorem tile_spendTry {s : State} (ht : Sparse.rising s.tiles = true) (p a lvl tries : Nat) : (spendTry s p a lvl tries).tile p =
    (s.tile p).setSlot a { (s.tile p).slot a with tries := ((s.tile p).slot a).tries.setIfInBounds lvl (tries + 1) } :=
  State.tile_setTile ht p _

/-- R58, R188: a firing that starts again. -/
theorem restart_tile {s : State} (ht : Sparse.rising s.tiles = true) (p : Nat) {a : Nat} (ha : a < 8) :
    let t := (s.countBypass p a).startFiring p a true
    (t.tile p).firing = some { slot := a, since := s.cycle } ∧ t.msix = s.msix ∧ (t.tile p).record = (s.tile p).record ∧
    (t.tile p).slot a = { (s.tile p).slot a with st := .firing, bypass := 0 } ∧
    (Sparse.rising s.cores = true → (t.coreAt p).trapcause = (s.coreAt p).trapcause ∧ (t.coreAt p).trappc = (s.coreAt p).trappc) := by
  have h := countBypass_scheduled ht p a
  generalize s.countBypass p a = u at h
  have hcycle : u.cycle = s.cycle := by rw [h.frame]
  have hmsix : u.msix = s.msix := by rw [h.frame]
  have hrecord : (u.tile p).record = (s.tile p).record := by rw [h.own]
  have htile := tile_startFiring h.rising p a true
  refine ⟨by rw [htile, hcycle]; rfl, by rw [startFiring_frame]; exact hmsix, by rw [htile]; exact hrecord,
    by rw [htile, Tile.slot_begun _ ha, h.slot], fun hc => ?_⟩
  have huc : Sparse.rising u.cores = true := by rw [h.frame]; exact hc
  rw [coreAt_startFiring h.rising huc p ha, h.begunCore]
  exact ⟨rfl, rfl⟩

/-- What a fault record shows whose decision is filled in. -/
theorem decided_record {s t : State} {p lvl pol tries : Nat} (h : (t.tile p).record = ((s.tile p).decided lvl pol tries).record) (hl : lvl < 8)
    (hp : pol < 4) : (t.tile p).record[7].toNat / 2 ^ 8 % 8 = lvl ∧ (t.tile p).record[7].toNat / 2 ^ 11 % 4 = pol := by
  simp only [h]
  exact ⟨Tile.decided_level _ hl _, Tile.decided_policy _ hl hp _⟩

section
variable {s : State} (hs : s.wf = true) (p : Nat) (f : Firing) (code : Nat) {lvl : Nat}
include hs

theorem ignoreFault_settles (hslot : f.slot < 8) (hl : lvl < 8) : let t := ignoreFault s p f code lvl
    (t.tile p).firing = none ∧ t.msix = s.msix ∧
    (t.tile p).record[7].toNat / 2 ^ 8 % 8 = lvl ∧ (t.tile p).record[7].toNat / 2 ^ 11 % 4 = 0 ∧
    (t.tile p).slot f.slot = ((s.tile p).slot f.slot).next (max 1 ((s.tile p).arep f.slot)) .waiting := by
  have ht := rising_decideFault (State.wf_tiles hs) p f.slot code lvl 0 (triesOf s p f lvl)
  have hmsix : (ignoreFault s p f code lvl).msix = s.msix := by
    rw [ignoreFault, msix_nullFiring, (discard_halts ht p).msix]; rfl
  have htile : (ignoreFault s p f code lvl).tile p =
      { (s.tile p).decided lvl 0 (triesOf s p f lvl) with firing := none }.finished f.slot .waiting := by
    rw [ignoreFault, tile_nullFiring (rising_discard ht p), tile_discard ht, tile_decideFault (State.wf_tiles hs)]
  obtain ⟨hlevel, hpolicy⟩ := decided_record (s := s) (t := ignoreFault s p f code lvl) (pol := 0) (by rw [htile]; rfl) hl (by decide)
  exact ⟨by rw [htile]; rfl, hmsix, hlevel, hpolicy, by rw [htile]; exact Tile.slot_setSlot _ hslot _⟩

/-- The firing that RETRY discards: its tile shows the decision, and its core the recorded trap (R188). -/
theorem discard_decideFault (hf : (s.tile p).firing = some f) (pol tries : Nat) :
    let u := (s.decideFault p f.slot code lvl pol tries).discard p
    u.tile p = { (s.tile p).decided lvl pol tries with firing := none } ∧ Sparse.rising u.tiles = true ∧ Sparse.rising u.cores = true ∧
    u.cycle = s.cycle ∧ u.msix = s.msix ∧
    (f.trapped = true → f.fault = none → f.partialPeriod = false →
      (u.coreAt p).trapcause = (s.tile p).record[0] ∧ (u.coreAt p).trappc = (s.tile p).record[1]) := by
  have ht := rising_decideFault (State.wf_tiles hs) p f.slot code lvl pol tries
  have hscores := State.wf_cores hs
  have hc : Sparse.rising (s.decideFault p f.slot code lvl pol tries).cores = true := hscores
  have htile := tile_decideFault (State.wf_tiles hs) p f.slot code lvl pol tries
  have hfir : ((s.decideFault p f.slot code lvl pol tries).tile p).firing = some f := by rw [htile]; exact hf
  refine ⟨by rw [tile_discard ht, htile], rising_discard ht p, rising_discard_cores hc p, by rw [discard_frame]; rfl,
    (discard_halts ht p).msix, fun htrap hfault hpart => ?_⟩
  have hcore := coreAt_discard hc hfir
  simp only [State.discardedCore, htrap, hfault, hpart, Option.isNone_none, Bool.not_false, Bool.and_self, if_true] at hcore
  rw [hcore]
  simp only [htile]
  exact ⟨Tile.decided_getElem _ _ _ _ (by decide), Tile.decided_getElem _ _ _ _ (by decide)⟩

theorem retryFault_settles (hf : (s.tile p).firing = some f) (hslot : f.slot < 8) (htrap : f.trapped = true) (hfault : f.fault = none)
    (hpart : f.partialPeriod = false) (hl : lvl < 8) : let t := retryFault s p f code lvl
    (t.tile p).firing = some { slot := f.slot, since := s.cycle } ∧ t.msix = s.msix ∧
    (t.tile p).record[7].toNat / 2 ^ 8 % 8 = lvl ∧ (t.tile p).record[7].toNat / 2 ^ 11 % 4 = 1 ∧
    (t.tile p).slot f.slot = { (s.tile p).slot f.slot with
      st := .firing, bypass := 0, tries := ((s.tile p).slot f.slot).tries.setIfInBounds lvl (triesOf s p f lvl + 1) } ∧
    (t.coreAt p).trapcause = (s.tile p).record[0] ∧ (t.coreAt p).trappc = (s.tile p).record[1] := by
  unfold retryFault
  obtain ⟨htile, ht, hc, hcycle, hmsix, hregs⟩ := discard_decideFault hs p f code (lvl := lvl) hf 1 (triesOf s p f lvl + 1)
  generalize (s.decideFault p f.slot code lvl 1 (triesOf s p f lvl + 1)).discard p = u at htile ht hc hcycle hmsix hregs ⊢
  have hspent := tile_spendTry ht p f.slot lvl (triesOf s p f lvl)
  obtain ⟨hfiring, hm, hrecord, hslots, hcores⟩ := restart_tile (rising_spendTry ht p f.slot lvl (triesOf s p f lvl)) p hslot
  obtain ⟨hcause, hpc⟩ := hcores hc
  obtain ⟨hrcause, hrpc⟩ := hregs htrap hfault hpart
  rw [hspent] at hrecord hslots
  rw [Tile.slot_setSlot _ hslot] at hslots
  rw [htile] at hrecord hslots
  obtain ⟨hlevel, hpolicy⟩ := decided_record (s := s) hrecord hl (by decide)
  rw [spendTry_cycle, hcycle] at hfiring
  exact ⟨hfiring, hm.trans hmsix, hlevel, hpolicy, hslots, hcause.trans hrcause, hpc.trans hrpc⟩

/-- A level stopped after a decision on record. -/
theorem stopLevel_decided (hrun : Runs s (s.regionOf p)) {shown pol : Nat} (hshown : shown < 8) (hpol : pol < 4) (tries : Nat)
    (hl : lvl = 2 ∨ lvl = 3 ∨ lvl = 4) :
    let t := (s.decideFault p f.slot code shown pol tries).stopLevel (s.regionOf p) lvl code
    Stopped s t (s.regionOf p) lvl code (s.region (s.regionOf p)).bound ∧ t.msix = s.msix ∧
    (t.tile p).record[7].toNat / 2 ^ 8 % 8 = shown ∧ (t.tile p).record[7].toNat / 2 ^ 11 % 4 = pol := by
  intro t
  let u := s.decideFault p f.slot code shown pol tries
  have hr := State.wf_regions hs
  have hq := State.wf_queues hs
  have hut : Sparse.rising u.tiles = true := rising_decideFault (State.wf_tiles hs) ..
  have hur : Sparse.rising u.regions = true := Sparse.set_rising hr
  have hrep := reported_decideFault hr p f.slot code shown pol tries
  have hends := endJobs_ends hut hur (s.regionOf p) lvl code
  have hframe : t = { u.endJobs (s.regionOf p) lvl code with queues := t.queues } := stopLevel_frame u _ lvl code
  have hstop := hrep.stopped (stopped_stopLevel hut hur hq ((hrep.runs _).2 hrun) code hl)
  have hrecord : (t.tile p).record = ((s.tile p).decided shown pol tries).record := by
    rw [hframe]
    exact (hends.record p).trans (congrArg Tile.record (tile_decideFault (State.wf_tiles hs) ..))
  rw [hrep.bound] at hstop
  exact ⟨hstop, by rw [hframe]; exact hends.msix, decided_record hrecord hshown hpol⟩

theorem stopFault_settles (hrun : Runs s (s.regionOf p)) (hl : lvl = 2 ∨ lvl = 3 ∨ lvl = 4) : let t := stopFault s p f code lvl
    Stopped s t (s.regionOf p) lvl code (s.region (s.regionOf p)).bound ∧ t.msix = s.msix ∧
    (t.tile p).record[7].toNat / 2 ^ 8 % 8 = lvl ∧ (t.tile p).record[7].toNat / 2 ^ 11 % 4 = 2 :=
  stopLevel_decided hs p f code hrun (by omega) (by decide) _ hl

theorem passFault_settles (hrun : Runs s (s.regionOf p)) : let t := passFault s p f code
    Stopped s t (s.regionOf p) 4 code (s.region (s.regionOf p)).bound ∧ t.msix = s.msix ++ [63] ∧
    (t.tile p).record[7].toNat / 2 ^ 8 % 8 = 5 ∧ (t.tile p).record[7].toNat / 2 ^ 11 % 4 = 3 := by
  obtain ⟨hstop, hmsix, hrecord⟩ := stopLevel_decided hs p f code hrun (shown := 5) (pol := 3) (by decide) (by decide) 0 (.inr (.inr rfl))
  simp only [passFault, tellHost_tile]
  exact ⟨hstop.tellHost, congrArg (· ++ [63]) hmsix, hrecord⟩

end

/-- R57: CONTAINMENT_DECISION on a tile whose firing waits for level 2. -/
theorem exec_containmentDecision {s : State} {p : Nat} {f : Firing} (hf : (s.tile p).firing = some f) (hd : f.decide = some 2) :
    exec (.containmentDecision p) s = .next (s.settleFault p f ((s.tile p).record[0].toNat % 256) 4 2) := by
  have hcode : bits ((s.tile p).record[0]).toNat 0 8 = (s.tile p).record[0].toNat % 256 := by
    simp only [bits, Nat.pow_zero, Nat.div_one, Nat.reducePow]
  change execContainmentDecision p s = _
  simp only [execContainmentDecision, hf, hd, hcode]

/-- R57: on a tile with no fault waiting it does nothing where no stream context is frozen. -/
theorem exec_containmentDecision_none {s : State} {p : Nat} (hf : (s.tile p).firing = none ∨ ∃ f, (s.tile p).firing = some f ∧ f.decide = none)
    (hc : ∀ e ∈ s.ctxs, e.2.st ≠ .frozen) : exec (.containmentDecision p) s = .next s := by
  have hend : s.endFrozen p = s := by
    unfold State.endFrozen
    rw [List.find?_eq_none.2 (fun e he => by simp [hc e he])]
  change execContainmentDecision p s = _
  obtain hf | ⟨f, hf, hd⟩ := hf
  · simp only [execContainmentDecision, hf, hend]
  · simp only [execContainmentDecision, hf, hd, hend]

/-- Settles O22: the levels are tried in turn, and each policy does what its own theorem above says. -/
theorem containmentDecision : Obligations.ContainmentDecision := by
  refine ⟨fun s p hf hc => exec_containmentDecision_none hf hc, fun s p f hs hf hslot hd htrap hfault hrun hpol => ?_⟩
  intro g x code b
  have hexec := exec_containmentDecision hf hd
  rw [settleFault_settles f code hpol] at hexec
  refine ⟨_, hexec, fun lvl h => ?ignore, fun lvl h => ?retry, fun lvl h => ?stop, fun h => ?pass⟩
  case ignore =>
    obtain ⟨hl, -⟩ := settles_level h
    rw [h]
    exact ignoreFault_settles hs p f code hslot (by omega)
  case retry =>
    obtain ⟨hl, hpart⟩ := settles_level h
    rw [h]
    exact retryFault_settles hs p f code hf hslot htrap hfault (hpart rfl) (by omega)
  case stop =>
    obtain ⟨hl, -⟩ := settles_level h
    rw [h]
    exact stopFault_settles hs p f code hrun hl
  case pass =>
    rw [h]
    exact passFault_settles hs p f code hrun

end Sys2Proof.Claims
end

section
/-! SUPPORT. Laws for rounding: magnitudes cut at a quantum and rounded to whole quanta (R76, R82). -/

namespace Sys2Proof.Claims

open Sys2Proof.Machine

/-! ## Magnitudes -/

/-- A magnitude is m and a part d of one unit, d = 0 exactly where nothing lies below m. -/
theorem hasMagnitude.eq_add {m : Nat} {e : Int} {more : Bool} {v : ℚ} (h : hasMagnitude m e more v) :
    ∃ d : ℚ, v = (m + d) * 2 ^ e ∧ 0 ≤ d ∧ d < 1 ∧ (d = 0 ↔ more = false) := by
  have hpos : (0 : ℚ) < 2 ^ e := by positivity
  obtain ⟨rfl, rfl⟩ | ⟨rfl, -, hlo, hhi⟩ := h
  · exact ⟨0, by simp⟩
  · have hlo' := (lt_div_iff₀ hpos).2 hlo
    have hhi' := (div_lt_iff₀ hpos).2 hhi
    refine ⟨v / 2 ^ e - m, by field_simp; ring, by linarith, by linarith, ?_⟩
    simp [sub_eq_zero, hlo'.ne']

theorem hasMagnitude.wide {m : Nat} {e : Int} {v : ℚ} (h : hasMagnitude m e true v) : 64 ≤ m.log2 := by
  obtain ⟨h, -⟩ | ⟨-, hm, -⟩ := h
  · cases h
  · exact (Nat.le_log2 (by omega)).2 hm

/-- The leading bit of a magnitude is that of m. -/
theorem hasMagnitude.bounds {m : Nat} {e : Int} {more : Bool} {v : ℚ} (h : hasMagnitude m e more v) (hm : m ≠ 0) :
    (2 : ℚ) ^ ((m.log2 : Int) + e) ≤ v ∧ v < 2 ^ ((m.log2 : Int) + e + 1) := by
  obtain ⟨d, rfl, hd0, hd1, -⟩ := h.eq_add
  have hpos : (0 : ℚ) < 2 ^ e := by positivity
  have hlo : ((2 ^ m.log2 : Nat) : ℚ) ≤ m := Nat.cast_le.2 (Nat.log2_self_le hm)
  have hhi : ((m + 1 : Nat) : ℚ) ≤ (2 ^ (m.log2 + 1) : Nat) := Nat.cast_le.2 (Nat.succ_le_of_lt Nat.lt_log2_self)
  push_cast at hlo hhi
  rw [add_right_comm, zpow_add₀ two_ne_zero, zpow_add₀ two_ne_zero, ← Nat.cast_succ, zpow_natCast, zpow_natCast,
    Nat.succ_eq_add_one]
  exact ⟨by gcongr; linarith, by gcongr; linarith⟩

theorem hasMagnitude.log_eq {m : Nat} {e : Int} {more : Bool} {v : ℚ} (h : hasMagnitude m e more v) (hm : m ≠ 0) :
    Int.log 2 v = m.log2 + e := by
  obtain ⟨hlo, hhi⟩ := h.bounds hm
  have hv : 0 < v := lt_of_lt_of_le (by positivity) hlo
  have h1 := (Int.zpow_le_iff_le_log (b := 2) one_lt_two hv).1 (by exact_mod_cast hlo)
  have h2 := (Int.lt_zpow_iff_log_lt (b := 2) one_lt_two hv).1 (by exact_mod_cast hhi)
  omega

/-! ## The cut -/

/-- u quanta are q whole ones and (rem + d) / 2^sh of one, where the part d of the last unit is 0 exactly if nothing lies below (`more`);
then the cut takes off the 16 bits or more that RSS compares (R82). -/
structure CutOf (u : ℚ) (q rem sh : Nat) (more : Bool) : Prop where
  value : ∃ d : ℚ, u = q + (rem + d) / 2 ^ sh ∧ 0 ≤ d ∧ d < 1 ∧ (d = 0 ↔ more = false)
  rem_lt : rem < 2 ^ sh
  wide : more = true → 16 ≤ sh

theorem cutOf_cutAt {m : Nat} {e k : Int} {more : Bool} {v : ℚ} (h : hasMagnitude m e more v) (hk : more = true → e + 16 ≤ k) :
    CutOf (v / 2 ^ k) (cutAt m e k).1 (cutAt m e k).2.1 (cutAt m e k).2.2 more := by
  obtain ⟨d, hv, hd0, hd1, hd⟩ := h.eq_add
  unfold cutAt
  split
  case isTrue hke =>
    have hmore : more = false := by
      by_contra hc
      have := hk (by simpa using hc)
      omega
    obtain ⟨n, rfl⟩ : ∃ n : Nat, e = k + n := ⟨(e - k).toNat, by omega⟩
    refine ⟨⟨0, ?_, le_rfl, one_pos, by simp [hmore]⟩, by simp, by simp [hmore]⟩
    rw [hv, hd.2 hmore, zpow_add₀ two_ne_zero, zpow_natCast]
    field_simp
    simp
  case isFalse hke =>
    obtain ⟨n, rfl⟩ : ∃ n : Nat, k = e + n := ⟨(k - e).toNat, by omega⟩
    have hn : (e + n - e).toNat = n := by omega
    have hm : ((2 ^ n * (m / 2 ^ n) + m % 2 ^ n : Nat) : ℚ) = m := congrArg _ (Nat.div_add_mod m (2 ^ n))
    push_cast at hm
    rw [hn]
    refine ⟨⟨d, ?_, hd0, hd1, hd⟩, Nat.mod_lt _ (by positivity), fun hm => by have := hk hm; simp only; omega⟩
    rw [hv, ← hm, zpow_add₀ two_ne_zero, zpow_natCast]
    push_cast
    field_simp
    ring

/-- An exact cut is not moved. -/
theorem roundsUp_exact (mode r : Nat) (neg : Bool) (q sh : Nat) : roundsUp mode r neg q 0 sh false = false := by
  unfold roundsUp
  split <;> simp

section
variable {u : ℚ} {q rem sh : Nat} {more : Bool} (h : CutOf u q rem sh more)
include h

theorem CutOf.bounds : (q : ℚ) ≤ u ∧ u < q + 1 := by
  obtain ⟨d, rfl, hd0, hd1, -⟩ := h.value
  have hlt : ((rem + 1 : Nat) : ℚ) ≤ (2 ^ sh : Nat) := Nat.cast_le.2 h.rem_lt
  push_cast at hlt
  have hpos : (0 : ℚ) < 2 ^ sh := by positivity
  have := (div_lt_one hpos).2 (show (rem : ℚ) + d < 2 ^ sh by linarith)
  have : (0 : ℚ) ≤ (rem + d) / 2 ^ sh := by positivity
  constructor <;> linarith

theorem CutOf.floor_eq : ⌊u⌋.toNat = q := by
  rw [Int.floor_toNat, Nat.floor_eq_iff (by linarith [h.bounds.1, Nat.cast_nonneg (α := ℚ) q])]
  exact h.bounds

/-- A cut is exact where it takes nothing off. -/
theorem CutOf.exact_iff : u - q = 0 ↔ rem = 0 ∧ more = false := by
  obtain ⟨d, rfl, hd0, -, hd⟩ := h.value
  have hpos : (2 : ℚ) ^ sh ≠ 0 := by positivity
  rw [add_sub_cancel_left, div_eq_zero_iff, or_iff_left hpos, add_eq_zero_iff_of_nonneg rem.cast_nonneg hd0, hd, Nat.cast_eq_zero]

/-- R77: the model's test for NX. -/
theorem CutOf.inexact_iff : (decide (rem ≠ 0) || more) = true ↔ u - q ≠ 0 := by
  simp only [ne_eq, h.exact_iff]
  cases more <;> simp

/-- An inexact cut takes bits off, so that half a quantum is a whole number of units. -/
theorem CutOf.sh_pos (hne : u - q ≠ 0) : 0 < sh := by
  rcases Nat.eq_zero_or_pos sh with rfl | hsh
  · refine absurd (h.exact_iff.2 ⟨?_, ?_⟩) hne
    · simpa using h.rem_lt
    · simpa using h.wide
  · exact hsh

theorem CutOf.lt_half_iff (hne : u - q ≠ 0) : u - q < 1 / 2 ↔ 2 * rem < 2 ^ sh := by
  obtain ⟨n, rfl⟩ : ∃ n, sh = n + 1 := ⟨sh - 1, by have := h.sh_pos hne; omega⟩
  obtain ⟨d, rfl, hd0, hd1, -⟩ := h.value
  have hpos : (0 : ℚ) < 2 ^ (n + 1) := by positivity
  rw [add_sub_cancel_left, div_lt_iff₀ hpos, pow_succ, pow_succ]
  constructor
  · intro hlt
    have : (rem : ℚ) < (2 ^ n : Nat) := by push_cast; linarith
    have := Nat.cast_lt.1 this
    omega
  · intro hlt
    have : ((rem + 1 : Nat) : ℚ) ≤ (2 ^ n : Nat) := Nat.cast_le.2 (by omega)
    push_cast at this
    linarith

theorem CutOf.eq_half_iff (hne : u - q ≠ 0) : u - q = 1 / 2 ↔ 2 * rem = 2 ^ sh ∧ more = false := by
  obtain ⟨n, rfl⟩ : ∃ n, sh = n + 1 := ⟨sh - 1, by have := h.sh_pos hne; omega⟩
  obtain ⟨d, rfl, hd0, hd1, hd⟩ := h.value
  have hpos : (2 : ℚ) ^ (n + 1) ≠ 0 := by positivity
  rw [add_sub_cancel_left, div_eq_iff hpos, pow_succ, pow_succ, ← hd]
  constructor
  · intro heq
    have h1 : (rem : ℚ) ≤ (2 ^ n : Nat) := by push_cast; linarith
    have h2 : ((2 ^ n : Nat) : ℚ) < (rem + 1 : Nat) := by push_cast; linarith
    have h3 : rem = 2 ^ n := le_antisymm (Nat.cast_le.1 h1) (Nat.lt_succ_iff.1 (Nat.cast_lt.1 h2))
    rw [h3] at heq
    push_cast at heq
    exact ⟨by omega, by linarith⟩
  · rintro ⟨heq, rfl⟩
    have : rem = 2 ^ n := by omega
    rw [this]
    push_cast
    ring

/-- The first 16 bits of the part cut off. -/
theorem CutOf.floor_part : ⌊(u - q) * 65536⌋ = (rem * 65536 / 2 ^ sh : Nat) := by
  obtain ⟨d, rfl, hd0, hd1, hd⟩ := h.value
  have hfloor (a b : Nat) (d : ℚ) (hd0 : 0 ≤ d) (hd1 : d < 1) : ⌊((a : ℚ) + d) / b⌋ = (a / b : Nat) := by
    have : ⌊(a : ℚ) + d⌋ = a := by
      rw [Int.floor_natCast_add, Int.floor_eq_zero_iff.2 ⟨hd0, hd1⟩, add_zero]
    rw [Int.floor_div_natCast, this, Int.natCast_div]
  cases hm : more with
  | false =>
    rw [← hfloor _ _ 0 le_rfl one_pos, hd.2 hm]
    push_cast
    congr 1
    ring
  | true =>
    obtain ⟨n, rfl⟩ : ∃ n, sh = n + 16 := ⟨sh - 16, by have := h.wide hm; omega⟩
    rw [Nat.pow_add, Nat.mul_div_mul_right rem _ (by decide), ← hfloor _ _ d hd0 hd1]
    push_cast
    congr 1
    field_simp
    ring

/-- R76, R82: the model's test on the bits cut off decides what the rounding code asks of the exact part. -/
theorem CutOf.quanta_of_cut (mode r : Nat) (neg : Bool) : quanta mode r neg u = if roundsUp mode r neg q rem sh more then q + 1 else q := by
  unfold quanta
  simp only [h.floor_eq]
  by_cases hu : u - q = 0
  · obtain ⟨hrem, hmore⟩ := h.exact_iff.1 hu
    rw [if_pos hu, hrem, hmore, roundsUp_exact]
    simp
  · have hhalf := h.lt_half_iff hu
    have heven := h.eq_half_iff hu
    rw [if_neg hu]
    unfold roundsUp
    simp only [h.inexact_iff.2 hu, hhalf, heven, h.floor_part, Nat.cast_lt, Bool.true_and]
    split
    case h_1 =>
      rw [← ite_not]
      congr 1
      simp only [Bool.or_eq_true, Bool.and_eq_true, decide_eq_true_eq, beq_iff_eq, eq_iff_iff]
      cases more <;> simp <;> omega
    case h_2 => simp
    case h_3 => simp
    case h_4 => cases neg <;> simp
    case h_5 =>
      have hhalf_le : 2 ^ sh ≤ 2 * rem → rem ≠ 0 := by
        have := Nat.two_pow_pos sh
        omega
      rw [← ite_not]
      congr 1
      simpa using hhalf_le
    case h_6 => simp

/-- A magnitude is unchanged by rounding exactly where the cut takes nothing off. -/
theorem CutOf.quanta_eq_iff (mode r : Nat) (neg : Bool) : (quanta mode r neg u : ℚ) = u ↔ (decide (rem ≠ 0) || more) = false := by
  rw [← Bool.not_eq_true, h.inexact_iff, not_not]
  constructor
  · intro heq
    rw [h.quanta_of_cut] at heq
    obtain ⟨-, hhi⟩ := h.bounds
    split at heq
    · push_cast at heq
      linarith
    · linarith
  · intro hu
    unfold quanta
    simp only [h.floor_eq, hu, if_true]
    linarith

theorem CutOf.inexact_eq (mode r : Nat) (neg : Bool) : (decide (rem ≠ 0) || more) = decide ((quanta mode r neg u : ℚ) ≠ u) := by
  rw [Bool.eq_iff_iff, decide_eq_true_iff, ← not_iff_not, not_ne_iff, h.quanta_eq_iff, Bool.not_eq_true]
end

end Sys2Proof.Claims
end

section
/-! SUPPORT. Laws for floating formats: what an encoding is worth, and a magnitude rounded once to a format (R70, R76, R77, R80, R82). -/

namespace Sys2Proof.Claims

open Sys2Proof.Machine

/-! ## Encodings in order of their magnitudes -/

/-- R70: the magnitude of an encoding without its sign. -/
def worth (g : Fmt) (a : Nat) : ℚ :=
  if a / 2 ^ g.f = 0 then (a % 2 ^ g.f : Nat) * 2 ^ (1 - (g.bias : ℤ) - g.f)
  else (2 ^ g.f + (a % 2 ^ g.f : Nat)) * 2 ^ (((a / 2 ^ g.f : Nat) : ℤ) - g.bias - g.f)

/-- An encoding with its sign bit. -/
def withSign (g : Fmt) (neg : Bool) (a : Nat) : Nat := (if neg then 2 ^ (g.width - 1) else 0) + a

/-- R70: the encoding of q quanta of 2^k, fewer than 2^f of them subnormal; 2^(f + 1) of them carry into the exponent. -/
def packed (g : Fmt) (k : Int) (q : Nat) : Nat := if q < 2 ^ g.f then q else (k + g.f + g.bias).toNat * 2 ^ g.f + (q - 2 ^ g.f)

/-- The quantum 2^k is one of the format's, and q of them have a normal exponent or are counted in the least quantum. -/
structure Fits (g : Fmt) (k : Int) (q : Nat) : Prop where
  least : 1 - (g.bias : ℤ) - g.f ≤ k
  carry : q ≤ 2 ^ (g.f + 1)
  subnormal : q < 2 ^ g.f → k = 1 - g.bias - g.f

theorem worth_subnormal (g : Fmt) {x : Nat} (hx : x < 2 ^ g.f) : worth g x = x * 2 ^ (1 - (g.bias : ℤ) - g.f) := by
  rw [worth, Nat.div_eq_of_lt hx, Nat.mod_eq_of_lt hx, if_pos rfl]

theorem worth_normal (g : Fmt) {e x : Nat} (he : e ≠ 0) (hx : x < 2 ^ g.f) :
    worth g (e * 2 ^ g.f + x) = (2 ^ g.f + x) * 2 ^ ((e : ℤ) - g.bias - g.f) := by
  have hdiv : (e * 2 ^ g.f + x) / 2 ^ g.f = e := by
    rw [Nat.add_div_of_dvd_right (Dvd.intro_left _ rfl), Nat.mul_div_cancel _ (by positivity), Nat.div_eq_of_lt hx, Nat.add_zero]
  rw [worth, hdiv, if_neg he, Nat.mul_add_mod', Nat.mod_eq_of_lt hx]

theorem worth_packed {g : Fmt} {k : Int} {q : Nat} (h : Fits g k q) : worth g (packed g k q) = q * 2 ^ k := by
  obtain ⟨hk, hq, hsub⟩ := h
  unfold packed
  split
  case isTrue hlt => rw [worth_subnormal g hlt, hsub hlt]
  case isFalse hge =>
    obtain ⟨n, hn⟩ : ∃ n : Nat, (n : ℤ) + 1 = k + g.f + g.bias := ⟨(k + g.f + g.bias - 1).toNat, by omega⟩
    have hto : (k + g.f + g.bias).toNat = n + 1 := by omega
    rw [hto]
    rcases Nat.lt_or_ge q (2 ^ (g.f + 1)) with hlt | hcarry
    · rw [worth_normal g (by omega) (by omega), Nat.cast_sub (by omega), show ((n + 1 : Nat) : ℤ) - g.bias - g.f = k by omega]
      push_cast
      ring
    · have hq : q = 2 ^ (g.f + 1) := by omega
      rw [show (n + 1) * 2 ^ g.f + (q - 2 ^ g.f) = (n + 2) * 2 ^ g.f + 0 by rw [hq, pow_succ]; lia,
        worth_normal g (by omega) (by positivity), show ((n + 2 : Nat) : ℤ) - g.bias - g.f = k + 1 by push_cast; omega, hq,
        zpow_add_one₀ two_ne_zero]
      push_cast
      ring

theorem packed_succ {g : Fmt} {k : Int} {q : Nat} (h : Fits g k q) : packed g k (q + 1) = packed g k q + 1 := by
  unfold packed
  split
  case isTrue hlt => rw [if_pos (by omega)]
  case isFalse hge =>
    split
    case isTrue hlt =>
      rw [h.subnormal hlt, show (1 - (g.bias : ℤ) - g.f + g.f + g.bias).toNat = 1 by omega]
      omega
    case isFalse hge' => omega

/-- Every encoding is some quanta, and one more of them fit. -/
theorem exists_packed (g : Fmt) (a : Nat) : ∃ k q, Fits g k q ∧ Fits g k (q + 1) ∧ packed g k q = a := by
  rcases Nat.eq_zero_or_pos (a / 2 ^ g.f) with h0 | hpos
  · have hlt : a < 2 ^ g.f := (Nat.div_eq_zero_iff_lt (by positivity)).1 h0
    refine ⟨1 - g.bias - g.f, a, ⟨le_rfl, ?_, fun _ => rfl⟩, ⟨le_rfl, ?_, fun _ => rfl⟩, if_pos hlt⟩ <;> rw [pow_succ] <;> omega
  · have hmod : a % 2 ^ g.f < 2 ^ g.f := Nat.mod_lt _ (by positivity)
    refine ⟨(a / 2 ^ g.f : Nat) - g.bias - g.f, 2 ^ g.f + a % 2 ^ g.f, ⟨by omega, ?_, by omega⟩, ⟨by omega, ?_, by omega⟩, ?_⟩
    · rw [pow_succ]; omega
    · rw [pow_succ]; omega
    · rw [packed, if_neg (by omega), Nat.add_sub_cancel_left,
        show (((a / 2 ^ g.f : Nat) : ℤ) - g.bias - g.f + g.f + g.bias).toNat = a / 2 ^ g.f by omega]
      exact Nat.div_add_mod' a (2 ^ g.f)

/-- Greater encodings are worth more. -/
theorem worth_strictMono (g : Fmt) : StrictMono (worth g) := by
  refine strictMono_nat_of_lt_succ fun a => ?_
  obtain ⟨k, q, hq, hq', rfl⟩ := exists_packed g a
  rw [← packed_succ hq, worth_packed hq, worth_packed hq']
  push_cast
  gcongr
  linarith

/-! ## Decoding an encoding and its sign -/

theorem withSign_testBit (g : Fmt) (neg : Bool) {a : Nat} (ha : a < 2 ^ (g.width - 1)) : (withSign g neg a).testBit (g.width - 1) = neg := by
  cases neg <;> simp [withSign, Nat.testBit_two_pow_add_eq, Nat.testBit_lt_two_pow ha]

theorem withSign_mod (g : Fmt) (neg : Bool) {a : Nat} (ha : a < 2 ^ (g.width - 1)) : withSign g neg a % 2 ^ (g.width - 1) = a := by
  cases neg <;> simp [withSign, Nat.mod_eq_of_lt ha]

theorem withSign_lt (g : Fmt) (neg : Bool) {a : Nat} (hw : g.width ≠ 0) (ha : a < 2 ^ (g.width - 1)) : withSign g neg a < 2 ^ g.width := by
  have : 2 ^ g.width = 2 * 2 ^ (g.width - 1) := by rw [← pow_succ', Nat.sub_add_cancel (by omega)]
  unfold withSign
  split <;> omega

section
variable {g : Fmt} {neg : Bool} {a : Nat} (ha : a < 2 ^ (g.width - 1))
include ha

theorem decode_finite (hmax : a ≤ g.maxEnc) : IsExact (g.decode (withSign g neg a)) neg (worth g a) := by
  simp only [Fmt.decode, withSign_testBit g neg ha, withSign_mod g neg ha, if_pos hmax, worth]
  split
  · exact ⟨_, _, rfl, rfl⟩
  · exact ⟨_, _, rfl, by push_cast; rfl⟩

theorem decode_inf (hinf : g.hasInf = true) (h : a = g.maxEnc + 1) : g.decode (withSign g neg a) = .inf neg := by
  subst h
  simp [Fmt.decode, withSign_testBit g neg ha, withSign_mod g neg ha, hinf]

theorem decode_nan (hmax : g.maxEnc < a) (h : g.hasInf = true → a ≠ g.maxEnc + 1) : g.decode (withSign g neg a) = .nan := by
  simpa [Fmt.decode, withSign_mod g neg ha, hmax.not_ge] using h

end

/-! ## A magnitude rounded to a format -/

/-- R77: the exponent of the quantum of v: its own precision, or the format's least. -/
def quantumExp (g : Fmt) (v : ℚ) : ℤ := max (Int.log 2 v - g.f) (1 - g.bias - g.f)

/-- A magnitude rounded to quanta of 2^k. -/
def roundedTo (mode r : Nat) (neg : Bool) (k : ℤ) (v : ℚ) : ℚ := quanta mode r neg (v / 2 ^ k) * 2 ^ k

theorem roundedTo_eq_iff {mode r : Nat} {neg : Bool} {k : ℤ} {v : ℚ} :
    roundedTo mode r neg k v = v ↔ (quanta mode r neg (v / 2 ^ k) : ℚ) = v / 2 ^ k :=
  (eq_div_iff (by positivity)).symm

/-- Where q units of the precision below the exponent `top` lie below a power of two: they are less than twice the leading unit's. -/
theorem units_lt_zpow_iff {n f : Nat} {top : ℤ} (hlo : 2 ^ f ≤ n) (hhi : n ≤ 2 ^ (f + 1)) (least : ℤ) :
    (n : ℚ) * 2 ^ (top - f) < 2 ^ least ↔ top < least ∧ ¬ (top = least - 1 ∧ n = 2 ^ (f + 1)) := by
  have hlead : (2 : ℚ) ^ top = (2 ^ f : Nat) * 2 ^ (top - f) := by
    rw [Nat.cast_pow, Nat.cast_ofNat, ← zpow_natCast, ← zpow_add₀ two_ne_zero, add_sub_cancel]
  have hnext : (2 : ℚ) ^ (top + 1) = (2 ^ (f + 1) : Nat) * 2 ^ (top - f) := by
    rw [zpow_add_one₀ two_ne_zero, hlead, pow_succ]
    push_cast
    ring
  rcases hhi.lt_or_eq with hlt | rfl
  · have hle : (2 : ℚ) ^ top ≤ n * 2 ^ (top - f) := by rw [hlead]; gcongr
    have hlt' : (n : ℚ) * 2 ^ (top - f) < 2 ^ (top + 1) := by rw [hnext]; gcongr
    rw [← zpow_lt_zpow_iff_right₀ (one_lt_two (α := ℚ))]
    simp only [hlt.ne, and_false, not_false_eq_true, and_true]
    refine ⟨hle.trans_lt, fun hlt => hlt'.trans_le (zpow_le_zpow_right₀ one_le_two ?_)⟩
    exact (zpow_lt_zpow_iff_right₀ one_lt_two).1 hlt
  · rw [← hnext, zpow_lt_zpow_iff_right₀ one_lt_two]
    omega

/-- R76: v lies above the greatest finite value exactly where the whole quanta below it do, or are that value with more below. -/
theorem greatest_lt_iff {g : Fmt} {v : ℚ} {q rem sh : Nat} {k : ℤ} {more : Bool} (hfit : Fits g k q ∧ Fits g k (q + 1))
    (hc : CutOf (v / 2 ^ k) q rem sh more) :
    worth g g.maxEnc < v ↔ g.maxEnc < packed g k q ∨ (packed g k q = g.maxEnc ∧ (decide (rem ≠ 0) || more) = true) := by
  have hpos : (0 : ℚ) < 2 ^ k := by positivity
  have hlo : worth g (packed g k q) ≤ v := by
    rw [worth_packed hfit.1, ← le_div_iff₀ hpos]
    exact hc.bounds.1
  have hhi : v < worth g (packed g k q + 1) := by
    rw [← packed_succ hfit.1, worth_packed hfit.2, ← div_lt_iff₀ hpos]
    push_cast
    exact hc.bounds.2
  have hexact : (decide (rem ≠ 0) || more) = true ↔ worth g (packed g k q) ≠ v := by
    rw [hc.inexact_iff, worth_packed hfit.1, ne_eq, ne_eq, sub_eq_zero, div_eq_iff hpos.ne', eq_comm]
  rw [hexact]
  rcases lt_trichotomy g.maxEnc (packed g k q) with hlt | heq | hgt
  · simp [hlt, (worth_strictMono g hlt).trans_le hlo]
  · simp [heq, hlo.lt_iff_ne]
  · have : ¬ worth g g.maxEnc < v := (hhi.trans_le ((worth_strictMono g).monotone hgt)).not_gt
    simp [this, hgt.le, hgt.ne]

section
variable {g : Fmt} {mode r : Nat} {neg : Bool} {m : Nat} {e : Int} {more : Bool} {v : ℚ} (hm : m ≠ 0) (h : hasMagnitude m e more v)
include h

theorem cutOf_precision {k : ℤ} (hf : g.f ≤ 48) (hk : (m.log2 : ℤ) + e - g.f ≤ k) :
    CutOf (v / 2 ^ k) (cutAt m e k).1 (cutAt m e k).2.1 (cutAt m e k).2.2 more := by
  refine cutOf_cutAt h fun hmore => ?_
  subst hmore
  have := h.wide
  omega

include hm

theorem units_lt {q rem sh : Nat} {k : ℤ} (hk : (m.log2 : ℤ) + e - g.f ≤ k) (hc : CutOf (v / 2 ^ k) q rem sh more) : q < 2 ^ (g.f + 1) := by
  have hlt : v / 2 ^ k < 2 ^ (g.f + 1) := by
    rw [div_lt_iff₀ (by positivity), ← zpow_natCast, ← zpow_add₀ two_ne_zero]
    exact (h.bounds hm).2.trans_le (zpow_le_zpow_right₀ one_le_two (by push_cast; omega))
  exact_mod_cast hc.bounds.1.trans_lt hlt

theorem le_units {q rem sh : Nat} (hc : CutOf (v / 2 ^ ((m.log2 : ℤ) + e - g.f)) q rem sh more) : 2 ^ g.f ≤ q := by
  have hle : (2 : ℚ) ^ g.f ≤ v / 2 ^ ((m.log2 : ℤ) + e - g.f) := by
    rw [le_div_iff₀ (by positivity), ← zpow_natCast, ← zpow_add₀ two_ne_zero, add_sub_cancel]
    exact (h.bounds hm).1
  have : ((2 ^ g.f : Nat) : ℚ) < (q + 1 : Nat) := by push_cast; exact hle.trans_lt hc.bounds.2
  exact Nat.lt_succ_iff.1 (Nat.cast_lt.1 this)

/-- A magnitude cut at its quantum: the units kept, and one more of them, fit the format. -/
theorem cutOf_quantumExp (hf : g.f ≤ 48) : let k := quantumExp g v
    CutOf (v / 2 ^ k) (cutAt m e k).1 (cutAt m e k).2.1 (cutAt m e k).2.2 more ∧ Fits g k (cutAt m e k).1 ∧ Fits g k ((cutAt m e k).1 + 1) := by
  intro k
  have hk : k = max ((m.log2 : ℤ) + e - g.f) (1 - g.bias - g.f) := by rw [← h.log_eq hm]; rfl
  have hc := cutOf_precision (g := g) h hf (k := k) (by omega)
  have hlt := units_lt (g := g) hm h (k := k) (by omega) hc
  generalize cutAt m e k = c at *
  have hsub : c.1 < 2 ^ g.f → k = 1 - g.bias - g.f := by
    intro hq
    by_contra hne
    rw [show k = (m.log2 : ℤ) + e - g.f by omega] at hc
    have := le_units hm h hc
    omega
  exact ⟨hc, ⟨by omega, by omega, hsub⟩, ⟨by omega, by omega, fun hq => hsub (by omega)⟩⟩

/-- R77: tininess, where the model compares exponents. -/
theorem tiny_eq {q rem sh : Nat} {up : Bool} (hc : CutOf (v / 2 ^ ((m.log2 : ℤ) + e - g.f)) q rem sh more)
    (hup : quanta mode r neg (v / 2 ^ ((m.log2 : ℤ) + e - g.f)) = if up then q + 1 else q) :
    (decide ((m.log2 : ℤ) + e < 1 - g.bias) && !(decide ((m.log2 : ℤ) + e = 1 - g.bias - 1) && up && decide (q + 1 = 2 ^ (g.f + 1)))) =
      decide (roundedTo mode r neg ((m.log2 : ℤ) + e - g.f) v < 2 ^ (1 - (g.bias : ℤ))) := by
  have hlo := le_units hm h hc
  have hhi := units_lt hm h le_rfl hc
  have hunits (n : Nat) (hn : n = if up then q + 1 else q) :
      2 ^ g.f ≤ n ∧ n ≤ 2 ^ (g.f + 1) ∧ (n = 2 ^ (g.f + 1) ↔ up = true ∧ q + 1 = 2 ^ (g.f + 1)) := by
    rw [hn]
    cases up <;> simp <;> omega
  obtain ⟨hle, hge, hcarry⟩ := hunits _ hup
  rw [Bool.eq_iff_iff, decide_eq_true_iff, roundedTo, units_lt_zpow_iff hle hge, hcarry]
  simp only [Bool.and_eq_true, Bool.not_eq_true', ← Bool.not_eq_true, decide_eq_true_eq, and_assoc]

/-- The encoding of the rounded magnitude is worth it. -/
theorem worth_rounded (hf : g.f ≤ 48) : worth g (packed g (quantumExp g v) (quanta mode r neg (v / 2 ^ quantumExp g v))) =
    roundedTo mode r neg (quantumExp g v) v := by
  obtain ⟨hcut, hfit, hfit'⟩ := cutOf_quantumExp hm h hf
  refine worth_packed ?_
  rw [hcut.quanta_of_cut]
  split
  exacts [hfit', hfit]

/-- Rounding does not pass the greatest finite value from below it. -/
theorem packed_le_maxEnc (hf : g.f ≤ 48) (hle : ¬ worth g g.maxEnc < if mode = 5 then v else roundedTo mode r neg (quantumExp g v) v) :
    packed g (quantumExp g v) (quanta mode r neg (v / 2 ^ quantumExp g v)) ≤ g.maxEnc := by
  by_cases hmode : mode = 5
  · rw [if_pos hmode] at hle
    obtain ⟨hcut, hfit⟩ := cutOf_quantumExp hm h hf
    rw [greatest_lt_iff hfit hcut, not_or, not_and, Bool.not_eq_true, ← hcut.quanta_eq_iff mode r neg] at hle
    obtain ⟨hunits, hexact⟩ := hle
    have hquanta := hcut.quanta_of_cut mode r neg
    split at hquanta
    case isTrue hup =>
      rw [hquanta, packed_succ hfit.1]
      refine Nat.lt_of_le_of_ne (Nat.le_of_not_lt hunits) fun heq => ?_
      have := (hexact heq).symm.trans (congrArg _ hquanta)
      have := hcut.bounds.2
      push_cast at *
      linarith
    case isFalse => exact hquanta ▸ Nat.le_of_not_lt hunits
  · rw [if_neg hmode, ← worth_rounded hm h hf, (worth_strictMono g).lt_iff_lt] at hle
    exact Nat.le_of_not_lt hle

/-- R76, R77, R80, R82: a magnitude rounded once to a format. -/
theorem roundMag_eq (hf : g.f ≤ 48) : g.roundMag mode r neg m e more =
    let z := roundedTo mode r neg (quantumExp g v) v
    if worth g g.maxEnc < if mode = 5 then v else z then
      (withSign g neg (if g.hasInf && (mode == 0 || mode == 4 || (mode == 2 && neg) || (mode == 3 && !neg)) then g.maxEnc + 1 else g.maxEnc),
        fOV + fNX)
    else (withSign g neg (packed g (quantumExp g v) (quanta mode r neg (v / 2 ^ quantumExp g v))),
      (if z = v then 0 else fNX) +
        if roundedTo mode r neg (Int.log 2 v - g.f) v < 2 ^ (1 - (g.bias : ℤ)) ∧ z ≠ v then fUF else 0) := by
  have hk : quantumExp g v = max ((m.log2 : ℤ) + e - g.f) (1 - g.bias - g.f) := by rw [quantumExp, h.log_eq hm]
  obtain ⟨hcut, hfit⟩ := cutOf_quantumExp hm h hf
  have htop := cutOf_precision h hf (k := (m.log2 : ℤ) + e - g.f) le_rfl
  have hz := worth_rounded (mode := mode) (r := r) (neg := neg) hm h hf
  rw [h.log_eq hm]
  generalize quantumExp g v = k at *
  have hquanta := hcut.quanta_of_cut mode r neg
  have htiny := tiny_eq hm h htop (htop.quanta_of_cut mode r neg)
  unfold Fmt.roundMag
  simp only [← hk, ← hquanta]
  generalize cutAt m e k = c at *
  generalize cutAt m e ((m.log2 : ℤ) + e - g.f) = c' at *
  have hinexact : (decide (c.2.1 ≠ 0) || more) = decide (roundedTo mode r neg k v ≠ v) := by
    simp only [hcut.inexact_eq mode r neg, ne_eq, roundedTo_eq_iff]
  have hbeyond : (if mode = 5 then decide (g.maxEnc < packed g k c.1) || (decide (packed g k c.1 = g.maxEnc) && (decide (c.2.1 ≠ 0) || more))
      else decide (g.maxEnc < packed g k (quanta mode r neg (v / 2 ^ k)))) =
      decide (worth g g.maxEnc < if mode = 5 then v else roundedTo mode r neg k v) := by
    split
    · simp only [greatest_lt_iff hfit hcut, Bool.decide_or, Bool.decide_and, Bool.decide_eq_true]
    · simp only [← hz, (worth_strictMono g).lt_iff_lt]
  rw [packed, packed] at hbeyond
  rw [hbeyond, htiny, hinexact, withSign, withSign, packed]
  simp only [← Bool.decide_and, decide_eq_true_eq, ite_not]
end

end Sys2Proof.Claims
end

section
/-! SUPPORT. The formats of the type codes, and values delivered to a floating or an integer type (R70, R71, R81). -/

namespace Sys2Proof.Claims

open Sys2Proof.Machine

/-! ## The formats -/

/-- The model's format of a floating type is laid out as R70 says. -/
structure LaidOut (ty : Nat) : Prop where
  float : isIntTy ty = false ∧ ty ≠ 13
  f : (fmtOf ty).f = (layout ty).2.1
  bias : (fmtOf ty).bias = (layout ty).2.2
  width : (fmtOf ty).width = (layout ty).1 + (layout ty).2.1 + 1 ∧ (fmtOf ty).width = elemWidth ty
  precision : (fmtOf ty).f ≤ 48
  hasInf : (fmtOf ty).hasInf = decide (9 ≤ ty)
  greatest : (fmtOf ty).maxEnc < 2 ^ ((fmtOf ty).width - 1)
  infinity : 9 ≤ ty → (fmtOf ty).maxEnc + 1 = (2 ^ (layout ty).1 - 1) * 2 ^ (layout ty).2.1 ∧
    (fmtOf ty).maxEnc + 1 < 2 ^ ((fmtOf ty).width - 1)

theorem laidOut {ty : Nat} (h : ty ∈ [7, 8, 9, 10, 11, 12]) : LaidOut ty := by
  simp only [List.mem_cons, List.not_mem_nil, or_false] at h
  rcases h with rfl | rfl | rfl | rfl | rfl | rfl <;> constructor <;> decide

theorem worth_maxEnc {ty : Nat} (h : ty ∈ [7, 8, 9, 10, 11, 12]) : worth (fmtOf ty) (fmtOf ty).maxEnc = greatestFinite ty := by
  simp only [List.mem_cons, List.not_mem_nil, or_false] at h
  rcases h with rfl | rfl | rfl | rfl | rfl | rfl <;> norm_num [worth, fmtOf, greatestFinite]

theorem LaidOut.worth_eq {ty : Nat} (h : LaidOut ty) {e x : Nat} (hx : x < 2 ^ (layout ty).2.1) :
    worth (fmtOf ty) (e * 2 ^ (layout ty).2.1 + x) = magnitude ty e x := by
  rw [← h.f] at hx ⊢
  rw [magnitude]
  simp only [← h.f, ← h.bias]
  split
  case isTrue he => rw [he, Nat.zero_mul, Nat.zero_add, worth_subnormal _ hx]
  case isFalse he => exact worth_normal _ he hx

theorem LaidOut.decodeTy_eq {ty : Nat} (h : LaidOut ty) {neg : Bool} {a : Nat} (ha : a < 2 ^ ((fmtOf ty).width - 1)) :
    decodeTy ty (withSign (fmtOf ty) neg a) = (fmtOf ty).decode (withSign (fmtOf ty) neg a) := by
  have hlt := withSign_lt (fmtOf ty) neg (by rw [h.width.1]; omega) ha
  rw [decodeTy, h.float.1, if_neg Bool.false_ne_true, if_neg h.float.2, ← h.width.2, Nat.mod_eq_of_lt hlt]

theorem LaidOut.withSign_lt {ty : Nat} (h : LaidOut ty) (neg : Bool) {a : Nat} (ha : a < 2 ^ ((fmtOf ty).width - 1)) :
    withSign (fmtOf ty) neg a < 2 ^ elemWidth ty := by
  rw [← h.width.2]
  exact Claims.withSign_lt _ _ (by rw [h.width.1]; omega) ha

theorem LaidOut.isExact {ty : Nat} (h : LaidOut ty) (neg : Bool) {a : Nat} (ha : a ≤ (fmtOf ty).maxEnc) :
    IsExact (decodeTy ty (withSign (fmtOf ty) neg a)) neg (worth (fmtOf ty) a) := by
  have hlt := ha.trans_lt h.greatest
  rw [h.decodeTy_eq hlt]
  exact decode_finite hlt ha

theorem LaidOut.decodeTy_inf {ty : Nat} (h : LaidOut ty) (hty : 9 ≤ ty) (neg : Bool) :
    decodeTy ty (withSign (fmtOf ty) neg ((fmtOf ty).maxEnc + 1)) = .inf neg := by
  have hlt := (h.infinity hty).2
  rw [h.decodeTy_eq hlt]
  exact decode_inf hlt (by rw [h.hasInf, decide_eq_true hty]) rfl

/-- The encodings of finite values: all but those with the greatest exponent in a format with infinities, and the NaN of e4m3. -/
theorem LaidOut.le_maxEnc {ty : Nat} (h : LaidOut ty) (hty : ty ∈ [7, 8, 9, 10, 11, 12]) {e x : Nat}
    (he : e < 2 ^ (layout ty).1) (hx : x < 2 ^ (layout ty).2.1) (hinf : 9 ≤ ty → e ≠ 2 ^ (layout ty).1 - 1)
    (hnan : ty = 8 → e ≠ 2 ^ (layout ty).1 - 1 ∨ x ≠ 7) :
    e * 2 ^ (layout ty).2.1 + x ≤ (fmtOf ty).maxEnc := by
  rcases Nat.lt_or_ge ty 9 with hlt | hge
  · obtain rfl | rfl : ty = 7 ∨ ty = 8 := by simp at hty; omega
    all_goals
      simp [layout, fmtOf] at *
      omega
  · have hnext : (e + 1) * 2 ^ (layout ty).2.1 ≤ (2 ^ (layout ty).1 - 1) * 2 ^ (layout ty).2.1 :=
      Nat.mul_le_mul_right _ (by have := hinf hge; omega)
    have := (h.infinity hge).1
    rw [Nat.succ_mul] at hnext
    omega

/-! ## Values delivered -/

theorem intLo_eq_least (ty : Nat) : intLo ty = least ty := by
  simp [intLo, least, isSignedTy, or_assoc]

theorem intHi_eq_greatest (ty : Nat) : intHi ty = greatest ty := by
  simp [intHi, greatest, isSignedTy, or_assoc]

/-- R81: a magnitude rounded to whole units. -/
theorem roundInt_eq {m : Nat} {e : Int} {v : ℚ} (h : hasMagnitude m e false v) (mode r : Nat) (neg : Bool) :
    roundInt mode r neg m e false = ((if neg then -1 else 1 : ℤ) * quanta mode r neg v, decide ((quanta mode r neg v : ℚ) ≠ v)) := by
  have hcut := cutOf_cutAt h (k := 0) (by simp)
  rw [zpow_zero, div_one] at hcut
  unfold roundInt
  simp only [hcut.inexact_eq mode r neg, ← hcut.quanta_of_cut]
  cases neg <;> simp

theorem round_fin (g : Fmt) (mode r : Nat) (neg : Bool) {m : Nat} (hm : m ≠ 0) (e : Int) (more : Bool) :
    g.round mode r (.fin neg m e more) = g.roundMag mode r neg m e more := by
  simp [Fmt.round, hm]

theorem round_zero (g : Fmt) (mode r : Nat) (neg : Bool) (e : Int) : g.round mode r (.fin neg 0 e false) = (withSign g neg 0, 0) := by
  simp [Fmt.round, withSign]

theorem round_inf (g : Fmt) (mode r : Nat) (neg : Bool) :
    g.round mode r (.inf neg) = if g.hasInf then (withSign g neg (g.maxEnc + 1), 0) else (withSign g neg g.maxEnc, fOV) := rfl

end Sys2Proof.Claims
end

section
/-! SUPPORT. Exact sums, quotients, roots and comparisons of finite values (R78, R79, R85, R87). -/

namespace Sys2Proof.Claims

open Sys2Proof.Machine

/-! ## Values in units of 2^k -/

theorem scaled_mul (neg : Bool) (m : Nat) {e k : Int} (more : Bool) (hk : k ≤ e) :
    (scaled neg m e k : ℚ) * 2 ^ k = signedValue (.fin neg m e more) := by
  obtain ⟨n, rfl⟩ : ∃ n : Nat, e = k + n := ⟨(e - k).toNat, by omega⟩
  have hn : (k + n - k).toNat = n := by omega
  rw [signedValue, zpow_add₀ two_ne_zero, zpow_natCast, scaled, hn]
  cases neg <;> push_cast <;> simp <;> ring

theorem minExp_le_start (xs : List Machine.Num) (k : Int) : minExp xs k ≤ k := by
  induction xs generalizing k with
  | nil => exact le_rfl
  | cons x xs ih =>
    cases x with
    | nan => exact ih k
    | inf n => exact ih k
    | fin n m e p =>
      rw [minExp]
      split
      · exact ih k
      · exact (ih _).trans (min_le_right e k)

/-- The unit of a sum divides every addend that is not zero. -/
theorem minExp_le {xs : List Machine.Num} {n : Bool} {m : Nat} {e : Int} {p : Bool} (hx : .fin n m e p ∈ xs) (hm : m ≠ 0) (k : Int) :
    minExp xs k ≤ e := by
  induction xs generalizing k with
  | nil => cases hx
  | cons x xs ih =>
    rcases List.mem_cons.1 hx with rfl | hmem
    · rw [minExp, if_neg hm]
      exact (minExp_le_start xs _).trans (min_le_left e k)
    · cases x with
      | nan => exact ih hmem k
      | inf n => exact ih hmem k
      | fin n m e p =>
        rw [minExp]
        split <;> exact ih hmem _

theorem sumAt_mul {xs : List Machine.Num} {k : Int} (hk : ∀ n m e p, .fin n m e p ∈ xs → m ≠ 0 → k ≤ e) :
    (sumAt k xs : ℚ) * 2 ^ k = (xs.map signedValue).sum := by
  induction xs with
  | nil => simp [sumAt]
  | cons x xs ih =>
    have ih := ih fun n m e p hx => hk n m e p (List.mem_cons_of_mem _ hx)
    rw [List.map_cons, List.sum_cons, ← ih]
    cases x with
    | nan => simp [sumAt, signedValue]
    | inf n => simp [sumAt, signedValue]
    | fin n m e p =>
      rw [sumAt, Int.cast_add, add_mul]
      split
      case isTrue hm => simp [hm, signedValue]
      case isFalse hm => rw [scaled_mul n m p (hk n m e p List.mem_cons_self hm)]

/-! ## Sums -/

theorem isNan_iff {x : Machine.Num} : x.isNan = true ↔ x = .nan := by cases x <;> simp [Num.isNan]

theorem isInf_iff {x : Machine.Num} : x.isInf = true ↔ x = .inf true ∨ x = .inf false := by
  cases x with
  | nan => simp [Num.isInf]
  | inf n => cases n <;> simp [Num.isInf]
  | fin n m e p => simp [Num.isInf]

theorem isInf_and_isNeg {x : Machine.Num} : (x.isInf && x.isNeg) = true ↔ x = .inf true := by
  cases x <;> simp [Num.isInf, Num.isNeg]

theorem isInf_and_not_isNeg {x : Machine.Num} : (x.isInf && !x.isNeg) = true ↔ x = .inf false := by
  cases x <;> simp [Num.isInf, Num.isNeg]

/-- The sum by what is among the addends (R79). -/
theorem sum_eq (mode : Nat) (xs : List Machine.Num) : Num.sum mode xs =
    if .inf true ∈ xs ∧ .inf false ∈ xs then (.nan, fNV)
    else if .nan ∈ xs then (.nan, 0)
    else if .inf true ∈ xs then (.inf true, 0)
    else if .inf false ∈ xs then (.inf false, 0)
    else if sumAt (minExp xs 0) xs = 0 then
      (.fin (if (xs.all (fun x => x.isZero && x.isNeg) && !xs.isEmpty) = true then true else mode == 2) 0 0 false, 0)
    else (.fin (decide (sumAt (minExp xs 0) xs < 0)) (sumAt (minExp xs 0) xs).natAbs (minExp xs 0) false, 0) := by
  simp only [Num.sum, Bool.and_eq_true_iff (x := List.any ..), List.any_eq_true, isNan_iff, isInf_iff, isInf_and_isNeg, isInf_and_not_isNeg,
    exists_eq_right, and_or_left, exists_or]
  by_cases hneg : Num.inf true ∈ xs
  · by_cases hpos : Num.inf false ∈ xs <;> simp [hneg, hpos]
  · by_cases hpos : Num.inf false ∈ xs <;> simp [hneg, hpos]

theorem isZero_and_isNeg {x : Machine.Num} (hfin : ∃ n m e, x = .fin n m e false) :
    (x.isZero && x.isNeg) = true ↔ ∃ e, x = .fin true 0 e false := by
  obtain ⟨n, m, e, rfl⟩ := hfin
  cases m <;> simp [Num.isZero, Num.isNeg]

/-- R78: the addends of an exact zero sum that is negative under every code. -/
theorem all_negZero {xs : List Machine.Num} (hfin : ∀ x ∈ xs, ∃ n m e, x = .fin n m e false) :
    (xs.all (fun x => x.isZero && x.isNeg) && !xs.isEmpty) = true ↔ xs ≠ [] ∧ ∀ x ∈ xs, ∃ e, x = .fin true 0 e false := by
  rw [Bool.and_eq_true, List.all_eq_true, and_comm, Bool.not_eq_true', List.isEmpty_eq_false_iff]
  exact and_congr_right fun _ => forall₂_congr fun x hx => isZero_and_isNeg (hfin x hx)

/-! ## Square roots -/

theorem isqrtFrom_eq {x n r : Nat} (hlo : r * r ≤ x) (hhi : x < (r + 2 ^ n) * (r + 2 ^ n)) : isqrtFrom x n r = Nat.sqrt x := by
  induction n generalizing r with
  | zero => exact Nat.eq_sqrt.2 ⟨hlo, hhi⟩
  | succ n ih =>
    have hpow : 2 ^ (n + 1) = 2 ^ n + 2 ^ n := by rw [pow_succ]; omega
    rw [isqrtFrom]
    split
    case isTrue hle => exact ih hle (by rwa [Nat.add_assoc, ← hpow])
    case isFalse hgt => exact ih hlo (Nat.lt_of_not_le hgt)

theorem isqrt_eq (x : Nat) : isqrt x = Nat.sqrt x := by
  refine isqrtFrom_eq (Nat.zero_le _) ?_
  rw [Nat.zero_add, ← pow_add]
  exact Nat.lt_log2_self.trans_le (Nat.pow_le_pow_right (by decide) (by omega))

/-- The bounds of the whole root of n / d. -/
theorem sqrt_div_bounds (n : Nat) {d : Nat} (hd : d ≠ 0) :
    (n / d).sqrt * (n / d).sqrt * d ≤ n ∧ n < ((n / d).sqrt + 1) * ((n / d).sqrt + 1) * d :=
  ⟨(Nat.le_div_iff_mul_le (Nat.pos_of_ne_zero hd)).1 (Nat.sqrt_le _), (Nat.div_lt_iff_lt_mul (Nat.pos_of_ne_zero hd)).1 (Nat.lt_succ_sqrt _)⟩

/-- A whole root r of n / d, exact or with more below, as the model's test on whole numbers tells. -/
theorem whole_root_bounds {r n d : Nat} (hlo : r * r * d ≤ n) (hhi : n < (r + 1) * (r + 1) * d) :
    if r * r * d ≠ n then (r : ℚ) ^ 2 * d < n ∧ (n : ℚ) < (r + 1) ^ 2 * d else (r : ℚ) ^ 2 * d = n := by
  split
  case isTrue hne =>
    have hlt := lt_of_le_of_ne hlo hne
    rw [sq, sq]
    exact ⟨by exact_mod_cast hlt, by exact_mod_cast hhi⟩
  case isFalse heq =>
    rw [sq]
    exact_mod_cast not_not.1 heq

/-! ## Quotients and roots by their whole parts -/

/-- A whole quotient of 64 bits or more, and whether more lies below. -/
theorem hasMagnitude_div {n d : Nat} (hd : d ≠ 0) (hwide : 2 ^ 64 ≤ n / d) (k : Int) :
    hasMagnitude (n / d) k (decide (n % d ≠ 0)) (n / d * 2 ^ k) := by
  have hdiv : ((d * (n / d) + n % d : Nat) : ℚ) = n := congrArg _ (Nat.div_add_mod n d)
  have hd' : (0 : ℚ) < d := by exact_mod_cast Nat.pos_of_ne_zero hd
  push_cast at hdiv
  by_cases hmod : n % d = 0
  · refine .inl ⟨by simp [hmod], ?_⟩
    rw [hmod] at hdiv
    rw [← hdiv]
    field_simp
    simp
  · refine .inr ⟨by simp [hmod], hwide, ?_, ?_⟩
    · gcongr
      rw [lt_div_iff₀ hd', ← hdiv]
      have : (0 : ℚ) < (n % d : Nat) := by exact_mod_cast Nat.pos_of_ne_zero hmod
      linarith
    · gcongr
      rw [div_lt_iff₀ hd', ← hdiv]
      have : ((n % d : Nat) : ℚ) < d := by exact_mod_cast Nat.mod_lt n (Nat.pos_of_ne_zero hd)
      linarith

theorem div_fin (n : Bool) {m : Nat} (e : Int) (n' : Bool) {m' : Nat} (e' : Int) (hm : m ≠ 0) (hm' : m' ≠ 0) :
    (Machine.Num.fin n m e false).div (.fin n' m' e' false) =
      (.fin (n != n') (m * 2 ^ (96 + m'.log2) / m') (e - e' - (96 + m'.log2 : Nat)) (decide (m * 2 ^ (96 + m'.log2) % m' ≠ 0)), 0) := by
  simp only [Machine.Num.div, hm, hm', if_false]

/-- An exponent is even but for one bit, which the roots move to the magnitude. -/
theorem exists_even_exponent (e : Int) : ∃ (b : Nat) (h : Int), b < 2 ∧ e = b + 2 * h ∧ (e % 2).toNat = b ∧ (e - b) / 2 = h :=
  ⟨(e % 2).toNat, (e - (e % 2).toNat) / 2, by omega, by omega, rfl, rfl⟩

theorem sqrt_fin {m : Nat} (hm : m ≠ 0) {e h : Int} {b : Nat} (hb : (e % 2).toNat = b) (hh : (e - b) / 2 = h) :
    (Machine.Num.fin false m e false).sqrt =
      let x := m * 2 ^ (b + 128)
      (.fin false x.sqrt (h - 64) (decide (x.sqrt * x.sqrt ≠ x)), 0) := by
  simp only [Machine.Num.sqrt, hm, hb, hh, if_false, Bool.false_eq_true, isqrt_eq]

theorem rsqrt_fin {m : Nat} (hm : m ≠ 0) {e h : Int} {b : Nat} (hb : (e % 2).toNat = b) (hh : (e - b) / 2 = h) :
    (Machine.Num.fin false m e false).rsqrt =
      let d := m * 2 ^ b
      let k := 128 + d.log2
      let r := (2 ^ (2 * k) / d).sqrt
      (.fin false r (-h - k) (decide (r * r * d ≠ 2 ^ (2 * k))), 0) := by
  simp only [Machine.Num.rsqrt, hm, hb, hh, if_false, Bool.false_eq_true, isqrt_eq]

end Sys2Proof.Claims
end

section
/-! PROOFS. Rounding. -/

namespace Sys2Proof.Claims

open Sys2Proof.Machine

/-! ## Encodings and values delivered -/

/-- R70, R71: what the bits of a floating element are worth. -/
theorem elementWorth {ty : Nat} (hty : ty ∈ [7, 8, 9, 10, 11, 12]) {s e x : Nat} (hs : s < 2) (he : e < 2 ^ (layout ty).1)
    (hx : x < 2 ^ (layout ty).2.1) :
    let top := 2 ^ (layout ty).1 - 1
    let v := decodeTy ty (s * 2 ^ ((layout ty).1 + (layout ty).2.1) + e * 2 ^ (layout ty).2.1 + x)
    (9 ≤ ty → e = top → x = 0 → v = .inf (s == 1)) ∧ (9 ≤ ty → e = top → x ≠ 0 → v = .nan) ∧ (ty = 8 → e = top → x = 7 → v = .nan) ∧
    ((9 ≤ ty → e ≠ top) → (ty = 8 → e ≠ top ∨ x ≠ 7) → IsExact v (s == 1) (magnitude ty e x)) := by
  intro top v
  have h := laidOut hty
  have hwidth : (fmtOf ty).width - 1 = (layout ty).1 + (layout ty).2.1 := by rw [h.width.1, Nat.add_sub_cancel]
  have ha : e * 2 ^ (layout ty).2.1 + x < 2 ^ ((fmtOf ty).width - 1) := by
    have := Nat.mul_le_mul_right (2 ^ (layout ty).2.1) (Nat.succ_le_of_lt he)
    rw [hwidth, pow_add]
    rw [Nat.succ_mul] at this
    omega
  have hv : v = (fmtOf ty).decode (withSign (fmtOf ty) (s == 1) (e * 2 ^ (layout ty).2.1 + x)) := by
    rw [← h.decodeTy_eq ha, withSign, hwidth, ← Nat.add_assoc]
    obtain rfl | rfl : s = 0 ∨ s = 1 := by omega
    all_goals simp [v]
  rw [hv]
  refine ⟨fun hge htop hx0 => ?_, fun hge htop hx0 => ?_, fun h8 htop hx7 => ?_, fun hinf hnan => ?_⟩
  · refine decode_inf ha (by rw [h.hasInf, decide_eq_true hge]) ?_
    rw [(h.infinity hge).1, htop, hx0, Nat.add_zero]
  · have := (h.infinity hge).1
    rw [← show e = 2 ^ (layout ty).1 - 1 from htop] at this
    exact decode_nan ha (by omega) (by omega)
  · subst h8 htop hx7
    exact decode_nan ha (by decide) (by decide)
  · rw [← h.worth_eq hx]
    exact decode_finite ha (h.le_maxEnc hty he hx hinf hnan)

/-- R76, R77, R80 to R82: a magnitude delivered to a floating type. -/
theorem magnitudeRounded {ty : Nat} (hty : ty ∈ [7, 8, 9, 10, 11, 12]) {mode r : Nat} {neg : Bool} {m : Nat} {e : Int} {more : Bool} {v : ℚ}
    (hm : m ≠ 0) (hv : hasMagnitude m e more v) :
    let f : ℤ := (layout ty).2.1
    let least : ℤ := 1 - (layout ty).2.2
    let q : ℤ := max (Int.log 2 v - f) (least - f)
    let z : ℚ := quanta mode r neg (v / 2 ^ q) * 2 ^ q
    let tiny : Prop := (quanta mode r neg (v / 2 ^ (Int.log 2 v - f)) : ℚ) * 2 ^ (Int.log 2 v - f) < 2 ^ least
    let toInf : Prop := 9 ≤ ty ∧ (mode = 0 ∨ mode = 4 ∨ (mode = 2 ∧ neg = true) ∨ (mode = 3 ∧ neg = false))
    let beyond : Prop := greatestFinite ty < if mode = 5 then v else z
    let y := (fmtOf ty).round mode r (.fin neg m e more)
    (beyond → y.2 = 4 + 16 ∧ (toInf → decodeTy ty y.1 = .inf neg) ∧ (¬ toInf → IsExact (decodeTy ty y.1) neg (greatestFinite ty))) ∧
    (¬ beyond → IsExact (decodeTy ty y.1) neg z ∧ (z = v → y.2 = 0) ∧ (z ≠ v → tiny → y.2 = 16 + 8) ∧ (z ≠ v → ¬ tiny → y.2 = 16)) ∧
    y.1 < 2 ^ elemWidth ty := by
  intro f least q z tiny toInf beyond y
  have h := laidOut hty
  have hq : q = quantumExp (fmtOf ty) v := by rw [quantumExp, h.f, h.bias]
  have hz : z = roundedTo mode r neg (quantumExp (fmtOf ty) v) v := by rw [← hq]; rfl
  have htiny : tiny ↔ roundedTo mode r neg (Int.log 2 v - (fmtOf ty).f) v < 2 ^ (1 - ((fmtOf ty).bias : ℤ)) := by
    rw [h.f, h.bias]; rfl
  have htoInf : toInf ↔ ((fmtOf ty).hasInf && (mode == 0 || mode == 4 || (mode == 2 && neg) || (mode == 3 && !neg))) = true := by
    simp [toInf, h.hasInf, or_assoc]
  have hy : y = _ := (round_fin _ _ _ _ hm _ _).trans (roundMag_eq hm hv h.precision)
  have hle := packed_le_maxEnc (mode := mode) (r := r) (neg := neg) hm hv h.precision
  have hworth := worth_rounded (mode := mode) (r := r) (neg := neg) hm hv h.precision
  simp only [worth_maxEnc hty, ← hz, ← htiny] at hy hle hworth
  by_cases hb : beyond
  · rw [if_pos hb] at hy
    by_cases hi : toInf
    · rw [if_pos (htoInf.1 hi)] at hy
      rw [hy]
      exact ⟨fun _ => ⟨rfl, fun _ => h.decodeTy_inf hi.1 neg, fun hn => absurd hi hn⟩, fun hn => absurd hb hn,
        h.withSign_lt neg (h.infinity hi.1).2⟩
    · rw [if_neg (mt htoInf.2 hi)] at hy
      rw [hy]
      exact ⟨fun _ => ⟨rfl, fun hi' => absurd hi' hi, fun _ => worth_maxEnc hty ▸ h.isExact neg le_rfl⟩, fun hn => absurd hb hn,
        h.withSign_lt neg h.greatest⟩
  · rw [if_neg hb] at hy
    rw [hy]
    refine ⟨fun hb' => absurd hb' hb, fun _ => ⟨hworth ▸ h.isExact neg (hle hb), fun hexact => ?_, fun hne ht => ?_, fun hne ht => ?_⟩,
      h.withSign_lt neg ((hle hb).trans_lt h.greatest)⟩
    · simp [hexact]
    · simp [hne, ht, fNX, fUF]
    · simp [hne, ht, fNX]

/-- R78, R80, R81: zeros, infinities and NaNs delivered to a floating type. -/
theorem specialRounded {ty : Nat} (hty : ty ∈ [7, 8, 9, 10, 11, 12]) (mode r : Nat) (neg : Bool) (e : Int) :
    let g := fmtOf ty
    IsExact (decodeTy ty (g.round mode r (.fin neg 0 e false)).1) neg 0 ∧ (g.round mode r (.fin neg 0 e false)).2 = 0 ∧
    g.round mode r .nan = (if ty = 7 then (0, 1) else if ty = 8 then (0x7F, 0) else if ty = 9 then (0x7E, 0) else if ty = 10 then (0x7FC0, 0)
      else if ty = 11 then (0x7E00, 0) else (0x7FC00000, 0)) ∧
    (9 ≤ ty → decodeTy ty (g.round mode r (.inf neg)).1 = .inf neg ∧ (g.round mode r (.inf neg)).2 = 0) ∧
    (ty ≤ 8 → IsExact (decodeTy ty (g.round mode r (.inf neg)).1) neg (greatestFinite ty) ∧ (g.round mode r (.inf neg)).2 = 4) := by
  intro g
  have h := laidOut hty
  have hzero : worth g 0 = 0 := by simp [worth]
  have hnan : ∀ ty ∈ [7, 8, 9, 10, 11, 12], ((fmtOf ty).nan, if (fmtOf ty).width = 4 then fNV else 0) = (if ty = 7 then (0, 1)
      else if ty = 8 then (0x7F, 0) else if ty = 9 then (0x7E, 0) else if ty = 10 then (0x7FC0, 0)
      else if ty = 11 then (0x7E00, 0) else (0x7FC00000, 0)) := by decide
  rw [round_zero, round_inf, h.hasInf]
  refine ⟨hzero ▸ h.isExact neg (Nat.zero_le _), rfl, hnan ty hty, fun hge => ?_, fun hle => ?_⟩
  · rw [decide_eq_true hge]
    exact ⟨h.decodeTy_inf hge neg, rfl⟩
  · rw [decide_eq_false (by omega)]
    exact ⟨worth_maxEnc hty ▸ h.isExact neg le_rfl, rfl⟩

/-- R81: a finite value converted to an integer type. -/
theorem convertedToInteger (ty mode r : Nat) (neg : Bool) {m : Nat} {e : Int} {v : ℚ} (hv : hasMagnitude m e false v) :
    let i : ℤ := (if neg then -1 else 1) * quanta mode r neg v
    toIntTy ty mode r false (.fin neg m e false) =
      (if i < least ty then (modulo (elemWidth ty) (least ty), 1) else if greatest ty < i then (modulo (elemWidth ty) (greatest ty), 1)
       else (modulo (elemWidth ty) i, if (quanta mode r neg v : ℚ) = v then 0 else 16)) := by
  simp only [toIntTy, roundInt_eq hv, intLo_eq_least, intHi_eq_greatest, decide_eq_true_eq, ite_not]
  rfl

/-! ## Exact arithmetic -/

/-- R78, R79: the sum of finite values. -/
theorem finiteSum (mode : Nat) {xs : List Machine.Num} (hfin : ∀ x ∈ xs, ∃ n m e, x = .fin n m e false) :
    ∃ n, IsExact (Num.sum mode xs).1 n (abs (xs.map signedValue).sum) ∧ (Num.sum mode xs).2 = 0 ∧
      ((xs.map signedValue).sum ≠ 0 → n = decide ((xs.map signedValue).sum < 0)) ∧
      ((xs.map signedValue).sum = 0 → (xs ≠ [] ∧ ∀ x ∈ xs, ∃ e, x = .fin true 0 e false) → n = true) ∧
      ((xs.map signedValue).sum = 0 → ¬ (xs ≠ [] ∧ ∀ x ∈ xs, ∃ e, x = .fin true 0 e false) → n = (mode == 2)) := by
  have hnan : Num.nan ∉ xs := fun h => by simpa using hfin _ h
  have hinf (n : Bool) : Num.inf n ∉ xs := fun h => by simpa using hfin _ h
  have hsum := sumAt_mul (xs := xs) (k := minExp xs 0) fun n m e p hx hm => minExp_le hx hm 0
  have hpos : (0 : ℚ) < 2 ^ minExp xs 0 := by positivity
  rw [sum_eq, ← hsum]
  simp only [hnan, hinf, and_false, if_false, mul_eq_zero, hpos.ne', or_false, Int.cast_eq_zero, ne_eq,
    mul_neg_iff, hpos, hpos.not_gt, and_true, Int.cast_lt_zero]
  by_cases ht : sumAt (minExp xs 0) xs = 0
  · rw [if_pos ht]
    refine ⟨_, ⟨0, 0, rfl, by simp [ht]⟩, rfl, fun hne => absurd ht hne, fun _ hneg => if_pos ((all_negZero hfin).2 hneg),
      fun _ hneg => if_neg (mt (all_negZero hfin).1 hneg)⟩
  · rw [if_neg ht]
    refine ⟨_, ⟨_, _, rfl, ?_⟩, rfl, fun _ => ?_, fun h => absurd h ht, fun h => absurd h ht⟩
    · rw [abs_mul, abs_of_pos hpos, Nat.cast_natAbs, Int.cast_abs]
    · simp

/-- R79: sums with infinities and NaNs. -/
theorem specialSum (mode : Nat) (xs : List Machine.Num) :
    ((.inf true ∈ xs ∧ .inf false ∈ xs) → Num.sum mode xs = (.nan, 1)) ∧
    (.nan ∈ xs → ¬ (.inf true ∈ xs ∧ .inf false ∈ xs) → Num.sum mode xs = (.nan, 0)) ∧
    (∀ n, .nan ∉ xs → .inf n ∈ xs → .inf (!n) ∉ xs → Num.sum mode xs = (.inf n, 0)) := by
  rw [sum_eq]
  refine ⟨fun hboth => if_pos hboth, fun hnan hboth => by rw [if_neg hboth, if_pos hnan], fun n hnan hinf hother => ?_⟩
  cases n with
  | true => simp [hnan, hinf, show Num.inf false ∉ xs from hother]
  | false => simp [hnan, hinf, show Num.inf true ∉ xs from hother]

/-- R79: products of finite values. -/
theorem finiteProduct (n : Bool) (m : Nat) (e : Int) (n' : Bool) (m' : Nat) (e' : Int) :
    ∃ z, (Machine.Num.fin n m e false).mul (.fin n' m' e' false) = (z, 0) ∧ IsExact z (n != n') (m * 2 ^ e * (m' * 2 ^ e')) := by
  refine ⟨_, rfl, _, _, rfl, ?_⟩
  rw [zpow_add₀ two_ne_zero]
  push_cast
  ring

/-- R79: products with infinities and NaNs. -/
theorem specialProduct (x : Machine.Num) (n : Bool) : Machine.Num.mul .nan x = (.nan, 0) ∧ Machine.Num.mul x .nan = (.nan, 0) ∧
    (∀ n' e, Machine.Num.mul (.inf n) (.fin n' 0 e false) = (.nan, 1) ∧ Machine.Num.mul (.fin n' 0 e false) (.inf n) = (.nan, 1)) ∧
    (∀ n' m e, m ≠ 0 → Machine.Num.mul (.inf n) (.fin n' m e false) = (.inf (n != n'), 0) ∧
      Machine.Num.mul (.fin n' m e false) (.inf n) = (.inf (n' != n), 0)) ∧
    ∀ n', Machine.Num.mul (.inf n) (.inf n') = (.inf (n != n'), 0) := by
  refine ⟨rfl, by cases x <;> rfl, fun n' e => ⟨rfl, rfl⟩, fun n' m e hm => ?_, fun n' => rfl⟩
  obtain ⟨m, rfl⟩ := Nat.exists_eq_succ_of_ne_zero hm
  exact ⟨rfl, rfl⟩

/-- R87: quotients. -/
theorem finiteQuotient (n : Bool) {m : Nat} (e : Int) (n' : Bool) {m' : Nat} (e' : Int) (hm : m ≠ 0) (hm' : m' ≠ 0) :
    ∃ q k more, (Machine.Num.fin n m e false).div (.fin n' m' e' false) = (.fin (n != n') q k more, 0) ∧
    hasMagnitude q k more (m * 2 ^ e / (m' * 2 ^ e')) := by
  refine ⟨_, _, _, div_fin n e n' e' hm hm', ?_⟩
  have hwide : 2 ^ 64 ≤ m * 2 ^ (96 + m'.log2) / m' := by
    rw [Nat.le_div_iff_mul_le (Nat.pos_of_ne_zero hm')]
    calc 2 ^ 64 * m' ≤ 2 ^ 64 * 2 ^ (m'.log2 + 1) := Nat.mul_le_mul_left _ Nat.lt_log2_self.le
      _ ≤ 1 * 2 ^ (96 + m'.log2) := by rw [one_mul, ← pow_add]; exact Nat.pow_le_pow_right (by decide) (by omega)
      _ ≤ m * 2 ^ (96 + m'.log2) := Nat.mul_le_mul_right _ (Nat.pos_of_ne_zero hm)
  convert hasMagnitude_div hm' hwide (e - e' - (96 + m'.log2 : Nat)) using 1
  rw [zpow_sub₀ two_ne_zero, zpow_sub₀ two_ne_zero, zpow_natCast]
  push_cast
  field_simp

/-- R87: square roots. -/
theorem finiteRoot {m : Nat} (e : Int) (hm : m ≠ 0) :
    ∃ q k more, (Machine.Num.fin false m e false).sqrt = (.fin false q k more, 0) ∧ (more = true → 2 ^ 64 ≤ q) ∧
    (if more = true then (q * 2 ^ k : ℚ) ^ 2 < m * 2 ^ e ∧ (m * 2 ^ e : ℚ) < ((q + 1) * 2 ^ k) ^ 2 else (q * 2 ^ k : ℚ) ^ 2 = m * 2 ^ e) := by
  obtain ⟨b, h, -, he, hb, hh⟩ := exists_even_exponent e
  refine ⟨_, _, _, sqrt_fin hm hb hh, fun _ => ?_, ?_⟩
  · refine Nat.le_sqrt.2 ?_
    calc 2 ^ 64 * 2 ^ 64 = 1 * 2 ^ (0 + 128) := by norm_num
      _ ≤ m * 2 ^ (b + 128) := Nat.mul_le_mul (Nat.pos_of_ne_zero hm) (Nat.pow_le_pow_right (by decide) (by omega))
  · have hlo := Nat.sqrt_le (m * 2 ^ (b + 128))
    have hhi := Nat.lt_succ_sqrt (m * 2 ^ (b + 128))
    have hx : (m : ℚ) * 2 ^ e = (m * 2 ^ (b + 128) : Nat) * (2 ^ (h - 64)) ^ 2 := by
      rw [he, ← zpow_natCast, ← zpow_mul, show (b : ℤ) + 2 * h = (b + 128 : Nat) + (h - 64) * (2 : Nat) by push_cast; ring,
        zpow_add₀ two_ne_zero, zpow_natCast]
      push_cast
      ring
    rw [hx]
    generalize m * 2 ^ (b + 128) = x at *
    have hpos : (0 : ℚ) < (2 ^ (h - 64)) ^ 2 := by positivity
    simp only [mul_pow, mul_lt_mul_iff_left₀ hpos, mul_left_inj' hpos.ne', decide_eq_true_eq]
    simpa only [Nat.cast_one, mul_one] using whole_root_bounds (d := 1) (by rwa [mul_one]) (by rwa [mul_one])

/-- R87: reciprocal square roots. -/
theorem finiteReciprocalRoot {m : Nat} (e : Int) (hm : m ≠ 0) :
    ∃ q k more, (Machine.Num.fin false m e false).rsqrt = (.fin false q k more, 0) ∧ (more = true → 2 ^ 64 ≤ q) ∧
    (if more = true then (q * 2 ^ k : ℚ) ^ 2 * (m * 2 ^ e) < 1 ∧ (1 : ℚ) < ((q + 1) * 2 ^ k) ^ 2 * (m * 2 ^ e)
      else (q * 2 ^ k : ℚ) ^ 2 * (m * 2 ^ e) = 1) := by
  obtain ⟨b, h, -, he, hb, hh⟩ := exists_even_exponent e
  refine ⟨_, _, _, rsqrt_fin hm hb hh, fun _ => ?_, ?_⟩
  · have hd := (Nat.lt_log2_self (n := m * 2 ^ b)).le
    refine Nat.le_sqrt.2 ((Nat.le_div_iff_mul_le (by positivity)).2 ?_)
    calc 2 ^ 64 * 2 ^ 64 * (m * 2 ^ b) ≤ 2 ^ 128 * 2 ^ ((m * 2 ^ b).log2 + 1) := by rw [← pow_add]; exact Nat.mul_le_mul_left _ hd
      _ ≤ 2 ^ (2 * (128 + (m * 2 ^ b).log2)) := by rw [← pow_add]; exact Nat.pow_le_pow_right (by decide) (by omega)
  · obtain ⟨hlo, hhi⟩ := sqrt_div_bounds (2 ^ (2 * (128 + (m * 2 ^ b).log2))) (d := m * 2 ^ b) (by positivity)
    have hx (q : ℚ) : (q * 2 ^ (-h - (128 + (m * 2 ^ b).log2 : Nat))) ^ 2 * (m * 2 ^ e) =
        q ^ 2 * (m * 2 ^ b : Nat) / (2 ^ (2 * (128 + (m * 2 ^ b).log2)) : Nat) := by
      generalize 128 + (m * 2 ^ b).log2 = k
      rw [he, mul_comm 2 h, zpow_sub₀ two_ne_zero, zpow_neg, zpow_add₀ two_ne_zero, zpow_mul, zpow_natCast, zpow_natCast, zpow_ofNat]
      push_cast
      field_simp
      ring
    have hn : (0 : ℚ) < (2 ^ (2 * (128 + (m * 2 ^ b).log2)) : Nat) := by positivity
    simp only [hx, div_lt_one hn, one_lt_div hn, div_eq_one_iff_eq hn.ne', decide_eq_true_eq]
    exact whole_root_bounds hlo hhi

/-- R85, R86: comparisons. -/
theorem finiteComparison (n : Bool) (m : Nat) (e : Int) (n' : Bool) (m' : Nat) (e' : Int) : let x : Machine.Num := .fin n m e false
    let y : Machine.Num := .fin n' m' e' false
    (x.cmp y < 0 ↔ signedValue x < signedValue y) ∧ (x.cmp y = 0 ↔ signedValue x = signedValue y) ∧
    (x.below y = true ↔ signedValue x < signedValue y ∨ (signedValue x = signedValue y ∧ n = true ∧ n' = false)) := by
  intro x y
  have hpos : (0 : ℚ) < 2 ^ min e e' := by positivity
  have hcmp : x.cmp y = (scaled n m e (min e e') - scaled n' m' e' (min e e')).sign := rfl
  have hlt : x.cmp y < 0 ↔ signedValue x < signedValue y := by
    rw [hcmp, Int.sign_neg_iff, sub_neg, ← scaled_mul n m false (min_le_left e e'), ← scaled_mul n' m' false (min_le_right e e'),
      mul_lt_mul_iff_left₀ hpos, Int.cast_lt]
  have heq : x.cmp y = 0 ↔ signedValue x = signedValue y := by
    rw [hcmp, Int.sign_eq_zero_iff_zero, sub_eq_zero, ← scaled_mul n m false (min_le_left e e'), ← scaled_mul n' m' false (min_le_right e e'),
      mul_left_inj' hpos.ne', Int.cast_inj]
  refine ⟨hlt, heq, ?_⟩
  simp [Num.below, hlt, heq, x, y, Num.isNeg, and_assoc]

/-- Settles O27: encodings, values delivered and exact arithmetic, each by its own theorem above. -/
theorem rounding : Obligations.Rounding := by
  refine ⟨?worth, ?rounded, ?special, fun mode xs => finiteSum mode, specialSum, finiteProduct, specialProduct, ?quotient, ?root, ?reciprocal,
    finiteComparison, ?integer⟩
  case worth => exact fun ty hty s e x hs he hx => elementWorth hty hs he hx
  case rounded => exact fun ty hty mode r neg m e more v _ _ hm hv => magnitudeRounded hty hm hv
  case special => exact fun ty hty mode r neg e => specialRounded hty mode r neg e
  case quotient => exact fun n m e n' m' e' hm hm' => finiteQuotient n e n' e' hm hm'
  case root => exact fun m e hm => finiteRoot e hm
  case reciprocal => exact fun m e hm => finiteReciprocalRoot e hm
  case integer => exact fun ty _ mode r neg m e v _ _ _ hv => convertedToInteger ty mode r neg hv

end Sys2Proof.Claims
end

section
/-! SUPPORT. Words as exact integers (R69), and what an instruction that writes one s or p register and ends leaves. -/

namespace Sys2Proof.Claims

open Sys2Proof.Machine

/-! ## Words as integers modulo 2^64 -/

theorem exact_add (m n : Int) : exact (m + n) = exact m + exact n := BitVec.ofInt_add m n

theorem exact_mul (m n : Int) : exact (m * n) = exact m * exact n := BitVec.ofInt_mul m n

theorem exact_sub (m n : Int) : exact (m - n) = exact m - exact n := by
  rw [eq_sub_iff_add_eq, ← exact_add, Int.sub_add_cancel]

theorem exact_toNat (x : Word) : exact x.toNat = x := by simp [exact_natCast]

theorem exact_toInt (x : Word) : exact x.toInt = x := BitVec.ofInt_toInt

/-- A word is the exact integer n where n is its value modulo 2^64. -/
theorem eq_exact {x : Word} {n : Int} (h : (x.toNat : Int) = n % 2 ^ 64) : x = exact n :=
  BitVec.eq_of_toInt_eq (by rw [exact, BitVec.toInt_ofInt, BitVec.toInt_eq_toNat_bmod, h]; exact Int.emod_bmod n (2 ^ 64))

theorem toNat_exact (n : Int) : ((exact n).toNat : Int) = n % 2 ^ 64 := by
  rw [exact, BitVec.toNat_ofInt, Int.toNat_of_nonneg (Int.emod_nonneg _ (by decide))]; rfl

theorem eq_exact_natCast {x : Word} {n : Nat} (h : x.toNat = n % 2 ^ 64) : x = exact n :=
  eq_exact (by rw [h, Int.natCast_mod]; rfl)

theorem signed_eq_sx (w x : Nat) : signed w x = sx w x := by
  unfold signed sx
  split <;> simp_all

/-- A sign-extended field of an instruction is its signed value (R6, R137). -/
theorem sxWord_eq_exact (w x : Nat) : sxWord w x = exact (sx w x) := by rw [sxWord, signed_eq_sx, exact]

theorem sx_mod (w x : Nat) : sx w (x % 2 ^ w) = sx w x := by simp only [sx, Nat.mod_mod]

theorem sx_bounds {w : Nat} (hw : 0 < w) (x : Nat) : -2 ^ (w - 1) ≤ sx w x ∧ sx w x < 2 ^ (w - 1) := by
  obtain ⟨n, rfl⟩ : ∃ n, w = n + 1 := ⟨w - 1, by omega⟩
  have hlt : x % 2 ^ (n + 1) < 2 ^ n * 2 := by rw [← pow_succ]; exact Nat.mod_lt _ (by positivity)
  simp only [sx, Nat.add_sub_cancel]
  have hpow : (2 : Int) ^ (n + 1) = 2 ^ n * 2 := pow_succ 2 n
  have hcast : ((2 ^ n : Nat) : Int) = 2 ^ n := by push_cast; rfl
  split <;> omega

/-- A signed immediate narrower than a register reads as its value. -/
theorem toInt_exact_sx {w : Nat} (hw : 0 < w) (h64 : w < 64) (x : Nat) : (exact (sx w x)).toInt = sx w x := by
  obtain ⟨hlo, hhi⟩ := sx_bounds hw x
  have hpow : (2 : Int) ^ (w - 1) ≤ 2 ^ 63 := pow_le_pow_right₀ (by decide) (by omega)
  rw [exact, BitVec.toInt_ofInt]
  exact Int.bmod_eq_of_le (by omega) (by omega)

/-! ## The current core alone -/

theorem onlyCore_mapCore {s : State} (hs : Sparse.rising s.cores = true) (f : Core → Core) : OnlyCore s (s.mapCore f) :=
  ⟨rfl, fun _ hn => State.coreAt_mapCore hs f hn⟩

theorem core_mapCore_mapCore {s : State} (hs : Sparse.rising s.cores = true) (f g : Core → Core) :
    ((s.mapCore f).mapCore g).core = g (f s.core) := by
  rw [State.core_mapCore (State.cores_mapCore hs f), State.core_mapCore hs]

theorem onlyCore_mapCore_mapCore {s : State} (hs : Sparse.rising s.cores = true) (f g : Core → Core) : OnlyCore s ((s.mapCore f).mapCore g) :=
  ⟨rfl, fun _ hn => State.coreAt_mapCore_mapCore hs f g hn⟩

/-- R168 to R173: an instruction that writes an s register and ends. -/
theorem writesS_putS {s : State} (hs : s.wf = true) {d : Nat} (hd : d < 32) (x : Word) : WritesS s (s.setS d x).advance d x := by
  have hcore := State.core_putS (State.wf_cores hs) d x
  have hsreg (n : Nat) : (s.setS d x).advance.sreg n = (s.core.setS d x).sreg n := by rw [State.sreg, hcore]; rfl
  exact {
    value := by rw [hsreg, Core.sreg_setS _ hd]
    others := fun n hn => by rw [hsreg, Core.sreg_setS_ne _ _ hn]; rfl
    rest := by rw [hcore]
    frame := onlyCore_mapCore_mapCore (State.wf_cores hs) _ _ }

/-- R174, R175: an instruction that writes a predicate and ends. -/
theorem writesP_putP {s : State} (hs : s.wf = true) {d : Nat} (hd : d < 8) (x : Bool) : WritesP s (s.setP d x).advance d x := by
  have hcore := State.core_putP (State.wf_cores hs) d x
  have hpreg (n : Nat) : (s.setP d x).advance.preg n = (s.core.setP d x).preg n := by rw [State.preg, hcore]; rfl
  exact {
    value := by rw [hpreg, Core.preg_setP _ hd]
    others := fun n hn => by rw [hpreg, Core.preg_setP_ne _ _ hn]; rfl
    rest := by rw [hcore]
    frame := onlyCore_mapCore_mapCore (State.wf_cores hs) _ _ }

end Sys2Proof.Claims
end

section
/-! PROOFS. Compares, predicate functions and branches. -/

namespace Sys2Proof.Claims

open Sys2Proof.Machine

/-! ## Compares and predicate functions (R174, R175) -/

theorem beq_eq_toNat (a b : Word) : (a == b) = decide (a.toNat = b.toNat) := Bool.eq_iff_iff.2 (by simp [BitVec.toNat_inj])

theorem toInt_imm34 (imm : Nat) : (imm34 imm).toInt = sx 34 imm := by
  rw [imm34, sxWord_eq_exact, toInt_exact_sx (by decide) (by decide)]

theorem toNat_imm34 (imm : Nat) : ((imm34 imm).toNat : Int) = sx 34 imm % 2 ^ 64 := by
  rw [imm34, sxWord_eq_exact, toNat_exact]

theorem beq_imm (a : Word) (imm : Nat) : (a == imm34 imm) = decide (a.toInt = sx 34 imm) := by
  rw [← toInt_imm34]
  exact Bool.eq_iff_iff.2 (by simp [BitVec.toInt_inj])

theorem slt_imm (a : Word) (imm : Nat) : a.slt (imm34 imm) = decide (a.toInt < sx 34 imm) := by
  rw [BitVec.slt_eq_decide, toInt_imm34]

theorem sle_imm (a : Word) (imm : Nat) : a.sle (imm34 imm) = decide (a.toInt ≤ sx 34 imm) := by
  rw [BitVec.sle_eq_decide, toInt_imm34]

theorem ult_imm (a : Word) (imm : Nat) : a.ult (imm34 imm) = decide ((a.toNat : Int) < sx 34 imm % 2 ^ 64) := by
  rw [BitVec.ult_eq_decide, ← toNat_imm34, decide_eq_decide, Int.ofNat_lt]

theorem ule_imm (a : Word) (imm : Nat) : a.ule (imm34 imm) = decide ((a.toNat : Int) ≤ sx 34 imm % 2 ^ 64) := by
  rw [BitVec.ule_eq_decide, ← toNat_imm34, decide_eq_decide, Int.ofNat_le]

/-- The predicate a compare or predicate function names is one of p0 to p7. -/
theorem predicate_dest {i : Instr} {s : State} {d : Nat} {x : Bool} (hi : i.wf = true) (h : predicate s i = some (d, x)) : d < 8 := by
  unfold predicate at h
  split at h <;> cases h <;> simp only [Instr.wf, Bool.and_eq_true, Kind.ok, decide_eq_true_eq] at hi <;> omega

/-- Each function of MAJ 0x18 to 0x1A writes its value. -/
theorem exec_predicate {i : Instr} {s : State} {d : Nat} {x : Bool} (h : predicate s i = some (d, x)) : exec i s = s.putP d x := by
  unfold predicate at h
  split at h <;> cases h
  · exact congrArg (s.putP d) (beq_eq_toNat _ _)
  · exact congrArg (s.putP d) ((congrArg not (beq_eq_toNat _ _)).trans (decide_not.symm))
  · rfl
  · rfl
  · rfl
  · rfl
  · exact congrArg (s.putP d) (beq_imm _ _)
  · exact congrArg (s.putP d) ((congrArg not (beq_imm _ _)).trans (decide_not.symm))
  · exact congrArg (s.putP d) (slt_imm _ _)
  · exact congrArg (s.putP d) (sle_imm _ _)
  · exact congrArg (s.putP d) (ult_imm _ _)
  · exact congrArg (s.putP d) (ule_imm _ _)
  all_goals rfl

/-- Settles O3: each function ends with its value in its predicate. -/
theorem scalarPredicates : Obligations.ScalarPredicates := by
  intro i s d x hi hs h
  exact ⟨_, exec_predicate h, writesP_putP hs (predicate_dest hi h) x⟩

/-! ## Branches (R176, R177) -/

theorem branchTo_misaligned {s : State} (l : Option Nat) {target : Word} (h : target.toNat % 8 ≠ 0) :
    branchTo l target s = .next (s.takeTrap { code := 3, i0 := target, i1 := 8, i3 := s.regionInfo }) := if_pos h

theorem branchTo_aligned {s : State} (hs : s.wf = true) {l : Option Nat} (hl : ∀ d, l = some d → d < 32) {target : Word}
    (h : target.toNat % 8 = 0) : ∃ t, branchTo l target s = .next t ∧ OnlyCore s t ∧
      t.core = { s.core.settle with s := t.core.s, pc := target, rptst := 0, pair := none } ∧
      ∀ n, n < 32 → t.sreg n = if l = some n ∧ n ≠ 0 then s.core.pc + 8 else s.sreg n := by
  rw [branchTo, if_neg (not_not.2 h)]
  cases l with
  | none =>
    have hcore := State.core_mapCore (State.wf_cores hs) (fun c => c.goto target)
    refine ⟨_, rfl, onlyCore_mapCore (State.wf_cores hs) _, by rw [hcore]; rfl, fun n _ => ?_⟩
    rw [State.sreg, hcore]
    simp only [reduceCtorEq, false_and, if_false]
    rfl
  | some d =>
    have hcore : ((s.setS d (s.core.pc + 8)).mapCore (fun c => c.goto target)).core = (s.core.setS d (s.core.pc + 8)).goto target :=
      core_mapCore_mapCore (State.wf_cores hs) _ _
    refine ⟨(s.setS d (s.core.pc + 8)).mapCore (fun c => c.goto target), rfl, onlyCore_mapCore_mapCore (State.wf_cores hs) _ _, ?_, fun n _ => ?_⟩
    · rw [hcore, Core.setS_eq]; rfl
    · rw [State.sreg, hcore]
      change (s.core.setS d _).sreg n = _
      by_cases hn : n = d
      · subst hn
        rw [Core.sreg_setS _ (hl n rfl)]
        by_cases h0 : n = 0 <;> simp [h0, State.sreg, Core.sreg_zero]
      · rw [Core.sreg_setS_ne _ _ hn, if_neg (fun e => hn (Option.some.inj e.1).symm)]
        rfl

theorem branch_link {i : Instr} {s : State} {l : Option Nat} {target : Word} (hi : i.wf = true) (h : branch s i = some (l, target)) :
    ∀ d, l = some d → d < 32 := by
  unfold branch at h
  split at h <;> cases h <;> rintro d ⟨⟩ <;>
    simp only [Instr.wf, Bool.and_eq_true, Kind.ok, decide_eq_true_eq] at hi <;> omega

theorem target_eq_exact (x : Word) (imm : Nat) : x + 8 * imm34 imm = exact (x.toNat + 8 * sx 34 imm) := by
  rw [exact_add, exact_mul, exact_toNat, imm34, sxWord_eq_exact]; rfl

theorem exec_branch {i : Instr} {s : State} {l : Option Nat} {target : Word} (h : branch s i = some (l, target)) :
    exec i s = branchTo l target s := by
  unfold branch at h
  split at h <;> cases h <;> rw [← target_eq_exact] <;> rfl

/-- Settles O4: the branch is made where its target is aligned, and traps where it is not. -/
theorem branches : Obligations.Branches := by
  intro i s l target hi hs h
  rw [exec_branch h]
  exact ⟨branchTo_aligned hs (branch_link hi h), branchTo_misaligned l⟩

end Sys2Proof.Claims
end

section
/-! SUPPORT. The scalar engine's values as exact integers: arithmetic, shifts, bit counts, fields and addresses (R168 to R173). -/

namespace Sys2Proof.Claims

open Sys2Proof.Machine

/-! ## Arithmetic (R168, R89) -/

theorem mulHigh_eq_exact (a b : Word) : mulHigh a b = exact (a.toInt * b.toInt / 2 ^ 64) :=
  eq_exact (by rw [mulHigh, BitVec.toNat_ofNat]; omega)

theorem divS_eq_exact (a b : Word) :
    BitVec.ofInt 64 (divS 64 a.toInt b.toInt) = exact (if b.toInt = 0 then -1 else a.toInt.tdiv b.toInt) := by
  unfold divS
  split_ifs with h0 hover
  · rfl
  · obtain ⟨ha, hb⟩ := hover
    rw [ha, hb]; rfl
  · rfl

theorem min_eq_exact (a b : Word) : (if b.slt a then b else a) = exact (min a.toInt b.toInt) := by
  simp only [BitVec.slt_eq_decide, decide_eq_true_eq]
  split_ifs with h
  · rw [min_eq_right (by omega), exact_toInt]
  · rw [min_eq_left (by omega), exact_toInt]

theorem max_eq_exact (a b : Word) : (if a.slt b then b else a) = exact (max a.toInt b.toInt) := by
  simp only [BitVec.slt_eq_decide, decide_eq_true_eq]
  split_ifs with h
  · rw [max_eq_right (by omega), exact_toInt]
  · rw [max_eq_left (by omega), exact_toInt]

theorem minn_eq_exact (a b : Word) : (if b < a then b else a) = exact (min a.toNat b.toNat : Nat) := by
  simp only [BitVec.lt_def]
  split_ifs with h
  · rw [min_eq_right (by omega), exact_toNat]
  · rw [min_eq_left (by omega), exact_toNat]

theorem maxn_eq_exact (a b : Word) : (if a < b then b else a) = exact (max a.toNat b.toNat : Nat) := by
  simp only [BitVec.lt_def]
  split_ifs with h
  · rw [max_eq_right (by omega), exact_toNat]
  · rw [max_eq_left (by omega), exact_toNat]

/-- −2^63 has no positive counterpart, and stays (R168). -/
theorem abs_eq_exact (a : Word) : (if a.msb then -a else a) = exact a.toInt.natAbs := by
  have hsign := BitVec.msb_eq_toInt (x := a)
  split_ifs with h
  · have hneg : a.toInt < 0 := by simpa [h] using hsign
    rw [Int.ofNat_natAbs_of_nonpos hneg.le, exact, BitVec.ofInt_neg, BitVec.ofInt_toInt]
  · have hpos : 0 ≤ a.toInt := by simpa [h] using hsign
    rw [Int.natAbs_of_nonneg hpos, exact_toInt]

/-! ## Shifts (R169, R173) -/

theorem shiftLeft_eq_exact (a : Word) (n : Nat) : a <<< n = exact (a.toNat * 2 ^ n) := by
  refine (eq_exact_natCast (n := a.toNat * 2 ^ n) ?_).trans (by push_cast; rfl)
  rw [BitVec.toNat_shiftLeft, Nat.shiftLeft_eq]

theorem ushiftRight_eq_exact (a : Word) (n : Nat) : a >>> n = exact (a.toNat / 2 ^ n) := by
  refine (eq_exact_natCast (n := a.toNat / 2 ^ n) ?_).trans (by push_cast; rfl)
  rw [BitVec.toNat_ushiftRight, Nat.shiftRight_eq_div_pow, Nat.mod_eq_of_lt (lt_of_le_of_lt (Nat.div_le_self _ _) a.isLt)]

theorem sshiftRight_eq_exact (a : Word) (n : Nat) : a.sshiftRight n = exact (a.toInt / 2 ^ n) := by
  rw [← exact_toInt (a.sshiftRight n), BitVec.toInt_sshiftRight, Int.shiftRight_eq_div_pow]; push_cast; rfl

/-- R169: the bits that leave a rotation at one end enter at the other. -/
theorem rotateLeft_eq_exact (a : Word) {n : Nat} (hn : n < 64) :
    a.rotateLeft n = exact (a.toNat * 2 ^ n % 2 ^ 64 + a.toNat / 2 ^ (64 - n)) := by
  refine (eq_exact_natCast (n := a.toNat * 2 ^ n % 2 ^ 64 + a.toNat / 2 ^ (64 - n)) ?_).trans (by push_cast; rfl)
  have hpow : 2 ^ 64 = 2 ^ n * 2 ^ (64 - n) := by rw [← pow_add, Nat.add_sub_cancel' hn.le]
  have hlow : a.toNat / 2 ^ (64 - n) < 2 ^ n := Nat.div_lt_of_lt_mul (by rw [mul_comm, ← hpow]; exact a.isLt)
  have hhigh : a.toNat * 2 ^ n % 2 ^ 64 = 2 ^ n * (a.toNat % 2 ^ (64 - n)) := by rw [hpow, mul_comm, Nat.mul_mod_mul_left]
  have hsum := Nat.two_pow_add_eq_or_of_lt hlow (a.toNat % 2 ^ (64 - n))
  have hroom : 2 ^ n * (a.toNat % 2 ^ (64 - n) + 1) ≤ 2 ^ 64 := hpow ▸ Nat.mul_le_mul_left _ (Nat.mod_lt _ (by positivity))
  have hfits : 2 ^ n * (a.toNat % 2 ^ (64 - n)) + a.toNat / 2 ^ (64 - n) < 2 ^ 64 := by rw [Nat.mul_add] at hroom; omega
  rw [BitVec.toNat_rotateLeft, Nat.mod_eq_of_lt hn, Nat.shiftLeft_eq, Nat.shiftRight_eq_div_pow, hhigh, ← hsum, Nat.mod_eq_of_lt hfits]

theorem rotateRight_eq_exact (a : Word) {n : Nat} (hn : n < 64) :
    a.rotateRight n = exact (a.toNat / 2 ^ n + a.toNat * 2 ^ (64 - n) % 2 ^ 64) := by
  obtain rfl | h0 := Nat.eq_zero_or_pos n
  · have hzero : (a.toNat : Int) * 2 ^ (64 - 0) % 2 ^ 64 = 0 := by omega
    rw [hzero, pow_zero, Int.ediv_one, add_zero, exact_toNat]
    exact BitVec.eq_of_toNat_eq (by simp [BitVec.toNat_rotateRight, Nat.shiftLeft_eq])
  · have hturn : a.rotateRight n = a.rotateLeft (64 - n) := by
      refine BitVec.eq_of_toNat_eq ?_
      rw [BitVec.toNat_rotateRight, BitVec.toNat_rotateLeft, Nat.mod_eq_of_lt hn, Nat.mod_eq_of_lt (by omega : 64 - n < 64),
        Nat.sub_sub_self hn.le, Nat.or_comm]
    rw [hturn, rotateLeft_eq_exact a (by omega), Nat.sub_sub_self hn.le, add_comm]

/-! ## Bit counts (R170) -/

theorem howMany_succ (n : Nat) (p : Nat → Bool) : howMany (n + 1) p = (if p 0 then 1 else 0) + howMany n (fun k => p (k + 1)) := by
  have hmap : ((List.range n).map Nat.succ).filter p = ((List.range n).filter (fun k => p (k + 1))).map Nat.succ := List.filter_map
  rw [howMany, List.range_succ_eq_map, List.filter_cons, hmap, howMany]
  cases p 0 <;> simp [Nat.add_comm]

theorem howMany_none {n : Nat} {p : Nat → Bool} (h : ∀ k, k < n → p k = false) : howMany n p = 0 := by
  rw [howMany, List.length_eq_zero_iff, List.filter_eq_nil_iff]
  exact fun k hk => by simp [h k (List.mem_range.1 hk)]

theorem leadZeros_eq (x : Nat) : ∀ n, x < 2 ^ n → leadZeros x n = howMany n (fun k => decide (x < 2 ^ (n - 1 - k))) := by
  intro n
  induction n with
  | zero => intro _; rfl
  | succ n ih =>
    intro hx
    rw [leadZeros]
    by_cases hbit : x < 2 ^ n
    · have htail : howMany n (fun k => decide (x < 2 ^ (n + 1 - 1 - (k + 1)))) = leadZeros x n := by
        rw [ih hbit]; congr; funext k; congr 3; omega
      rw [howMany_succ, htail]
      simp [Nat.testBit_lt_two_pow hbit, hbit]
    · have htop : x.testBit n = true := Nat.testBit_of_two_pow_le_and_two_pow_add_one_gt (by omega) hx
      have hnone : ∀ k, k < n + 1 → decide (x < 2 ^ (n + 1 - 1 - k)) = false := fun k _ => by
        have : 2 ^ (n + 1 - 1 - k) ≤ 2 ^ n := Nat.pow_le_pow_right (by decide) (by omega)
        simp only [decide_eq_false_iff_not]; omega
      rw [howMany_none hnone, htop]
      rfl

theorem trailZeros_eq (n : Nat) : ∀ x, trailZeros x n = howMany n (fun k => decide (2 ^ (k + 1) ∣ x)) := by
  induction n with
  | zero => intro _; rfl
  | succ n ih =>
    intro x
    rw [trailZeros]
    by_cases hodd : x % 2 = 1
    · have hnone : ∀ k, k < n + 1 → decide (2 ^ (k + 1) ∣ x) = false := fun k _ => by
        have : ¬ 2 ^ (k + 1) ∣ x := fun hd => by
          have : 2 ∣ x := dvd_trans (dvd_pow_self 2 (by omega)) hd
          omega
        simpa using this
      rw [if_pos hodd, howMany_none hnone]
    · have hhalf (k : Nat) : 2 ^ (k + 1 + 1) ∣ x ↔ 2 ^ (k + 1) ∣ x / 2 := by
        obtain ⟨y, rfl⟩ : 2 ∣ x := by omega
        rw [Nat.mul_div_cancel_left _ (by decide), pow_succ', Nat.mul_dvd_mul_iff_left (by decide)]
      rw [if_neg hodd, howMany_succ, ih]
      simp only [hhalf]
      simp [show 2 ∣ x by omega]

theorem popCount_eq (n : Nat) : ∀ x, popCount x n = howMany n x.testBit := by
  induction n with
  | zero => intro _; rfl
  | succ n ih =>
    intro x
    have htail : (fun k => x.testBit (k + 1)) = (x / 2).testBit := funext (fun k => Nat.testBit_succ x k)
    rw [popCount, ih, howMany_succ, htail]
    simp only [Nat.testBit_zero, decide_eq_true_eq]
    split <;> omega

theorem byteSwap_eq (x : Word) :
    byteSwap x = exact (((List.range 8).map (fun k => x.toNat / 2 ^ (8 * k) % 256 * 2 ^ (8 * (7 - k)))).sum : Nat) := by
  rw [exact_natCast, List.sum_eq_foldl, List.foldl_map]
  rfl

/-! ## Bits extracted and deposited (R170) -/

theorem bitExtract_odd {b : Nat} (h : b % 2 = 1) (a n : Nat) : bitExtract a b (n + 1) = a % 2 + 2 * bitExtract (a / 2) (b / 2) n := if_pos h

theorem bitExtract_even {b : Nat} (h : b % 2 = 0) (a n : Nat) : bitExtract a b (n + 1) = bitExtract (a / 2) (b / 2) n := if_neg (by omega)

theorem bitDeposit_odd {b : Nat} (h : b % 2 = 1) (a n : Nat) : bitDeposit a b (n + 1) = a % 2 + 2 * bitDeposit (a / 2) (b / 2) n := if_pos h

theorem bitDeposit_even {b : Nat} (h : b % 2 = 0) (a n : Nat) : bitDeposit a b (n + 1) = 2 * bitDeposit a (b / 2) n := if_neg (by omega)

theorem popCount_odd {b : Nat} (h : b % 2 = 1) (n : Nat) : popCount b (n + 1) = popCount (b / 2) n + 1 := by rw [popCount, h, Nat.add_comm]

theorem popCount_even {b : Nat} (h : b % 2 = 0) (n : Nat) : popCount b (n + 1) = popCount (b / 2) n := by rw [popCount, h, Nat.zero_add]

theorem popCount_succ_last (n : Nat) : ∀ b, popCount b (n + 1) = popCount b n + (if b.testBit n then 1 else 0) := by
  induction n with
  | zero => intro b; simp only [popCount, Nat.testBit_zero, decide_eq_true_eq]; split <;> omega
  | succ n ih => intro b; rw [popCount, ih, popCount, Nat.testBit_succ]; omega

/-- The highest position of an extraction adds its bit above those below it. -/
theorem bitExtract_succ_last (n : Nat) : ∀ a b, bitExtract a b (n + 1) =
    bitExtract a b n + (if b.testBit n ∧ a.testBit n then 2 ^ popCount b n else 0) := by
  induction n with
  | zero =>
    intro a b
    simp only [bitExtract, popCount, Nat.testBit_zero, decide_eq_true_eq]
    split_ifs <;> omega
  | succ n ih =>
    intro a b
    rw [Nat.testBit_succ, Nat.testBit_succ]
    obtain hb | hb := Nat.mod_two_eq_zero_or_one b
    · rw [bitExtract_even hb, bitExtract_even hb, popCount_even hb, ih]
    · rw [bitExtract_odd hb, bitExtract_odd hb, popCount_odd hb, ih, pow_succ]
      split_ifs <;> omega

/-- The highest position of a deposit takes the next bit of a. -/
theorem bitDeposit_succ_last (n : Nat) : ∀ a b, bitDeposit a b (n + 1) =
    bitDeposit a b n + (if b.testBit n ∧ a.testBit (popCount b n) then 2 ^ n else 0) := by
  induction n with
  | zero =>
    intro a b
    simp only [bitDeposit, popCount, Nat.testBit_zero, decide_eq_true_eq]
    split_ifs <;> omega
  | succ n ih =>
    intro a b
    rw [Nat.testBit_succ, pow_succ]
    obtain hb | hb := Nat.mod_two_eq_zero_or_one b
    · rw [bitDeposit_even hb, bitDeposit_even hb, popCount_even hb, ih]
      split_ifs <;> omega
    · rw [bitDeposit_odd hb, bitDeposit_odd hb, popCount_odd hb, Nat.testBit_succ, ih]
      split_ifs <;> omega

theorem bextLoop_eq (a b n : Nat) : bextLoop a b n = (bitExtract a b n, popCount b n) := by
  induction n with
  | zero => rfl
  | succ n ih =>
    have hstep : bextLoop a b (n + 1) = if b.testBit n then
        ((bextLoop a b n).1 + (if a.testBit n then 2 ^ (bextLoop a b n).2 else 0), (bextLoop a b n).2 + 1) else bextLoop a b n := by
      rw [bextLoop, List.range_succ, List.foldl_append]; rfl
    rw [hstep, ih, bitExtract_succ_last, popCount_succ_last]
    cases b.testBit n <;> cases a.testBit n <;> simp

theorem bdepLoop_eq (a b n : Nat) : bdepLoop a b n = (bitDeposit a b n, popCount b n) := by
  induction n with
  | zero => rfl
  | succ n ih =>
    have hstep : bdepLoop a b (n + 1) = if b.testBit n then
        ((bdepLoop a b n).1 + (if a.testBit (bdepLoop a b n).2 then 2 ^ n else 0), (bdepLoop a b n).2 + 1) else bdepLoop a b n := by
      rw [bdepLoop, List.range_succ, List.foldl_append]; rfl
    rw [hstep, ih, bitDeposit_succ_last, popCount_succ_last]
    cases b.testBit n <;> cases a.testBit (popCount b n) <;> simp

/-! ## Fields (R170) -/

theorem bfx_eq_exact (a : Word) (pos len : Nat) : sxWord len (fieldOf a pos len) = exact (sx len (a.toNat / 2 ^ pos)) := by
  rw [sxWord_eq_exact, fieldOf, bits, sx_mod]

/-- The bits that a mask of len bits at pos keeps. -/
theorem land_field (x pos len : Nat) : Nat.land x ((2 ^ len - 1) * 2 ^ pos) = x / 2 ^ pos % 2 ^ len * 2 ^ pos := by
  change x &&& (2 ^ len - 1) * 2 ^ pos = _
  refine Nat.eq_of_testBit_eq (fun i => ?_)
  rw [Nat.testBit_and, Nat.testBit_mul_two_pow, Nat.testBit_mul_two_pow, Nat.testBit_two_pow_sub_one, Nat.testBit_mod_two_pow,
    Nat.testBit_div_two_pow]
  by_cases hi : pos ≤ i
  · simp [hi, Bool.and_comm]
  · simp [hi]

/-- A field replaced: the bits below it and above it stay. -/
theorem mergeBits_field (v pos len : Nat) {g : Nat} (hg : g < 2 ^ len) :
    mergeBits v (g * 2 ^ pos) ((2 ^ len - 1) * 2 ^ pos) = v - v / 2 ^ pos % 2 ^ len * 2 ^ pos + g * 2 ^ pos := by
  have hfield : g * 2 ^ pos / 2 ^ pos % 2 ^ len * 2 ^ pos = g * 2 ^ pos := by
    rw [Nat.mul_div_cancel _ (by positivity), Nat.mod_eq_of_lt hg]
  have hlow : v % 2 ^ pos < 2 ^ pos := Nat.mod_lt _ (by positivity)
  have hrest : v - v / 2 ^ pos % 2 ^ len * 2 ^ pos = 2 ^ pos * (2 ^ len * (v / 2 ^ pos / 2 ^ len)) + v % 2 ^ pos := by
    have h1 := Nat.div_add_mod v (2 ^ pos)
    have h2 := congrArg (2 ^ pos * ·) (Nat.div_add_mod (v / 2 ^ pos) (2 ^ len))
    simp only [Nat.mul_add] at h2
    rw [Nat.mul_comm (v / 2 ^ pos % 2 ^ len)]
    omega
  rw [mergeBits, land_field, land_field, hfield, hrest]
  change (_ ||| _ : Nat) = _
  rw [Nat.two_pow_add_eq_or_of_lt hlow, Nat.or_assoc, Nat.or_comm (v % 2 ^ pos), ← Nat.or_assoc, Nat.mul_comm g]
  have hor : 2 ^ pos * (2 ^ len * (v / 2 ^ pos / 2 ^ len)) ||| 2 ^ pos * g = 2 ^ pos * (2 ^ len * (v / 2 ^ pos / 2 ^ len) + g) := by
    rw [Nat.two_pow_add_eq_or_of_lt hg, Nat.mul_comm _ g, Nat.mul_comm _ (_ ||| _), Nat.mul_comm (2 ^ pos) (2 ^ len * _),
      ← Nat.shiftLeft_eq, ← Nat.shiftLeft_eq, ← Nat.shiftLeft_eq, Nat.shiftLeft_or_distrib]
  rw [hor, ← Nat.two_pow_add_eq_or_of_lt hlow, ← Nat.two_pow_add_eq_or_of_lt hlow]
  ring

theorem bfi_eq_exact (v a : Word) (pos len : Nat) :
    word (mergeBits v.toNat (a.toNat % 2 ^ len * 2 ^ pos) ((2 ^ len - 1) * 2 ^ pos)) =
      exact ((v.toNat : Int) - v.toNat / 2 ^ pos % 2 ^ len * 2 ^ pos + a.toNat % 2 ^ len * 2 ^ pos) := by
  have hle : v.toNat / 2 ^ pos % 2 ^ len * 2 ^ pos ≤ v.toNat :=
    (Nat.mul_le_mul_right _ (Nat.mod_le _ _)).trans (Nat.div_mul_le_self _ _)
  rw [mergeBits_field _ _ _ (Nat.mod_lt _ (by positivity)), ← exact_natCast, Int.natCast_add, Int.natCast_sub hle]
  push_cast
  rfl

/-! ## Addresses (R172) -/

theorem windowAddr_eq_exact (base bound : Nat) (n b : Word) (off : Nat) : windowAddr base bound n (b + imm22 off) =
    exact (base + min n.toNat bound * 2 ^ 19 + (b.toNat + sx 22 off) % 2 ^ 19) := by
  have hoff : (((b + imm22 off).toNat % 2 ^ 19 : Nat) : Int) = (b.toNat + sx 22 off) % 2 ^ 19 := by
    have hword : b + imm22 off = exact (b.toNat + sx 22 off) := by rw [exact_add, exact_toNat, imm22, sxWord_eq_exact]
    rw [hword, Int.natCast_mod, toNat_exact]
    exact Int.emod_emod_of_dvd _ (by decide)
  rw [windowAddr, ← exact_natCast, Int.natCast_add, hoff]
  push_cast
  rfl

end Sys2Proof.Claims
end

section
/-! PROOFS. Scalar arithmetic, logic, shifts, bit manipulation, addresses and immediates. -/

namespace Sys2Proof.Claims

open Sys2Proof.Machine

/-- The register that a computation names first is one of s0 to s31. -/
theorem computation_dest {i : Instr} {s : State} {d : Nat} {x : Word} (hi : i.wf = true)
    (h : arithmetic s i = some (d, x) ∨ logicShift s i = some (d, x) ∨ bitManipulation s i = some (d, x) ∨
      addressImmediate s i = some (d, x)) : d < 32 := by
  obtain h | h | h | h := h <;> [unfold arithmetic at h; unfold logicShift at h; unfold bitManipulation at h; unfold addressImmediate at h] <;>
    split at h <;> cases h <;> simp only [Instr.wf, Bool.and_eq_true, Kind.ok, decide_eq_true_eq] at hi <;> omega

/-! ## Values -/

/-- R168: each function of MAJ 0x02 writes its value. -/
theorem exec_arithmetic {i : Instr} {s : State} {d : Nat} {x : Word} (h : arithmetic s i = some (d, x)) : exec i s = s.putS d x := by
  unfold arithmetic at h
  split at h <;> cases h <;> refine congrArg (s.putS d) ?_
  case h_1 => rw [exact_add, exact_toNat, exact_toNat]
  case h_2 => rw [exact_sub, exact_toNat, exact_toNat]
  case h_3 => rw [exact_mul, exact_toNat, exact_toNat]
  case h_4 => exact mulHigh_eq_exact _ _
  case h_5 => rw [mulHighN, ← exact_natCast]; push_cast; rfl
  case h_6 => exact divS_eq_exact _ _
  case h_7 => rw [divU, ← exact_natCast]; split <;> rfl
  case h_8 => rfl
  case h_9 => rw [remU, ← exact_natCast]; split <;> rfl
  case h_10 => rw [exact_add, exact_mul, exact_toNat, exact_toNat, exact_toNat]
  case h_11 => rw [exact_sub, exact_mul, exact_toNat, exact_toNat, exact_toNat]
  case h_12 => exact min_eq_exact _ _
  case h_13 => exact max_eq_exact _ _
  case h_14 => exact minn_eq_exact _ _
  case h_15 => exact maxn_eq_exact _ _
  case h_16 => exact abs_eq_exact _

/-- R169: each function of MAJ 0x03 writes its value. -/
theorem exec_logicShift {i : Instr} {s : State} {d : Nat} {x : Word} (h : logicShift s i = some (d, x)) : exec i s = s.putS d x := by
  have hn (b : Nat) : (s.sreg b).toNat % 64 < 64 := Nat.mod_lt _ (by decide)
  unfold logicShift at h
  split at h <;> cases h <;> refine congrArg (s.putS d) ?_
  case h_7 => exact shiftLeft_eq_exact _ _
  case h_8 => exact ushiftRight_eq_exact _ _
  case h_9 => exact sshiftRight_eq_exact _ _
  case h_10 => exact rotateLeft_eq_exact _ (hn _)
  case h_11 => exact rotateRight_eq_exact _ (hn _)
  all_goals rfl

/-- R170: each function of MAJ 0x04 writes its value. -/
theorem exec_bitManipulation {i : Instr} {s : State} {d : Nat} {x : Word} (h : bitManipulation s i = some (d, x)) :
    exec i s = s.putS d x := by
  unfold bitManipulation at h
  split at h <;> cases h <;> refine congrArg (s.putS d) ?_
  case h_1 a => rw [leadZeros_eq _ _ (s.sreg a).isLt, exact_natCast]
  case h_2 => rw [trailZeros_eq, exact_natCast]
  case h_3 => rw [popCount_eq, exact_natCast]
  case h_4 => exact byteSwap_eq _
  case h_5 => rw [bextLoop_eq, exact_natCast]
  case h_6 => rw [bdepLoop_eq, exact_natCast]
  case h_7 => exact bfx_eq_exact _ _ _
  case h_8 => rw [fieldOf, bits, ← exact_natCast]; push_cast; rfl
  case h_9 => exact bfi_eq_exact _ _ _ _

/-- R172, R173: each function of MAJ 0x05 and 0x10 writes its value. -/
theorem exec_addressImmediate {i : Instr} {s : State} {d : Nat} {x : Word} (h : addressImmediate s i = some (d, x)) :
    exec i s = s.putS d x := by
  have himm (imm : Nat) : imm34 imm = exact (sx 34 imm) := sxWord_eq_exact 34 imm
  unfold addressImmediate at h
  split at h <;> cases h <;> refine congrArg (s.putS d) ?_
  case h_1 => rw [shiftLeft_eq_exact, sxWord_eq_exact, exact_add, exact_add, exact_toNat]
  case h_2 => exact windowAddr_eq_exact _ _ _ _ _
  case h_3 => exact windowAddr_eq_exact _ _ _ _ _
  case h_4 => rw [himm, exact_add, exact_toNat]
  case h_5 => rw [himm, exact_mul, exact_toNat]
  case h_6 => rw [himm]
  case h_7 => rw [himm]
  case h_8 => rw [himm]
  case h_9 => exact shiftLeft_eq_exact _ _
  case h_10 => exact ushiftRight_eq_exact _ _
  case h_11 => exact sshiftRight_eq_exact _ _
  case h_12 => exact himm _
  case h_13 => rw [← exact_natCast]; push_cast; rfl

/-- Settles O5: each function ends with its value in its register, and nothing else changed. -/
theorem scalarComputation : Obligations.ScalarComputation := by
  refine ⟨?arithmetic, ?logicShift, ?bitManipulation, ?addressImmediate⟩ <;> intro i s d x hi hs h
  case arithmetic => exact ⟨_, exec_arithmetic h, writesS_putS hs (computation_dest hi (.inl h)) x⟩
  case logicShift => exact ⟨_, exec_logicShift h, writesS_putS hs (computation_dest hi (.inr (.inl h))) x⟩
  case bitManipulation => exact ⟨_, exec_bitManipulation h, writesS_putS hs (computation_dest hi (.inr (.inr (.inl h)))) x⟩
  case addressImmediate => exact ⟨_, exec_addressImmediate h, writesS_putS hs (computation_dest hi (.inr (.inr (.inr h)))) x⟩

end Sys2Proof.Claims
end

section
/-! SUPPORT. What the parts of a scalar access do where it reaches a memory: its waits, its read, the undo journal (R42) and its write. -/

namespace Sys2Proof.Claims

open Sys2Proof.Machine

/-! ## Waits and reads (R121, R122, R178, R324, R468) -/

theorem ea_eq_exact (s : State) (a imm : Nat) : s.ea a imm = exact ((s.sreg a).toNat + sx 16 imm) := by
  rw [State.ea, exact_add, exact_toNat, imm16, sxWord_eq_exact]

theorem extendLoad_eq_exact (n : Nat) (sgn : Bool) (v : Nat) :
    extendLoad n sgn v = if sgn then exact (sx (8 * n) v) else exact v := by
  rw [extendLoad, sxWord_eq_exact, exact_natCast]

theorem Ready.waitOw {s : State} {k n ow : Nat} (h : Ready s k n ow) : waitOw ow s = .ok () s := by
  rw [waitOw_eq, if_pos h.ordered]

theorem Ready.awaitPlace {s : State} {k n ow : Nat} (h : Ready s k n ow) : awaitPlace (.mem k) n s = .ok () s := by
  have hfollowed : (s.isFiring && s.precedes s.cur (Sparse.get [] s.netOps s.cur) false k n) = false := by
    by_cases hc : s.cur < 2048
    · rw [h.followed hc, Bool.and_false]
    · rw [State.isFiring, decide_eq_false hc, Bool.false_and]
  refine (bind_ok (m := awaitStream (.mem k) n) h.fetched).trans ((bind_ok (m := get) (x := s) (s1 := s) rfl).trans ?_)
  simp only [hfollowed, Bool.false_eq_true, if_false]
  rfl

theorem readPlace_sound {s : State} {k n : Nat} (h : s.readBad k n = false) (ea : Word) : readPlace ea n (.mem k) s = .ok (s.rd k n) s := by
  refine (bind_ok (m := get) (x := s) (s1 := s) rfl).trans ?_
  simp only [h, Bool.false_eq_true, if_false]
  rfl

theorem readPlace_bad {s : State} {k n : Nat} (h : s.readBad k n = true) (ea : Word) : readPlace ea n (.mem k) s =
    .error (.trap { code := 0x16, i0 := ea, i1 := 1, i3 := s.regionInfo }) (s.countHard (dieOfKey k) (errClass k)) := by
  refine (bind_ok (m := get) (x := s) (s1 := s) rfl).trans ?_
  simp only [h, if_true]
  rfl

/-- Of an error-free range no word is partly overwritten in error. -/
theorem writeBad_of_readBad {s : State} {k n : Nat} (h : s.readBad k n = false) : s.writeBad k n = false := by
  rw [State.readBad, List.any_eq_false] at h
  rw [State.writeBad, List.any_eq_false]
  exact fun w hw => by simp [h w hw]

theorem writePlace_sound {s : State} {k n : Nat} (h : s.writeBad k n = false) (ea : Word) (v : Nat) :
    writePlace ea n v (.mem k) s = .ok () (s.wr k n v) := by
  refine (bind_ok (m := get) (x := s) (s1 := s) rfl).trans ?_
  simp only [h, Bool.false_eq_true, if_false]
  rfl

/-! ## The undo journal (R42) -/

/-- Bytes of the current core's undo journal were written, and nothing else; words in error there may have been written whole. -/
structure JournalOnly (s t : State) : Prop where
  memory : MemoryOnly s t
  bytes : ∀ a, ¬ inJournal s a → byteAt t a = byteAt s a
  wf : Memory.wf s.mem = true → Memory.wf t.mem = true
  bad : ∀ w ∈ t.bad, w ∈ s.bad

theorem JournalOnly.refl (s : State) : JournalOnly s s := ⟨rfl, fun _ _ => rfl, id, fun _ => id⟩

theorem JournalOnly.trans {s t u : State} (h : JournalOnly s t) (k : JournalOnly t u) : JournalOnly s u where
  memory := h.memory.trans k.memory
  bytes a ha := (k.bytes a (by rw [h.memory]; exact ha)).trans (h.bytes a ha)
  wf := k.wf ∘ h.wf
  bad w hw := h.bad w (k.bad w hw)

theorem bad_wrList (bs : List Byte) : ∀ {s : State} {k w : Nat}, w ∈ (s.wrList k bs).bad → w ∈ s.bad := by
  induction bs with
  | nil => exact id
  | cons b bs ih => exact fun h => (List.mem_filter.1 (ih h)).1

theorem bad_wrBlock {s : State} {k w : Nat} {bs : List Byte} (h : w ∈ (s.wrBlock k bs).bad) : w ∈ s.bad :=
  (List.mem_filter.1 (bad_wrList bs h)).1

theorem get_wrBlock {s : State} (hm : Memory.wf s.mem = true) {k a : Nat} {bs : List Byte} (ha : a < k ∨ k + bs.length ≤ a) :
    byteAt (s.wrBlock k bs) a = byteAt s a :=
  State.get_wrList bs (s := { s with bad := s.bad.filter (fun w => !decide (k ≤ w ∧ w + 8 ≤ k + bs.length)) }) hm ha

/-- 64 bytes written within the journal. -/
theorem wrBlock_journalOnly {s : State} (hm : Memory.wf s.mem = true) (hfiring : s.cur < 2048) {k : Nat} {bs : List Byte}
    (hlo : tileBase s.cur + 0x7E000 ≤ k) (hhi : k + bs.length ≤ tileBase s.cur + 0x80000) : JournalOnly s (s.wrBlock k bs) where
  memory := MemoryOnly.wrBlock s k bs
  wf := State.wrBlock_wf
  bad _ := bad_wrBlock
  bytes a ha := get_wrBlock hm (by rw [inJournal] at ha; omega)

/-- A line of the state area at lo copied into the journal. -/
def logLine (lo : Nat) (s : State) (k : Nat) : State := s.wrBlock (tileBase s.cur + 0x7E000 + 64 * k) (s.rdList (lo + 64 * k) 64)

theorem logLine_journalOnly {s : State} (hm : Memory.wf s.mem = true) (hfiring : s.cur < 2048) (lo : Nat) {k : Nat}
    (hk : 64 * k + 64 ≤ 0x2000) : JournalOnly s (logLine lo s k) :=
  have hlen : (s.rdList (lo + 64 * k) 64).length = 64 := by rw [State.rdList, List.length_map, List.length_range]
  wrBlock_journalOnly hm hfiring (by omega) (by omega)

theorem foldl_logLine_journalOnly (lo : Nat) (l : List Nat) (hl : ∀ k ∈ l, 64 * k + 64 ≤ 0x2000) :
    ∀ {s : State}, Memory.wf s.mem = true → s.cur < 2048 → JournalOnly s (l.foldl (logLine lo) s) := by
  induction l with
  | nil => exact fun _ _ => .refl _
  | cons k l ih =>
    intro s hm hfiring
    have h := logLine_journalOnly hm hfiring lo (hl k List.mem_cons_self)
    have hnext : (logLine lo s k).cur < 2048 := by rw [h.memory]; exact hfiring
    rw [List.foldl_cons]
    exact h.trans (ih (fun j hj => hl j (List.mem_cons_of_mem _ hj)) (h.wf hm) hnext)

theorem forIn_modify (g : State → Nat → State) (l : List Nat) : ∀ s : State,
    (forIn l PUnit.unit (fun k _ => do modify (fun s => g s k); pure (ForInStep.yield PUnit.unit)) : M PUnit) s =
      .ok PUnit.unit (l.foldl g s) := by
  induction l with
  | nil => exact fun _ => rfl
  | cons k l ih => intro s; rw [List.forIn_cons]; exact ih (g s k)

/-- The lines of the state area at lo that the first write of n bytes at key copies (R42). -/
def freshLines (f : Firing) (lo len key n : Nat) : List Nat :=
  ((((List.range ((n + 63) / 64 + 1)).map (fun i => (key + 64 * i, i))).filterMap (fun e =>
    let k := if e.2 = 0 then key else e.1 / 64 * 64
    if lo ≤ k ∧ k < lo + len ∧ k < key + n then some ((k - lo) / 64) else none)).eraseDups).filter (fun k => !f.journal.contains k)

theorem freshLines_within {f : Firing} {lo c key n k : Nat} (h : k ∈ freshLines f lo (64 * c) key n) : k < c := by
  obtain ⟨hk, -⟩ := List.mem_filter.1 h
  obtain ⟨e, -, he⟩ := List.mem_filterMap.1 (List.mem_eraseDups.1 hk)
  obtain ⟨⟨h1, h2, -⟩, hline⟩ := Option.ite_none_right_eq_some.1 he
  cases hline
  omega

theorem journal_none {s : State} (h : ¬ s.cur < 2048 ∨ s.myTile.firing = none) (key n : Nat) : journal key n s = .ok () s := by
  refine (bind_ok (m := get) (x := s) (s1 := s) rfl).trans ?_
  by_cases hc : s.cur < 2048
  · simp only [State.isFiring, hc, h.resolve_left (not_not.2 hc), decide_true, if_true]; rfl
  · simp only [State.isFiring, hc, decide_false, Bool.false_eq_true, if_false]; rfl

theorem journal_some {s : State} (hc : s.cur < 2048) {f : Firing} (hf : s.myTile.firing = some f) (key n : Nat) :
    let lo := tileBase s.cur + s.myTile.privOff f.slot
    let fresh := freshLines f lo (s.myTile.stateLen f.slot) key n
    journal key n s = .ok () ((fresh.foldl (logLine lo) s).mapFiring (fun f => { f with journal := f.journal ++ fresh })) := by
  refine (bind_ok (m := get) (x := s) (s1 := s) rfl).trans ?_
  simp only [State.isFiring, hc, hf, decide_true, if_true]
  exact bind_ok (forIn_modify (logLine (tileBase s.cur + s.myTile.privOff f.slot)) _ s)

/-- R42: what the journal takes: bytes of its own, and which lines the firing journaled. -/
structure Journaled (s t : State) : Prop where
  frame : t = { s with mem := t.mem, bad := t.bad, tiles := t.tiles }
  bytes : ∀ a, ¬ inJournal s a → byteAt t a = byteAt s a
  wf : Memory.wf t.mem = true
  bad : ∀ w ∈ t.bad, w ∈ s.bad
  tiles : ∀ p, p ≠ s.cur → t.tile p = s.tile p
  own : t.myTile = { s.myTile with firing := t.myTile.firing }
  firing : t.myTile.firing = s.myTile.firing.map (fun f => { f with journal := t.firingNow.journal })

theorem Journaled.refl {s : State} (hm : Memory.wf s.mem = true) : Journaled s s where
  frame := rfl
  bytes _ _ := rfl
  wf := hm
  bad _ := id
  tiles _ _ := rfl
  own := rfl
  firing := by
    rw [State.firingNow]
    cases s.myTile.firing <;> rfl

theorem journaled_mapFiring {s u : State} (hs : s.wf = true) (h : JournalOnly s u) {f : Firing} (hf : s.myTile.firing = some f)
    (l : List Nat) : Journaled s (u.mapFiring (fun f => { f with journal := f.journal ++ l })) := by
  have hu := h.memory
  have htiles : u.tiles = s.tiles := by rw [hu]
  have hcur : u.cur = s.cur := by rw [hu]
  have hmine : u.myTile = s.myTile := by rw [State.myTile, State.tile, htiles, hcur]; rfl
  have hrising : Sparse.rising u.tiles = true := htiles ▸ State.wf_tiles hs
  have hown : (u.mapFiring (fun f => { f with journal := f.journal ++ l })).myTile =
      { s.myTile with firing := some { f with journal := f.journal ++ l } } := by
    rw [← hmine]
    refine (State.tile_setTile hrising u.cur _).trans ?_
    rw [hmine, hf]; rfl
  exact {
    frame := by rw [State.mapFiring, hu]; rfl
    bytes := h.bytes
    wf := h.wf (State.wf_mem hs)
    bad := h.bad
    tiles := fun p hp => (State.tile_setTile_ne hrising _ (hcur ▸ hp)).trans (by rw [State.tile, htiles]; rfl)
    own := by rw [hown]
    firing := by rw [State.firingNow, hown, hf]; rfl }

/-- R42: the journal is written whole, and holds back no store. -/
theorem journal_ends {s : State} (hs : s.wf = true) (hlen : s.myTile.stateLen s.firingNow.slot ≤ 0x2000) (key n : Nat) :
    ∃ t, journal key n s = .ok () t ∧ Journaled s t := by
  by_cases hc : s.cur < 2048
  · cases hf : s.myTile.firing with
    | none => exact ⟨s, journal_none (.inr hf) key n, .refl (State.wf_mem hs)⟩
    | some f =>
      rw [State.firingNow, hf, Option.getD_some, Tile.stateLen] at hlen
      refine ⟨_, journal_some hc hf key n, journaled_mapFiring hs (foldl_logLine_journalOnly _ _ (fun k hk => ?_) (State.wf_mem hs) hc) hf _⟩
      have := freshLines_within hk
      omega
  · exact ⟨s, journal_none (.inl hc) key n, .refl (State.wf_mem hs)⟩

/-! ## A store after the journal -/

theorem little_congr {s t : State} (h : t.mem = s.mem) (k n : Nat) : little t k n = little s k n := by
  rw [little_eq_rd, little_eq_rd, State.rd, h]; rfl

section
variable {s t : State} (h : Journaled s t)
include h

theorem Journaled.cores : t.cores = s.cores := by rw [h.frame]

theorem Journaled.core : t.core = s.core := by
  have hcur : t.cur = s.cur := by rw [h.frame]
  rw [State.core, h.cores, hcur]
  rfl

theorem Journaled.readBad {k n : Nat} (hk : s.readBad k n = false) : t.readBad k n = false := by
  rw [State.readBad, List.any_eq_false] at hk ⊢
  exact fun w hw => hk w (h.bad w hw)

theorem Journaled.storesAt (k n : Nat) : StoresAt s t k n where
  bytes a _ ha := h.bytes a ha
  cores m _ := by rw [State.coreAt, h.cores]; rfl
  tiles := h.tiles
  firing := ⟨h.own, h.firing⟩
  rest := by rw [h.frame]

theorem Journaled.storesAt_wr (k n v : Nat) : StoresAt s (t.wr k n v) k n where
  bytes a ha hj := (State.get_wr h.wf ha).trans (h.bytes a hj)
  cores m _ := by rw [← show t.coreAt m = s.coreAt m by rw [State.coreAt, h.cores]; rfl]; rfl
  tiles := h.tiles
  firing := ⟨h.own, h.firing⟩
  rest := by rw [State.wr, h.frame]

theorem Journaled.little {k n : Nat} (hj : ∀ a, k ≤ a → a < k + n → ¬ inJournal s a) : little t k n = little s k n := by
  rw [little_eq_rd, little_eq_rd]
  exact Sparse.bytes_congr n (fun a h1 h2 => h.bytes a (hj a h1 h2))

end

/-- The end of a store changes its core alone. -/
theorem StoresAt.onlyCore {s t u : State} {k n : Nat} (h : StoresAt s t k n) (hu : OnlyCore t u) : StoresAt s u k n := by
  obtain ⟨hframe, hcores⟩ := hu
  have hcur : t.cur = s.cur := by rw [h.rest]
  have htile (p : Nat) : u.tile p = t.tile p := by rw [hframe]; rfl
  have hmine : u.myTile = t.myTile := by rw [hframe]; rfl
  have hnow : u.firingNow = t.firingNow := by rw [hframe]; rfl
  exact {
    bytes := fun a ha hj => (show byteAt u a = byteAt t a by rw [hframe]; rfl).trans (h.bytes a ha hj)
    cores := fun m hm => (hcores m (hcur ▸ hm)).trans (h.cores m hm)
    tiles := fun p hp => (htile p).trans (h.tiles p hp)
    firing := by rw [hmine, hnow]; exact h.firing
    rest := by rw [hframe, h.rest] }

end Sys2Proof.Claims
end

section
/-! PROOFS. Loads, stores and local atomics. -/

namespace Sys2Proof.Claims

open Sys2Proof.Machine

/-! ## Loads (R178, R179) -/

theorem exec_load {i : Instr} {n d a ow imm : Nat} {sgn : Bool} (h : loadForm i = some (n, sgn, d, a, ow, imm)) (s : State) :
    exec i s = runM (loadOp n sgn d a ow imm) s := by
  unfold loadForm at h
  split at h <;> cases h <;> rfl

theorem load_dest {i : Instr} {n d a ow imm : Nat} {sgn : Bool} (hi : i.wf = true) (h : loadForm i = some (n, sgn, d, a, ow, imm)) :
    d < 32 := by
  unfold loadForm at h
  split at h <;> cases h <;> simp only [Instr.wf, Bool.and_eq_true, Kind.ok, decide_eq_true_eq] at hi <;> omega

section
variable {s s1 : State} {n d a ow imm k : Nat} {sgn : Bool}

theorem loadOp_reads (hc : checkAccess s.reach .read n n (s.ea a imm) s = .ok (.mem k) s1) (hr : Ready s1 k n ow) :
    loadOp n sgn d a ow imm s = .ok () (s1.setS d (extendLoad n sgn (s1.rd k n))).advance := by
  refine (bind_ok (m := get) (x := s) (s1 := s) rfl).trans ?_
  refine (bind_ok hc).trans ((bind_ok hr.waitOw).trans ((bind_ok hr.awaitPlace).trans ?_))
  exact bind_ok (readPlace_sound hr.sound _)

theorem loadOp_bad (hc : checkAccess s.reach .read n n (s.ea a imm) s = .ok (.mem k) s1) (hw : s1.setDone ow = true)
    (hp : awaitPlace (.mem k) n s1 = .ok () s1) (hb : s1.readBad k n = true) : loadOp n sgn d a ow imm s =
      .error (.trap { code := 0x16, i0 := s.ea a imm, i1 := 1, i3 := s1.regionInfo }) (s1.countHard (dieOfKey k) (errClass k)) := by
  have hwait : waitOw ow s1 = .ok () s1 := by rw [waitOw_eq, if_pos hw]
  refine (bind_ok (m := get) (x := s) (s1 := s) rfl).trans ?_
  refine (bind_ok hc).trans ((bind_ok hwait).trans ((bind_ok hp).trans ?_))
  exact bind_error (readPlace_bad hb _)

theorem loadOp_checked {e : Stop} (hc : checkAccess s.reach .read n n (s.ea a imm) s = .error e s1) :
    loadOp n sgn d a ow imm s = .error e s1 :=
  (bind_ok (m := get) (x := s) (s1 := s) rfl).trans (bind_error hc)

end

/-- Settles O7: a load that its checks let through reads its bytes, or meets a word in error; else it traps as they say. -/
theorem scalarLoads : Obligations.ScalarLoads := by
  intro i s n sgn d a ow imm hi h ea
  have hea : ea = s.ea a imm := (ea_eq_exact s a imm).symm
  rw [exec_load h, hea]
  refine ⟨fun s1 k hc hs hr => ?read, fun s1 k hc hw hp hb => ?bad, fun s1 t hc => runM_trap (loadOp_checked hc)⟩
  case read =>
    refine ⟨_, runM_ok (loadOp_reads hc hr), ?_, fun _ => rfl⟩
    rw [little_eq_rd, ← extendLoad_eq_exact]
    exact writesS_putS hs (load_dest hi h) _
  case bad => exact ⟨_, _, runM_trap (loadOp_bad hc hw hp hb), rfl, rfl, rfl, rfl⟩

/-! ## Stores (R178, R179) -/

theorem exec_store {i : Instr} {n d a ow imm : Nat} (h : storeForm i = some (n, d, a, ow, imm)) (s : State) :
    exec i s = runM (storeOp n d a ow imm) s := by
  unfold storeForm at h
  split at h <;> cases h <;> rfl

theorem storeOp_stores {s s1 u : State} {n d a ow imm k : Nat} (hc : checkAccess s.reach .write n n (s.ea a imm) s = .ok (.mem k) s1)
    (hr : Ready s1 k n ow) (hj : journal k n s1 = .ok () u) (hu : Journaled s1 u) :
    storeOp n d a ow imm s = .ok () (u.wr k n ((s.sreg d).toNat % 2 ^ (8 * n))).advance := by
  refine (bind_ok (m := get) (x := s) (s1 := s) rfl).trans ?_
  refine (bind_ok hc).trans ((bind_ok hr.waitOw).trans ((bind_ok hr.awaitPlace).trans ?_))
  refine (bind_ok (m := get) (x := s1) (s1 := s1) rfl).trans ?_
  simp only [writeBad_of_readBad hr.sound, Bool.false_eq_true, if_false]
  refine (bind_ok hj).trans ?_
  exact bind_ok (writePlace_sound (writeBad_of_readBad (hu.readBad hr.sound)) _ _)

/-- Settles O8: the journal takes the old lines, then the bytes are written, and the program counter moves on. -/
theorem scalarStores : Obligations.ScalarStores := by
  intro i s s1 n d a ow imm k hi h hc hs hr hlen
  rw [← ea_eq_exact] at hc
  obtain ⟨u, hj, hu⟩ := journal_ends hs hlen k n
  let v := (s.sreg d).toNat % 2 ^ (8 * n)
  have hrising : Sparse.rising (u.wr k n v).cores = true := by rw [show (u.wr k n v).cores = s1.cores from hu.cores]; exact State.wf_cores hs
  have hv : v % 256 ^ n = v := by rw [show 256 = 2 ^ 8 from rfl, ← pow_mul, Nat.mod_mod]
  have hstored : (u.wr k n v).advance.rd k n = v := (State.rd_wr hu.wf).trans hv
  refine ⟨_, (exec_store h s).trans (runM_ok (storeOp_stores hc hr hj hu)), (hu.storesAt_wr k n v).onlyCore (onlyCore_mapCore hrising _), ?_, ?_⟩
  · rw [State.advance, State.core_mapCore hrising, ← hu.core]; rfl
  · rw [little_eq_rd, hstored]

/-! ## Local atomics (R181) -/

/-- The function of a local atomic, by its operands. -/
theorem exec_atomic {i : Instr} {s : State} {d a ow imm : Nat} {f : Word → Option Word} (h : atomicForm s i = some (d, a, ow, imm, f)) :
    ∃ g b, exec i s = runM (atomicOp g d a b ow imm) s ∧ ∀ old, g old (s.sreg b) (s.sreg d) = f old := by
  unfold atomicForm at h
  split at h <;> cases h <;> refine ⟨_, _, rfl, fun old => ?_⟩
  case h_1 => exact congrArg some (by rw [exact_add, exact_toNat, exact_toNat])
  case h_5 => exact congrArg some (min_eq_exact _ _)
  case h_6 => exact congrArg some (max_eq_exact _ _)
  case h_7 => exact congrArg some (minn_eq_exact _ _)
  case h_8 => exact congrArg some (maxn_eq_exact _ _)
  all_goals rfl

theorem atomic_dest {i : Instr} {s : State} {d a ow imm : Nat} {f : Word → Option Word} (hi : i.wf = true)
    (h : atomicForm s i = some (d, a, ow, imm, f)) : d < 32 := by
  unfold atomicForm at h
  split at h <;> cases h <;> simp only [Instr.wf, Bool.and_eq_true, Kind.ok, decide_eq_true_eq] at hi <;> omega

/-- The memory that an atomic leaves: its new value written, or the old one where there is none. -/
def atomicWrite (u : State) (k : Nat) (x : Option Word) : State := x.elim u (fun x => u.wr k 8 x.toNat)

theorem atomicOp_performs {s s1 u : State} {g : Word → Word → Word → Option Word} {d a b ow imm k : Nat}
    (hc : checkAccess s.atomicReach .atomic 8 8 (s.ea a imm) s = .ok (.mem k) s1) (hr : Ready s1 k 8 ow)
    (hj : journal k 8 s1 = .ok () u) (hu : Journaled s1 u) : atomicOp g d a b ow imm s =
      .ok () ((atomicWrite u k (g (word (s1.rd k 8)) (s.sreg b) (s.sreg d))).setS d (word (s1.rd k 8))).advance := by
  refine (bind_ok (m := get) (x := s) (s1 := s) rfl).trans ?_
  refine (bind_ok hc).trans ((bind_ok hr.waitOw).trans ((bind_ok hr.awaitPlace).trans ((bind_ok (readPlace_sound hr.sound _)).trans ?_)))
  refine (bind_ok hj).trans ?_
  cases g (word (s1.rd k 8)) (s.sreg b) (s.sreg d) with
  | none => rfl
  | some x => exact bind_ok (writePlace_sound (writeBad_of_readBad (hu.readBad hr.sound)) _ _)

section
variable {s u : State} (hu : Journaled s u) (k : Nat) (x : Option Word)
include hu

theorem storesAt_atomicWrite : StoresAt s (atomicWrite u k x) k 8 := by
  cases x with
  | none => exact hu.storesAt k 8
  | some x => exact hu.storesAt_wr k 8 _

theorem cores_atomicWrite : (atomicWrite u k x).cores = s.cores := by
  cases x <;> exact hu.cores

theorem core_atomicWrite : (atomicWrite u k x).core = s.core := by
  cases x <;> exact hu.core

/-- The new value is the one read back; where nothing is written, the old one. -/
theorem little_atomicWrite (hj : ¬ ∃ b, k ≤ b ∧ b < k + 8 ∧ inJournal s b) :
    little (atomicWrite u k x) k 8 = (x.map BitVec.toNat).getD (little s k 8) := by
  cases x with
  | none =>
    rw [Option.map_none, Option.getD_none, ← hu.little (fun b h1 h2 hb => hj ⟨b, h1, h2, hb⟩)]
    rfl
  | some x =>
    have hx : x.toNat % 256 ^ 8 = x.toNat := Nat.mod_eq_of_lt (lt_of_lt_of_eq x.isLt (by norm_num))
    have hw : atomicWrite u k (some x) = u.wr k 8 x.toNat := rfl
    rw [Option.map_some, Option.getD_some, hw, little_eq_rd, State.rd_wr hu.wf, hx]

/-- What an atomic leaves: the new value in memory, the old one in D. -/
theorem atomicWrite_leaves (hs : s.wf = true) (hj : ¬ ∃ b, k ≤ b ∧ b < k + 8 ∧ inJournal s b) {d : Nat} (hd : d < 32) (old : Word) :
    let t := ((atomicWrite u k x).setS d old).advance
    StoresAt s t k 8 ∧ t.core = { s.core.advance with s := t.core.s } ∧ (∀ m, m ≠ d → t.sreg m = s.sreg m) ∧
    t.sreg d = (if d = 0 then 0 else old) ∧ little t k 8 = (x.map BitVec.toNat).getD (little s k 8) := by
  intro t
  have hrising : Sparse.rising (atomicWrite u k x).cores = true := by rw [cores_atomicWrite hu]; exact State.wf_cores hs
  have hcore : t.core = { s.core.advance with s := (s.core.setS d old).s } := by
    rw [State.core_putS hrising, core_atomicWrite hu]
  have hsreg (m : Nat) : t.sreg m = (s.core.setS d old).sreg m := by rw [State.sreg, hcore]; rfl
  have hmem : t.mem = (atomicWrite u k x).mem := rfl
  refine ⟨(storesAt_atomicWrite hu k x).onlyCore (onlyCore_mapCore_mapCore hrising _ _), by rw [hcore],
    fun m hm => by rw [hsreg, Core.sreg_setS_ne _ _ hm]; rfl, by rw [hsreg, Core.sreg_setS _ hd], ?_⟩
  rw [little_congr hmem, little_atomicWrite hu k x hj]

end

/-- Settles O9: the old value goes to D, the new one to memory. -/
theorem localAtomics : Obligations.LocalAtomics := by
  intro i s s1 d a ow imm k f hi h hc hs hr hlen hapart
  rw [← ea_eq_exact] at hc
  obtain ⟨g, b, hexec, hg⟩ := exec_atomic h
  obtain ⟨u, hj, hu⟩ := journal_ends hs hlen k 8
  have hold : word (s1.rd k 8) = exact (little s1 k 8) := by rw [little_eq_rd, exact_natCast]
  have hrun := hexec.trans (runM_ok (atomicOp_performs hc hr hj hu))
  rw [hg, hold] at hrun
  exact ⟨_, hrun, atomicWrite_leaves hu k _ hs hapart (atomic_dest hi h) _⟩

end Sys2Proof.Claims
end

section
/-! SUPPORT. Laws of a control core's system registers: masked writes, the fields of CSTAT (R166), and its entry into a handler (R194). -/

namespace Sys2Proof.Claims

open Sys2Proof.Machine

/-! ## Masks -/

/-- The bits that a mask of len bits at pos keeps of a word. -/
theorem and_mask (x : Word) {pos len : Nat} (h : (2 ^ len - 1) * 2 ^ pos < 2 ^ 64) :
    x &&& word ((2 ^ len - 1) * 2 ^ pos) = word (x.toNat / 2 ^ pos % 2 ^ len * 2 ^ pos) := by
  have hland : x.toNat &&& (2 ^ len - 1) * 2 ^ pos = x.toNat / 2 ^ pos % 2 ^ len * 2 ^ pos := land_field _ _ _
  have hle : x.toNat / 2 ^ pos % 2 ^ len * 2 ^ pos < 2 ^ 64 := hland ▸ Nat.and_lt_two_pow _ h
  refine BitVec.eq_of_toNat_eq ?_
  rw [BitVec.toNat_and, BitVec.toNat_ofNat, BitVec.toNat_ofNat, Nat.mod_eq_of_lt h, Nat.mod_eq_of_lt hle, hland]

theorem and_low (x : Word) {n : Nat} (h : n ≤ 64) : x &&& word (2 ^ n - 1) = exact (x.toNat % 2 ^ n) := by
  have hlt : 2 ^ n - 1 < 2 ^ 64 := lt_of_lt_of_le (Nat.sub_lt (by positivity) (by decide)) (Nat.pow_le_pow_right (by decide) h)
  have hm := and_mask x (pos := 0) (len := n) (by simpa using hlt)
  simp only [pow_zero, Nat.mul_one, Nat.div_one] at hm
  rw [hm, ← exact_natCast]
  push_cast
  rfl

/-- R161: TRAPBASE holds bits [47:12]. -/
theorem and_trapbase (x : Word) : x &&& 0xFFFFFFFFF000 = exact (x.toNat % 2 ^ 48 / 2 ^ 12 * 2 ^ 12) := by
  have hm := and_mask x (pos := 12) (len := 36) (by decide)
  refine hm.trans ((exact_natCast _).symm.trans (congrArg exact ?_))
  omega

/-- R197: the low three bits cleared. -/
theorem and_not_seven (x : Word) : x &&& ~~~7#64 = exact (x.toNat / 8 * 8) := by
  have hm := and_mask x (pos := 3) (len := 61) (by decide)
  refine hm.trans ((exact_natCast _).symm.trans (congrArg exact ?_))
  have := x.isLt
  omega

/-- R166: LVL stays, and the other five fields are written. -/
theorem cstatWritten_eq (old x : Word) : cstatWritten old x = exact (old.toNat % 2 + x.toNat % 64 / 2 * 2) := by
  have hlow := and_mask old (pos := 0) (len := 1) (by decide)
  have hhigh := and_mask x (pos := 1) (len := 5) (by decide)
  refine (eq_exact_natCast (n := old.toNat % 2 + x.toNat % 64 / 2 * 2) ?_).trans (by push_cast; rfl)
  have hor := Nat.two_pow_add_eq_or_of_lt (i := 1) (b := old.toNat % 2) (by omega) (x.toNat / 2 % 32)
  change ((old &&& word ((2 ^ 1 - 1) * 2 ^ 0)) ||| (x &&& word ((2 ^ 5 - 1) * 2 ^ 1))).toNat = _
  rw [hlow, hhigh, BitVec.toNat_or, BitVec.toNat_ofNat, BitVec.toNat_ofNat, Nat.or_comm]
  have h1 : old.toNat / 2 ^ 0 % 2 ^ 1 * 2 ^ 0 % 2 ^ 64 = old.toNat % 2 := by omega
  have h2 : x.toNat / 2 ^ 1 % 2 ^ 5 * 2 ^ 1 % 2 ^ 64 = 2 ^ 1 * (x.toNat / 2 % 32) := by omega
  rw [h1, h2, ← hor]
  omega

/-! ## The fields of CSTAT (R166) -/

theorem cstat_fields {c : Core} {lvl plv ie pie inh dlg : Nat} (h : c.cstat = cstatOf lvl plv ie pie inh dlg) (hlvl : lvl < 2) (hplv : plv < 2)
    (hie : ie < 2) (hpie : pie < 2) (hinh : inh < 2) (hdlg : dlg < 2) :
    c.lvl = lvl ∧ c.plv = plv ∧ c.ie = ie ∧ c.pie = pie ∧ c.inh = inh ∧ c.dlg = dlg := by
  have hw : c.cstat.toNat = lvl + 2 * plv + 4 * ie + 8 * pie + 16 * inh + 32 * dlg := by
    rw [h, cstatOf, BitVec.toNat_ofNat]; omega
  simp only [Core.lvl, Core.plv, Core.ie, Core.pie, Core.inh, Core.dlg, fieldOf, bits, hw]
  omega

theorem fieldOf_one_lt (x : Word) (lo : Nat) : fieldOf x lo 1 < 2 := Nat.mod_lt _ (by decide)

theorem Core.inh_cases (c : Core) : c.inh = 0 ∨ c.inh = 1 := by
  have : c.inh < 2 := fieldOf_one_lt c.cstat 4
  omega

/-! ## Entry into a handler (R194) -/

/-- TRAPCAUSE of an entry, its NEST bit apart. -/
def entryCause (c : Core) (t : Trap) (int : Bool) (src : Nat) : Nat :=
  t.code + (if t.sw then 2 ^ 8 else 0) + (if int then 2 ^ 9 else 0) + src * 2 ^ 10 + c.lvl * 2 ^ 16

/-- Whether an entry is delegated to level S. -/
def delegated (c : Core) (t : Trap) (int : Bool) : Bool := !int && c.lvl == 0 && c.dlg == 1 && t.code != cPRIV && t.code != cECC

/-- A core in which a trap is recorded, its cause apart. -/
def trapNoted (c : Core) (t : Trap) : Core :=
  { c.settle with trapinfo0 := t.i0, trapinfo1 := t.i1, trapinfo2 := t.i2, trapinfo3 := t.i3, trappc := c.pc, pair := none }

/-- A nested entry halts the core. -/
theorem enter_nested {c : Core} (h : c.inh = 1) (t : Trap) (int : Bool) (src : Nat) : c.enter t int src =
    { trapNoted c t with trapcause := word (entryCause c t int src + 2 ^ 17), halted := true } := if_pos h

theorem enter_vector {c : Core} (h : c.inh = 0) (t : Trap) (int : Bool) (src : Nat) : c.enter t int src =
    { trapNoted c t with
      trapcause := word (entryCause c t int src), cstat := cstatOf (if delegated c t int then 0 else 1) c.lvl 0 c.ie 1 c.dlg,
      pc := if int then c.trapbase + 0x100 else if delegated c t int then c.trapbase + 0x200 else c.trapbase } :=
  if_neg (show ¬ c.inh = 1 by omega)

/-- The fields of CSTAT after an entry that is not nested. -/
theorem enter_fields {c : Core} (h : c.inh = 0) (t : Trap) (int : Bool) (src : Nat) :
    (c.enter t int src).lvl = (if delegated c t int then 0 else 1) ∧ (c.enter t int src).plv = c.lvl ∧ (c.enter t int src).ie = 0 ∧
    (c.enter t int src).pie = c.ie ∧ (c.enter t int src).inh = 1 ∧ (c.enter t int src).dlg = c.dlg :=
  cstat_fields (by rw [enter_vector h]) (by split <;> decide) (fieldOf_one_lt _ _) (by decide) (fieldOf_one_lt _ _) (by decide) (fieldOf_one_lt _ _)

end Sys2Proof.Claims
end

section
/-! PROOFS. Software traps, the entry into a handler and the return from it, interrupts, and waits for a time. -/

namespace Sys2Proof.Claims

open Sys2Proof.Machine

/-! ## Traps of a control core (R184, R186, R194) -/

theorem softwareTraps : SoftwareTraps := ⟨fun _ _ _ _ => rfl, fun s n => by rw [exact_natCast]; rfl⟩

theorem delegated_trap (c : Core) (t : Trap) : delegated c t false = true ↔ c.lvl = 0 ∧ c.dlg = 1 ∧ t.code ≠ 2 ∧ t.code ≠ 0x16 := by
  simp [delegated, cPRIV, cECC, and_assoc]

theorem entryCause_trap (c : Core) (t : Trap) : entryCause c t false 0 = t.code + (if t.sw then 2 ^ 8 else 0) + c.lvl * 2 ^ 16 := by
  simp [entryCause]

theorem controlTrapEntry : ControlTrapEntry := by
  intro s t hs hc _ c u cause toS
  have hcore : u.core = c.enter t false 0 := takeTrap_control_core hc (State.wf_cores hs) t
  have hframe : OnlyCore s u := by
    have hu : u = s.mapCore (fun c => c.enter t false 0) := takeTrap_control hc t
    rw [hu]; exact onlyCore_mapCore (State.wf_cores hs) _
  have hcause : word cause = word (entryCause c t false 0) := congrArg word (entryCause_trap c t).symm
  refine ⟨hframe, ?registers, fun hn => ?nested, fun hn => ?vector⟩
  case registers =>
    rw [hcore]
    obtain hn | hn := Core.inh_cases c
    · rw [enter_vector hn]; rfl
    · rw [enter_nested hn]; rfl
  case nested =>
    rw [hcore, enter_nested hn, exact_natCast, entryCause_trap]
    exact ⟨rfl, rfl, rfl, rfl⟩
  case vector =>
    obtain ⟨hlvl, hplv, hie, hpie, hinh, hdlg⟩ := enter_fields hn t false 0
    rw [hcore, hplv, hie, hpie, hinh, hdlg, hlvl]
    refine ⟨by rw [enter_vector hn, exact_natCast, hcause], by rw [enter_vector hn]; rfl, rfl, rfl, rfl, rfl, rfl, fun hto => ?_, fun hto => ?_⟩
    · have hd := (delegated_trap c t).2 hto
      exact ⟨if_pos hd, by rw [enter_vector hn]; exact if_pos hd⟩
    · have hd := mt (delegated_trap c t).1 hto
      exact ⟨if_neg hd, by rw [enter_vector hn]; exact if_neg hd⟩

/-- Settles O15: the traps that software raises, and how a control core takes a trap. -/
theorem exceptionEntry : Obligations.ExceptionEntry := ⟨softwareTraps, controlTrapEntry⟩

/-! ## Interrupts (R196) -/

/-- Settles O11: a core that takes an interrupt has INH clear, so that the entry is not nested. -/
theorem interruptEntry : Obligations.InterruptEntry := by
  intro s n src hs hn ht hsrc h5 c
  have hinh : c.inh = 0 := by
    simp only [State.takesInterrupt, Bool.and_eq_true, beq_iff_eq] at ht
    obtain ⟨⟨-, hinh⟩, -⟩ := ht
    exact hinh
  have hexec : exec (.interruptEntry n) s = .next (s.setCoreAt (2048 + n) (c.enter (s.intTrap n src) true src)) := by
    change execInterruptEntry n s = _
    simp only [execInterruptEntry, hn, ht, hsrc, decide_true, Bool.and_self, if_true]
    rfl
  have hr := State.wf_cores hs
  refine ⟨_, hexec, fun m hm => State.coreAt_setCoreAt_ne hr _ hm, rfl, ?_⟩
  rw [State.coreAt_setCoreAt hr]
  obtain ⟨hlvl, hplv, hie, hpie, hi, hdlg⟩ := enter_fields hinh (s.intTrap n src) true src
  have htrap : s.intTrap n src = { code := 0 } := if_neg h5
  have hcause : entryCause c (s.intTrap n src) true src = 2 ^ 9 + src * 2 ^ 10 + c.lvl * 2 ^ 16 := by simp [entryCause, htrap]
  refine ⟨?_, ?_, ?_, hlvl, hplv, hie, hpie, hi, hdlg, ?_, ?_, ?_⟩ <;> rw [enter_vector hinh]
  case refine_1 => rw [exact_natCast, ← hcause]
  all_goals rfl

/-! ## The return from a handler (R197) -/

/-- Settles O12: `tret` checks the level, and else restores the fields. -/
theorem trapReturn : Obligations.TrapReturn := by
  intro s hs c
  refine ⟨fun hl hp => ?refused, fun hok => ?returns⟩
  case refused =>
    change execTret s = _
    rw [execTret, if_pos ⟨hl, hp⟩]
    rfl
  case returns =>
    have hcore : (s.mapCore Core.leave).core = c.leave := State.core_mapCore (State.wf_cores hs) _
    obtain ⟨hlvl, hplv, hie, hpie, hinh, hdlg⟩ := cstat_fields (c := c.leave) rfl (fieldOf_one_lt _ _) (fieldOf_one_lt _ _) (fieldOf_one_lt _ _)
      (fieldOf_one_lt _ _) (by decide) (fieldOf_one_lt _ _)
    refine ⟨s.mapCore Core.leave, ?_, onlyCore_mapCore (State.wf_cores hs) _, ?_⟩
    · change execTret s = _
      rw [execTret, if_neg hok]
    · rw [hcore]
      exact ⟨and_not_seven _, hlvl, hplv, hie, hpie, hinh, hdlg, rfl⟩

/-! ## Waits for a time (R185) -/

theorem timeTarget_eq (s : State) (a imm : Nat) :
    ((s.sreg a + imm22 imm).toNat : Int) = (((s.sreg a).toNat : Int) + sx 22 imm) % (2 ^ 64 : Int) := by
  rw [← toNat_exact, exact_add, exact_toNat, imm22, sxWord_eq_exact]

theorem sleep_done {s : State} {b : Bool} (h : b = true) : s.sleep b = s.advance := by rw [State.sleep, if_pos h]

/-- A wait that is not done notes when it began, and changes nothing else. -/
theorem sleep_waits {s : State} (hs : s.wf = true) {b : Bool} (h : b = false) :
    OnlyCore s (s.sleep b) ∧ (s.sleep b).core = { s.core with waitFrom := (s.sleep b).core.waitFrom } := by
  have hr := State.wf_cores hs
  rw [State.sleep, if_neg (by simp [h])]
  exact ⟨onlyCore_mapCore hr _, by rw [State.core_mapCore hr]⟩

/-- Settles O14: each wait compares its target with its clock. -/
theorem timedWaits : Obligations.TimedWaits := by
  intro s a imm hs target
  have htarget : ((s.sreg a + imm22 imm).toNat : Int) = target := timeTarget_eq s a imm
  have hsleep : exec (.sleepc a imm) s = .next (s.sleep (decide ((s.sreg a + imm22 imm).toNat ≤ s.cycle))) := rfl
  have hwait : exec (.waittick a imm) s = .next (s.sleep (decide ((s.sreg a + imm22 imm).toNat ≤ s.gtime))) := rfl
  refine ⟨fun h => ?_, fun h => ?_, fun h => ⟨_, hsleep, sleep_waits hs ?_⟩, fun h => ⟨_, hwait, sleep_waits hs ?_⟩⟩
  · rw [hsleep, sleep_done (decide_eq_true (by omega))]
  · rw [hwait, sleep_done (decide_eq_true (by omega))]
  · exact decide_eq_false (by omega)
  · exact decide_eq_false (by omega)

end Sys2Proof.Claims
end

section
/-! PROOFS. `sysr` and `sysw`: the values read, the fields written, and the privilege checks. -/

namespace Sys2Proof.Claims

open Sys2Proof.Machine

/-! ## Access (R161, R162) -/

theorem exec_sysr_read {s : State} {n : Nat} (h : sysAccess s.isFiring s.atM n = .ro ∨ sysAccess s.isFiring s.atM n = .rw) (d : Nat) :
    exec (.sysr d n) s = .next ((s.setS d (s.sysValue n)).sysReadEffect n).advance := by
  change execSysr d n s = _
  unfold execSysr
  obtain h | h := h <;> rw [h]

theorem exec_sysr_zero {s : State} {n : Nat} (h : sysAccess s.isFiring s.atM n = .z) (d : Nat) :
    exec (.sysr d n) s = .next (s.setS d 0).advance := by
  change execSysr d n s = _
  unfold execSysr
  rw [h]; rfl

theorem exec_sysr_priv {s : State} {n m : Nat} (h : sysAccess s.isFiring s.atM n = .p m) (d : Nat) :
    exec (.sysr d n) s = .next (s.takeTrap (privTrap s m n)) := by
  change execSysr d n s = _
  unfold execSysr
  rw [h]

theorem exec_sysw_write {s : State} {n : Nat} (h : sysAccess s.isFiring s.atM n = .rw) (a : Nat) :
    exec (.sysw a n) s = .next (s.sysWritten n (s.sreg a)).advance := by
  change execSysw a n s = _
  unfold execSysw
  rw [h]

/-- R162: a write of a register that is read-only, or reads zero, is ignored. -/
theorem exec_sysw_ignored {s : State} {n : Nat} (h : sysAccess s.isFiring s.atM n = .ro ∨ sysAccess s.isFiring s.atM n = .z) (a : Nat) :
    exec (.sysw a n) s = .next s.advance := by
  change execSysw a n s = _
  unfold execSysw
  obtain h | h := h <;> rw [h]

theorem exec_sysw_priv {s : State} {n m : Nat} (h : sysAccess s.isFiring s.atM n = .p m) (a : Nat) :
    exec (.sysw a n) s = .next (s.takeTrap (privTrap s m n)) := by
  change execSysw a n s = _
  unfold execSysw
  rw [h]

theorem isFiring_true {s : State} (h : s.cur < 2048) : s.isFiring = true := decide_eq_true h

theorem isFiring_false {s : State} (h : 2048 ≤ s.cur) : s.isFiring = false := decide_eq_false (Nat.not_lt.2 h)

theorem atM_firing {s : State} (h : s.isFiring = true) : s.atM = false := by rw [State.atM, h]; rfl

/-- R162: the registers of control cores alone. -/
theorem sysAccess_firing_priv {n : Nat} (h : n ∈ [20, 23, 24, 25, 27, 28, 29, 30]) (m : Bool) : sysAccess true m n = .p 1 := by
  revert n m; decide

/-- R162: the registers of level M alone. -/
theorem sysAccess_level_priv {n : Nat} (h : n ∈ [20, 24, 25, 27, 28, 29, 30]) : sysAccess false false n = .p 2 := by
  revert n; decide

theorem privTrap_eq (s : State) (m n : Nat) : privTrap s m n = { code := 2, i0 := word s.core.ir, i1 := word m, i3 := exact n } := by
  rw [exact_natCast]; rfl

/-! ## The values read -/

theorem ccore_eq {s : State} (h : s.isFiring = false) : exact (s.cur - 2048) = word s.ccore := by
  have hc : 2048 ≤ s.cur := Nat.not_lt.1 (of_decide_eq_false h)
  rw [← exact_natCast]
  exact congrArg exact (Nat.cast_sub hc).symm

/-- R161: a register that a core may read gives its value, or zero. -/
theorem sysAccess_of_systemValue {s : State} {n : Nat} {x : Word} (h : systemValue s n = some x) :
    ((sysAccess s.isFiring s.atM n = .ro ∨ sysAccess s.isFiring s.atM n = .rw) ∧ x = s.sysValue n) ∨
    (sysAccess s.isFiring s.atM n = .z ∧ x = 0) := by
  cases hf : s.isFiring with
  | true =>
    rw [systemValue.eq_def, atM_firing hf, hf] at h
    simp only [exact_natCast] at h
    split at h <;> simp at h <;> simp [← h, sysAccess, State.sysValue, hf, State.myTile, State.firingNow, Tile.phase, Config.revision]
  | false =>
    have hcore : s.cur - 2048 = s.ccore := rfl
    rw [systemValue.eq_def, hf, ccore_eq hf, hcore] at h
    simp only [exact_natCast] at h
    cases hm : s.atM
    all_goals
      rw [hm] at h
      split at h <;> simp at h <;> simp [← h, sysAccess, State.sysValue, hf, Config.revision]

/-- R193: a read of a trap register changes nothing where no store error is pending. -/
theorem sysReadEffect_clean {s : State} (h : ∀ k, (s.coreAt k).storeErr = none) (n : Nat) : s.sysReadEffect n = s := by
  have hcur : s.core.storeErr = none := h s.cur
  have hall : (List.range 8).find? (fun k => (s.coreAt (2048 + k)).storeErr.isSome) = none := by simp [h]
  unfold State.sysReadEffect
  rw [hcur, hall]
  exact ite_self _

theorem storeErr_setS (c : Core) (d : Nat) (x : Word) : (c.setS d x).storeErr = c.storeErr := by
  unfold Core.setS; split <;> rfl

theorem State.storeErr_setS {s : State} (hs : Sparse.rising s.cores = true) (d : Nat) (x : Word) (k : Nat) :
    ((s.setS d x).coreAt k).storeErr = (s.coreAt k).storeErr := by
  by_cases hk : k = s.cur
  · subst hk
    have hcore : (s.setS d x).coreAt s.cur = s.core.setS d x := State.core_mapCore hs _
    rw [hcore, Claims.storeErr_setS]; rfl
  · have hcore : (s.setS d x).coreAt k = s.coreAt k := State.coreAt_mapCore hs _ hk
    rw [hcore]

theorem systemRead : SystemRead := by
  intro s d n hs hd
  refine ⟨fun x hx hclean => ?value, fun hf hn => ?control, fun hc hl hn => ?level⟩
  case value =>
    refine ⟨(s.setS d x).advance, ?_, writesS_putS hs hd x⟩
    obtain ⟨hread, rfl⟩ | ⟨hzero, rfl⟩ := sysAccess_of_systemValue hx
    · rw [exec_sysr_read hread, sysReadEffect_clean (fun k => (State.storeErr_setS (State.wf_cores hs) d _ k).trans (hclean k))]
    · exact exec_sysr_zero hzero d
  case control =>
    have ha := sysAccess_firing_priv hn s.atM
    rw [exec_sysr_priv (by rw [isFiring_true hf]; exact ha), privTrap_eq]; rfl
  case level =>
    have ha := sysAccess_level_priv hn
    rw [exec_sysr_priv (by rw [isFiring_false hc, hl]; exact ha), privTrap_eq]; rfl

/-! ## The fields written -/

theorem sysWritten_of_systemWrite {s : State} {n : Nat} {x : Word} {c : Core} (h : systemWrite s.core n x = some c) :
    sysAccess false true n = .rw ∧ s.sysWritten n x = s.setCore c := by
  unfold systemWrite at h
  split at h <;> cases h <;> refine ⟨rfl, ?_⟩
  case h_1 => exact congrArg (fun v => s.setCore { s.core with rptst := v }) (and_low x (n := 7) (by decide))
  case h_2 => exact congrArg (fun v => s.setCore { s.core with trapcause := v }) (and_low x (n := 18) (by decide))
  case h_8 => exact congrArg (fun v => s.setCore { s.core with trapbase := v }) (and_trapbase x)
  case h_9 => exact congrArg (fun v => s.setCore { s.core with cstat := v }) (cstatWritten_eq s.core.cstat x)
  all_goals rfl

theorem advance_setCore {s : State} (hs : s.wf = true) (c : Core) : OnlyCore s (s.setCore c).advance ∧ (s.setCore c).advance.core = c.advance :=
  ⟨onlyCore_mapCore_mapCore (State.wf_cores hs) (fun _ => c) Core.advance, core_mapCore_mapCore (State.wf_cores hs) (fun _ => c) Core.advance⟩

theorem Core.advance_fstat (c : Core) (x : Word) : Core.advance { c with fstat := x } = { c.advance with fstat := x } := by
  unfold Core.advance
  cases c.rep with
  | none => rfl
  | some n => by_cases h : c.rptDone + 1 < n <;> simp only [Core.settle, Core.rptDone] at h ⊢ <;> simp [h]

/-- R162: the registers whose writes are ignored, by core and level. -/
theorem sysAccess_ignored {f m : Bool} {n : Nat} (h : n ∈ [0, 1, 21, 22] ∨ f = false ∧ n ∈ [2, 3, 4, 5, 6, 7, 8, 9, 11, 12, 26] ∨
    f = false ∧ m = true ∧ n = 24 ∨ f = false ∧ m = false ∧ n ∈ [10, 14, 15, 16, 17, 18, 23] ∨
    f = true ∧ n ∈ [2, 3, 4, 5, 6, 7, 8, 9, 10, 12, 13, 14, 15, 16, 17, 18, 19, 26]) :
    sysAccess f m n = .ro ∨ sysAccess f m n = .z := by
  have hn : n < 27 := by
    simp only [List.mem_cons, List.not_mem_nil, or_false] at h
    omega
  revert f m
  interval_cases n <;> decide

theorem systemWrites : SystemWrite := by
  intro s a n hs
  refine ⟨fun c hc hm hw => ?levelM, fun hc hm => ?seed, fun hf => ?flags, fun c hc hm hn hw => ?levelS, fun hn => ?_, fun hc hn => ?_,
    fun hc hm hn => ?_, fun hc hm hn => ?_, fun hf hn => ?_, fun hf hn => ?control, fun hc hm hn => ?level⟩
  case levelM =>
    obtain ⟨haccess, hwritten⟩ := sysWritten_of_systemWrite hw
    refine ⟨_, exec_sysw_write (by rw [isFiring_false hc, hm, haccess]) a, ?_⟩
    rw [hwritten]
    exact advance_setCore hs c
  case seed => exact ⟨_, exec_sysw_write (by rw [isFiring_false hc, hm]; rfl) a, rfl⟩
  case flags =>
    refine ⟨_, exec_sysw_write (by rw [isFiring_true hf]; rfl) a, onlyCore_mapCore_mapCore (State.wf_cores hs) _ _, ?_⟩
    refine (core_mapCore_mapCore (State.wf_cores hs) (fun c => { c with fstat := fstatWritten (s.sreg a) }) Core.advance).trans ?_
    rw [Core.advance_fstat]
    exact congrArg (fun v => { s.core.advance with fstat := v }) (and_low (s.sreg a) (n := 7) (by decide))
  case levelS =>
    have haccess : sysAccess false false n = .rw := by obtain rfl | rfl := hn <;> rfl
    refine ⟨_, exec_sysw_write (by rw [isFiring_false hc, hm, haccess]) a, ?_⟩
    rw [(sysWritten_of_systemWrite hw).2]
    exact advance_setCore hs c
  case control => rw [exec_sysw_priv (by rw [isFiring_true hf]; exact sysAccess_firing_priv hn s.atM), privTrap_eq]; rfl
  case level => rw [exec_sysw_priv (by rw [isFiring_false hc, hm]; exact sysAccess_level_priv hn), privTrap_eq]; rfl
  all_goals refine exec_sysw_ignored (sysAccess_ignored ?_) a
  · exact .inl hn
  · exact .inr (.inl ⟨isFiring_false hc, hn⟩)
  · exact .inr (.inr (.inl ⟨isFiring_false hc, hm, hn⟩))
  · exact .inr (.inr (.inr (.inl ⟨isFiring_false hc, hm, hn⟩)))
  · exact .inr (.inr (.inr (.inr ⟨isFiring_true hf, hn⟩)))

/-- Settles O13: a read and a write each follow the access that R162 gives the core to the register. -/
theorem systemRegisters : Obligations.SystemRegisters := ⟨systemRead, systemWrites⟩

end Sys2Proof.Claims
end

section
/-! PROOFS. The fault record of a firing whose number of tries has left the field that the record gives it. -/

namespace Sys2Proof.Claims

open Sys2Proof.Machine

/-- A firing of slot 0 on tile 0, tried 2^19 times: more than the fault record's field holds, but nothing bounds it in a state. -/
def overRetried : State :=
  { State.reset with cur := 0, tiles := [(0, { slots := #v[{ tries := #v[2 ^ 19, 0, 0, 0, 0] }, {}, {}, {}, {}, {}, {}, {}], firing := some {} })] }

/-- The trap of firing 0 records firing number 1, for the number of tries is carried into it. -/
theorem overRetried_record : (overRetried.takeTrap { code := 0 }).myTile.record[7].toNat / 2 ^ 32 = 1 := by decide +kernel

/-- Refutes O21: the record adds 2^13 times the number of tries to its status word without bounding it, so that from 2^19 tries on the
firing number beside it in the word is wrong. -/
theorem not_firingTrap : ¬ Obligations.FiringTrap := by
  rintro ⟨-, h⟩
  have hignored := (h overRetried { code := 0 } {} (by decide) (by decide) (by decide) (by decide) (by decide) rfl).2.2.2 rfl rfl (by decide)
  obtain ⟨⟨-, -, -, -, -, -, -, -, hnumber⟩, -⟩ := hignored
  exact absurd (overRetried_record.symm.trans hnumber) (by decide +kernel)

end Sys2Proof.Claims
end

section
/-! SUPPORT. The elements of a vector register (R68, R142, R202 to R204), and what an instruction that changes one core and ends leaves. -/

namespace Sys2Proof.Claims

open Sys2Proof.Machine

/-! ## The state but for one core -/

/-- t differs from s in the core whose turn it is, which is c. -/
structure CoreIs (s t : State) (c : Core) : Prop where
  frame : OnlyCore s t
  rising : Sparse.rising t.cores = true
  core : t.core = c

theorem CoreIs.refl {s : State} (hs : s.wf = true) : CoreIs s s s.core := ⟨⟨rfl, fun _ _ => rfl⟩, State.wf_cores hs, rfl⟩

section
variable {s t : State} {c : Core} (h : CoreIs s t c)
include h

theorem CoreIs.cur : t.cur = s.cur := by rw [h.frame.1]

theorem CoreIs.mapCore (f : Core → Core) : CoreIs s (t.mapCore f) (f c) where
  frame := ⟨congrArg (fun u : State => { u with cores := (t.mapCore f).cores }) h.frame.1,
    fun n hn => (State.coreAt_mapCore h.rising f (h.cur ▸ hn)).trans (h.frame.2 n hn)⟩
  rising := State.cores_mapCore h.rising f
  core := by rw [State.core_mapCore h.rising, h.core]

theorem CoreIs.advance : CoreIs s t.advance c.advance := h.mapCore Core.advance

/-- R83: flags join FSTAT of a firing core. -/
theorem CoreIs.raise (fl : Nat) :
    CoreIs s (t.raise fl) { c with fstat := if s.cur < 2048 then c.fstat ||| exact (fl % 128 : Nat) else c.fstat } := by
  unfold State.raise
  by_cases hc : s.cur < 2048
  · have hf : t.isFiring = true := isFiring_true (h.cur ▸ hc)
    rw [if_pos hf, if_pos hc, exact_natCast]
    exact h.mapCore (fun c => { c with fstat := c.fstat ||| word (fl % 128) })
  · have hf : t.isFiring = false := isFiring_false (h.cur ▸ Nat.not_lt.1 hc)
    rw [hf, if_neg (by decide), if_neg hc]
    exact h

/-- R82: an instruction that rounds under RSS counts a draw. -/
theorem CoreIs.countDraw (rnd : Nat) : CoreIs s (t.countDraw rnd) { c with draws := if rnd = 5 then c.draws + 1 else c.draws } := by
  unfold State.countDraw
  by_cases hr : rnd = 5
  · rw [if_pos hr, if_pos hr]; exact h.mapCore (fun c => { c with draws := c.draws + 1 })
  · rw [if_neg hr, if_neg hr]; exact h

end

/-- The end of an instruction commutes with a change of a vector register, of FSTAT and of the count of draws. -/
theorem Core.advance_vector (c : Core) (v : Vector VReg 32) (b : List Nat) (f : Word) (n : Nat) :
    Core.advance { c with v := v, badReg := b, fstat := f, draws := n } = { c.advance with v := v, badReg := b, fstat := f, draws := n } := by
  unfold Core.advance
  cases c.rep with
  | none => rfl
  | some n => by_cases h : c.rptDone + 1 < n <;> simp only [Core.settle, Core.rptDone] at h ⊢ <;> simp [h]

theorem Core.advance_mask (c : Core) (m : Vector MReg 8) (b : List Nat) (f : Word) :
    Core.advance { c with m := m, badReg := b, fstat := f } = { c.advance with m := m, badReg := b, fstat := f } := by
  unfold Core.advance
  cases c.rep with
  | none => rfl
  | some n => by_cases h : c.rptDone + 1 < n <;> simp only [Core.settle, Core.rptDone] at h ⊢ <;> simp [h]

theorem Core.advance_scalar (c : Core) (x : Vector Word 32) (f : Word) :
    Core.advance { c with s := x, fstat := f } = { c.advance with s := x, fstat := f } := by
  unfold Core.advance
  cases c.rep with
  | none => rfl
  | some n => by_cases h : c.rptDone + 1 < n <;> simp only [Core.settle, Core.rptDone] at h ⊢ <;> simp [h]

/-! ## Widths (R201) -/

/-- A width of elements. -/
def IsWidth (w : Nat) : Prop := w ∈ [4, 8, 16, 32]

theorem IsWidth.cases {w : Nat} (h : IsWidth w) : w = 4 ∨ w = 8 ∨ w = 16 ∨ w = 32 := by simpa [IsWidth] using h

theorem isWidth_elemWidth {ty : Nat} (h : ty ≤ 13) : IsWidth (elemWidth ty) := by
  unfold IsWidth
  interval_cases ty <;> decide

theorem IsWidth.pos {w : Nat} (h : IsWidth w) : 0 < w := by have := h.cases; omega

theorem IsWidth.lanes {w : Nat} (h : IsWidth w) : w * (2048 / w) = 2048 := by
  obtain rfl | rfl | rfl | rfl := h.cases <;> rfl

theorem IsWidth.lane_end {w k : Nat} (h : IsWidth w) (hk : k < 2048 / w) : w * k + w ≤ 2048 := by
  rw [← h.lanes, ← Nat.mul_succ]; exact Nat.mul_le_mul_left w hk

theorem elems_eq {ty : Nat} (h : IsWidth (elemWidth ty)) : elems ty = 2048 / elemWidth ty := if_neg h.pos.ne'

/-- R202: every element has its mask bit. -/
theorem IsWidth.governs_lt {w k : Nat} (h : IsWidth w) (hk : k < 2048 / w) : governs w k < 128 := by
  unfold governs
  obtain rfl | rfl | rfl | rfl := h.cases <;> simp <;> omega

/-! ## Elements packed and read (R68, R142) -/

theorem packElems_lane (w : Nat) (l : List Nat) : ∀ k, packElems w l / 2 ^ (w * k) % 2 ^ w = l[k]?.getD 0 % 2 ^ w := by
  induction l with
  | nil => intro k; simp [packElems]
  | cons x xs ih =>
    intro k
    cases k with
    | zero => simp [packElems]
    | succ k =>
      have hhigh : packElems w (x :: xs) / 2 ^ w = packElems w xs := by
        rw [packElems, Nat.add_mul_div_left _ _ (by positivity), Nat.div_eq_of_lt (Nat.mod_lt _ (by positivity)), Nat.zero_add]
      rw [Nat.mul_succ, Nat.add_comm, pow_add, ← Nat.div_div_eq_div_mul, hhigh, ih k]
      rfl

/-- An element of a register is the same in the number it holds. -/
theorem laneOf_ofNat {w k : Nat} (h : w * k + w ≤ 2048) (x : Nat) : laneOf (BitVec.ofNat 2048 x) w k = x / 2 ^ (w * k) % 2 ^ w := by
  rw [laneOf, bits, BitVec.toNat_ofNat]
  refine Nat.eq_of_testBit_eq (fun i => ?_)
  simp only [Nat.testBit_mod_two_pow, Nat.testBit_div_two_pow]
  by_cases hi : i < w
  · simp [hi, show i + w * k < 2048 by omega]
  · simp [hi]

theorem laneOf_packElems {w k : Nat} (hw : IsWidth w) (hk : k < 2048 / w) (l : List Nat) :
    laneOf (BitVec.ofNat 2048 (packElems w l)) w k = l[k]?.getD 0 % 2 ^ w := by
  rw [laneOf_ofNat (hw.lane_end hk), packElems_lane]

theorem laneOf_mod (x : VReg) (w k : Nat) : laneOf x w k % 2 ^ w = laneOf x w k := Nat.mod_mod _ _

theorem svLane_eq_lane (s : State) (code w k : Nat) : s.svLane code w k = lane s w code k := rfl

theorem laneOf_eq_lane {code : Nat} (h : 32 ≤ code) (s : State) (w k : Nat) : laneOf (s.vreg code) w k = lane s w code k :=
  (if_neg (show ¬ code < 32 by omega)).symm

theorem lane_mod (s : State) (w code k : Nat) : lane s w code k % 2 ^ w = lane s w code k := by
  unfold lane; split <;> exact Nat.mod_mod _ _

theorem lane_lt (s : State) (w code k : Nat) : lane s w code k < 2 ^ w := by
  unfold lane; split <;> exact Nat.mod_lt _ (by positivity)

/-! ## Integers of a type (R68, R69) -/

theorem isSignedTy_iff (ty : Nat) : isSignedTy ty = true ↔ ty = 0 ∨ ty = 1 ∨ ty = 3 ∨ ty = 5 := by
  simp [isSignedTy, or_assoc]

theorem intOf_lane (s : State) (ty code k : Nat) : intOf ty (lane s (elemWidth ty) code k) = element s ty code k := by
  simp only [intOf, element, isSignedTy_iff, signed_eq_sx, lane_mod]

theorem intBits_eq_modulo (w : Nat) (n : Int) : intBits w n = modulo w n := rfl

theorem modulo_natCast (w n : Nat) : modulo w n = n % 2 ^ w := by
  rw [modulo, ← Int.natCast_mod, Int.toNat_natCast]

/-! ## Flags of several results (R83) -/

theorem joinFlags_map {α : Type} (f : α → Nat) (l : List α) : joinFlags (l.map f) = l.foldl (fun acc k => acc ||| f k) 0 := by
  rw [joinFlags, List.foldl_map]; rfl

/-- A form whose elements raise no flag joins none. -/
theorem raised_of_flagless {F : LaneForm} (h : ∀ k, F.flags k = 0) (s : State) : F.raised s = 0 := by
  simp only [LaneForm.raised, h, Nat.or_zero, ite_self]
  exact List.foldl_fixed _

/-! ## The registers a vector instruction reads (R226) -/

theorem vecRun_readable {s : State} {reads : List Nat} (h : ∀ c ∈ reads, s.core.badReg.contains c = false) (rnd : Nat) (f : State → State) :
    s.vecRun reads rnd f = .next ((f s).countDraw rnd).advance := by
  have hnone : s.badRead reads = none := List.find?_eq_none.2 (fun c hc => by simp only [h c hc, Bool.false_eq_true, not_false_eq_true])
  unfold State.vecRun
  rw [hnone]

theorem vecRun_unreadable {s : State} {reads : List Nat} {c : Nat} (h : reads.find? (fun c => s.core.badReg.contains c) = some c) (rnd : Nat)
    (f : State → State) : s.vecRun reads rnd f = .next ((s.countHard (dieOf s.cur) 4).takeTrap
      { code := 0x16, i0 := exact (if 64 ≤ c then c - 64 else c : Nat), i1 := 4, i3 := s.regionInfo }) := by
  have hsome : s.badRead reads = some c := h
  unfold State.vecRun
  rw [hsome, exact_natCast]
  rfl

/-! ## Registers written -/

theorem Core.setV_eq (c : Core) (d : Nat) (x : VReg) : c.setV d x = { c with v := (c.setV d x).v, badReg := c.badReg.filter (· ≠ d) } := rfl

theorem Core.putV_eq (c : Core) (d : Nat) (whole : Bool) (x : VReg) :
    c.putV d whole x = { c with v := (c.setV d x).v, badReg := if whole then c.badReg.filter (· ≠ d) else c.badReg } := by
  unfold Core.putV; cases whole <;> rfl

/-- A core after a vector instruction that wrote D, whole or in part, and raised flags: before its end. -/
def vectorCore (s : State) (d : Nat) (whole : Bool) (x : VReg) (fl rnd : Nat) : Core :=
  { s.core with
    v := (s.core.setV d x).v
    badReg := if whole then s.core.badReg.filter (· ≠ d) else s.core.badReg
    fstat := if s.cur < 2048 then s.core.fstat ||| exact (fl % 128 : Nat) else s.core.fstat
    draws := if rnd = 5 then s.core.draws + 1 else s.core.draws }

theorem vectorCore_noFlags (s : State) (d : Nat) (whole : Bool) (x : VReg) : vectorCore s d whole x 0 0 =
    { s.core with v := (s.core.setV d x).v, badReg := if whole then s.core.badReg.filter (· ≠ d) else s.core.badReg } := by
  have h0 : s.core.fstat ||| exact ((0 % 128 : Nat) : Int) = s.core.fstat := by simp [exact]
  unfold vectorCore
  rw [h0, ite_self]
  rfl

/-- Of a form, what its D must hold is enough: the rest is the frame of the instruction. -/
theorem lanesWritten_of_core {F : LaneForm} {s t : State} {x : VReg} {whole : Bool} (h32 : 32 ≤ F.d) (h64 : F.d < 64)
    (ht : CoreIs s t (vectorCore s F.d whole x (F.raised s) F.rnd).advance)
    (hx : ∀ k, k < 2048 / F.w → laneOf x F.w k = if F.on s k then F.value k % 2 ^ F.w else lane s F.w F.d k)
    (hwhole : whole = (List.range (2048 / F.w)).all (fun k => F.on s k && decide (k < F.n))) : LanesWritten F s t := by
  have hcore := ht.core
  rw [vectorCore, Core.advance_vector] at hcore
  have hvreg (n : Nat) : t.vreg n = (s.core.setV F.d x).vreg n := by rw [State.vreg, hcore]; rfl
  have hd : t.vreg F.d = x := by rw [hvreg, Core.vreg_setV _ h32 h64]
  exact {
    lane := fun k hk => by rw [← laneOf_eq_lane h32, hd, hx k hk]
    others := fun n hn hne => by rw [hvreg, Core.vreg_setV_ne _ _ h32 hn hne]; rfl
    fstat := by rw [hcore]
    draws := by rw [hcore]
    bad := by rw [hcore, ← hwhole]
    rest := by rw [hcore]
    frame := ht.frame }

end Sys2Proof.Claims
end

section
/-! SUPPORT. Vector instructions that write the active elements of D (R203, R226): what one leaves is its form. -/

namespace Sys2Proof.Claims

open Sys2Proof.Machine

/-- D of a form is a v register, and its elements have a width. -/
structure LaneForm.Fits (F : LaneForm) : Prop where
  low : 32 ≤ F.d
  high : F.d < 64
  width : IsWidth F.w

/-- A register that is written and the flags of the instruction, and then its end. -/
theorem CoreIs.vectorEnd {s u : State} {d : Nat} {whole : Bool} {x : VReg} (h : CoreIs s u (s.core.putV d whole x)) (fl rnd : Nat) :
    CoreIs s ((u.raise fl).countDraw rnd).advance (vectorCore s d whole x fl rnd).advance := by
  rw [Core.putV_eq] at h
  exact ((h.raise fl).countDraw rnd).advance

/-- The elements below n that are active are those of f, the others those of D before. -/
def laneChoice (s : State) (d w m n : Nat) (f : Nat → Nat × Nat) (k : Nat) : Nat × Nat :=
  if k < n ∧ active (s.mreg m) w k then f k else (laneOf (s.vreg d) w k, 0)

theorem putBelow_eq (s : State) (d w m n : Nat) (f : Nat → Nat × Nat) : s.putBelow d w m n f =
    (s.mapCore (fun c => c.putV d (fullMask (s.mreg m) w && decide (2048 / w ≤ n))
      (BitVec.ofNat 2048 (packElems w ((List.range (2048 / w)).map (fun k => (laneChoice s d w m n f k).1)))))).raise
      ((List.range (2048 / w)).foldl (fun acc k => acc ||| (laneChoice s d w m n f k).2) 0) := by
  rw [← joinFlags_map]
  simp only [State.putBelow, List.map_map]
  rfl

theorem fullMask_below {s : State} {m w n : Nat} (hw : IsWidth w) : (fullMask (s.mreg m) w && decide (2048 / w ≤ n)) =
    (List.range (2048 / w)).all (fun k => (s.mreg m).getLsbD (governs w k) && decide (k < n)) := by
  have hpos : 0 < 2048 / w := Nat.div_pos (by have := hw.cases; omega) hw.pos
  refine Bool.eq_iff_iff.2 ?_
  simp only [Bool.and_eq_true, fullMask, List.all_eq_true, List.mem_range, decide_eq_true_eq]
  constructor
  · exact fun ⟨hon, hn⟩ k hk => ⟨hon k hk, by omega⟩
  · refine fun h => ⟨fun k hk => (h k hk).1, ?_⟩
    have := (h (2048 / w - 1) (by omega)).2
    omega

/-- What f gives an active element of a form: its value and flags below N, and what it had from N on. -/
def LaneForm.GivenBy (F : LaneForm) (s : State) (f : Nat → Nat × Nat) : Prop :=
  ∀ k, k < 2048 / F.w → F.on s k = true → if k < F.n then (f k).1 % 2 ^ F.w = F.value k % 2 ^ F.w ∧ (f k).2 = F.flags k
    else F.value k = lane s F.w F.d k ∧ F.flags k = 0

theorem laneChoice_of_givenBy {F : LaneForm} {s : State} {f : Nat → Nat × Nat} (h32 : 32 ≤ F.d) (hf : F.GivenBy s f) {k : Nat}
    (hk : k < 2048 / F.w) : (laneChoice s F.d F.w F.m F.n f k).1 % 2 ^ F.w = (if F.on s k then F.value k % 2 ^ F.w else lane s F.w F.d k) ∧
      (laneChoice s F.d F.w F.m F.n f k).2 = if F.on s k then F.flags k else 0 := by
  have hactive : active (s.mreg F.m) F.w k = F.on s k := rfl
  rw [laneChoice, hactive, laneOf_eq_lane h32]
  cases hon : F.on s k with
  | false => simp [lane_mod]
  | true =>
    have hgiven := hf k hk hon
    by_cases hn : k < F.n
    · rw [if_pos hn] at hgiven
      simp [hn, hgiven]
    · rw [if_neg hn] at hgiven
      simp [hn, hgiven]

theorem lanesWritten_putBelow {F : LaneForm} {s : State} {f : Nat → Nat × Nat} (hs : s.wf = true) (hF : F.Fits) (hf : F.GivenBy s f) :
    LanesWritten F s ((s.putBelow F.d F.w F.m F.n f).countDraw F.rnd).advance := by
  have hraised : (List.range (2048 / F.w)).foldl (fun acc k => acc ||| (laneChoice s F.d F.w F.m F.n f k).2) 0 = F.raised s := by
    refine List.foldl_ext _ _ _ (fun acc k hk => ?_)
    rw [(laneChoice_of_givenBy hF.low hf (List.mem_range.1 hk)).2]
    cases F.on s k <;> simp
  rw [putBelow_eq, hraised]
  refine lanesWritten_of_core hF.low hF.high (((CoreIs.refl hs).mapCore _).vectorEnd _ _) (fun k hk => ?_) (fullMask_below hF.width)
  rw [laneOf_packElems hF.width hk, List.getElem?_map, List.getElem?_range hk]
  exact (laneChoice_of_givenBy hF.low hf hk).1

/-- An instruction that replaces the active elements of D does what its form says where it gives them as the form does. -/
theorem doesLanes_of_putBelow {F : LaneForm} {i : Instr} {s : State} {g : State → State} {f : Nat → Nat × Nat} (hs : s.wf = true) (hF : F.Fits)
    (hexec : exec i s = s.vecRun F.reads F.rnd g) (hg : g s = s.putBelow F.d F.w F.m F.n f) (hf : F.GivenBy s f) : DoesLanes F i s := by
  refine ⟨fun hread => ⟨_, hexec.trans (vecRun_readable hread _ _), ?_⟩, fun c hc => hexec.trans (vecRun_unreadable hc _ _)⟩
  rw [hg]
  exact lanesWritten_putBelow hs hF hf

/-- The form of an instruction that gives every element a value and flags. -/
def elementwise (d ty m rnd : Nat) (ops : List Nat) (f : Nat → Nat × Nat) : LaneForm :=
  { d := d, w := elemWidth ty, m := m, reads := readsOf m ops, rnd := rnd, value := fun k => (f k).1, flags := fun k => (f k).2 }

theorem givenBy_all {F : LaneForm} {s : State} {f : Nat → Nat × Nat} (hn : F.n = 2048 / F.w)
    (hf : ∀ k, k < 2048 / F.w → F.on s k = true → (f k).1 % 2 ^ F.w = F.value k % 2 ^ F.w ∧ (f k).2 = F.flags k) : F.GivenBy s f :=
  fun k hk hon => by rw [if_pos (hn ▸ hk)]; exact hf k hk hon

theorem doesLanes_vecOp {i : Instr} {s : State} {d ty m rnd : Nat} {ops : List Nat} {f g : Nat → Nat × Nat} (hs : s.wf = true)
    (hF : (elementwise d ty m rnd ops g).Fits) (hexec : exec i s = s.vecOp ops d ty m rnd f) (hf : ∀ k, f k = g k) :
    DoesLanes (elementwise d ty m rnd ops g) i s :=
  doesLanes_of_putBelow hs hF hexec rfl (givenBy_all rfl (fun k _ _ => by rw [hf k]; exact ⟨rfl, rfl⟩))

end Sys2Proof.Claims
end

section
/-! PROOFS. Vector integer arithmetic and shifts (R207, R208). -/

namespace Sys2Proof.Claims

open Sys2Proof.Machine

/-! ## Integer arithmetic (R207, R88) -/

theorem integerForm_fits {i : Instr} {s : State} {F : LaneForm} (hi : i.wf = true) (h : integerForm s i = some F) : F.Fits := by
  unfold integerForm at h
  split at h <;> cases h <;> simp [Instr.wf, Kind.ok, tyInt, tySigned, tyUnsigned] at hi <;>
    exact ⟨by dsimp only; omega, by dsimp only; omega, isWidth_elemWidth (by omega)⟩

/-- R88: integers held to the bounds of their type, with SAT where they lie beyond them. -/
def heldTo (ty : Nat) (x : Nat → Int) (k : Nat) : Nat × Nat :=
  (modulo (elemWidth ty) (max (least ty) (min (greatest ty) (x k))), if least ty ≤ x k ∧ x k ≤ greatest ty then 0 else 32)

theorem satTo_eq (ty : Nat) (x : Int) : satTo ty x =
    (modulo (elemWidth ty) (max (least ty) (min (greatest ty) x)), if least ty ≤ x ∧ x ≤ greatest ty then 0 else 32) := by
  have hbounds : least ty ≤ greatest ty := by
    unfold least greatest
    have hall := Nat.one_le_two_pow (n := elemWidth ty)
    have hhalf := Nat.one_le_two_pow (n := elemWidth ty - 1)
    split <;> omega
  simp only [satTo, intLo_eq_least, intHi_eq_greatest, intBits_eq_modulo, fSAT]
  split_ifs with h1 h2 h3 h4 h5
  · omega
  · rw [max_eq_left (by omega)]
  · omega
  · rw [min_eq_left (by omega), max_eq_right hbounds]
  · rw [min_eq_right (by omega), max_eq_right (by omega)]
  · omega

section
variable {i : Instr} {s : State} {d a b ty m : Nat} {f : Int → Int → Int} (hs : s.wf = true) (ha : 32 ≤ a)
include hs ha

theorem doesLanes_vecInt
    (hF : (elementwise d ty m 0 [a, b] (fun k => (modulo (elemWidth ty) (f (element s ty a k) (element s ty b k)), 0))).Fits)
    (hexec : exec i s = vecInt f d a b ty m s) :
    DoesLanes (elementwise d ty m 0 [a, b] (fun k => (modulo (elemWidth ty) (f (element s ty a k) (element s ty b k)), 0))) i s :=
  doesLanes_vecOp hs hF hexec (fun k => by simp only [laneOf_eq_lane ha, svLane_eq_lane, intOf_lane, intBits_eq_modulo])

theorem doesLanes_vecSat (hF : (elementwise d ty m 0 [a, b] (heldTo ty (fun k => f (element s ty a k) (element s ty b k)))).Fits)
    (hexec : exec i s = vecSat f d a b ty m s) :
    DoesLanes (elementwise d ty m 0 [a, b] (heldTo ty (fun k => f (element s ty a k) (element s ty b k)))) i s :=
  doesLanes_vecOp hs hF hexec (fun k => by simp only [laneOf_eq_lane ha, svLane_eq_lane, intOf_lane, satTo_eq, heldTo])

omit b f in
theorem doesLanes_vecIntOne {f : Int → Int} (hF : (elementwise d ty m 0 [a] (fun k => (modulo (elemWidth ty) (f (element s ty a k)), 0))).Fits)
    (hexec : exec i s = vecOne (fun x => (intBits (elemWidth ty) (f (intOf ty x)), 0)) d a ty m s) :
    DoesLanes (elementwise d ty m 0 [a] (fun k => (modulo (elemWidth ty) (f (element s ty a k)), 0))) i s :=
  doesLanes_vecOp hs hF hexec (fun k => by simp only [laneOf_eq_lane ha, intOf_lane, intBits_eq_modulo])

end

/-- Settles O28: each function of MAJ 0x40 gives each active element its value. -/
theorem vectorInteger : Obligations.VectorInteger := by
  intro i s F hi hs h
  have hF := integerForm_fits hi h
  unfold integerForm at h
  split at h <;> cases h <;> simp only [Instr.wf, Bool.and_eq_true, Kind.ok, decide_eq_true_eq] at hi
  case h_1 => exact doesLanes_vecInt (f := fun x y => x + y) hs (by omega) hF rfl
  case h_2 => exact doesLanes_vecInt (f := fun x y => x - y) hs (by omega) hF rfl
  case h_3 => exact doesLanes_vecInt (f := fun x y => x * y) hs (by omega) hF rfl
  case h_4 d a b ty m => exact doesLanes_vecInt (f := fun x y => x * y / (2 ^ elemWidth ty : Nat)) hs (by omega) hF rfl
  case h_5 => exact doesLanes_vecInt (f := min) hs (by omega) hF rfl
  case h_6 => exact doesLanes_vecInt (f := min) hs (by omega) hF rfl
  case h_7 => exact doesLanes_vecInt (f := max) hs (by omega) hF rfl
  case h_8 => exact doesLanes_vecInt (f := max) hs (by omega) hF rfl
  case h_9 => exact doesLanes_vecIntOne (f := fun x => (x.natAbs : Int)) hs (by omega) hF rfl
  case h_10 => exact doesLanes_vecIntOne (f := fun x => -x) hs (by omega) hF rfl
  case h_11 => exact doesLanes_vecSat (f := fun x y => x + y) hs (by omega) hF rfl
  case h_12 => exact doesLanes_vecSat (f := fun x y => x - y) hs (by omega) hF rfl

/-! ## Shifts (R208) -/

theorem shiftForm_fits {i : Instr} {s : State} {F : LaneForm} (hi : i.wf = true) (h : shiftForm s i = some F) : F.Fits := by
  unfold shiftForm at h
  split at h <;> cases h <;> simp [Instr.wf, Kind.ok, tyInt] at hi <;>
    exact ⟨by dsimp only; omega, by dsimp only; omega, isWidth_elemWidth (by omega)⟩

/-- A shift gives its value modulo 2^w. -/
theorem doesLanes_vecShift {i : Instr} {s : State} {d a b ty m : Nat} {f : Nat → Nat → Int} {g : Nat → Nat → Nat → Nat} (hs : s.wf = true)
    (ha : 32 ≤ a)
    (hF : (elementwise d ty m 0 [a, b] (fun k => (modulo (elemWidth ty)
      (f (lane s (elemWidth ty) a k) (lane s (elemWidth ty) b k % elemWidth ty)), 0))).Fits)
    (hexec : exec i s = vecShift g d a b ty m s) (hg : ∀ x n, x < 2 ^ elemWidth ty → g (elemWidth ty) x n = modulo (elemWidth ty) (f x n)) :
    DoesLanes (elementwise d ty m 0 [a, b] (fun k => (modulo (elemWidth ty)
      (f (lane s (elemWidth ty) a k) (lane s (elemWidth ty) b k % elemWidth ty)), 0))) i s :=
  doesLanes_vecOp hs hF hexec (fun k => by rw [laneOf_eq_lane ha, svLane_eq_lane, hg _ _ (lane_lt s _ _ _)])

theorem vectorShift : ∀ (i : Instr) (s : State) (F : LaneForm), i.wf = true → s.wf = true → shiftForm s i = some F → DoesLanes F i s := by
  intro i s F hi hs h
  have hF := shiftForm_fits hi h
  unfold shiftForm at h
  split at h <;> cases h <;> simp only [Instr.wf, Bool.and_eq_true, Kind.ok, decide_eq_true_eq] at hi
  case h_1 =>
    refine doesLanes_vecShift (f := fun x n => (x * 2 ^ n : Nat)) (g := fun w x n => x * 2 ^ n % 2 ^ w) hs (by omega) hF rfl (fun x n _ => ?_)
    rw [modulo_natCast]
  case h_2 =>
    refine doesLanes_vecShift (f := fun x n => (x / 2 ^ n : Nat)) (g := fun _ x n => x / 2 ^ n) hs (by omega) hF rfl (fun x n hx => ?_)
    rw [modulo_natCast, Nat.mod_eq_of_lt (lt_of_le_of_lt (Nat.div_le_self _ _) hx)]
  case h_3 d a b ty m =>
    refine doesLanes_vecShift (f := fun x n => sx (elemWidth ty) x / (2 ^ n : Nat)) (g := fun w x n => intBits w (signed w x / (2 ^ n : Nat))) hs
      (by omega) hF rfl (fun x n _ => ?_)
    rw [signed_eq_sx, intBits_eq_modulo]

end Sys2Proof.Claims
end

section
/-! PROOFS. Vector shifts and bitwise functions (R208, R209). -/

namespace Sys2Proof.Claims

open Sys2Proof.Machine

/-! ## Bits of a register (R142, R204) -/

theorem getLsbD_eq_lane (x : VReg) {w : Nat} (hw : 0 < w) (j : Nat) : x.getLsbD j = (laneOf x w (j / w)).testBit (j % w) := by
  rw [laneOf, bits, Nat.testBit_mod_two_pow, Nat.testBit_div_two_pow, Nat.mod_add_div]
  simp [Nat.mod_lt j hw, BitVec.testBit_toNat]

/-- R204: bit j of an operand without TYPE; of an s register the low 32 bits serve as every 32-bit lane. -/
def operandBit (s : State) (code j : Nat) : Bool := if code < 32 then (s.sreg code).toNat.testBit (j % 32) else (s.vreg code).getLsbD j

theorem operandBit_vreg {code : Nat} (h : 32 ≤ code) (s : State) (j : Nat) : operandBit s code j = (s.vreg code).getLsbD j :=
  if_neg (show ¬ code < 32 by omega)

theorem getLsbD_svWhole (s : State) (code : Nat) {j : Nat} (hj : j < 2048) : (s.svWhole code).getLsbD j = operandBit s code j := by
  unfold State.svWhole operandBit
  split
  · have hk : j / 32 < 64 := by omega
    have hwidth : IsWidth 32 := isWidth_elemWidth (ty := 5) (by decide)
    rw [getLsbD_eq_lane _ (w := 32) (by decide), laneOf_packElems hwidth hk, List.getElem?_replicate, if_pos hk, Option.getD_some, Nat.mod_mod,
      Nat.testBit_mod_two_pow]
    simp [Nat.mod_lt j (show 0 < 32 by decide)]
  · rfl

/-! ## The look-up of four operands (R209) -/

/-- The index of four bits in a truth table. -/
def tableIndex (a b c d : Bool) : Nat := 8 * a.toNat + 4 * b.toNat + 2 * c.toNat + d.toNat

/-- Four bits select index i where they are its bits. -/
theorem selects_iff : ∀ i, i < 16 → ∀ a b c d : Bool,
    ((a == i.testBit 3) && (b == i.testBit 2) && (c == i.testBit 1) && (d == i.testBit 0)) = (i == tableIndex a b c d) := by decide

theorem getLsbD_choose (p : Bool) (x : VReg) {j : Nat} (hj : j < 2048) : (if p = true then x else ~~~x).getLsbD j = (x.getLsbD j == p) := by
  cases p <;> simp [hj]

theorem getLsbD_minterm (t : Nat) {i j : Nat} (hi : i < 16) (hj : j < 2048) (a b c d : VReg) : (minterm t i a b c d).getLsbD j =
    (t.testBit i && (i == tableIndex (a.getLsbD j) (b.getLsbD j) (c.getLsbD j) (d.getLsbD j))) := by
  rw [← selects_iff i hi]
  unfold minterm
  cases t.testBit i with
  | false => simp
  | true => simp only [if_true, BitVec.getLsbD_and, getLsbD_choose _ _ hj, Bool.true_and]

theorem getLsbD_foldl_or (f : Nat → VReg) (j : Nat) (l : List Nat) : ∀ x : VReg,
    (l.foldl (fun acc i => acc ||| f i) x).getLsbD j = (x.getLsbD j || l.any (fun i => (f i).getLsbD j)) := by
  induction l with
  | nil => intro x; simp
  | cons i l ih => intro x; rw [List.foldl_cons, ih, BitVec.getLsbD_or, List.any_cons, Bool.or_assoc]

theorem getLsbD_lookup4 (t : Nat) {j : Nat} (hj : j < 2048) (a b c d : VReg) :
    (lookup4 t a b c d).getLsbD j = t.testBit (tableIndex (a.getLsbD j) (b.getLsbD j) (c.getLsbD j) (d.getLsbD j)) := by
  have hlt : tableIndex (a.getLsbD j) (b.getLsbD j) (c.getLsbD j) (d.getLsbD j) < 16 := by
    cases a.getLsbD j <;> cases b.getLsbD j <;> cases c.getLsbD j <;> cases d.getLsbD j <;> decide
  rw [lookup4, getLsbD_foldl_or, Bool.eq_iff_iff]
  simp only [show (0 : VReg).getLsbD j = false from BitVec.getLsbD_zero, Bool.false_or, List.any_eq_true, List.mem_range]
  constructor
  · rintro ⟨i, hi, hbit⟩
    rw [getLsbD_minterm t hi hj, Bool.and_eq_true, beq_iff_eq] at hbit
    obtain ⟨hbit, rfl⟩ := hbit
    exact hbit
  · intro hbit
    exact ⟨_, hlt, by rw [getLsbD_minterm t hlt hj, hbit]; simp⟩

/-! ## Bits written under a mask (R202, R208) -/

/-- The form of an instruction that gives D the bits of x, each 16-bit sub-lane under its mask bit. -/
def bitwise (d m : Nat) (reads : List Nat) (x : VReg) : LaneForm := { d := d, w := 16, m := m, reads := reads, value := laneOf x 16 }

theorem Core.advance_draws (c : Core) : c.advance.draws = c.draws := by rw [Core.advance_eq]; rfl

theorem Core.advance_fstat_self (c : Core) : c.advance.fstat = c.fstat := by rw [Core.advance_eq]; rfl

theorem bitwise_lanes (d m : Nat) (reads : List Nat) (x : VReg) : 2048 / (bitwise d m reads x).w = 128 :=
  show 2048 / 16 = 128 by decide

section
variable {s t : State} {d m : Nat} {reads : List Nat} {x : VReg} (h : LanesWritten (bitwise d m reads x) s t)
include h

theorem bitwise_bits (h32 : 32 ≤ d) {j : Nat} (hj : j < 2048) :
    (t.vreg d).getLsbD j = if (s.mreg m).getLsbD (j / 16) then x.getLsbD j else (s.vreg d).getLsbD j := by
  have hlane : lane t 16 d (j / 16) = if (s.mreg m).getLsbD (j / 16) then laneOf x 16 (j / 16) % 2 ^ 16 else lane s 16 d (j / 16) :=
    h.lane (j / 16) (by rw [bitwise_lanes]; omega)
  have hbit (y : VReg) : y.getLsbD j = (laneOf y 16 (j / 16)).testBit (j % 16) := getLsbD_eq_lane y (by decide) j
  rw [hbit, hbit, hbit, laneOf_eq_lane h32, laneOf_eq_lane h32, hlane, laneOf_mod]
  split <;> rfl

theorem bitwise_fstat : t.core.fstat = s.core.fstat := by
  rw [h.fstat, raised_of_flagless (fun _ => rfl)]
  split <;> simp [exact]

theorem bitwise_core : t.core = { s.core.advance with v := t.core.v, badReg := t.core.badReg, fstat := t.core.fstat } := by
  have hdraws : t.core.draws = s.core.advance.draws := h.draws.trans (Core.advance_draws _).symm
  have hrest := h.rest
  rw [hdraws] at hrest
  exact hrest

theorem bitwise_bad : t.core.badReg = if (List.range 128).all (fun j => (s.mreg m).getLsbD j) then s.core.badReg.filter (· ≠ d)
    else s.core.badReg := by
  have hall : (List.range 128).all (fun k => (bitwise d m reads x).on s k && decide (k < 128)) =
      (List.range 128).all (fun j => (s.mreg m).getLsbD j) := by
    refine Bool.eq_iff_iff.2 ?_
    simp only [List.all_eq_true, List.mem_range, Bool.and_eq_true, decide_eq_true_eq]
    exact ⟨fun hon k hk => (hon k hk).1, fun hon k hk => ⟨hon k hk, hk⟩⟩
  have hbad := h.bad
  rw [bitwise_lanes] at hbad
  rw [← hall]
  exact hbad

end

theorem bitwise_written {s : State} (hs : s.wf = true) {d m : Nat} (h32 : 32 ≤ d) (h64 : d < 64) (reads : List Nat) (x : VReg) :
    LanesWritten (bitwise d m reads x) s ((s.putSub d m x).countDraw 0).advance :=
  lanesWritten_putBelow hs ⟨h32, h64, isWidth_elemWidth (ty := 3) (by decide)⟩ (givenBy_all rfl (fun _ _ _ => ⟨rfl, rfl⟩))

/-! ## The functions (R208, R209) -/

theorem bitForm_dest {i : Instr} {s : State} {d m : Nat} {reads : List Nat} {f : Nat → Bool} (hi : i.wf = true)
    (h : bitForm s i = some (d, m, reads, f)) : 32 ≤ d ∧ d < 64 := by
  unfold bitForm at h
  split at h <;> cases h <;> simp only [Instr.wf, Bool.and_eq_true, Kind.ok, decide_eq_true_eq] at hi <;> omega

/-- The register whose active bits a function gives D. -/
theorem exec_bitForm {i : Instr} {s : State} {d m : Nat} {reads : List Nat} {f : Nat → Bool} (hi : i.wf = true)
    (h : bitForm s i = some (d, m, reads, f)) :
    ∃ (g : State → State) (x : VReg), exec i s = s.vecRun reads 0 g ∧ g s = s.putSub d m x ∧ ∀ j, j < 2048 → x.getLsbD j = f j := by
  unfold bitForm at h
  split at h <;> cases h <;> simp only [Instr.wf, Bool.and_eq_true, Kind.ok, decide_eq_true_eq] at hi
  case h_1 a b =>
    refine ⟨fun u => u.putSub d m (u.vreg a &&& u.svWhole b), _, rfl, rfl, fun j hj => ?_⟩
    rw [BitVec.getLsbD_and, getLsbD_svWhole s b hj, ← operandBit_vreg (show 32 ≤ a by omega)]
    rfl
  case h_2 a b =>
    refine ⟨fun u => u.putSub d m (u.vreg a ||| u.svWhole b), _, rfl, rfl, fun j hj => ?_⟩
    rw [BitVec.getLsbD_or, getLsbD_svWhole s b hj, ← operandBit_vreg (show 32 ≤ a by omega)]
    rfl
  case h_3 a b =>
    refine ⟨fun u => u.putSub d m (u.vreg a ^^^ u.svWhole b), _, rfl, rfl, fun j hj => ?_⟩
    rw [BitVec.getLsbD_xor, getLsbD_svWhole s b hj, ← operandBit_vreg (show 32 ≤ a by omega)]
    rfl
  case h_4 a b =>
    refine ⟨fun u => u.putSub d m (u.vreg a &&& ~~~u.svWhole b), _, rfl, rfl, fun j hj => ?_⟩
    rw [BitVec.getLsbD_and, BitVec.getLsbD_not, getLsbD_svWhole s b hj, ← operandBit_vreg (show 32 ≤ a by omega), decide_eq_true hj, Bool.true_and]
    rfl
  case h_5 a b c thi tlo =>
    refine ⟨fun u => u.putSub d m (lookup4 (thi * 2 ^ 12 + tlo) (u.vreg a) (u.vreg b) (u.vreg c) (u.vreg d)), _, rfl, rfl, fun j hj => ?_⟩
    rw [getLsbD_lookup4 _ hj, ← operandBit_vreg (show 32 ≤ a by omega), ← operandBit_vreg (show 32 ≤ b by omega),
      ← operandBit_vreg (show 32 ≤ c by omega), ← operandBit_vreg (show 32 ≤ d by omega)]
    rfl

/-- Settles O29: the shifts give each active element its value, the others each bit under its sub-lane's mask bit. -/
theorem vectorLogicShift : Obligations.VectorLogicShift := by
  refine ⟨vectorShift, fun i s d m reads f hi hs h hread => ?_⟩
  obtain ⟨h32, h64⟩ := bitForm_dest hi h
  obtain ⟨g, x, hexec, hg, hx⟩ := exec_bitForm hi h
  have hw := bitwise_written hs (m := m) h32 h64 reads x
  rw [← hg] at hw
  refine ⟨_, hexec.trans (vecRun_readable hread _ _), hw.frame, fun j hj => ?_, hw.others, bitwise_core hw, bitwise_fstat hw, bitwise_bad hw⟩
  rw [bitwise_bits hw h32 hj, hx j hj]

end Sys2Proof.Claims
end

section
/-! PROOFS. Floating vector functions and conversions (R210 to R215). -/

namespace Sys2Proof.Claims

open Sys2Proof.Machine

/-! ## Exact values rounded once (R77, R210, R212) -/

theorem decodeTy_laneOf {code : Nat} (h : 32 ≤ code) (s : State) (ty k : Nat) :
    decodeTy ty (laneOf (s.vreg code) (elemWidth ty) k) = valueOf s ty code k := by rw [laneOf_eq_lane h]; rfl

/-- The form of an instruction that rounds an exact value of each element, once. -/
def rounded (s : State) (d ty m rnd : Nat) (ops : List Nat) (f : Nat → Machine.Num × Nat) : LaneForm :=
  elementwise d ty m rnd ops (fun k => s.deliver ty rnd k (f k))

theorem floatForm_fits {i : Instr} {s : State} {F : LaneForm} (hi : i.wf = true) (h : floatForm s i = some F) : F.Fits := by
  unfold floatForm at h
  split at h <;> cases h <;> simp [Instr.wf, Kind.ok, tyFloat, tyHalf, tyF32] at hi
  case h_7 => exact ⟨by dsimp only; omega, by dsimp only; omega, isWidth_elemWidth (ty := 12) (by decide)⟩
  all_goals exact ⟨by dsimp only; omega, by dsimp only; omega, isWidth_elemWidth (by omega)⟩

section
variable {i : Instr} {s : State} {d a b c ty m rnd : Nat} (hs : s.wf = true) (ha : 32 ≤ a)
include hs ha

theorem doesLanes_vecF1 {f : Machine.Num → Machine.Num × Nat} (hF : (rounded s d ty m rnd [a] (fun k => f (valueOf s ty a k))).Fits)
    (hexec : exec i s = vecF1 f d a ty m rnd s) : DoesLanes (rounded s d ty m rnd [a] (fun k => f (valueOf s ty a k))) i s :=
  doesLanes_vecOp hs hF hexec (fun k => by rw [decodeTy_laneOf ha])

theorem doesLanes_vecF2 {f : Machine.Num → Machine.Num → Machine.Num × Nat}
    (hF : (rounded s d ty m rnd [a, b] (fun k => f (valueOf s ty a k) (valueOf s ty b k))).Fits)
    (hexec : exec i s = vecF2 f d a b ty m rnd s) :
    DoesLanes (rounded s d ty m rnd [a, b] (fun k => f (valueOf s ty a k) (valueOf s ty b k))) i s :=
  doesLanes_vecOp hs hF hexec (fun k => by rw [decodeTy_laneOf ha]; rfl)

theorem doesLanes_vecF3 {f : Machine.Num → Machine.Num → Machine.Num → Machine.Num × Nat} (hc : 32 ≤ c)
    (hF : (rounded s d ty m rnd [a, b, c] (fun k => f (valueOf s ty a k) (valueOf s ty b k) (valueOf s ty c k))).Fits)
    (hexec : exec i s = vecF3 f d a b c ty m rnd s) :
    DoesLanes (rounded s d ty m rnd [a, b, c] (fun k => f (valueOf s ty a k) (valueOf s ty b k) (valueOf s ty c k))) i s :=
  doesLanes_vecOp hs hF hexec (fun k => by rw [decodeTy_laneOf ha, decodeTy_laneOf hc]; rfl)

/-- R215: the exponent of B is a signed integer of the element's width. -/
theorem doesLanes_vscale (hF : (rounded s d ty m rnd [a, b]
      (fun k => scaleNum (valueOf s ty a k) (sx (elemWidth ty) (lane s (elemWidth ty) b k)))).Fits)
    (hexec : exec i s = execVscale d a b ty m rnd s) : DoesLanes (rounded s d ty m rnd [a, b]
      (fun k => scaleNum (valueOf s ty a k) (sx (elemWidth ty) (lane s (elemWidth ty) b k)))) i s :=
  doesLanes_vecOp hs hF hexec (fun k => by rw [decodeTy_laneOf ha, signed_eq_sx, svLane_eq_lane])

end

/-- R211: the products of an element of `vdot2`. -/
def dotProduct (s : State) (a b ty k j : Nat) : Machine.Num × Nat := (valueOf s ty a (2 * k + j)).mul (valueOf s ty b (2 * k + j))

/-- R211: the sum of an element of `vdot2`, and the flags of its three parts. -/
def dotSum (s : State) (d a b ty rnd k : Nat) : Machine.Num × Nat :=
  let t := Num.sum rnd [valueOf s 12 d k, (dotProduct s a b ty k 0).1, (dotProduct s a b ty k 1).1]
  (t.1, (dotProduct s a b ty k 0).2 ||| (dotProduct s a b ty k 1).2 ||| t.2)

theorem joinFlags_three (x y z : Nat) : joinFlags [x, y, z] = (x ||| y ||| z) := by
  change (0 ||| x ||| y ||| z : Nat) = _
  rw [Nat.zero_or]

theorem doesLanes_vdot2 {i : Instr} {s : State} {d a b ty m rnd : Nat} (hs : s.wf = true) (ha : 32 ≤ a) (hty : elemWidth ty = 16)
    (hF : (rounded s d 12 m rnd [a, b, d] (dotSum s d a b ty rnd)).Fits) (hexec : exec i s = execVdot2 d a b ty m rnd s) :
    DoesLanes (rounded s d 12 m rnd [a, b, d] (dotSum s d a b ty rnd)) i s := by
  refine doesLanes_of_putBelow hs hF hexec rfl (givenBy_all rfl (fun k _ _ => ?_))
  have hp (j : Nat) : (decodeTy ty (laneOf (s.vreg a) 16 j)).mul (decodeTy ty (s.svLane b 16 j)) = (valueOf s ty a j).mul (valueOf s ty b j) := by
    rw [laneOf_eq_lane ha, svLane_eq_lane, valueOf, valueOf, hty]
  have hd : decodeTy 12 (laneOf (s.vreg d) 32 k) = valueOf s 12 d k := decodeTy_laneOf hF.low s 12 k
  simp only [hp, hd, joinFlags_three]
  exact ⟨rfl, rfl⟩

theorem vectorArithmetic : ∀ (i : Instr) (s : State) (F : LaneForm), i.wf = true → s.wf = true → floatForm s i = some F → DoesLanes F i s := by
  intro i s F hi hs h
  have hF := floatForm_fits hi h
  unfold floatForm at h
  split at h <;> cases h <;> simp only [Instr.wf, Bool.and_eq_true, Kind.ok, decide_eq_true_eq] at hi
  case h_1 d a b ty m rnd => exact doesLanes_vecF2 (f := fun x y => Num.sum rnd [x, y]) hs (by omega) hF rfl
  case h_2 d a b ty m rnd => exact doesLanes_vecF2 (f := fun x y => Num.sum rnd [x, y.neg]) hs (by omega) hF rfl
  case h_3 => exact doesLanes_vecF2 (f := Machine.Num.mul) hs (by omega) hF rfl
  case h_4 d a b c ty m rnd =>
    exact doesLanes_vecF3 (f := fun x y z => fusedSum rnd (x.mul y) false z) hs (show 32 ≤ a by omega) (show 32 ≤ c by omega) hF rfl
  case h_5 d a b c ty m rnd =>
    exact doesLanes_vecF3 (f := fun x y z => fusedSum rnd (x.mul y) false z.neg) hs (show 32 ≤ a by omega) (show 32 ≤ c by omega) hF rfl
  case h_6 d a b c ty m rnd =>
    exact doesLanes_vecF3 (f := fun x y z => fusedSum rnd (x.mul y) true z) hs (show 32 ≤ a by omega) (show 32 ≤ c by omega) hF rfl
  case h_7 d a b ty m rnd =>
    have hty : elemWidth ty = 16 := by
      obtain ⟨⟨-, hty⟩, -⟩ := hi
      exact (show ∀ t ∈ tyHalf, elemWidth t = 16 by decide) ty (List.contains_iff_mem.1 hty)
    exact doesLanes_vdot2 hs (by omega) hty hF rfl
  case h_8 => exact doesLanes_vecF2 (f := Machine.Num.div) hs (by omega) hF rfl
  case h_9 => exact doesLanes_vecF1 (f := Num.sqrt) hs (by omega) hF rfl
  case h_10 => exact doesLanes_vecF1 (f := fun x => (Num.fin false 1 0 false).div x) hs (by omega) hF rfl
  case h_11 => exact doesLanes_vecF1 (f := Num.rsqrt) hs (by omega) hF rfl
  case h_12 => exact doesLanes_vecF1 (f := Num.exp2) hs (by omega) hF rfl
  case h_13 => exact doesLanes_vecF1 (f := Num.log2) hs (by omega) hF rfl
  case h_14 => exact doesLanes_vscale hs (by omega) hF rfl

/-! ## Functions that deliver bits (R86, R210, R212) -/

theorem floatBitsForm_fits {i : Instr} {s : State} {F : LaneForm} (hi : i.wf = true) (h : floatBitsForm s i = some F) : F.Fits := by
  unfold floatBitsForm at h
  split at h <;> cases h <;> simp [Instr.wf, Kind.ok, tyFloat] at hi <;>
    exact ⟨by dsimp only; omega, by dsimp only; omega, isWidth_elemWidth (by omega)⟩

/-- R86: of two elements the one chosen, a NaN giving way to a number. -/
def picked (s : State) (first : Bool) (ty a b k : Nat) : Nat :=
  if (valueOf s ty a k).isNan then (if (valueOf s ty b k).isNan then (fmtOf ty).nan else lane s (elemWidth ty) b k)
  else if (valueOf s ty b k).isNan || first then lane s (elemWidth ty) a k else lane s (elemWidth ty) b k

theorem fpick_lane (s : State) (greater : Bool) (ty a b k : Nat) :
    fpick ty greater (lane s (elemWidth ty) a k) (lane s (elemWidth ty) b k) =
      picked s (!(if greater then (valueOf s ty a k).below (valueOf s ty b k) else (valueOf s ty b k).below (valueOf s ty a k))) ty a b k := by
  have hvalue (code : Nat) : decodeTy ty (lane s (elemWidth ty) code k) = valueOf s ty code k := rfl
  rw [fpick, picked, hvalue, hvalue]
  cases (valueOf s ty a k).isNan <;> cases (valueOf s ty b k).isNan <;> cases greater <;>
    cases (valueOf s ty a k).below (valueOf s ty b k) <;> cases (valueOf s ty b k).below (valueOf s ty a k) <;> rfl

/-- R212: the class of an element. -/
def classNumber (ty : Nat) : Machine.Num → Nat
  | .nan => 8
  | .inf true => 0
  | .inf false => 7
  | .fin neg n _ _ => if n = 0 then (if neg then 3 else 4) else if n < 2 ^ (fmtOf ty).f then (if neg then 2 else 5) else if neg then 1 else 6

theorem classOf_eq (ty x : Nat) : classOf ty x = classNumber ty (decodeTy ty x) := by
  unfold classOf
  cases decodeTy ty x with
  | nan => rfl
  | inf neg => cases neg <;> rfl
  | fin => rfl

section
variable {i : Instr} {s : State} {d a b ty m : Nat} (hs : s.wf = true) (ha : 32 ≤ a)
include hs ha

theorem doesLanes_vecPick {g : Nat → Nat} (greater : Bool) (hF : (elementwise d ty m 0 [a, b] (fun k => (g k, 0))).Fits)
    (hexec : exec i s = vecPick greater d a b ty m s)
    (hg : ∀ k, picked s (!(if greater then (valueOf s ty a k).below (valueOf s ty b k) else (valueOf s ty b k).below (valueOf s ty a k)))
      ty a b k = g k) : DoesLanes (elementwise d ty m 0 [a, b] (fun k => (g k, 0))) i s :=
  doesLanes_vecOp hs hF hexec (fun k => by rw [laneOf_eq_lane ha, svLane_eq_lane, fpick_lane, hg])

/-- An operation of one operand whose bits agree below the element's width. -/
theorem doesLanes_vecBits {f : Nat → Nat × Nat} {g : Nat → Nat} (hF : (elementwise d ty m 0 [a] (fun k => (g k, 0))).Fits)
    (hexec : exec i s = vecOne f d a ty m s)
    (hf : ∀ k, (f (lane s (elemWidth ty) a k)).1 % 2 ^ elemWidth ty = g k % 2 ^ elemWidth ty ∧ (f (lane s (elemWidth ty) a k)).2 = 0) :
    DoesLanes (elementwise d ty m 0 [a] (fun k => (g k, 0))) i s := by
  refine doesLanes_of_putBelow (g := fun u => u.putLanes d (elemWidth ty) m (fun k => f (laneOf (s.vreg a) (elemWidth ty) k))) hs hF hexec rfl
    (givenBy_all rfl (fun k _ _ => ?_))
  rw [laneOf_eq_lane ha]
  exact hf k

end

theorem signOp_eq (f : Nat → Nat → Nat) (ty x : Nat) :
    signOp f ty x = (if (decodeTy ty x).isNan then (fmtOf ty).nan else f (2 ^ (elemWidth ty - 1)) x, 0) := by
  unfold signOp; split <;> rfl

theorem vectorBits : ∀ (i : Instr) (s : State) (F : LaneForm), i.wf = true → s.wf = true → floatBitsForm s i = some F → DoesLanes F i s := by
  intro i s F hi hs h
  have hF := floatBitsForm_fits hi h
  have hvalue (ty code k : Nat) : decodeTy ty (lane s (elemWidth ty) code k) = valueOf s ty code k := rfl
  unfold floatBitsForm at h
  split at h <;> cases h <;> simp only [Instr.wf, Bool.and_eq_true, Kind.ok, decide_eq_true_eq] at hi
  case h_1 d a b ty m _ =>
    exact doesLanes_vecPick (g := fun k => picked s (!((valueOf s ty b k).below (valueOf s ty a k))) ty a b k) hs (by omega) false hF rfl
      (fun _ => rfl)
  case h_2 d a b ty m _ =>
    exact doesLanes_vecPick (g := fun k => picked s (!((valueOf s ty a k).below (valueOf s ty b k))) ty a b k) hs (by omega) true hF rfl
      (fun _ => rfl)
  case h_3 d a ty m _ =>
    refine doesLanes_vecBits (f := signOp (fun top x => x % top) ty) hs (by omega) hF rfl (fun k => ?_)
    rw [signOp_eq, hvalue]
    exact ⟨rfl, rfl⟩
  case h_4 d a ty m _ =>
    refine doesLanes_vecBits (f := signOp (fun top x => (x + top) % (2 * top)) ty) hs (by omega) hF rfl (fun k => ?_)
    have htop : 2 * 2 ^ (elemWidth ty - 1) = 2 ^ elemWidth ty := by
      rw [← Nat.pow_succ', Nat.succ_eq_add_one, Nat.sub_add_cancel hF.width.pos]
    rw [signOp_eq, hvalue, htop]
    cases (valueOf s ty a k).isNan with
    | true => exact ⟨rfl, rfl⟩
    | false => exact ⟨Nat.mod_mod _ _, rfl⟩
  case h_5 d a ty m _ =>
    refine doesLanes_vecBits (f := fun x => (2 ^ classOf ty x, 0)) hs (by omega) hF rfl (fun k => ?_)
    rw [classOf_eq]
    exact ⟨rfl, rfl⟩

/-! ## Conversions (R213) -/

theorem convertForm_fits {i : Instr} {s : State} {F : LaneForm} (hi : i.wf = true) (h : convertForm s i = some F) : F.Fits := by
  unfold convertForm at h
  split at h <;> cases h <;> simp [Instr.wf, Kind.ok, cvtTdOk] at hi <;>
    exact ⟨by dsimp only; omega, by dsimp only; omega, isWidth_elemWidth (by omega)⟩

/-- The form of a conversion: each of the first n elements of D converts an element. -/
def converted (s : State) (d td m rnd ts : Nat) (ops : List Nat) (n : Nat) (src : Nat → Nat) : LaneForm :=
  { d := d, w := elemWidth td, m := m, n := n, reads := readsOf m ops, rnd := rnd,
    value := fun k => if k < n then (s.conv td ts rnd k (src k)).1 else lane s (elemWidth td) d k,
    flags := fun k => if k < n then (s.conv td ts rnd k (src k)).2 else 0 }

theorem doesLanes_putConv {i : Instr} {s : State} {d td m rnd ts n : Nat} {ops : List Nat} {src src' : Nat → Nat} {g : State → State}
    (hs : s.wf = true) (hF : (converted s d td m rnd ts ops n src).Fits) (hexec : exec i s = s.vecRun (readsOf m ops) rnd g)
    (hg : g s = s.putConv d td m n (fun k => s.conv td ts rnd k (src' k))) (hsrc : ∀ k, src' k = src k) :
    DoesLanes (converted s d td m rnd ts ops n src) i s := by
  refine doesLanes_of_putBelow hs hF hexec hg (fun k _ _ => ?_)
  simp only [converted, hsrc]
  by_cases hk : k < n <;> simp [hk]

theorem vectorConversions : ∀ (i : Instr) (s : State) (F : LaneForm), i.wf = true → s.wf = true → convertForm s i = some F →
    DoesLanes F i s := by
  intro i s F hi hs h
  have hF := convertForm_fits hi h
  unfold convertForm at h
  split at h <;> cases h <;> simp only [Instr.wf, Bool.and_eq_true, Kind.ok, decide_eq_true_eq] at hi
  case h_1 d a td m rnd ts =>
    have hmax : (if elemWidth td < elemWidth ts then elemWidth ts else elemWidth td) = max (elemWidth td) (elemWidth ts) := by
      rw [Nat.max_def]; split_ifs <;> omega
    rw [← hmax] at hF ⊢
    exact doesLanes_putConv (g := fun u => u.putConv d td m (2048 / (if elemWidth td < elemWidth ts then elemWidth ts else elemWidth td))
      (fun k => u.conv td ts rnd k (laneOf (u.vreg a) (elemWidth ts) k))) hs hF rfl rfl (fun k => laneOf_eq_lane (by omega) s _ k)
  case h_2 d a b td m rnd ts =>
    exact doesLanes_putConv (g := fun u => u.putConv d td m (2 * (2048 / elemWidth ts)) (fun k => u.conv td ts rnd k
      (if k < 2048 / elemWidth ts then laneOf (u.vreg a) (elemWidth ts) k else laneOf (u.vreg b) (elemWidth ts) (k - 2048 / elemWidth ts))))
      hs hF rfl rfl
      (fun k => by rw [laneOf_eq_lane (show 32 ≤ a by omega), laneOf_eq_lane (show 32 ≤ b by omega)])
  case h_3 d a td m rnd ts h =>
    exact doesLanes_putConv (g := fun u => u.putConv d td m (2048 / elemWidth td)
      (fun k => u.conv td ts rnd k (laneOf (u.vreg a) (elemWidth ts) (k + h * (2048 / elemWidth td))))) hs hF rfl rfl
      (fun k => laneOf_eq_lane (by omega) s _ _)

/-- Settles O30: a value rounded once, the bits the rule names, or a conversion. -/
theorem vectorFloat : Obligations.VectorFloat := by
  rintro i s F hi hs (h | h | h)
  · exact vectorArithmetic i s F hi hs h
  · exact vectorBits i s F hi hs h
  · exact vectorConversions i s F hi hs h

end Sys2Proof.Claims
end

section
/-! PROOFS. Vector element moves (R218). -/

namespace Sys2Proof.Claims

open Sys2Proof.Machine

/-! ## Element moves (R218) -/

/-- A register written by an instruction that raises no flag. -/
theorem CoreIs.writtenV {s u : State} {d : Nat} {whole : Bool} {x : VReg} (h : CoreIs s u (s.core.putV d whole x)) :
    CoreIs s u.advance (vectorCore s d whole x 0 0).advance := by
  rw [vectorCore_noFlags, ← Core.putV_eq]
  exact h.advance

theorem lanesWritten_putV {F : LaneForm} {s : State} {x : VReg} {whole : Bool} (hs : s.wf = true) (hF : F.Fits) (hflags : ∀ k, F.flags k = 0)
    (hrnd : F.rnd = 0) (hx : ∀ k, k < 2048 / F.w → laneOf x F.w k = if F.on s k then F.value k % 2 ^ F.w else lane s F.w F.d k)
    (hwhole : whole = (List.range (2048 / F.w)).all (fun k => F.on s k && decide (k < F.n))) :
    LanesWritten F s (s.mapCore (fun c => c.putV F.d whole x)).advance := by
  refine lanesWritten_of_core hF.low hF.high ?_ hx hwhole
  rw [raised_of_flagless hflags, hrnd]
  exact ((CoreIs.refl hs).mapCore _).writtenV

/-- An instruction that writes D once and raises no flag. -/
theorem doesLanes_of_putV {F : LaneForm} {i : Instr} {s : State} {g : State → State} {x : VReg} {whole : Bool} (hs : s.wf = true) (hF : F.Fits)
    (hflags : ∀ k, F.flags k = 0) (hrnd : F.rnd = 0) (hexec : exec i s = s.vecRun F.reads 0 g)
    (hg : g s = s.mapCore (fun c => c.putV F.d whole x))
    (hx : ∀ k, k < 2048 / F.w → laneOf x F.w k = if F.on s k then F.value k % 2 ^ F.w else lane s F.w F.d k)
    (hwhole : whole = (List.range (2048 / F.w)).all (fun k => F.on s k && decide (k < F.n))) : DoesLanes F i s := by
  refine ⟨fun hread => ⟨_, hexec.trans (vecRun_readable hread _ _), ?_⟩, fun c hc => hexec.trans (vecRun_unreadable hc _ _)⟩
  rw [hg]
  exact lanesWritten_putV hs hF hflags hrnd hx hwhole

theorem moveForm_fits {i : Instr} {s : State} {F : LaneForm} (hi : i.wf = true) (h : moveForm s i = some F) : F.Fits := by
  unfold moveForm at h
  split at h <;> cases h <;> simp [Instr.wf, Kind.ok, tyByteUp, tyAll] at hi <;>
    exact ⟨by dsimp only; omega, by dsimp only; omega, isWidth_elemWidth (by omega)⟩

/-- m0 makes every element active (R140). -/
theorem on_m0 {F : LaneForm} (h : F.m = 0) (hw : IsWidth F.w) (s : State) {k : Nat} (hk : k < 2048 / F.w) : F.on s k = true := by
  have hones : s.mreg F.m = BitVec.allOnes 128 := if_pos h
  rw [LaneForm.on, hones, BitVec.getLsbD_allOnes, decide_eq_true (hw.governs_lt hk)]

/-- R218: the form of `vins`: D keeps every element but one. -/
def inserted (s : State) (d a b ty m j : Nat) : LaneForm :=
  { d := d, w := elemWidth ty, m := m, n := 1, reads := readsOf m [],
    value := fun k => if k = ((s.sreg b).toNat + j) % elems ty then lane s (elemWidth ty) a 0 else lane s (elemWidth ty) d k }

/-- A form of one element at most leaves D written in part. -/
theorem written_in_part {F : LaneForm} {s : State} (hw : IsWidth F.w) (hn : F.n = 1) :
    false = (List.range (2048 / F.w)).all (fun k => F.on s k && decide (k < F.n)) := by
  refine (List.all_eq_false.2 ⟨1, List.mem_range.2 ?_, by simp [hn]⟩).symm
  obtain h | h | h | h := hw.cases <;> rw [h] <;> decide

theorem doesLanes_vins {i : Instr} {s : State} {d a b ty m j : Nat} (hs : s.wf = true) (ha : a < 32) (hF : (inserted s d a b ty m j).Fits)
    (hexec : exec i s = execVins d a b ty m j s) : DoesLanes (inserted s d a b ty m j) i s := by
  refine doesLanes_of_putV (whole := false) (g := fun u => u.mapCore (fun c => c.putV d false (BitVec.ofNat 2048 (packElems (elemWidth ty)
      ((List.range (2048 / elemWidth ty)).map (fun k => if (k == s.laneIndex b ty j && active (u.mreg m) (elemWidth ty) k) = true then
        (u.sreg a).toNat % 2 ^ elemWidth ty else laneOf (u.vreg d) (elemWidth ty) k))))))
    hs hF (fun _ => rfl) rfl hexec rfl (fun k hk => ?_) (written_in_part hF.width rfl)
  have hsreg : (s.sreg a).toNat % 2 ^ elemWidth ty = lane s (elemWidth ty) a 0 := (if_pos ha).symm
  have hon : (inserted s d a b ty m j).on s k = active (s.mreg m) (elemWidth ty) k := rfl
  have hindex : ((s.sreg b).toNat + j) % elems ty = s.laneIndex b ty j := rfl
  have h32 : 32 ≤ d := hF.low
  have hwidth : IsWidth (elemWidth ty) := hF.width
  rw [hon]
  simp only [inserted, hindex] at hk ⊢
  rw [laneOf_packElems hwidth hk, List.getElem?_map, List.getElem?_range hk, Option.map_some, Option.getD_some, laneOf_eq_lane h32, hsreg]
  cases active (s.mreg m) (elemWidth ty) k <;> by_cases hj : k = s.laneIndex b ty j <;> simp [hj, lane_mod]

/-- R218: the elements of A that a mask selects, in order. -/
def selected (s : State) (a ty m : Nat) : List Nat :=
  ((List.range (elems ty)).filter (fun e => (s.mreg m).getLsbD (governs (elemWidth ty) e))).map (lane s (elemWidth ty) a)

/-- R218: the form of `vcompress`. -/
def compressed (s : State) (d a ty m : Nat) : LaneForm :=
  { d := d, w := elemWidth ty, m := 0, reads := readsOf m [a], value := fun k => ((selected s a ty m)[k]?).getD 0 }

/-- A form under m0 writes D whole. -/
theorem written_whole {F : LaneForm} (hm : F.m = 0) (hn : F.n = 2048 / F.w) (hw : IsWidth F.w) (s : State) :
    true = (List.range (2048 / F.w)).all (fun k => F.on s k && decide (k < F.n)) := by
  refine (List.all_eq_true.2 (fun k hk => ?_)).symm
  have hk := List.mem_range.1 hk
  rw [on_m0 hm hw s hk, decide_eq_true (hn ▸ hk), Bool.and_self]

theorem doesLanes_vcompress {i : Instr} {s : State} {d a ty m : Nat} (hs : s.wf = true) (ha : 32 ≤ a) (hF : (compressed s d a ty m).Fits)
    (hexec : exec i s = execVcompress d a ty m s) : DoesLanes (compressed s d a ty m) i s := by
  have hlist : (activeList (s.mreg m) (elemWidth ty)).map (laneOf (s.vreg a) (elemWidth ty)) = selected s a ty m := by
    rw [selected, elems_eq hF.width]
    exact List.map_congr_left (fun k _ => laneOf_eq_lane ha s _ k)
  refine doesLanes_of_putV (whole := true) (x := BitVec.ofNat 2048 (packElems (elemWidth ty) (selected s a ty m)))
    (g := fun u => u.setV d (BitVec.ofNat 2048 (packElems (elemWidth ty) ((activeList (u.mreg m) (elemWidth ty)).map
      (laneOf (u.vreg a) (elemWidth ty)))))) hs hF (fun _ => rfl) rfl hexec ?_ (fun k hk => ?_) (written_whole rfl rfl hF.width s)
  · rw [← hlist]; rfl
  · rw [on_m0 rfl hF.width s hk, if_pos rfl]
    exact laneOf_packElems hF.width hk _

theorem vectorElementMoves : ∀ (i : Instr) (s : State) (F : LaneForm), i.wf = true → s.wf = true → moveForm s i = some F → DoesLanes F i s := by
  intro i s F hi hs h
  have hF := moveForm_fits hi h
  unfold moveForm at h
  split at h <;> cases h <;> simp only [Instr.wf, Bool.and_eq_true, Kind.ok, decide_eq_true_eq] at hi
  case h_1 d a b ty m =>
    exact doesLanes_vecOp (f := fun k => (laneOf (s.vreg a) (elemWidth ty) (s.svLane b (elemWidth ty) k % elems ty), 0))
      (g := fun k => (lane s (elemWidth ty) a (lane s (elemWidth ty) b k % elems ty), 0)) hs hF rfl
      (fun k => by rw [laneOf_eq_lane (show 32 ≤ a by omega), svLane_eq_lane])
  case h_2 d a ty m j =>
    exact doesLanes_vecOp (f := fun _ => (s.svLane a (elemWidth ty) j, 0)) (g := fun _ => (lane s (elemWidth ty) a j, 0)) hs hF rfl
      (fun _ => rfl)
  case h_3 d a b ty m j => exact doesLanes_vins hs (show a < 32 by omega) hF rfl
  case h_4 d a b ty m j =>
    exact doesLanes_vecOp (f := fun k => (if k + j < elems ty then laneOf (s.vreg a) (elemWidth ty) (k + j)
        else laneOf (s.vreg b) (elemWidth ty) (k + j - elems ty), 0))
      (g := fun k => (if k + j < elems ty then lane s (elemWidth ty) a (k + j) else lane s (elemWidth ty) b (k + j - elems ty), 0)) hs hF rfl
      (fun k => by rw [laneOf_eq_lane (show 32 ≤ a by omega), laneOf_eq_lane (show 32 ≤ b by omega)])
  case h_5 d a b ty m =>
    refine doesLanes_of_putBelow (g := fun u => u.putLanes d (elemWidth ty) 0 (fun k =>
      (if active (u.mreg m) (elemWidth ty) k then laneOf (u.vreg a) (elemWidth ty) k else u.svLane b (elemWidth ty) k, 0))) hs hF rfl rfl
      (givenBy_all rfl (fun k _ _ => ?_))
    rw [laneOf_eq_lane (show 32 ≤ a by omega)]
    exact ⟨rfl, rfl⟩
  case h_6 d a ty m =>
    exact doesLanes_vecOp (f := fun k => (laneOf (s.vreg a) (elemWidth ty) k, 0)) (g := fun k => (lane s (elemWidth ty) a k, 0)) hs hF rfl
      (fun k => by rw [laneOf_eq_lane (show 32 ≤ a by omega)])
  case h_7 d a ty m => exact doesLanes_vcompress hs (show 32 ≤ a by omega) hF rfl

/-- R218: an element of a type in an s register, extended by its signedness. -/
theorem extended_lane (s : State) (ty code k : Nat) :
    (if isSignedTy ty then sxWord (elemWidth ty) (lane s (elemWidth ty) code k) else word (lane s (elemWidth ty) code k)) =
      exact (element s ty code k) := by
  simp only [element, isSignedTy_iff, sxWord_eq_exact, ← exact_natCast]
  split <;> rfl

/-- Settles O32: each move gives the elements it names; `vext` gives one to an s register. -/
theorem vectorMoves : Obligations.VectorMoves := by
  refine ⟨vectorElementMoves, fun s d a b ty j hi hs hbad => ?_⟩
  simp only [Instr.wf, Bool.and_eq_true, Kind.ok, decide_eq_true_eq] at hi
  have hread : ∀ c ∈ [a], s.core.badReg.contains c = false := fun c hc => (List.mem_singleton.1 hc) ▸ hbad
  have hrun : exec (.vext d a b ty j) s = s.vecRun [a] 0 (fun u => u.setS d (let x := laneOf (u.vreg a) (elemWidth ty) (u.laneIndex b ty j)
      if isSignedTy ty then sxWord (elemWidth ty) x else word x)) := rfl
  refine ⟨_, hrun.trans (vecRun_readable hread _ _), ?_⟩
  rw [laneOf_eq_lane (show 32 ≤ a by omega)]
  simp only [extended_lane]
  exact writesS_putS hs (by omega) _

end Sys2Proof.Claims
end

section
/-! PROOFS. Reductions and scans (R93, R94, R219, R220). -/

namespace Sys2Proof.Claims

open Sys2Proof.Machine

/-! ## The tree of a reduction (R93) -/

theorem tree_succ (f : Nat → Nat → Nat × Nat) (n : Nat) (l : List (Option (Nat × Nat))) :
    tree f (n + 1) l = joinNode f (tree f n (l.take (2 ^ n))) (tree f n (l.drop (2 ^ n))) := by
  rw [tree]
  cases tree f n (l.take (2 ^ n)) with
  | none => rfl
  | some x => cases tree f n (l.drop (2 ^ n)) <;> rfl

theorem treeLevel_take (f : Nat → Nat → Nat × Nat) (m : Nat) : ∀ l, (treeLevel f l).take m = treeLevel f (l.take (2 * m)) := by
  induction m with
  | zero => intro l; rfl
  | succ m ih =>
    intro l
    match l with
    | [] => rfl
    | [x] => simp [treeLevel, Nat.mul_succ]
    | x :: y :: l => exact congrArg (joinNode f x y :: ·) (ih l)

theorem treeLevel_drop (f : Nat → Nat → Nat × Nat) (m : Nat) : ∀ l, (treeLevel f l).drop m = treeLevel f (l.drop (2 * m)) := by
  induction m with
  | zero => intro l; rfl
  | succ m ih =>
    intro l
    match l with
    | [] => simp [treeLevel]
    | [x] => simp [treeLevel, Nat.mul_succ]
    | x :: y :: l => exact ih l

theorem treeLevel_length (f : Nat → Nat → Nat × Nat) (m : Nat) : ∀ l, l.length = 2 * m → (treeLevel f l).length = m := by
  induction m with
  | zero => intro l h; rw [List.length_eq_zero_iff.1 h]; rfl
  | succ m ih =>
    intro l h
    match l, h with
    | x :: y :: l, h =>
      simp only [List.length_cons] at h
      rw [treeLevel, List.length_cons, ih l (by omega)]

/-- The levels from the leaves up build the two halves apart, and join them at the root. -/
theorem treeOf_succ (f : Nat → Nat → Nat × Nat) (n : Nat) : ∀ l, l.length = 2 ^ (n + 1) →
    treeOf f (n + 1) l = joinNode f (treeOf f n (l.take (2 ^ n))) (treeOf f n (l.drop (2 ^ n))) := by
  induction n with
  | zero =>
    intro l h
    match l, h with
    | [x, y], _ => rfl
  | succ n ih =>
    intro l h
    have hhalf : (treeLevel f l).length = 2 ^ (n + 1) := treeLevel_length f _ l (by rw [h, pow_succ, Nat.mul_comm])
    rw [treeOf, ih _ hhalf, treeLevel_take, treeLevel_drop, ← pow_succ']
    rfl

theorem treeOf_eq_tree (f : Nat → Nat → Nat × Nat) (n : Nat) : ∀ l, l.length = 2 ^ n → treeOf f n l = tree f n l := by
  induction n with
  | zero => intro l _; rfl
  | succ n ih =>
    intro l h
    have hdouble : 2 ^ (n + 1) = 2 ^ n + 2 ^ n := by rw [pow_succ]; omega
    rw [treeOf_succ f n l h, tree_succ, ih _ (by rw [List.length_take]; omega), ih _ (by rw [List.length_drop]; omega)]

/-! ## Reductions (R219) -/

theorem activeElements_eq {s : State} {ty a m : Nat} (ha : 32 ≤ a) (hw : IsWidth (elemWidth ty)) :
    (activeList (s.mreg m) (elemWidth ty)).map (fun k => intOf ty (laneOf (s.vreg a) (elemWidth ty) k)) = activeElements s ty a m := by
  rw [activeElements, elems_eq hw]
  exact List.map_congr_left (fun k _ => by rw [laneOf_eq_lane ha, intOf_lane])

/-- An integer reduction gives D an exact function of the active elements. -/
theorem vecRed_writes {s : State} {d a ty m : Nat} (hs : s.wf = true) (hd : d < 32) (ha : 32 ≤ a) (hty : ty ≤ 13)
    (hread : ∀ c ∈ readsOf m [a], s.core.badReg.contains c = false) (f : List Int → Int) :
    ∃ t, vecRed f d a ty m s = .next t ∧ WritesS s t d (exact (f (activeElements s ty a m))) := by
  rw [vecRed, vecRun_readable hread]
  refine ⟨_, rfl, ?_⟩
  rw [activeElements_eq ha (isWidth_elemWidth hty)]
  exact writesS_putS hs hd _

theorem WritesSF.of_core {s t : State} {d : Nat} {x : Word} {fl : Nat} (hd : d < 32) (h : CoreIs s t (Core.advance
    { s.core with s := (s.core.setS d x).s, fstat := if s.cur < 2048 then s.core.fstat ||| exact (fl % 128 : Nat) else s.core.fstat })) :
    WritesSF s t d x fl := by
  have hcore := h.core
  rw [Core.advance_scalar] at hcore
  have hsreg (n : Nat) : t.sreg n = (s.core.setS d x).sreg n := by rw [State.sreg, hcore]; rfl
  exact {
    value := by rw [hsreg, Core.sreg_setS _ hd]
    others := fun n hn => by rw [hsreg, Core.sreg_setS_ne _ _ hn]; rfl
    fstat := by rw [hcore]
    rest := by rw [hcore]
    frame := h.frame }

/-- An s register written with the flags of an instruction that ends. -/
theorem writesSF_raise {s : State} (hs : s.wf = true) {d : Nat} (hd : d < 32) (x : Word) (fl : Nat) :
    WritesSF s ((s.setS d x).raise fl).advance d x fl := by
  refine .of_core hd ?_
  have h := ((CoreIs.refl hs).mapCore (fun c => c.setS d x)).raise fl
  rw [Core.setS_eq] at h
  exact h.advance

/-- The same where the instruction raises no flag. -/
theorem writesSF_quiet {s : State} (hs : s.wf = true) {d : Nat} (hd : d < 32) (x : Word) : WritesSF s (s.setS d x).advance d x 0 := by
  refine .of_core hd ?_
  have h := (CoreIs.refl hs).mapCore (fun c => c.setS d x)
  have hquiet : (if s.cur < 2048 then s.core.fstat ||| exact ((0 % 128 : Nat) : Int) else s.core.fstat) = s.core.fstat := by
    split <;> simp [exact]
  rw [Core.setS_eq] at h
  rw [hquiet]
  exact h.advance

theorem leaves_eq {s : State} {ty a m : Nat} (ha : 32 ≤ a) : (List.range (elems ty)).map (fun k =>
    if active (s.mreg m) (elemWidth ty) k then some (toF32 ty (laneOf (s.vreg a) (elemWidth ty) k), 0) else none) = leaves s ty a m :=
  List.map_congr_left (fun k _ => by rw [laneOf_eq_lane ha]; rfl)

/-- R93: the result of a floating reduction and its flags. -/
def floatReduction (s : State) (op a ty m rnd : Nat) : Nat × Nat :=
  (tree (f32Node op rnd) (Nat.log2 (elems ty)) (leaves s ty a m)).getD (f32Identity op, 0)

theorem vecFred_writes {s : State} {d a ty m rnd : Nat} (hs : s.wf = true) (hd : d < 32) (ha : 32 ≤ a) (hty : tyFloat.contains ty = true)
    (hread : ∀ c ∈ readsOf m [a], s.core.badReg.contains c = false) (op : Nat) :
    ∃ t, vecFred op d a ty m rnd s = .next t ∧
      WritesSF s t d (exact (floatReduction s op a ty m rnd).1) (floatReduction s op a ty m rnd).2 := by
  have hlen : (leaves s ty a m).length = 2 ^ Nat.log2 (elems ty) := by
    have hpow : ∀ t ∈ tyFloat, elems t = 2 ^ Nat.log2 (elems t) := by decide
    rw [leaves, List.length_map, List.length_range]
    exact hpow ty (List.contains_iff_mem.1 hty)
  rw [vecFred, vecRun_readable hread]
  refine ⟨_, rfl, ?_⟩
  simp only [leaves_eq ha, treeOf_eq_tree _ _ _ hlen, floatReduction]
  cases tree (f32Node op rnd) (Nat.log2 (elems ty)) (leaves s ty a m) with
  | none => rw [Option.getD_none, exact_natCast]; exact writesSF_quiet hs hd _
  | some y => rw [Option.getD_some, exact_natCast]; exact writesSF_raise hs hd _ _

theorem reductions (s : State) (d a ty m rnd : Nat) (hs : s.wf = true) (hd : d < 32)
    (hread : ∀ c ∈ readsOf m [a], s.core.badReg.contains c = false) :
    ((Instr.vredsum d a ty m rnd).wf = true →
      ∃ t, exec (.vredsum d a ty m rnd) s = .next t ∧ WritesS s t d (exact (activeElements s ty a m).sum)) ∧
    ((Instr.vredmax d a ty m rnd).wf = true →
      ∃ t, exec (.vredmax d a ty m rnd) s = .next t ∧ WritesS s t d (exact ((activeElements s ty a m).foldl max (least ty)))) ∧
    ((Instr.vredmin d a ty m rnd).wf = true →
      ∃ t, exec (.vredmin d a ty m rnd) s = .next t ∧ WritesS s t d (exact ((activeElements s ty a m).foldl min (greatest ty)))) := by
  refine ⟨fun hi => ?_, fun hi => ?_, fun hi => ?_⟩ <;> simp [Instr.wf, Kind.ok, tyInt] at hi
  · exact vecRed_writes hs hd (by omega) (by omega) hread List.sum
  · rw [← intLo_eq_least]
    exact vecRed_writes hs hd (by omega) (by omega) hread (fun l => l.foldl max (intLo ty))
  · rw [← intHi_eq_greatest]
    exact vecRed_writes hs hd (by omega) (by omega) hread (fun l => l.foldl min (intHi ty))

/-! ## Scans (R94, R220) -/

/-- The value at an active element is the combination of the active ones up to it. -/
theorem scanFrom_active (f : Nat → Nat → Nat × Nat) (l : List (Bool × Nat)) : ∀ (k t fl : Nat), (l[k]?.map Prod.fst) = some true →
    (scanFrom f t l)[k]? = some (((l.take (k + 1)).filter Prod.fst).foldl (fun r e => f r.1 e.2) (t, fl)) := by
  induction l with
  | nil => intro k t fl h; simp at h
  | cons e l ih =>
    obtain ⟨b, x⟩ := e
    intro k t fl h
    cases k with
    | zero =>
      obtain rfl : b = true := by simpa using h
      simp [scanFrom]
    | succ k =>
      cases b with
      | false => exact ih k t fl h
      | true => exact ih k (f t x).1 (f t x).2 h

/-- Two folds agree where they agree on the values that they reach. -/
theorem foldl_congr_of_inv {α β : Type} (p : α → Prop) {f g : α → β → α} (l : List β) : ∀ {a : α}, p a →
    (∀ x, p x → ∀ y ∈ l, f x y = g x y ∧ p (g x y)) → l.foldl f a = l.foldl g a := by
  induction l with
  | nil => intros; rfl
  | cons y l ih =>
    intro a ha h
    obtain ⟨heq, hp⟩ := h a ha y List.mem_cons_self
    rw [List.foldl_cons, List.foldl_cons, heq]
    exact ih hp (fun x hx z hz => h x hx z (List.mem_cons_of_mem y hz))

/-- R220: the form of a scan. -/
def scanned (s : State) (d a ty m : Nat) (f : Nat → Nat → Nat × Nat) (identity : Nat) : LaneForm :=
  elementwise d ty m 0 [a] (scanTo s ty a m f identity)

theorem scanFrom_eq_scanTo {s : State} {a ty m k : Nat} (ha : 32 ≤ a) (hw : IsWidth (elemWidth ty)) (hk : k < 2048 / elemWidth ty)
    (hon : active (s.mreg m) (elemWidth ty) k = true) (f : Nat → Nat → Nat × Nat) (identity : Nat) :
    (scanFrom f identity ((List.range (elems ty)).map (fun k => (active (s.mreg m) (elemWidth ty) k, laneOf (s.vreg a) (elemWidth ty) k))))[k]? =
      some (scanTo s ty a m f identity k) := by
  have hactive : (((List.range (elems ty)).map (fun k => (active (s.mreg m) (elemWidth ty) k, laneOf (s.vreg a) (elemWidth ty) k)))[k]?.map
      Prod.fst) = some true := by
    rw [elems_eq hw, List.getElem?_map, List.getElem?_range hk, Option.map_some, Option.map_some, hon]
  rw [scanFrom_active f _ k identity 0 hactive, elems_eq hw, ← List.map_take, List.take_range, Nat.min_eq_left (by omega), List.filter_map,
    List.foldl_map]
  simp only [laneOf_eq_lane ha]
  rfl

theorem doesLanes_vecScan {i : Instr} {s : State} {d a ty m identity : Nat} {f g : Nat → Nat → Nat × Nat} (hs : s.wf = true) (ha : 32 ≤ a)
    (hF : (scanned s d a ty m g identity).Fits) (hexec : exec i s = vecScan f identity d a ty m s)
    (hfg : ∀ k, scanTo s ty a m f identity k = scanTo s ty a m g identity k) : DoesLanes (scanned s d a ty m g identity) i s := by
  refine doesLanes_of_putBelow (g := fun u => u.putLanes d (elemWidth ty) m (fun k => (scanFrom f identity ((List.range (elems ty)).map
    (fun k => (active (s.mreg m) (elemWidth ty) k, laneOf (s.vreg a) (elemWidth ty) k))))[k]?.getD (0, 0))) hs hF hexec rfl
    (givenBy_all rfl (fun k hk hon => ?_))
  have hbelow : k < 2048 / elemWidth ty := hk
  have hactive : active (s.mreg m) (elemWidth ty) k = true := hon
  rw [scanFrom_eq_scanTo ha hF.width hbelow hactive, Option.getD_some, hfg]
  exact ⟨rfl, rfl⟩

theorem modulo_intOf (ty x : Nat) (h : x < 2 ^ elemWidth ty) : modulo (elemWidth ty) (intOf ty x) = x := by
  have hx : ((x : Int) % (2 ^ elemWidth ty : Nat)).toNat = x := by rw [← Int.natCast_mod, Int.toNat_natCast, Nat.mod_eq_of_lt h]
  unfold modulo intOf signed
  rw [Nat.mod_eq_of_lt h]
  split_ifs
  · exact hx
  · rw [Int.sub_emod_right]; exact hx
  · exact hx

/-- A step of an integer scan that gives one of two elements, each below 2^w. -/
theorem scanTo_congr {s : State} {a ty m : Nat} {f g : Nat → Nat → Nat × Nat} {identity : Nat} (hid : identity < 2 ^ elemWidth ty)
    (h : ∀ x y, x < 2 ^ elemWidth ty → y < 2 ^ elemWidth ty → f x y = g x y ∧ (g x y).1 < 2 ^ elemWidth ty) (k : Nat) :
    scanTo s ty a m f identity k = scanTo s ty a m g identity k :=
  foldl_congr_of_inv (fun r => r.1 < 2 ^ elemWidth ty) _ hid (fun r hr e _ => h r.1 _ hr (lane_lt s _ a e))

theorem modulo_lt (w : Nat) (n : Int) : modulo w n < 2 ^ w := by
  have h := Int.emod_lt_of_pos n (show (0 : Int) < (2 ^ w : Nat) by positivity)
  unfold modulo
  omega

theorem scanForm_fits {i : Instr} {s : State} {F : LaneForm} (hi : i.wf = true) (h : scanForm s i = some F) : F.Fits := by
  unfold scanForm at h
  split at h
  case h_1 =>
    simp [Instr.wf, Kind.ok, tyInt] at hi
    dsimp only at h
    split_ifs at h <;> cases h <;> exact ⟨by dsimp only; omega, by dsimp only; omega, isWidth_elemWidth (by omega)⟩
  case h_2 =>
    simp [Instr.wf, Kind.ok, tyF32] at hi
    cases h
    exact ⟨by dsimp only; omega, by dsimp only; omega, isWidth_elemWidth (by omega)⟩
  case h_3 => cases h

theorem intOf_eq_sx (ty x : Nat) :
    intOf ty x = if ty = 0 ∨ ty = 1 ∨ ty = 3 ∨ ty = 5 then sx (elemWidth ty) x else (x % 2 ^ elemWidth ty : Nat) := by
  simp only [intOf, isSignedTy_iff, signed_eq_sx]

/-- The greater of two elements is one of them. -/
theorem modulo_max_intOf {ty x y : Nat} (hx : x < 2 ^ elemWidth ty) (hy : y < 2 ^ elemWidth ty) :
    modulo (elemWidth ty) (max (intOf ty x) (intOf ty y)) = if intOf ty x < intOf ty y then y else x := by
  rw [max_def_lt, apply_ite (modulo (elemWidth ty)), modulo_intOf ty x hx, modulo_intOf ty y hy]

/-- The least of two elements is one of them. -/
theorem modulo_min_intOf {ty x y : Nat} (hx : x < 2 ^ elemWidth ty) (hy : y < 2 ^ elemWidth ty) :
    modulo (elemWidth ty) (min (intOf ty x) (intOf ty y)) = if intOf ty y < intOf ty x then y else x := by
  rw [min_comm, min_def_lt, apply_ite (modulo (elemWidth ty)), modulo_intOf ty x hx, modulo_intOf ty y hy]

theorem vectorScans : ∀ (i : Instr) (s : State) (F : LaneForm), i.wf = true → s.wf = true → scanForm s i = some F → DoesLanes F i s := by
  intro i s F hi hs h
  have hF := scanForm_fits hi h
  unfold scanForm at h
  split at h
  case h_1 d a ty m rnd op =>
    simp only [Instr.wf, Bool.and_eq_true, Kind.ok, decide_eq_true_eq] at hi
    have ha : 32 ≤ a := by omega
    simp only [← intOf_eq_sx, ← intLo_eq_least, ← intHi_eq_greatest] at h
    split_ifs at h with hsum hmax <;> cases h
    · refine doesLanes_vecScan (f := intCombine op ty) hs ha hF ?_
        (scanTo_congr (by positivity) fun x y _ _ => ⟨?_, Nat.mod_lt _ (by positivity)⟩)
      · rw [exec, execVscan, intIdentity, if_pos hsum]
      · rw [intCombine, if_pos hsum]
    · refine doesLanes_vecScan (f := intCombine op ty) hs ha hF ?_ (scanTo_congr (modulo_lt _ _) fun x y hx hy => ⟨?_, modulo_lt _ _⟩)
      · rw [exec, execVscan, intIdentity, if_neg hsum, if_pos hmax, intBits_eq_modulo]
      · rw [intCombine, if_neg hsum, if_pos hmax, modulo_max_intOf hx hy]
    · refine doesLanes_vecScan (f := intCombine op ty) hs ha hF ?_ (scanTo_congr (modulo_lt _ _) fun x y hx hy => ⟨?_, modulo_lt _ _⟩)
      · rw [exec, execVscan, intIdentity, if_neg hsum, if_neg hmax, intBits_eq_modulo]
      · rw [intCombine, if_neg hsum, if_neg hmax, modulo_min_intOf hx hy]
  case h_2 d a ty m rnd op =>
    simp only [Instr.wf, Bool.and_eq_true, Kind.ok, decide_eq_true_eq] at hi
    cases h
    exact doesLanes_vecScan (f := f32Node op rnd) hs (show 32 ≤ a by omega) hF rfl (fun _ => rfl)
  case h_3 => cases h

/-- Settles O33: the levels of R93 are the tree's halves, and a scan is one fold over the active elements. -/
theorem vectorReductions : Obligations.VectorReductions := by
  refine ⟨fun s d a ty m rnd hs hd hread => ?_, vectorScans⟩
  obtain ⟨hsum, hmax, hmin⟩ := reductions s d a ty m rnd hs hd hread
  refine ⟨hsum, hmax, hmin, fun hi => ?_, fun hi => ?_, fun hi => ?_⟩ <;>
    simp only [Instr.wf, Bool.and_eq_true, Kind.ok, decide_eq_true_eq] at hi <;>
    obtain ⟨⟨⟨⟨⟨⟨-, ha, -⟩, -⟩, -⟩, -⟩, hty⟩, -⟩ := hi
  · exact vecFred_writes hs hd ha hty hread 0
  · exact vecFred_writes hs hd ha hty hread 1
  · exact vecFred_writes hs hd ha hty hread 2

end Sys2Proof.Claims
end

section
/-! PROOFS. Vector compares (R216) and mask functions (R217). -/

namespace Sys2Proof.Claims

open Sys2Proof.Machine

/-! ## Mask registers (R140) -/

theorem Core.mreg_setM (c : Core) {n : Nat} (hn : n < 8) (x : MReg) : (c.setM n x).mreg n = if n = 0 then BitVec.allOnes 128 else x := by
  by_cases h : n = 0 <;> simp [Core.setM, Core.mreg, h, hn]

theorem Core.mreg_setM_ne (c : Core) {n k : Nat} (x : MReg) (h : k ≠ n) : (c.setM n x).mreg k = c.mreg k := by
  by_cases hn : n = 0
  · simp [Core.setM, hn]
  · by_cases hk : k = 0
    · simp [Core.mreg, hk]
    · simp [Core.setM, Core.mreg, hn, hk, Vector.getElem?_setIfInBounds_ne (Ne.symm h)]

theorem Core.setM_eq (c : Core) (d : Nat) (x : MReg) :
    c.setM d x = { c with m := (c.setM d x).m, badReg := if d = 0 then c.badReg else c.badReg.filter (· ≠ 64 + d) } := by
  by_cases h : d = 0 <;> simp [Core.setM, h]

/-! ## Bits of a mask replaced (R202) -/

theorem land_parity (x m : Nat) : (x &&& m) % 2 = if x % 2 = 1 ∧ m % 2 = 1 then 1 else 0 := by
  have hlow : (x &&& m) % 2 = x % 2 &&& m % 2 := Nat.and_mod_two_pow (n := 1)
  rw [hlow]
  obtain hx | hx := Nat.mod_two_eq_zero_or_one x <;> obtain hm | hm := Nat.mod_two_eq_zero_or_one m <;> rw [hx, hm] <;> rfl

/-- Bits taken out of a number by subtraction. -/
theorem testBit_sub_land (j : Nat) : ∀ x m : Nat, (x - (x &&& m)).testBit j = (x.testBit j && !m.testBit j) := by
  induction j with
  | zero =>
    intro x m
    have hparity := land_parity x m
    have hle : x &&& m ≤ x := Nat.and_le_left
    simp only [Nat.testBit_zero, ← decide_not, ← Bool.decide_and]
    refine decide_eq_decide.2 ?_
    split at hparity <;> omega
  | succ j ih =>
    intro x m
    have hhalf : (x - (x &&& m)) / 2 = x / 2 - (x / 2 &&& m / 2) := by
      have hparity := land_parity x m
      have hle : x &&& m ≤ x := Nat.and_le_left
      rw [← Nat.and_div_two]
      split at hparity <;> omega
    rw [Nat.testBit_succ, hhalf, ih, ← Nat.testBit_succ, ← Nat.testBit_succ]

/-- The element whose mask bit j is. -/
def maskElement (w j : Nat) : Nat := if w = 32 then j / 2 else j

theorem testBit_setMaskBits {w : Nat} (hw : w = 16 ∨ w = 32) (k : Nat) (b : Bool) (x j : Nat) :
    (setMaskBits w k b x).testBit j = if maskElement w j = k then b else x.testBit j := by
  have hfield : ((2 ^ (if w = 32 then 2 else 1) - 1) * 2 ^ (if w = 32 then 2 * k else k)).testBit j = decide (maskElement w j = k) := by
    rw [Nat.testBit_mul_two_pow, Nat.testBit_two_pow_sub_one, ← Bool.decide_and]
    refine decide_eq_decide.2 ?_
    unfold maskElement
    obtain rfl | rfl := hw <;> simp <;> omega
  have hmerge (v m : Nat) : (mergeBits x v m).testBit j = (x.testBit j && !m.testBit j || v.testBit j && m.testBit j) := by
    change (x - (x &&& m) ||| (v &&& m)).testBit j = _
    rw [Nat.testBit_or, testBit_sub_land, Nat.testBit_and]
  rw [setMaskBits, hmerge, hfield, apply_ite (Nat.testBit · j), hfield, Nat.zero_testBit]
  by_cases hk : maskElement w j = k <;> cases b <;> simp [hk]

theorem testBit_foldl_setMaskBits {w : Nat} (hw : w = 16 ∨ w = 32) (f : Nat → Bool) (j : Nat) (l : List Nat) : ∀ x : Nat,
    (l.foldl (fun acc k => setMaskBits w k (f k) acc) x).testBit j = if maskElement w j ∈ l then f (maskElement w j) else x.testBit j := by
  induction l with
  | nil => intro x; rfl
  | cons k l ih =>
    intro x
    rw [List.foldl_cons, ih, testBit_setMaskBits hw]
    by_cases hl : maskElement w j ∈ l <;> by_cases hk : maskElement w j = k <;> simp [hl, hk]

/-! ## Compares (R216) -/

/-- R216: the mask a compare leaves: the truth of each active element in its bits. -/
def compared (s : State) (d w m : Nat) (f : Nat → Bool) : MReg :=
  BitVec.ofNat 128 ((activeList (s.mreg m) w).foldl (fun acc k => setMaskBits w k (f k) acc) (s.mreg d).toNat)

theorem compared_bit {w j : Nat} (hw : w = 16 ∨ w = 32) (hj : j < 128) (s : State) (d m : Nat) (f : Nat → Bool) :
    (compared s d w m f).getLsbD j = if (s.mreg m).getLsbD (if w = 32 then j / 2 * 2 else j) then f (maskElement w j) else (s.mreg d).getLsbD j := by
  have hmem : maskElement w j ∈ activeList (s.mreg m) w ↔ (s.mreg m).getLsbD (if w = 32 then j / 2 * 2 else j) = true := by
    rw [activeList, List.mem_filter, List.mem_range]
    unfold maskElement active
    obtain rfl | rfl := hw <;> simp [Nat.mul_comm] <;> omega
  rw [compared, BitVec.getLsbD_ofNat, decide_eq_true hj, Bool.true_and, testBit_foldl_setMaskBits hw]
  exact if_congr hmem rfl rfl

/-- The core after a compare, before its end. -/
def comparedCore (s : State) (d w m : Nat) (f : Nat → Bool) (fl : Nat → Nat) : Core :=
  { s.core with
    m := (s.core.setM d (compared s d w m f)).m
    badReg := if d ≠ 0 ∧ fullMask (s.mreg m) w = true then s.core.badReg.filter (· ≠ 64 + d) else s.core.badReg
    fstat := if s.cur < 2048 then s.core.fstat ||| exact (joinFlags ((activeList (s.mreg m) w).map fl) % 128 : Nat) else s.core.fstat }

/-- A mask written in part keeps an error in its word; m0 is not written (R140, R226). -/
theorem Core.setM_whole_eq (c : Core) (d : Nat) (whole : Bool) (x : MReg) :
    (if whole then c.setM d x else { c.setM d x with badReg := c.badReg }) =
      { c with m := (c.setM d x).m, badReg := if d ≠ 0 ∧ whole = true then c.badReg.filter (· ≠ 64 + d) else c.badReg } := by
  rw [Core.setM_eq]
  cases whole <;> by_cases h : d = 0 <;> simp [h]

theorem maskOp_next {s : State} {d ty m : Nat} {ops : List Nat} {g : Nat → Bool × Nat} (hs : s.wf = true)
    (hread : ∀ c ∈ readsOf m ops, s.core.badReg.contains c = false) : ∃ t, s.maskOp ops d ty m g = .next t ∧
      CoreIs s t (comparedCore s d (elemWidth ty) m (fun k => (g k).1) (fun k => (g k).2)).advance := by
  have h := ((CoreIs.refl hs).mapCore (fun c =>
    if fullMask (s.mreg m) (elemWidth ty) then c.setM d (compared s d (elemWidth ty) m (fun k => (g k).1))
    else { c.setM d (compared s d (elemWidth ty) m (fun k => (g k).1)) with badReg := c.badReg })).raise
      (joinFlags ((activeList (s.mreg m) (elemWidth ty)).map (fun k => (g k).2)))
  rw [Core.setM_whole_eq] at h
  refine ⟨_, by rw [State.maskOp, vecRun_readable hread], ?_⟩
  simp only [List.foldl_map, List.map_map]
  exact h.advance

/-- A sign told by whether it is negative and whether it is zero. -/
theorem decide_sign (c : Int) : decide (c ≤ 0) = (decide (c < 0) || decide (c = 0)) ∧
    decide (0 < c) = (!decide (c < 0) && !decide (c = 0)) ∧ decide (0 ≤ c) = !decide (c < 0) := by
  simp only [← decide_not, ← Bool.decide_and, ← Bool.decide_or]
  exact ⟨decide_eq_decide.2 (by omega), decide_eq_decide.2 (by omega), decide_eq_decide.2 (by omega)⟩

/-- R85: the flags of a floating relation. -/
def frelFlags (r : Nat) (x y : Machine.Num) : Nat := if (x.isNan || y.isNan) && decide (2 ≤ r) then 1 else 0

theorem frelOf_eq (r : Nat) (x y : Machine.Num) :
    frelOf r x y = (if x.isNan || y.isNan then r == 1 else relOf r (x.cmp y), frelFlags r x y) := by
  unfold frelOf frelFlags fNV
  cases h : x.isNan || y.isNan
  · rfl
  · by_cases hr : r ≤ 1
    · simp [hr, show ¬ 2 ≤ r by omega]
    · simp [hr, show 2 ≤ r by omega]

theorem compares {i : Instr} {s : State} {d w m : Nat} {reads : List Nat} {f : Nat → Bool} {fl : Nat → Nat} (hi : i.wf = true)
    (hs : s.wf = true) (h : compareForm s i = some (d, w, m, reads, f, fl)) (hread : ∀ c ∈ reads, s.core.badReg.contains c = false) :
    d < 8 ∧ (w = 16 ∨ w = 32) ∧ ∃ t, exec i s = .next t ∧ CoreIs s t (comparedCore s d w m f fl).advance := by
  unfold compareForm at h
  split at h
  case h_1 d a b ty m rnd r =>
    simp [Instr.wf, Kind.ok, tyWideInt] at hi
    cases h
    refine ⟨by omega, by obtain ⟨⟨⟨-, rfl | rfl | rfl | rfl⟩, -⟩, -⟩ := hi <;> simp [elemWidth], ?_⟩
    obtain ⟨t, ht, hcore⟩ := maskOp_next (d := d) (ty := ty) (g := fun k => (relOf r (element s ty a k - element s ty b k), 0)) hs hread
    refine ⟨t, Eq.trans ?_ ht, (congrArg (fun f => CoreIs s t (comparedCore s d (elemWidth ty) m f (fun _ => 0)).advance) ?_).mp hcore⟩
    · rw [exec, execVcmp]
      simp only [laneOf_eq_lane (show 32 ≤ a by omega), svLane_eq_lane, intOf_lane]
    · funext k
      have hr : r ≤ 5 := by omega
      obtain ⟨hle, hpos, hnonneg⟩ := decide_sign (element s ty a k - element s ty b k)
      interval_cases r <;> simp only [relOf, hle, hpos, hnonneg, sub_neg, sub_eq_zero, ne_eq, decide_not]
  case h_2 d a b ty m rnd r =>
    simp [Instr.wf, Kind.ok, tyFloat] at hi
    cases h
    refine ⟨by omega, by obtain ⟨⟨⟨-, rfl | rfl | rfl⟩, -⟩, -⟩ := hi <;> simp [elemWidth], ?_⟩
    obtain ⟨t, ht, hcore⟩ := maskOp_next (d := d) (ty := ty) (g := fun k => frelOf r (valueOf s ty a k) (valueOf s ty b k)) hs hread
    simp only [frelOf_eq] at hcore
    refine ⟨t, Eq.trans ?_ ht, (congrArg (fun f => CoreIs s t (comparedCore s d (elemWidth ty) m f
      (fun k => frelFlags r (valueOf s ty a k) (valueOf s ty b k))).advance) ?_).mp hcore⟩
    · rw [exec, execVfcmp]
      simp only [decodeTy_laneOf (show 32 ≤ a by omega)]
      rfl
    · funext k
      have hr : r ≤ 5 := by omega
      obtain ⟨hle, hpos, hnonneg⟩ := decide_sign ((valueOf s ty a k).cmp (valueOf s ty b k))
      interval_cases r <;> simp only [relOf, hle, hpos, hnonneg, ne_eq, decide_not]
  case h_3 => cases h

/-! ## Mask functions (R217) -/

theorem onesOf_eq_howMany (n : Nat) : ∀ x, onesOf x n = howMany n x.testBit := by
  induction n with
  | zero => intro _; rfl
  | succ n ih =>
    intro x
    have htail : (fun k => x.testBit (k + 1)) = (x / 2).testBit := funext (fun k => Nat.testBit_succ x k)
    rw [onesOf, ih, howMany_succ, htail]
    simp only [Nat.testBit_zero, decide_eq_true_eq]
    split <;> omega

theorem lowestOne_eq_find (n : Nat) : ∀ x, lowestOne x n = ((List.range n).find? x.testBit).getD n := by
  induction n with
  | zero => intro _; rfl
  | succ n ih =>
    intro x
    have htail : x.testBit ∘ Nat.succ = (x / 2).testBit := funext (fun k => Nat.testBit_succ x k)
    rw [lowestOne, ih, List.range_succ_eq_map, List.find?_cons, List.find?_map, htail, Nat.testBit_zero]
    by_cases hx : x % 2 = 1
    · simp [hx]
    · cases (List.range n).find? (x / 2).testBit <;> simp [hx, Nat.add_comm]

/-- The registers a mask function reads can be read (R226). -/
theorem mCodes_readable {s : State} {ms : List Nat} (h : ∀ n ∈ ms, n ≠ 0 → s.core.badReg.contains (64 + n) = false) :
    ∀ c ∈ mCodes ms, s.core.badReg.contains c = false := by
  intro c hc
  obtain ⟨n, hn, rfl⟩ := List.mem_map.1 hc
  obtain ⟨hmem, hne⟩ := List.mem_filter.1 hn
  exact h n hmem (by simpa using hne)

theorem Core.advance_setM (c : Core) (d : Nat) (x : MReg) : (c.setM d x).advance =
    { c.advance with m := (c.setM d x).m, badReg := if d = 0 then c.badReg else c.badReg.filter (· ≠ 64 + d) } := by
  rw [Core.setM_eq]
  exact (Core.advance_mask c _ _ c.fstat).trans (by simp only [← Core.advance_fstat_self c])

theorem Core.advance_setV (c : Core) (d : Nat) (x : VReg) :
    (c.setV d x).advance = { c.advance with v := (c.setV d x).v, badReg := c.badReg.filter (· ≠ d) } := by
  rw [Core.setV_eq]
  exact (Core.advance_vector c _ _ c.fstat c.draws).trans (by simp only [← Core.advance_fstat_self c, ← Core.advance_draws c])

theorem writesM_setM {s : State} (hs : s.wf = true) {d : Nat} (hd : d < 8) (x : MReg) : WritesM s (s.setM d x).advance d x := by
  have h := ((CoreIs.refl hs).mapCore (fun c => c.setM d x)).advance
  have hcore : (s.setM d x).advance.core = _ := h.core.trans (Core.advance_setM _ _ _)
  have hmreg (n : Nat) : (s.setM d x).advance.mreg n = (s.core.setM d x).mreg n := by rw [State.mreg, hcore]; rfl
  exact {
    value := by rw [hmreg, Core.mreg_setM _ hd]
    others := fun n hn => by rw [hmreg, Core.mreg_setM_ne _ _ hn]; rfl
    rest := by rw [hcore]
    frame := h.frame }

theorem writesV_setV {s : State} (hs : s.wf = true) {d : Nat} (h32 : 32 ≤ d) (h64 : d < 64) (x : VReg) :
    WritesV s (s.setV d x).advance d x := by
  have h := ((CoreIs.refl hs).mapCore (fun c => c.setV d x)).advance
  have hcore : (s.setV d x).advance.core = _ := h.core.trans (Core.advance_setV _ _ _)
  have hvreg (n : Nat) : (s.setV d x).advance.vreg n = (s.core.setV d x).vreg n := by rw [State.vreg, hcore]; rfl
  exact {
    value := by rw [hvreg, Core.vreg_setV _ h32 h64]
    others := fun n hn hne => by rw [hvreg, Core.vreg_setV_ne _ _ h32 hn hne]; rfl
    rest := by rw [hcore]
    frame := h.frame }

/-- An instruction that writes a mask from registers that can be read. -/
theorem writesM_of_vecRun {i : Instr} {s : State} {reads : List Nat} {d : Nat} {f : State → MReg} (hs : s.wf = true) (hd : d < 8)
    (hread : ∀ c ∈ reads, s.core.badReg.contains c = false) (hexec : exec i s = s.vecRun reads 0 (fun u => u.setM d (f u))) :
    ∃ t, exec i s = .next t ∧ WritesM s t d (f s) :=
  ⟨_, hexec.trans (vecRun_readable hread _ _), writesM_setM hs hd (f s)⟩

theorem maskFunctions : ∀ (i : Instr) (s : State) (ms : List Nat) (d : Nat) (x : MReg), i.wf = true → s.wf = true →
    maskForm s i = some (ms, d, x) → (∀ n ∈ ms, n ≠ 0 → s.core.badReg.contains (64 + n) = false) →
    ∃ t, exec i s = .next t ∧ WritesM s t d x := by
  intro i s ms d x hi hs h hread
  have hcodes := mCodes_readable hread
  unfold maskForm at h
  split at h <;> cases h <;> simp only [Instr.wf, Bool.and_eq_true, Kind.ok, decide_eq_true_eq] at hi
  case h_1 a b => exact writesM_of_vecRun (f := fun u => u.mreg a &&& u.mreg b) hs (by omega) hcodes rfl
  case h_2 a b => exact writesM_of_vecRun (f := fun u => u.mreg a ||| u.mreg b) hs (by omega) hcodes rfl
  case h_3 a b => exact writesM_of_vecRun (f := fun u => u.mreg a ^^^ u.mreg b) hs (by omega) hcodes rfl
  case h_4 a => exact writesM_of_vecRun (f := fun u => ~~~(u.mreg a)) hs (by omega) hcodes rfl

/-- R217: a count and an index of a mask. -/
theorem maskCounts {s : State} {d a : Nat} (hs : s.wf = true) (hd : d < 32) (ha : a ≠ 0 → s.core.badReg.contains (64 + a) = false) :
    (∃ t, exec (.mpop d a) s = .next t ∧ WritesS s t d (exact (howMany 128 (s.mreg a).getLsbD))) ∧
      ∃ t, exec (.mfirst d a) s = .next t ∧
        WritesS s t d (exact (((List.range 128).find? (fun j => (s.mreg a).getLsbD j)).getD 128 : Nat)) := by
  have hcodes : ∀ c ∈ mCodes [a], s.core.badReg.contains c = false := mCodes_readable (by simpa using ha)
  have hbits : (s.mreg a).getLsbD = (s.mreg a).toNat.testBit := rfl
  refine ⟨⟨_, by rw [exec, execMpop, vecRun_readable hcodes], ?_⟩, ⟨_, by rw [exec, execMfirst, vecRun_readable hcodes], ?_⟩⟩
  · rw [hbits, ← onesOf_eq_howMany, exact_natCast]
    exact writesS_putS hs hd _
  · rw [hbits, ← lowestOne_eq_find, exact_natCast]
    exact writesS_putS hs hd _

/-- Settles O31: the mask bits of each element are its own, so that the writes of the active ones do not meet. -/
theorem vectorMasks : Obligations.VectorMasks := by
  refine ⟨fun i s d w m reads f fl hi hs hform hread => ?_, maskFunctions, fun s d a hs => ⟨fun hi ha => ?_, fun hi ha => ?_, fun hi ha => ?_,
    fun hi ha => ?_⟩⟩
  · obtain ⟨hd, hw, t, ht, hcompared⟩ := compares hi hs hform hread
    have hcore := hcompared.core
    rw [comparedCore, Core.advance_mask] at hcore
    have hmreg (n : Nat) : t.mreg n = (s.core.setM d (compared s d w m f)).mreg n := by rw [State.mreg, hcore]; rfl
    refine ⟨t, ht, hcompared.frame, fun j hj => ?_, fun n hn => ?_, ?_, ?_, ?_⟩
    · rw [hmreg, Core.mreg_setM _ hd, apply_ite (BitVec.getLsbD · j), compared_bit hw hj, BitVec.getLsbD_allOnes, decide_eq_true hj]
      rfl
    · rw [hmreg, Core.mreg_setM_ne _ _ hn]; rfl
    · rw [hcore, joinFlags_map, activeList, List.foldl_filter]
      rfl
    · rw [hcore]
    · rw [hcore]; rfl
  · simp only [Instr.wf, Bool.and_eq_true, Kind.ok, decide_eq_true_eq] at hi
    exact maskCounts hs (by omega) ha
  · simp only [Instr.wf, mmovKinds, Bool.and_eq_true, Kind.ok, decide_eq_true_eq] at hi
    exact writesM_of_vecRun (f := fun u => u.mreg a) hs (by omega) (mCodes_readable (ms := [a]) (by simpa using ha)) rfl
  · simp only [Instr.wf, mmovKinds, Bool.and_eq_true, Kind.ok, decide_eq_true_eq] at hi
    rw [← BitVec.setWidth_eq_extractLsb' (by decide)]
    exact writesM_of_vecRun (f := fun u => (u.vreg a).setWidth 128) (reads := [a]) hs (by omega) (by simpa using ha) rfl
  · simp only [Instr.wf, mmovKinds, Bool.and_eq_true, Kind.ok, decide_eq_true_eq] at hi
    have hcodes : ∀ c ∈ mCodes [a], s.core.badReg.contains c = false := mCodes_readable (by simpa using ha)
    have hrun : exec (.mmov d a 2) s = s.vecRun (mCodes [a]) 0 (fun u => u.setV d ((u.mreg a).setWidth 2048)) := rfl
    have hwide : (s.mreg a).setWidth 2048 = BitVec.ofNat 2048 (s.mreg a).toNat :=
      BitVec.eq_of_toNat_eq (by rw [BitVec.toNat_setWidth, BitVec.toNat_ofNat])
    rw [← hwide]
    exact ⟨_, hrun.trans (vecRun_readable hcodes _ _), writesV_setV (d := d) hs (by omega) (by omega) _⟩

end Sys2Proof.Claims
end

section
/-! SUPPORT. The units of a vector access (R222): their addresses, the checks of each, and what several stores leave in memory (R42, R225). -/

namespace Sys2Proof.Claims

open Sys2Proof.Machine

/-! ## Addresses (R222) -/

theorem unitWidth_eq_max (ty : Nat) : unitWidth ty = max 8 (elemWidth ty) := by unfold unitWidth; split <;> omega

theorem isWidth_unitWidth {ty : Nat} (h : ty ≤ 13) : IsWidth (unitWidth ty) := by
  unfold IsWidth
  interval_cases ty <;> decide

theorem vecEa_eq_exact (s : State) (a imm : Nat) : s.vecEa a imm = exact ((s.sreg a).toNat + 64 * sx 9 imm) := by
  rw [State.vecEa, exact_add, exact_toNat, exact_mul, sxWord_eq_exact]
  rfl

theorem addrUnit_eq_exact (a ty imm : Nat) (s : State) :
    addrUnit a ty imm s = fun k => exact ((s.sreg a).toNat + 64 * sx 9 imm + (k * (max 8 (elemWidth ty) / 8) : Nat)) := by
  funext k
  rw [addrUnit, vecEa_eq_exact, unitWidth_eq_max, exact_add _ (_ : Nat), exact_natCast]

theorem addrStride_eq_exact (a b imm : Nat) (s : State) :
    addrStride a b imm s = fun k => exact ((s.sreg a).toNat + 64 * sx 9 imm + (k * (s.sreg b).toNat : Nat)) := by
  funext k
  rw [addrStride, vecEa_eq_exact, exact_add _ (_ : Nat), Nat.cast_mul, exact_mul, exact_toNat, exact_natCast]

theorem addrIndex_eq_exact {b : Nat} (hb : 32 ≤ b) (a imm : Nat) (s : State) :
    addrIndex a b imm s = fun k => exact ((s.sreg a).toNat + 64 * sx 9 imm + sx 32 (lane s 32 b k)) := by
  funext k
  rw [addrIndex, vecEa_eq_exact, exact_add _ (sx 32 _), sxWord_eq_exact, laneOf_eq_lane hb]

/-! ## The steps of an access -/

theorem vecReadable_ok {s : State} {codes : List Nat} (h : ∀ c ∈ codes, s.core.badReg.contains c = false) : vecReadable codes s = .ok () s := by
  have hnone : s.badRead codes = none := List.find?_eq_none.2 (fun c hc => by simp only [h c hc, Bool.false_eq_true, not_false_eq_true])
  refine (bind_ok (m := get) (x := s) (s1 := s) rfl).trans ?_
  rw [hnone]
  rfl

theorem waitOw_done {s : State} {ow : Nat} (h : s.setDone ow = true) : waitOw ow s = .ok () s := by rw [waitOw_eq, if_pos h]

/-- Of units whose checks pass, each stands in order with its place, given by the checks at a state that walks alone have changed. -/
theorem checkElems_ok {rw : Rw} {reach : Reach} {u : Nat} {addr : Nat → Word} {ks : List Nat} :
    ∀ {s t : State} {es : List ElemAt}, checkElems rw reach u addr ks s = .ok es t → WalkOnly s t ∧ es.map (·.k) = ks ∧
      ∀ e ∈ es, ∃ s0 s1, WalkOnly s s0 ∧ checkAccess reach rw u u (addr e.k) s0 = .ok e.pl s1 := by
  induction ks with
  | nil =>
    intro s t es h
    cases h
    exact ⟨.refl s, rfl, by simp⟩
  | cons k ks ih =>
    intro s t es h
    rw [checkElems] at h
    cases hc : checkAccess reach rw u u (addr k) s with
    | error e s1 => rw [bind_error hc] at h; cases h
    | ok pl s1 =>
      rw [bind_ok hc] at h
      cases hr : checkElems rw reach u addr ks s1 with
      | error e s2 => rw [bind_error hr] at h; cases h
      | ok rest s2 =>
        rw [bind_ok hr] at h
        cases h
        obtain ⟨hwalk, hks, hplaces⟩ := ih hr
        have hfirst := checkAccess_ok hc
        refine ⟨hfirst.trans hwalk, by rw [List.map_cons, hks], fun e he => ?_⟩
        obtain rfl | he := List.mem_cons.1 he
        · exact ⟨s, s1, .refl s, hc⟩
        · obtain ⟨s0, s3, h0, hcheck⟩ := hplaces e he
          exact ⟨s0, s3, hfirst.trans h0, hcheck⟩

/-! ## Memory after several stores (R42, R225) -/

/-- A byte of n written at i. -/
theorem Sparse.get_setBytes (n : Nat) : ∀ {m : Sparse Byte} {i v j : Nat}, Sparse.ok 0 m = true →
    Sparse.get 0 (Sparse.setBytes m i n v) j = if i ≤ j ∧ j < i + n then BitVec.ofNat 8 (v / 256 ^ (j - i)) else Sparse.get 0 m j := by
  induction n with
  | zero =>
    intro m i v j h
    rw [if_neg (by omega)]
    rfl
  | succ n ih =>
    intro m i v j h
    rw [Sparse.setBytes, ih (Sparse.set_ok h)]
    by_cases hlow : j = i
    · subst hlow
      rw [if_neg (by omega), if_pos (by omega), Sparse.get_set_self (Sparse.rising_of_ok h), Nat.sub_self, pow_zero, Nat.div_one]
    · by_cases hin : i + 1 ≤ j ∧ j < i + 1 + n
      · rw [if_pos hin, if_pos (by omega), show j - i = (j - (i + 1)) + 1 by omega, pow_succ', Nat.div_div_eq_div_mul]
      · rw [if_neg hin, if_neg (by omega), Sparse.get_set_ne (Sparse.rising_of_ok h) (by omega)]

/-- What stores of a turn leave: memory, checks and the journal apart, the state is as before. -/
structure Stored (s t : State) : Prop where
  frame : t = { s with mem := t.mem, bad := t.bad, tiles := t.tiles }
  wf : t.wf = true
  tiles : ∀ p, p ≠ s.cur → t.tile p = s.tile p
  own : t.myTile = { s.myTile with firing := t.myTile.firing }
  slot : t.firingNow.slot = s.firingNow.slot

theorem Stored.refl {s : State} (hs : s.wf = true) : Stored s s where
  frame := rfl
  wf := hs
  tiles _ _ := rfl
  own := rfl
  slot := rfl

section
variable {s t : State} (h : Stored s t)
include h

theorem Stored.cur : t.cur = s.cur := by rw [h.frame]

theorem Stored.cores : t.cores = s.cores := by rw [h.frame]

theorem Stored.core : t.core = s.core := by rw [State.core, h.cores, h.cur]; rfl

theorem Stored.inJournal (a : Nat) : inJournal t a ↔ inJournal s a := by rw [Claims.inJournal, h.cur]; rfl

theorem Stored.stateLen : t.myTile.stateLen t.firingNow.slot = s.myTile.stateLen s.firingNow.slot := by rw [h.slot, h.own]; rfl

theorem Stored.trans {u : State} (k : Stored t u) : Stored s u where
  frame := by rw [k.frame, h.frame]
  wf := k.wf
  tiles := fun p hp => (k.tiles p (h.cur ▸ hp)).trans (h.tiles p hp)
  own := by rw [k.own, h.own]
  slot := k.slot.trans h.slot

end

theorem State.tablesRise_setTiles {s : State} (hs : s.tablesRise = true) (m : Sparse Byte) (b : List Nat) {l : Sparse Tile}
    (hl : Sparse.rising l = true) : State.tablesRise { s with mem := m, bad := b, tiles := l } = true := by
  simp only [State.tablesRise, Bool.and_eq_true] at hs ⊢
  simp_all

/-- R42: the journal keeps the invariant of the tiles. -/
theorem journal_tiles {s t : State} (hs : s.wf = true) (hlen : s.myTile.stateLen s.firingNow.slot ≤ 0x2000) {key n : Nat}
    (h : journal key n s = .ok () t) : Sparse.rising t.tiles = true := by
  have htiles := State.wf_tiles hs
  by_cases hc : s.cur < 2048
  · cases hf : s.myTile.firing with
    | none =>
      rw [journal_none (.inr hf)] at h
      cases h
      exact htiles
    | some f =>
      rw [State.firingNow, hf, Option.getD_some, Tile.stateLen] at hlen
      have hlines := foldl_logLine_journalOnly (tileBase s.cur + s.myTile.privOff f.slot)
        (freshLines f (tileBase s.cur + s.myTile.privOff f.slot) (s.myTile.stateLen f.slot) key n)
        (fun k hk => by have := freshLines_within hk; omega) (State.wf_mem hs) hc
      rw [journal_some hc hf] at h
      cases h
      refine State.rising_setTile ?_ _ _
      rw [hlines.memory]
      exact htiles
  · rw [journal_none (.inl hc)] at h
    cases h
    exact htiles

theorem Journaled.stored {s t : State} (hs : s.wf = true) (h : Journaled s t) (htiles : Sparse.rising t.tiles = true) : Stored s t where
  frame := h.frame
  wf := by
    have htables : t.tablesRise = true := by rw [h.frame]; exact State.tablesRise_setTiles (State.wf_tables hs) _ _ htiles
    exact Bool.and_eq_true_iff.2 ⟨h.wf, htables⟩
  tiles := h.tiles
  own := h.own
  slot := by
    have hfiring := h.firing
    unfold State.firingNow
    cases hf : s.myTile.firing with
    | none => rw [hf, Option.map_none] at hfiring; rw [hfiring]
    | some f => rw [hf, Option.map_some] at hfiring; rw [hfiring]; rfl

/-- The bytes of an element written. -/
def putBytes (s : State) (k n v : Nat) : State := { s with mem := Sparse.setBytes s.mem k n v }

/-- Bytes written where the journal has been. -/
theorem Stored.putBytes {s t : State} (h : Stored s t) (k n v : Nat) : Stored s (putBytes t k n v) where
  frame := congrArg (fun u => Claims.putBytes { u with mem := t.mem } k n v) h.frame
  wf := by
    have hmem : Memory.wf (Sparse.setBytes t.mem k n v) = true := Sparse.setBytes_ok n (State.wf_mem h.wf)
    have htables : t.tablesRise = true := State.wf_tables h.wf
    exact Bool.and_eq_true_iff.2 ⟨hmem, htables⟩
  tiles := h.tiles
  own := h.own
  slot := h.slot

/-- R42, R225: one store: the journal takes its lines, and then its bytes are written. -/
theorem journal_putBytes {s : State} (hs : s.wf = true) (hlen : s.myTile.stateLen s.firingNow.slot ≤ 0x2000) (k n v : Nat) :
    ∃ u, journal k n s = .ok () u ∧ Stored s (putBytes u k n v) ∧
      little (putBytes u k n v) k n = v % 256 ^ n ∧ ∀ a, ¬ inJournal s a → byteAt (putBytes u k n v) a =
        if k ≤ a ∧ a < k + n then BitVec.ofNat 8 (v / 256 ^ (a - k)) else byteAt s a := by
  obtain ⟨u, hj, hu⟩ := journal_ends hs hlen k n
  refine ⟨u, hj, (hu.stored hs (journal_tiles hs hlen hj)).putBytes k n v, ?_, fun a ha => ?_⟩
  · rw [little_eq_rd]
    exact State.rd_wr hu.wf
  · rw [← hu.bytes a ha]
    exact Sparse.get_setBytes n hu.wf

end Sys2Proof.Claims
end

section
/-! PROOFS. Vector loads and stores (R222, R225, R226). -/

namespace Sys2Proof.Claims

open Sys2Proof.Machine

/-! ## Units by their index -/

/-- Of a list of accesses in the order of their units, the one of a unit. -/
theorem find_unit {es : List ElemAt} {ks : List Nat} (h : es.map (·.k) = ks) {k : Nat} (hk : k ∈ ks) :
    ∃ e ∈ es, e.k = k ∧ es.find? (fun e => e.k = k) = some e := by
  obtain ⟨e0, he0, hk0⟩ := List.mem_map.1 (h ▸ hk)
  obtain ⟨e, he⟩ := Option.isSome_iff_exists.1 (List.find?_isSome (p := fun e => decide (e.k = k)).2 ⟨e0, he0, decide_eq_true hk0⟩)
  exact ⟨e, List.mem_of_find?_eq_some he, by simpa using List.find?_some he, he⟩

theorem find_map_unit (es : List ElemAt) (g : ElemAt → Nat) (k : Nat) :
    ((es.map (fun e => (e.k, g e))).find? (fun x => x.1 = k)).map Prod.snd = (es.find? (fun e => e.k = k)).map g := by
  rw [List.find?_map, Option.map_map]
  rfl

theorem mem_activeUnits {s : State} {m w k : Nat} : k ∈ activeUnits s m w ↔ k < 2048 / w ∧ (s.mreg m).getLsbD (governs w k) = true := by
  rw [activeUnits, List.mem_filter, List.mem_range]

theorem mreg_of_cores {s t : State} (h : WalkOnly s t) (m : Nat) : t.mreg m = s.mreg m := by
  have hcur : t.cur = s.cur := by rw [h.frame]
  rw [State.mreg, State.core, h.cores, hcur]
  rfl

/-! ## Loads -/

theorem readElems_sound {s : State} {u : Nat} (es : List ElemAt) (h : ∀ e ∈ es, ∃ k, e.pl = .mem k ∧ s.readBad k u = false) :
    readElems u es s = .ok (es.map (fun e => (e.k, s.rd ((e.pl.key).getD 0) u))) s := by
  induction es with
  | nil => rfl
  | cons e es ih =>
    obtain ⟨k, hk, hsound⟩ := h e List.mem_cons_self
    have hread : readPlace e.ea u e.pl s = .ok (s.rd ((e.pl.key).getD 0) u) s := by rw [hk]; exact readPlace_sound hsound e.ea
    rw [readElems]
    exact (bind_ok hread).trans (bind_ok (ih (fun e he => h e (List.mem_cons_of_mem _ he))))

/-- R222: what a load gives unit k: the bytes at its address, from the lowest. -/
def loaded (s : State) (es : List ElemAt) (u k : Nat) : Nat × Nat :=
  ((((es.map (fun e => (e.k, s.rd ((e.pl.key).getD 0) u))).find? (fun e => e.1 = k)).map Prod.snd).getD 0, 0)

theorem loaded_eq_little {s : State} {es : List ElemAt} {ks : List Nat} (h : es.map (·.k) = ks) {k : Nat} (hk : k ∈ ks) (u : Nat) :
    loaded s es u k = (little s (keyOf es k) u, 0) := by
  obtain ⟨e, -, -, hfind⟩ := find_unit h hk
  rw [loaded, find_map_unit es (fun e => s.rd ((e.pl.key).getD 0) u), keyOf, hfind, little_eq_rd]
  rfl

section
variable {addr : State → Nat → Word} {ops : List Nat} {d ow ty m : Nat} {s s1 : State}

theorem vecLoad_idle (hread : ∀ c ∈ readsOf m ops, s.core.badReg.contains c = false) (hnone : activeUnits s m (unitWidth ty) = []) :
    vecLoad addr ops d ow ty m s = .ok () s.advance := by
  refine (bind_ok (vecReadable_ok hread)).trans ((bind_ok (m := get) (x := s) (s1 := s) rfl).trans ?_)
  have hact : activeList (s.mreg m) (unitWidth ty) = [] := hnone
  rw [hact]
  rfl

theorem vecLoad_checked (hread : ∀ c ∈ readsOf m ops, s.core.badReg.contains c = false) (hsome : activeUnits s m (unitWidth ty) ≠ []) {e : Stop}
    (hc : checkElems .read .loadStore (unitWidth ty / 8) (addr s) (activeUnits s m (unitWidth ty)) s = .error e s1) :
    vecLoad addr ops d ow ty m s = .error e s1 := by
  refine (bind_ok (vecReadable_ok hread)).trans ((bind_ok (m := get) (x := s) (s1 := s) rfl).trans ?_)
  have hact : (activeList (s.mreg m) (unitWidth ty)).isEmpty = false := List.isEmpty_eq_false_iff.2 hsome
  simp only [hact, Bool.false_eq_true, if_false]
  exact bind_error hc

theorem vecLoad_loads (hread : ∀ c ∈ readsOf m ops, s.core.badReg.contains c = false) (hsome : activeUnits s m (unitWidth ty) ≠ [])
    {es : List ElemAt} (hc : checkElems .read .loadStore (unitWidth ty / 8) (addr s) (activeUnits s m (unitWidth ty)) s = .ok es s1)
    (hw : s1.setDone ow = true) (hp : awaitElems (unitWidth ty / 8) es s1 = .ok () s1)
    (hsound : ∀ e ∈ es, ∃ k, e.pl = .mem k ∧ s1.readBad k (unitWidth ty / 8) = false) :
    vecLoad addr ops d ow ty m s = .ok () (s1.putLanes d (unitWidth ty) m (loaded s1 es (unitWidth ty / 8))).advance := by
  refine (bind_ok (vecReadable_ok hread)).trans ((bind_ok (m := get) (x := s) (s1 := s) rfl).trans ?_)
  have hact : (activeList (s.mreg m) (unitWidth ty)).isEmpty = false := List.isEmpty_eq_false_iff.2 hsome
  simp only [hact, Bool.false_eq_true, if_false]
  exact (bind_ok hc).trans ((bind_ok (waitOw_done hw)).trans ((bind_ok hp).trans (bind_ok (readElems_sound es hsound))))

end

/-- R222: a load is `vecLoad` at the addresses of its form. -/
theorem exec_vecLoad {i : Instr} {s : State} {d ow ty m : Nat} {reads : List Nat} {addr : Nat → Word} (hi : i.wf = true)
    (h : loadAt s i = some (d, reads, ow, ty, m, addr)) : (32 ≤ d ∧ d < 64) ∧ ty ≤ 13 ∧ ∃ addrOf ops,
      exec i s = runM (vecLoad addrOf ops d ow ty m) s ∧ addrOf s = addr ∧ readsOf m ops = reads := by
  unfold loadAt at h
  split at h <;> cases h <;> simp [Instr.wf, Kind.ok, tyAll, tyByteUp, tyWord] at hi
  case h_1 a om sc imm => exact ⟨by omega, by omega, _, _, rfl, addrUnit_eq_exact a ty imm s, rfl⟩
  case h_2 a b om sc imm => exact ⟨by omega, by omega, _, _, rfl, addrStride_eq_exact a b imm s, rfl⟩
  case h_3 a b om sc imm => exact ⟨by omega, by omega, _, _, rfl, addrIndex_eq_exact (by omega) a imm s, rfl⟩
  case h_4 a om sc imm => exact ⟨by omega, by omega, fun s _ => s.vecEa a imm, _, rfl, funext (fun _ => vecEa_eq_exact s a imm), rfl⟩

theorem raise_mem (s : State) (fl : Nat) : (s.raise fl).mem = s.mem := by unfold State.raise; split <;> rfl

theorem putLanes_mem (s : State) (d w m : Nat) (f : Nat → Nat × Nat) : (s.putLanes d w m f).mem = s.mem := by
  rw [State.putLanes, putBelow_eq, raise_mem]
  rfl

/-- A load leaves in each active unit what it has read. -/
theorem lanesWritten_load {s s1 : State} {d ty m u : Nat} {reads : List Nat} {es : List ElemAt} (hs1 : s1.wf = true) (h32 : 32 ≤ d) (h64 : d < 64)
    (hty : ty ≤ 13) (hwalk : WalkOnly s s1) (hks : es.map (·.k) = activeUnits s m (unitWidth ty)) :
    LanesWritten { d := d, w := unitWidth ty, m := m, reads := reads, value := fun k => little s1 (keyOf es k) u } s1
      (s1.putLanes d (unitWidth ty) m (loaded s1 es u)).advance := by
  refine lanesWritten_putBelow (F := { d := d, w := unitWidth ty, m := m, reads := reads, value := fun k => little s1 (keyOf es k) u })
    hs1 ⟨h32, h64, isWidth_unitWidth hty⟩ (givenBy_all rfl (fun k hk hon => ?_))
  have hactive : k ∈ activeUnits s m (unitWidth ty) := mem_activeUnits.2 ⟨hk, by rw [← mreg_of_cores hwalk]; exact hon⟩
  rw [loaded_eq_little hks hactive]
  exact ⟨rfl, rfl⟩

/-! ## Stores -/

/-- The byte that an access of u bytes leaves at a, where it covers a. -/
def covered (u : Nat) (val : Nat → Nat) (a : Nat) (e : ElemAt) : Option Byte :=
  match e.pl.key with
  | some k => if k ≤ a ∧ a < k + u then some (BitVec.ofNat 8 (val e.k / 256 ^ (a - k))) else none
  | none => none

theorem covered_mem {e : ElemAt} {k : Nat} (h : e.pl = .mem k) (u : Nat) (val : Nat → Nat) (a : Nat) :
    covered u val a e = if k ≤ a ∧ a < k + u then some (BitVec.ofNat 8 (val e.k / 256 ^ (a - k))) else none := by
  rw [covered, h]
  rfl

theorem lastWritten_eq_foldl (es : List ElemAt) (u : Nat) (val : Nat → Nat) (a : Nat) :
    lastWritten es u val a = es.foldl (fun r e => (covered u val a e).or r) none := by
  refine List.foldl_ext _ _ _ (fun r e _ => ?_)
  unfold covered
  cases e.pl.key with
  | none => rfl
  | some k => dsimp only; split <;> rfl

theorem foldl_or {α β : Type} (g : α → Option β) (l : List α) : ∀ r : Option β,
    l.foldl (fun r e => (g e).or r) r = (l.foldl (fun r e => (g e).or r) none).or r := by
  induction l with
  | nil => exact fun _ => rfl
  | cons e l ih =>
    intro r
    rw [List.foldl_cons, List.foldl_cons, ih, ih ((g e).or none), Option.or_none, Option.or_assoc]

/-- R225: of several accesses that cover a byte the last one's stays. -/
theorem lastWritten_cons (u : Nat) (val : Nat → Nat) (a : Nat) (e : ElemAt) (es : List ElemAt) :
    lastWritten (e :: es) u val a = (lastWritten es u val a).or (covered u val a e) := by
  rw [lastWritten_eq_foldl, lastWritten_eq_foldl, List.foldl_cons, foldl_or, Option.or_none]

theorem writeElems_stores {u : Nat} {val : Nat → Nat} (es : List ElemAt) : ∀ {s : State}, s.wf = true →
    s.myTile.stateLen s.firingNow.slot ≤ 0x2000 → (∀ e ∈ es, ∃ k, e.pl = .mem k) → ∃ t, writeElems u val es s = .ok () t ∧ Stored s t ∧
      ∀ a, ¬ inJournal s a → byteAt t a = (lastWritten es u val a).getD (byteAt s a) := by
  induction es with
  | nil => exact fun hs _ _ => ⟨_, rfl, .refl hs, fun _ _ => rfl⟩
  | cons e es ih =>
    intro s hs hlen hmem
    obtain ⟨k, hk⟩ := hmem e List.mem_cons_self
    obtain ⟨v, hj, hstored, -, hbytes⟩ := journal_putBytes hs hlen k u (val e.k)
    obtain ⟨t, ht, hrest, hlast⟩ := ih hstored.wf (by rw [hstored.stateLen]; exact hlen) (fun e he => hmem e (List.mem_cons_of_mem _ he))
    refine ⟨t, ?_, hstored.trans hrest, fun a ha => ?_⟩
    · have hkey : e.pl.key = some k := by rw [hk]; rfl
      rw [writeElems]
      simp only [hkey]
      exact (bind_ok hj).trans ht
    · rw [hlast a ((hstored.inJournal a).not.2 ha), hbytes a ha, lastWritten_cons, covered_mem hk]
      cases lastWritten es u val a <;> split <;> rfl

/-- R222: the words that a store covers whole are no longer in error. -/
def storeDone (s : State) (u : Nat) (es : List ElemAt) : State :=
  { s with bad := s.bad.filter (fun b => !(coveredWords u (es.filterMap (fun e => e.pl.key))).contains b) }

/-- The end of a store changes its core alone. -/
theorem Stored.storeDone_advance {s t : State} (h : Stored s t) (u : Nat) (es : List ElemAt) : (storeDone t u es).advance.core = s.core.advance ∧
    (∀ n, n ≠ s.cur → (storeDone t u es).advance.coreAt n = s.coreAt n) ∧ (storeDone t u es).advance =
      { s with mem := t.mem, bad := (storeDone t u es).bad, cores := (storeDone t u es).advance.cores, tiles := t.tiles } := by
  have hrising : Sparse.rising (storeDone t u es).cores = true := State.wf_cores h.wf
  refine ⟨?_, fun n hn => ?_, ?_⟩
  · rw [State.advance, State.core_mapCore hrising, ← h.core]
    rfl
  · have hcores : (storeDone t u es).coreAt n = s.coreAt n := by
      change Sparse.get _ t.cores n = _
      rw [h.cores]
      rfl
    exact (State.coreAt_mapCore hrising Core.advance (h.cur ▸ hn)).trans hcores
  · exact congrArg (fun v : State => { v with bad := (storeDone t u es).bad, cores := (storeDone t u es).advance.cores }) h.frame

section
variable {addr : State → Nat → Word} {ops : List Nat} {d ow ty m : Nat} {s s1 : State}

theorem vecStore_idle (hread : ∀ c ∈ readsOf m (d :: ops), s.core.badReg.contains c = false) (hnone : activeUnits s m (unitWidth ty) = []) :
    vecStore addr ops d ow ty m s = .ok () s.advance := by
  refine (bind_ok (vecReadable_ok hread)).trans ((bind_ok (m := get) (x := s) (s1 := s) rfl).trans ?_)
  have hact : activeList (s.mreg m) (unitWidth ty) = [] := hnone
  rw [hact]
  rfl

theorem vecStore_checked (hread : ∀ c ∈ readsOf m (d :: ops), s.core.badReg.contains c = false)
    (hsome : activeUnits s m (unitWidth ty) ≠ []) {e : Stop}
    (hc : checkElems .write .loadStore (unitWidth ty / 8) (addr s) (activeUnits s m (unitWidth ty)) s = .error e s1) :
    vecStore addr ops d ow ty m s = .error e s1 := by
  refine (bind_ok (vecReadable_ok hread)).trans ((bind_ok (m := get) (x := s) (s1 := s) rfl).trans ?_)
  have hact : (activeList (s.mreg m) (unitWidth ty)).isEmpty = false := List.isEmpty_eq_false_iff.2 hsome
  simp only [hact, Bool.false_eq_true, if_false]
  exact bind_error hc

theorem vecStore_stores (hread : ∀ c ∈ readsOf m (d :: ops), s.core.badReg.contains c = false)
    (hsome : activeUnits s m (unitWidth ty) ≠ []) {es : List ElemAt}
    (hc : checkElems .write .loadStore (unitWidth ty / 8) (addr s) (activeUnits s m (unitWidth ty)) s = .ok es s1)
    (hw : s1.setDone ow = true) (hp : awaitElems (unitWidth ty / 8) es s1 = .ok () s1) (hb : s1.badStore (unitWidth ty / 8) es = none)
    {t : State} (ht : writeElems (unitWidth ty / 8) (fun k => laneOf (s.vreg d) (unitWidth ty) k) es s1 = .ok () t) :
    vecStore addr ops d ow ty m s = .ok () (storeDone t (unitWidth ty / 8) es).advance := by
  refine (bind_ok (vecReadable_ok hread)).trans ((bind_ok (m := get) (x := s) (s1 := s) rfl).trans ?_)
  have hact : (activeList (s.mreg m) (unitWidth ty)).isEmpty = false := List.isEmpty_eq_false_iff.2 hsome
  simp only [hact, Bool.false_eq_true, if_false]
  refine (bind_ok hc).trans ((bind_ok (waitOw_done hw)).trans ((bind_ok hp).trans ((bind_ok (m := get) (x := s1) (s1 := s1) rfl).trans ?_)))
  rw [hb]
  exact bind_ok ht

end

/-- R222: a store is `vecStore` at the addresses of its form. -/
theorem exec_vecStore {i : Instr} {s : State} {d ow ty m : Nat} {reads : List Nat} {addr : Nat → Word} (hi : i.wf = true)
    (h : storeAt s i = some (d, reads, ow, ty, m, addr)) : 32 ≤ d ∧ ∃ addrOf ops,
      exec i s = runM (vecStore addrOf ops d ow ty m) s ∧ addrOf s = addr ∧ readsOf m (d :: ops) = reads := by
  unfold storeAt at h
  split at h <;> cases h <;> simp [Instr.wf, Kind.ok, tyAll, tyByteUp, tyWord] at hi
  case h_1 a om sc imm => exact ⟨by omega, _, _, rfl, addrUnit_eq_exact a ty imm s, rfl⟩
  case h_2 a b om sc imm => exact ⟨by omega, _, _, rfl, addrStride_eq_exact a b imm s, rfl⟩
  case h_3 a b om sc imm => exact ⟨by omega, _, _, rfl, addrIndex_eq_exact (by omega) a imm s, rfl⟩

theorem vectorMemory : VectorMemory := by
  refine ⟨fun i s d ow ty m reads addr hi hs hc h hread => ?_, fun i s d ow ty m reads addr hi hs hc h hread => ?_⟩
  · obtain ⟨⟨h32, h64⟩, hty, addrOf, ops, hexec, rfl, rfl⟩ := exec_vecLoad hi h
    rw [hexec, ← unitWidth_eq_max]
    intro w
    refine ⟨fun hnone => runM_ok (vecLoad_idle hread hnone), fun t s1 hsome hcheck => runM_trap (vecLoad_checked hread hsome hcheck),
      fun es s1 hsome hcheck hs1 hw hp hsound => ⟨_, runM_ok (vecLoad_loads hread hsome hcheck hw hp hsound), putLanes_mem s1 d w m _, ?_⟩⟩
    obtain ⟨hwalk, hks, -⟩ := checkElems_ok hcheck
    exact lanesWritten_load hs1 h32 h64 hty hwalk hks
  · obtain ⟨h32, addrOf, ops, hexec, rfl, rfl⟩ := exec_vecStore hi h
    rw [hexec, ← unitWidth_eq_max]
    intro w
    refine ⟨fun hnone => runM_ok (vecStore_idle hread hnone), fun t s1 hsome hcheck => runM_trap (vecStore_checked hread hsome hcheck),
      fun es s1 hsome hcheck hs1 hw hp hmem hb hlen => ?_⟩
    obtain ⟨t, ht, hstored, hbytes⟩ := writeElems_stores (u := w / 8) (val := fun k => laneOf (s.vreg d) w k) es hs1 hlen hmem
    have hval : (fun k => laneOf (s.vreg d) w k) = lane s w d := funext (fun k => laneOf_eq_lane h32 s w k)
    obtain ⟨hcore, hothers, hframe⟩ := hstored.storeDone_advance (w / 8) es
    have hcur : s1.cur = s.cur := by rw [(checkElems_ok hcheck).1.frame]
    exact ⟨_, runM_ok (vecStore_stores hread hsome hcheck hw hp hb ht), hcore, by rw [← hval]; exact hbytes,
      fun n hn => hothers n (hcur ▸ hn), fun p hp => hstored.tiles p (hcur ▸ hp), hframe⟩

end Sys2Proof.Claims
end

section
/-! PROOFS. Vector atomics (R223, R95). -/

namespace Sys2Proof.Claims

open Sys2Proof.Machine

/-! ## The words an atomic reaches (R98, R115) -/

/-- Key k is a word of the tile's own memory below the save frame. -/
structure TileWord (s : State) (k : Nat) : Prop where
  aligned : k % 4 = 0
  low : tileBase s.cur ≤ k
  high : k + 4 ≤ tileBase s.cur + 0x7C000

theorem locate_localAtomic {s : State} {n ea : Nat} {spot : Spot} (h : s.locate .localAtomic n ea = .ok spot) :
    spot = .tile s.cur (ea % 2 ^ 19) ∧ ea % 2 ^ 19 + n ≤ 0x7C000 := by
  unfold State.locate at h
  simp only [decide_eq_true_eq] at h
  split_ifs at h <;> cases h <;> exact ⟨rfl, by omega⟩

theorem checkAccess_localAtomic {rw : Rw} {ea : Word} {s t : State} {pl : Place} (h : checkAccess .localAtomic rw 4 4 ea s = .ok pl t) :
    ∃ k, pl = .mem k ∧ TileWord s k := by
  unfold checkAccess at h
  rw [bind_ok (m := get) (x := s) (s1 := s) rfl] at h
  cases hl : s.locate .localAtomic 4 ea.toNat with
  | error e => rw [hl] at h; cases h
  | ok spot =>
    obtain ⟨rfl, hframe⟩ := locate_localAtomic hl
    simp only [hl] at h
    split_ifs at h with ha
    · cases h
    · cases h
      exact ⟨_, rfl, ⟨by unfold tileBase; omega, by omega, by omega⟩⟩

section
variable {s : State} {k : Nat} (h : TileWord s k)
include h

theorem TileWord.not_inJournal {a : Nat} (ha : a < k + 4) : ¬ inJournal s a := by
  have := h.high
  rw [inJournal]
  omega

theorem TileWord.apart {j : Nat} (hj : TileWord s j) (hne : j ≠ k) : j + 4 ≤ k ∨ k + 4 ≤ j := by
  have h1 := h.aligned
  have h2 := hj.aligned
  omega

theorem TileWord.of_stored {t : State} (ht : Stored s t) : TileWord t k := ⟨h.aligned, by rw [ht.cur]; exact h.low, by rw [ht.cur]; exact h.high⟩

end

/-! ## The value of a word after the lanes that address it (R95) -/

section
variable (es : List ElemAt) (f : Nat → Nat → Nat × Nat) (operand : Nat → Nat) (key x : Nat)

theorem lanesAt_fst : (lanesAt es f operand key x).1 =
    (es.filter (fun e => e.pl.key = some key)).foldl (fun v e => (f v (operand e.k)).1 % 2 ^ 32) x :=
  (List.foldl_hom Prod.fst (fun _ _ => rfl)).symm

theorem lanesAt_fst_lt (hx : x < 2 ^ 32) : (lanesAt es f operand key x).1 < 2 ^ 32 := by
  rw [lanesAt_fst]
  induction es.filter (fun e => e.pl.key = some key) generalizing x with
  | nil => exact hx
  | cons e l ih => exact ih _ (Nat.mod_lt _ (by decide))

variable {e : ElemAt}

theorem lanesAt_cons_of_ne (h : e.pl.key ≠ some key) : lanesAt (e :: es) f operand key x = lanesAt es f operand key x := by
  rw [lanesAt, List.filter_cons_of_neg (by simpa using h)]
  rfl

variable {key} (h : e.pl.key = some key)
include h

theorem lanesAt_cons_of_eq : (lanesAt (e :: es) f operand key x).1 = (lanesAt es f operand key ((f x (operand e.k)).1 % 2 ^ 32)).1 := by
  rw [lanesAt_fst, lanesAt_fst, List.filter_cons_of_pos (by simpa using h), List.foldl_cons]

/-- The flags are those of the latest lane. -/
theorem lanesAt_snd_last : (lanesAt (es ++ [e]) f operand key x).2 = (f (lanesAt es f operand key x).1 (operand e.k)).2 := by
  rw [lanesAt, List.filter_append, List.filter_cons_of_pos (by simpa using h), List.foldl_append]
  rfl

end

theorem little_lt (s : State) (k : Nat) : ∀ n, little s k n < 256 ^ n := by
  intro n
  induction n with
  | zero => exact Nat.one_pos
  | succ n ih =>
    have hbyte := (byteAt s (k + n)).isLt
    rw [little, pow_succ]
    nlinarith

/-- Of lanes in ascending order, those up to one are those below it and itself. -/
theorem filter_upto {es : List ElemAt} {e : ElemAt} (h : es.Pairwise (·.k < ·.k)) (he : e ∈ es) :
    es.filter (fun x => x.k ≤ e.k) = es.filter (fun x => x.k < e.k) ++ [e] := by
  induction es with
  | nil => cases he
  | cons x es ih =>
    obtain ⟨hx, hes⟩ := List.pairwise_cons.1 h
    obtain rfl | he := List.mem_cons.1 he
    · have hle : es.filter (fun y => y.k ≤ e.k) = [] := List.filter_eq_nil_iff.2 (fun y hy => by simpa using hx y hy)
      have hlt : es.filter (fun y => y.k < e.k) = [] := List.filter_eq_nil_iff.2 (fun y hy => by simpa using (hx y hy).le)
      simp [hle, hlt]
    · have hxe := hx e he
      rw [List.filter_cons_of_pos (by simpa using hxe.le), List.filter_cons_of_pos (by simpa using hxe), ih hes he, List.cons_append]

/-- R95: the value a lane's word holds after the lanes below it. -/
def metBy (es : List ElemAt) (f : Nat → Nat → Nat × Nat) (operand : Nat → Nat) (s : State) (e : ElemAt) : Nat :=
  (lanesAt (es.filter (fun x => x.k < e.k)) f operand ((e.pl.key).getD 0) (little s ((e.pl.key).getD 0) 4)).1

/-- R95: the flags of the lanes of a list, joined. -/
def lanesFlags (es : List ElemAt) (f : Nat → Nat → Nat × Nat) (operand : Nat → Nat) (s : State) (l : List ElemAt) : Nat :=
  l.foldr (fun e acc => (f (metBy es f operand s e) (operand e.k)).2 ||| acc) 0

theorem metBy_head {es : List ElemAt} {e : ElemAt} (h : ∀ x ∈ es, e.k < x.k) (f : Nat → Nat → Nat × Nat) (operand : Nat → Nat) (s : State) :
    metBy (e :: es) f operand s e = little s ((e.pl.key).getD 0) 4 := by
  have hnone : (e :: es).filter (fun x => x.k < e.k) = [] := by
    refine List.filter_eq_nil_iff.2 (fun x hx => ?_)
    obtain rfl | hx := List.mem_cons.1 hx
    · simp
    · simpa using (h x hx).le
  rw [metBy, hnone]
  rfl

/-- R223: one lane performed: its word holds the new value, and every other word and byte of the tile what it held. -/
theorem lane_performed {s : State} (hs : s.wf = true) (hlen : s.myTile.stateLen s.firingNow.slot ≤ 0x2000) {k : Nat} (hk : TileWord s k) (v : Nat) :
    ∃ u, journal k 4 s = .ok () u ∧ Stored s (putBytes u k 4 v) ∧
      (∀ key, TileWord s key → little (putBytes u k 4 v) key 4 = if key = k then v % 2 ^ 32 else little s key 4) ∧
      ∀ a, ¬ inJournal s a → a < k ∨ k + 4 ≤ a → byteAt (putBytes u k 4 v) a = byteAt s a := by
  obtain ⟨u, hj, hstored, hword, hbytes⟩ := journal_putBytes hs hlen k 4 v
  have hapart : ∀ a, ¬ inJournal s a → a < k ∨ k + 4 ≤ a → byteAt (putBytes u k 4 v) a = byteAt s a :=
    fun a ha hout => by rw [hbytes a ha, if_neg (by omega)]
  refine ⟨u, hj, hstored, fun key hkey => ?_, hapart⟩
  split_ifs with heq
  · rw [heq, hword, show 256 ^ 4 = 2 ^ 32 from rfl]
  · rw [little_eq_rd, little_eq_rd]
    refine Sparse.bytes_congr 4 (fun a h1 h2 => hapart a (hkey.not_inJournal h2) ?_)
    have := hk.apart hkey heq
    omega

section
variable {f : Nat → Nat → Nat × Nat} {operand : Nat → Nat} {s u : State} {e : ElemAt} {k : Nat} (hkey : e.pl.key = some k)
include hkey

/-- The lanes after the first meet what it has left. -/
theorem lanesAt_after {key : Nat} (hword : little u key 4 = if key = k then (f (s.rd k 4) (operand e.k)).1 % 2 ^ 32 else little s key 4)
    (l : List ElemAt) : (lanesAt (e :: l) f operand key (little s key 4)).1 = (lanesAt l f operand key (little u key 4)).1 := by
  rw [hword]
  split_ifs with heq
  · rw [lanesAt_cons_of_eq _ _ _ _ (heq ▸ hkey), heq, little_eq_rd]
  · rw [lanesAt_cons_of_ne _ _ _ _ _ (by rw [hkey]; simpa using Ne.symm heq)]

theorem metBy_after {es : List ElemAt} (hfirst : ∀ x ∈ es, e.k < x.k) {x : ElemAt} (hx : x ∈ es) (hword : little u ((x.pl.key).getD 0) 4 =
      if (x.pl.key).getD 0 = k then (f (s.rd k 4) (operand e.k)).1 % 2 ^ 32 else little s ((x.pl.key).getD 0) 4) :
    metBy (e :: es) f operand s x = metBy es f operand u x := by
  rw [metBy, List.filter_cons_of_pos (by simpa using hfirst x hx)]
  exact lanesAt_after hkey hword _

theorem lanesFlags_head {es : List ElemAt} (hfirst : ∀ x ∈ es, e.k < x.k) : lanesFlags (e :: es) f operand s (e :: es) =
    (f (s.rd k 4) (operand e.k)).2 ||| lanesFlags (e :: es) f operand s es := by
  rw [lanesFlags, List.foldr_cons, metBy_head hfirst, hkey, Option.getD_some, little_eq_rd]
  rfl

end

/-- R223, R95: the lanes performed in ascending order. -/
theorem atomicLanes_performs (f : Nat → Nat → Nat × Nat) (operand : Nat → Nat) (es : List ElemAt) : ∀ {s : State}, s.wf = true →
    s.myTile.stateLen s.firingNow.slot ≤ 0x2000 → (∀ e ∈ es, ∃ k, e.pl = .mem k ∧ TileWord s k) → es.Pairwise (·.k < ·.k) →
    ∃ t, atomicLanes f operand es s = .ok (es.map (fun e => (e.k, metBy es f operand s e)), lanesFlags es f operand s es) t ∧ Stored s t ∧
      (∀ key, TileWord s key → little t key 4 = (lanesAt es f operand key (little s key 4)).1) ∧
      ∀ a, ¬ inJournal s a → (∀ e ∈ es, ∀ key, e.pl.key = some key → a < key ∨ key + 4 ≤ a) → byteAt t a = byteAt s a := by
  induction es with
  | nil => exact fun hs _ _ _ => ⟨_, rfl, .refl hs, fun _ _ => rfl, fun _ _ _ => rfl⟩
  | cons e es ih =>
    intro s hs hlen hwords hsorted
    obtain ⟨hfirst, hrest⟩ := List.pairwise_cons.1 hsorted
    obtain ⟨k, hpl, hk⟩ := hwords e List.mem_cons_self
    have hkey : e.pl.key = some k := by rw [hpl]; rfl
    obtain ⟨u, hj, hstored, hword, hbytes⟩ := lane_performed hs hlen hk (f (s.rd k 4) (operand e.k)).1
    obtain ⟨t, ht, htstored, htword, htbytes⟩ := ih hstored.wf (by rw [hstored.stateLen]; exact hlen)
      (fun x hx => by
        obtain ⟨j, hj, hjw⟩ := hwords x (List.mem_cons_of_mem _ hx)
        exact ⟨j, hj, hjw.of_stored hstored⟩) hrest
    have hmet : ∀ x ∈ es, metBy (e :: es) f operand s x = metBy es f operand (putBytes u k 4 (f (s.rd k 4) (operand e.k)).1) x := by
      intro x hx
      obtain ⟨j, hj, hjw⟩ := hwords x (List.mem_cons_of_mem _ hx)
      exact metBy_after hkey hfirst hx (hword _ (by rw [hj]; exact hjw))
    refine ⟨t, ?_, hstored.trans htstored, fun key hkw => ?_, fun a ha hout => ?_⟩
    · have hmap : es.map (fun x => (x.k, metBy es f operand (putBytes u k 4 (f (s.rd k 4) (operand e.k)).1) x)) =
          es.map (fun x => (x.k, metBy (e :: es) f operand s x)) := List.map_congr_left (fun x hx => by rw [hmet x hx])
      have hflags : lanesFlags es f operand (putBytes u k 4 (f (s.rd k 4) (operand e.k)).1) es = lanesFlags (e :: es) f operand s es :=
        List.foldr_ext _ _ _ (fun x hx acc => by rw [hmet x hx])
      rw [atomicLanes]
      refine (bind_ok (m := get) (x := s) (s1 := s) rfl).trans ?_
      simp only [hkey, Option.getD_some]
      refine (bind_ok hj).trans ((bind_ok (m := modify _) (s1 := putBytes u k 4 (f (s.rd k 4) (operand e.k)).1) rfl).trans
        ((bind_ok ht).trans ?_))
      rw [hmap, hflags, List.map_cons, metBy_head hfirst, hkey, Option.getD_some, little_eq_rd, lanesFlags_head hkey hfirst]
      rfl
    · rw [htword key (hkw.of_stored hstored), lanesAt_after hkey (hword key hkw)]
    · rw [htbytes a ((hstored.inJournal a).not.2 ha) (fun x hx => hout x (List.mem_cons_of_mem _ hx)),
        hbytes a ha (hout e List.mem_cons_self k hkey)]

/-! ## The instruction (R223, R226) -/

/-- What an atomic gives the lanes of D. -/
def met (es : List ElemAt) (f : Nat → Nat → Nat × Nat) (operand : Nat → Nat) (s : State) (k : Nat) : Nat × Nat :=
  ((((es.map (fun e => (e.k, metBy es f operand s e))).find? (fun e => e.1 = k)).map Prod.snd).getD 0, 0)

theorem met_eq {es : List ElemAt} {ks : List Nat} (h : es.map (·.k) = ks) {k : Nat} (hk : k ∈ ks) (f : Nat → Nat → Nat × Nat)
    (operand : Nat → Nat) (s : State) :
    met es f operand s k = ((lanesAt (es.filter (fun e => e.k < k)) f operand (keyOf es k) (little s (keyOf es k) 4)).1, 0) := by
  obtain ⟨e, -, rfl, hfind⟩ := find_unit h hk
  rw [met, find_map_unit es (metBy es f operand s), keyOf, hfind]
  rfl

theorem vecAtomic_performs {f : Nat → Nat → Nat × Nat} {operand : Nat → Nat} {s s1 t : State} {d a b ow m imm : Nat}
    (hread : ∀ c ∈ readsOf m [d, b], s.core.badReg.contains c = false) (hsome : activeUnits s m 32 ≠ []) {es : List ElemAt}
    (hc : checkElems .atomic .localAtomic 4 (addrIndex a b imm s) (activeUnits s m 32) s = .ok es s1) (hw : s1.setDone ow = true)
    (hp : awaitElems 4 es s1 = .ok () s1) (hb : ∀ e ∈ es, s1.readBad ((e.pl.key).getD 0) 4 = false)
    (hoperand : (fun k => laneOf (s1.vreg d) 32 k) = operand)
    (ht : atomicLanes f operand es s1 = .ok (es.map (fun e => (e.k, metBy es f operand s1 e)), lanesFlags es f operand s1 es) t) :
    vecAtomic f d a b ow m imm s =
      .ok () ((t.putLanes d 32 m (met es f operand s1)).raise (lanesFlags es f operand s1 es)).advance := by
  refine (bind_ok (vecReadable_ok hread)).trans ((bind_ok (m := get) (x := s) (s1 := s) rfl).trans ?_)
  have hact : (activeList (s.mreg m) 32).isEmpty = false := List.isEmpty_eq_false_iff.2 hsome
  have hnone : es.find? (fun e => s1.readBad ((e.pl.key).getD 0) 4) = none :=
    List.find?_eq_none.2 (fun e he => by simp only [hb e he, Bool.false_eq_true, not_false_eq_true])
  simp only [hact, Bool.false_eq_true, if_false]
  refine (bind_ok hc).trans ((bind_ok (waitOw_done hw)).trans ((bind_ok hp).trans ((bind_ok (m := get) (x := s1) (s1 := s1) rfl).trans ?_)))
  simp only [hnone, hoperand]
  refine (bind_ok ht).trans ?_
  have hend : (modify (fun u => (u.putLanes d 32 m (met es f operand s1)).raise (lanesFlags es f operand s1 es)) >>= fun _ => advanceM : M Unit) t =
      .ok () ((t.putLanes d 32 m (met es f operand s1)).raise (lanesFlags es f operand s1 es)).advance := rfl
  exact hend

/-- R83: raising no flag leaves the core. -/
theorem CoreIs.raise_zero {s t : State} {c : Core} (h : CoreIs s t c) : CoreIs s (t.raise 0) c := by
  have hquiet : { c with fstat := if s.cur < 2048 then c.fstat ||| exact ((0 % 128 : Nat) : Int) else c.fstat } = c := by
    have hsame : c.fstat ||| exact ((0 % 128 : Nat) : Int) = c.fstat := by simp [exact]
    rw [hsame, ite_self]
  have hraised := h.raise 0
  rwa [hquiet] at hraised

/-- R223: the form of an atomic: what each lane receives, and the flags of its step. -/
def atomicForm32 (es : List ElemAt) (f : Nat → Nat → Nat × Nat) (operand : Nat → Nat) (s1 : State) (d m : Nat) (reads : List Nat) : LaneForm :=
  { d := d, w := 32, m := m, reads := reads,
    value := fun k => (lanesAt (es.filter (fun e => e.k < k)) f operand (keyOf es k) (little s1 (keyOf es k) 4)).1,
    flags := fun k => (lanesAt (es.filter (fun e => e.k ≤ k)) f operand (keyOf es k) (little s1 (keyOf es k) 4)).2 }

theorem find_self {es : List ElemAt} {e : ElemAt} (h : es.Pairwise (·.k < ·.k)) (he : e ∈ es) : es.find? (fun x => x.k = e.k) = some e := by
  obtain ⟨x, hx, hk, hfind⟩ := find_unit rfl (List.mem_map_of_mem (f := (·.k)) he)
  have hnodup : (es.map (·.k)).Nodup := List.pairwise_map.2 (h.imp (fun hlt => hlt.ne))
  rw [hfind, List.inj_on_of_nodup_map hnodup hx he hk]

/-- R83, R95: the flags of a lane are those of its step. -/
theorem step_flags {es : List ElemAt} {e : ElemAt} {key : Nat} (h : es.Pairwise (·.k < ·.k)) (he : e ∈ es) (hkey : e.pl.key = some key)
    (f : Nat → Nat → Nat × Nat) (operand : Nat → Nat) (s : State) :
    (lanesAt (es.filter (fun x => x.k ≤ e.k)) f operand (keyOf es e.k) (little s (keyOf es e.k) 4)).2 =
      (f (metBy es f operand s e) (operand e.k)).2 := by
  have hk : keyOf es e.k = key := by rw [keyOf, find_self h he, Option.bind_some, hkey]; rfl
  rw [hk, filter_upto h he, lanesAt_snd_last _ _ _ _ hkey, metBy, hkey]
  rfl

theorem foldl_or_eq_foldr (g : ElemAt → Nat) (l : List ElemAt) : l.foldl (fun acc e => acc ||| g e) 0 = l.foldr (fun e acc => g e ||| acc) 0 := by
  rw [← List.foldl_map (f := g) (g := fun acc x => acc ||| x), ← List.foldr_map (f := g) (g := fun x acc => x ||| acc)]
  exact List.foldl_eq_foldr ..

/-- The flags of the active lanes are those of the steps. -/
theorem foldl_flags_eq {es : List ElemAt} {ks : List Nat} (hks : es.map (·.k) = ks) (hsorted : es.Pairwise (·.k < ·.k))
    (hkeys : ∀ e ∈ es, ∃ key, e.pl.key = some key) (f : Nat → Nat → Nat × Nat) (operand : Nat → Nat) (s : State) :
    ks.foldl (fun acc k => acc ||| (lanesAt (es.filter (fun x => x.k ≤ k)) f operand (keyOf es k) (little s (keyOf es k) 4)).2) 0 =
      lanesFlags es f operand s es := by
  rw [← hks, List.foldl_map, foldl_or_eq_foldr]
  refine List.foldr_ext _ _ _ (fun e he acc => ?_)
  obtain ⟨key, hkey⟩ := hkeys e he
  rw [step_flags hsorted he hkey]

theorem raised_eq_foldl (F : LaneForm) (s : State) : F.raised s = (activeUnits s F.m F.w).foldl (fun acc k => acc ||| F.flags k) 0 := by
  rw [LaneForm.raised, activeUnits, List.foldl_filter]
  rfl

/-- R223: the lanes of D written, and the flags of the steps joined. -/
theorem lanesWritten_atomic {es : List ElemAt} {s1 t : State} {d m : Nat} (ht : t.wf = true) (hks : es.map (·.k) = activeUnits t m 32)
    (h32 : 32 ≤ d) (h64 : d < 64) (f : Nat → Nat → Nat × Nat) (operand : Nat → Nat) (reads : List Nat)
    (hflags : (atomicForm32 es f operand s1 d m reads).raised t = lanesFlags es f operand s1 es) :
    LanesWritten (atomicForm32 es f operand s1 d m reads) t
      ((t.putLanes d 32 m (met es f operand s1)).raise (lanesFlags es f operand s1 es)).advance := by
  have hquiet : (List.range (2048 / 32)).foldl (fun acc k => acc ||| (laneChoice t d 32 m (2048 / 32) (met es f operand s1) k).2) 0 = 0 := by
    have hnone (k : Nat) : (laneChoice t d 32 m (2048 / 32) (met es f operand s1) k).2 = 0 := by unfold laneChoice; split <;> rfl
    simp only [hnone, Nat.or_zero]
    exact List.foldl_fixed _
  rw [State.putLanes, putBelow_eq, hquiet]
  have hend := ((CoreIs.refl ht).mapCore (fun c => c.putV d (fullMask (t.mreg m) 32 && decide (2048 / 32 ≤ 2048 / 32)) (BitVec.ofNat 2048
    (packElems 32 ((List.range (2048 / 32)).map (fun k => (laneChoice t d 32 m (2048 / 32) (met es f operand s1) k).1)))))).raise_zero.vectorEnd
    (lanesFlags es f operand s1 es) 0
  rw [← hflags] at hend ⊢
  have hwidth : IsWidth 32 := by simp [IsWidth]
  have hgiven : ({ atomicForm32 es f operand s1 d m reads with flags := fun _ => 0 } : LaneForm).GivenBy t (met es f operand s1) := by
    refine givenBy_all rfl (fun k hk hon => ?_)
    rw [met_eq hks (mem_activeUnits.2 ⟨hk, hon⟩)]
    exact ⟨rfl, rfl⟩
  refine lanesWritten_of_core (F := atomicForm32 es f operand s1 d m reads) h32 h64 hend (fun k hk => ?_) (fullMask_below hwidth)
  have hbelow : k < 2048 / 32 := hk
  refine Eq.trans ?_ (laneChoice_of_givenBy (F := { atomicForm32 es f operand s1 d m reads with flags := fun _ => 0 }) h32 hgiven hk).1
  exact (laneOf_packElems hwidth hbelow _).trans (by rw [List.getElem?_map, List.getElem?_range hbelow]; rfl)

/-- What a form has written, against a state of the same core. -/
theorem registers_of_lanesWritten {F : LaneForm} {s t u : State} (h : LanesWritten F t u) (hcore : t.core = s.core) :
    (∀ k, k < 2048 / F.w → lane u F.w F.d k = if F.on s k then F.value k % 2 ^ F.w else lane s F.w F.d k) ∧
    (∀ n, 32 ≤ n → n ≠ F.d → u.vreg n = s.vreg n) ∧ ∀ n, u.sreg n = s.sreg n := by
  have hvreg (n : Nat) : t.vreg n = s.vreg n := by rw [State.vreg, hcore]; rfl
  have hsreg (n : Nat) : t.sreg n = s.sreg n := by rw [State.sreg, hcore]; rfl
  have hmreg (n : Nat) : t.mreg n = s.mreg n := by rw [State.mreg, hcore]; rfl
  refine ⟨fun k hk => ?_, fun n hn hne => (h.others n hn hne).trans (hvreg n), fun n => ?_⟩
  · rw [h.lane k hk, LaneForm.on, LaneForm.on, hmreg, lane, lane, hsreg, hvreg]
  · rw [State.sreg, h.rest, ← hsreg n, Core.advance_eq]
    rfl

/-- The memory of an atomic is what its steps have left. -/
theorem atomic_mem (t : State) (d m fl : Nat) (g : Nat → Nat × Nat) : ((t.putLanes d 32 m g).raise fl).advance.mem = t.mem := by
  have hmem : ((t.putLanes d 32 m g).raise fl).advance.mem = ((t.putLanes d 32 m g).raise fl).mem := rfl
  rw [hmem, raise_mem, putLanes_mem]

/-- R223: an atomic is `vecAtomic` at the addresses and with the step of its form. -/
theorem exec_vecAtomic {i : Instr} {s : State} {d ow m : Nat} {reads : List Nat} {addr : Nat → Word} {f : Nat → Nat → Nat × Nat}
    (hi : i.wf = true) (h : atomicAt s i = some (d, reads, ow, m, addr, f)) : (32 ≤ d ∧ d < 64) ∧ ∃ a b imm,
      exec i s = runM (vecAtomic f d a b ow m imm) s ∧ addrIndex a b imm s = addr ∧ readsOf m [d, b] = reads := by
  unfold atomicAt at h
  split at h <;> cases h <;> simp [Instr.wf, Kind.ok, tyWord, tyWordInt] at hi
  case h_1 a b om sc ty imm =>
    refine ⟨by omega, a, b, imm, congrArg (fun f => runM (vecAtomic f d a b ow m imm) s) (?_ : addLane ty = _),
      addrIndex_eq_exact (by omega) a imm s, rfl⟩
    funext x y
    unfold addLane
    split <;> rfl
  case h_2 a b om sc ty imm => exact ⟨by omega, a, b, imm, rfl, addrIndex_eq_exact (by omega) a imm s, rfl⟩

theorem vectorAtomics : VectorAtomics := by
  intro i s s1 d ow m reads addr f es hi hs hc h hread hsome hcheck hs1 hw hp hb hlen before upto old fl
  obtain ⟨⟨h32, h64⟩, a, b, imm, hexec, rfl, rfl⟩ := exec_vecAtomic hi h
  obtain ⟨hwalk, hks, hplaces⟩ := checkElems_ok hcheck
  have hcur : s1.cur = s.cur := by rw [hwalk.frame]
  have hcore : s1.core = s.core := by rw [State.core, hwalk.cores, hcur]; rfl
  have hwords : ∀ e ∈ es, ∃ k, e.pl = .mem k ∧ TileWord s1 k := fun e he => by
    obtain ⟨s0, s2, h0, hcheck⟩ := hplaces e he
    obtain ⟨k, hk, hword⟩ := checkAccess_localAtomic hcheck
    have hcur0 : s0.cur = s1.cur := by rw [h0.frame, hcur]
    exact ⟨k, hk, ⟨hword.aligned, hcur0 ▸ hword.low, hcur0 ▸ hword.high⟩⟩
  have hsorted : es.Pairwise (·.k < ·.k) := by
    refine List.pairwise_map.1 ?_
    rw [hks]
    exact List.pairwise_lt_range.filter _
  obtain ⟨t, ht, hstored, hwordsAfter, hbytes⟩ := atomicLanes_performs f (lane s 32 d) es hs1 hlen hwords hsorted
  have htcore : t.core = s.core := hstored.core.trans hcore
  have hunits : activeUnits t m 32 = activeUnits s m 32 := by rw [activeUnits, State.mreg, htcore]; rfl
  have hoperand : (fun k => laneOf (s1.vreg d) 32 k) = lane s 32 d := by
    funext k
    rw [← laneOf_eq_lane h32, State.vreg, hcore]
    rfl
  have hflags := foldl_flags_eq hks hsorted (fun e he => by obtain ⟨k, hk, -⟩ := hwords e he; exact ⟨k, by rw [hk]; rfl⟩) f (lane s 32 d) s1
  have hraised : (atomicForm32 es f (lane s 32 d) s1 d m (readsOf m [d, b])).raised t = lanesFlags es f (lane s 32 d) s1 es := by
    rw [raised_eq_foldl]
    exact (congrArg (List.foldl _ 0) hunits).trans hflags
  have hwritten := lanesWritten_atomic (s1 := s1) hstored.wf (hks.trans hunits.symm) h32 h64 f (lane s 32 d) (readsOf m [d, b]) hraised
  have hrun := hexec.trans (runM_ok (vecAtomic_performs hread hsome hcheck hw hp hb hoperand ht))
  have hmem := atomic_mem t d m (lanesFlags es f (lane s 32 d) s1 es) (met es f (lane s 32 d) s1)
  obtain ⟨hlane, hothers, hsreg⟩ := registers_of_lanesWritten hwritten htcore
  refine ⟨_, hrun, fun k hk => ?_, hothers, hsreg, ?_, fun e he key hkey => ?_, fun a ha hout => ?_⟩
  · have hbelow : k < 2048 / 32 := hk
    have hon : (atomicForm32 es f (lane s 32 d) s1 d m (readsOf m [d, b])).on s k = true ↔ k ∈ activeUnits s m 32 :=
      (mem_activeUnits.trans (and_iff_right hbelow)).symm
    exact (hlane k hbelow).trans (if_congr hon (Nat.mod_eq_of_lt (lanesAt_fst_lt _ f (lane s 32 d) _ _ (little_lt s1 _ 4))) rfl)
  · have hfiring : t.cur < 2048 := by rw [hstored.cur, hcur]; exact hc
    rw [hwritten.fstat, if_pos hfiring, hraised, ← hflags, htcore]
  · obtain ⟨j, hj, hword⟩ := hwords e he
    obtain rfl : j = key := by rw [hj] at hkey; exact Option.some.inj hkey
    rw [little_congr hmem, hwordsAfter j hword]
  · rw [byteAt, hmem]
    exact hbytes a ha hout

/-- Settles O38: the loads and stores, and the atomics. -/
theorem vectorMemoryAccess : Obligations.VectorMemoryAccess := ⟨vectorMemory, vectorAtomics⟩

end Sys2Proof.Claims
end
